-- ==== Sys2Proof/Word.lean ====
section
/-! DEFINITION. Word.lean: the word types of the Hesaros H7 (R6, R9, R262). -/

namespace Sys2Proof

/-- A byte of memory. -/
abbrev Byte := BitVec 8
/-- An instruction word or a flag word (R315, R225). -/
abbrev Word := BitVec 32
/-- A scalar, access or nest register, an address, a 64-bit register (R6). -/
abbrev DWord := BitVec 64
/-- A lane mask (R6). -/
abbrev Mask := BitVec 256
/-- A vector register: eight granules of 264 bits (R262). -/
abbrev VReg := BitVec 2112
/-- The lame cause beside a value: 0 not lame, 1 LATE, 2 REFUSED, 3 UE (R297). -/
abbrev Lame := BitVec 2
/-- A register number of a 32-entry file. -/
abbrev RIdx := BitVec 5
/-- A predicate p0 to p7. -/
abbrev PIdx := BitVec 3
/-- A lane mask k0 to k7. -/
abbrev KIdx := BitVec 3
/-- A jump target j0 to j3. -/
abbrev JIdx := BitVec 2
/-- A channel c0 to c15. -/
abbrev CIdx := BitVec 4

end Sys2Proof
end

