-- ==== Sys2Proof/Config.lean ====
section
/-! DEFINITION. Config.lean: what the spec leaves open as free values (opaque, with no value that anything can see),
and the constants of the one part number. -/

namespace Sys2Proof.Config

/-- The byte that host memory holds at an address to which the module has written nothing (DESIGN CHOICE, log entry 4). -/
opaque hostByte : Nat → Byte
/-- Entropy: the n-th 64-bit value drawn (LCNONCE of R101, the nonces of R97; DESIGN CHOICE, log entry 8). -/
opaque entropy : Nat → DWord
/-- A byte of a save image whose layout the spec does not give, by fresh counter (R311; DESIGN CHOICE, log entry 9). -/
opaque imageByte : Nat → Byte
/-- SHA-384 of a message, byte by byte (R97, R100; DESIGN CHOICE, log entry 8). -/
opaque digest384 : List Byte → Nat → Byte
/-- SHA-512 of a message, 64 bytes (R93; DESIGN CHOICE, log entry 8). -/
opaque digest512 : List Byte → List Byte
/-- Whether the two signatures over a message verify under the key slot (R94, R102; DESIGN CHOICE, log entry 8). -/
opaque verifies : Nat → List Byte → List Byte → Bool
/-- A signature or key-exchange value of a message made with one of the device's secrets, byte by byte (R97, R98; DESIGN CHOICE, log entry 8). -/
opaque sign : Nat → List Byte → Nat → Byte
/-- The boot ROM, and the public keys it holds (R100; DESIGN CHOICE, log entry 8). -/
opaque rom : List Byte
opaque romKeys : List Byte
/-- The entry point of the firmware in the groom code store (R93; DESIGN CHOICE, log entry 10). -/
opaque firmwareEntry : Nat → DWord
/-- The root of the translation that the firmware sets for its groom contexts, in units of 8 KiB (R93, R204; DESIGN CHOICE, log entry 10). -/
opaque firmwareRoot : Nat
/-- SAVEPOOL of a die as the firmware sets it at stage 3 (R93, R150; DESIGN CHOICE, log entry 10). -/
opaque firmwarePool : Nat → DWord
/-- The certificate chains that a part is delivered with, by slot (R493; DESIGN CHOICE, log entry 8). -/
opaque chain : Nat → List Byte
/-- The MAC address of a port in the life record (R48; DESIGN CHOICE, log entry 112). -/
opaque mac : Nat → BitVec 48
/-- Whether the write of a splintered table fails, by fresh counter (R216; DESIGN CHOICE, log entry 113). -/
opaque splinterFails : Nat → Bool
/-- Whether a fuse write fails, by fresh counter (R102; DESIGN CHOICE, log entry 8). -/
opaque fuseFails : Nat → Bool
/-- The bits that a register file delivers for a value it could not correct, by fresh counter (R298, R307; DESIGN CHOICE, log entry 11). -/
opaque uncorrectedBits : Nat → BitVec 2112
/-- The exact value of a transcendental function is a real number; no free value stands for it (R387). Values that the
spec leaves open inside an instruction, by fresh counter (DESIGN CHOICE, log entry 13). -/
opaque freeWord : Nat → DWord

end Sys2Proof.Config
end

