-- ==== Sys2Proof/Syntax.lean ====
section
/-! DEFINITION. Syntax.lean: the instructions and device steps of the H7, one constructor for each row of
spec/opcode_table.json. Pipe words carry the fields of R317 and R318 under the operand classes of R319; the
device's own steps carry what reaches the device with them, as plain data. -/

namespace Sys2Proof

/-- CH of a word (R315). LIT is carried by the word's literal operand: a word with a literal ends its group. -/
inductive Chain where
  | stop | link | pad
  deriving DecidableEq, Repr

/-- The next-address selector NX of an S word (R323). -/
inductive Nx where
  | seq | loop | brk | ret | jmp (j : JIdx) | call (j : JIdx) | yield | waitbrk | stop
  deriving DecidableEq, Repr

/-- The fields every S word has: CH, NX and the guard G (R317). -/
structure SHead where
  ch : Chain := .stop
  nx : Nx := .seq
  g : PIdx := 0
  deriving DecidableEq, Repr

/-- The fields every V, M and X word has: CH and the guard G (R318). -/
structure WHead where
  ch : Chain := .stop
  g : PIdx := 0
  deriving DecidableEq, Repr

/-- An immediate: the word's field, or the 32-bit literal that takes its place (R321). -/
inductive Imm (n : Nat) where
  | field (v : BitVec n)
  | lit (v : Word)
  deriving DecidableEq, Repr

/-- A source of class v: a window register, or a pop or peek of a channel (R319). -/
inductive VSrc where
  | win (w : RIdx) | pop (c : CIdx) | peek (c : CIdx)
  deriving DecidableEq, Repr

/-- A destination of class v: a window register, or a push to a channel (R319). -/
inductive VDst where
  | win (w : RIdx) | push (c : CIdx)
  deriving DecidableEq, Repr

/-- A source of class ac: an access register, or a pop or peek of a channel (R319). -/
inductive XSrc where
  | reg (a : RIdx) | pop (c : CIdx) | peek (c : CIdx)
  deriving DecidableEq, Repr

/-- A destination of class ac (R319). -/
inductive XDst where
  | reg (a : RIdx) | push (c : CIdx)
  deriving DecidableEq, Repr

/-- A source of class c, with the peek bit a source may carry (R319). -/
structure CSrc where
  c : CIdx
  peek : Bool := false
  deriving DecidableEq, Repr

/-- The orders of R234. -/
inductive Order where
  | rlx | acq | rel | acqrel | sc
  deriving DecidableEq, Repr

/-- The scopes of R233. -/
inductive Scope where
  | stall | paddock | die | module | domain | system
  deriving DecidableEq, Repr

/-- The control value of LDB to STD: ORDER, SCOPE (none with DEF set) and, with a literal, OFF in bytes (R442). -/
structure MemCtl where
  ord : Order := .rlx
  scope : Option Scope := none
  off : Option (BitVec 25) := none
  deriving DecidableEq, Repr

/-- PACK of LDV and STV (R442, R453). -/
inductive Pack where
  | p8 | p6 | p4
  deriving DecidableEq, Repr

/-- The literal bits of LDV and STV: PACK, SCL and OFF in units of 16 bytes (R442). -/
structure VecLit where
  pack : Pack := .p8
  scl : Bool := false
  off : BitVec 22 := 0
  deriving DecidableEq, Repr

/-- The control value of LDV and STV (R442). -/
structure VecCtl where
  ord : Order := .rlx
  scope : Option Scope := none
  lit : Option VecLit := none
  deriving DecidableEq, Repr

/-- The control value of LDFE: the literal holds KEEP and OFF in bytes (R442). -/
structure LdfeCtl where
  ord : Order := .rlx
  scope : Option Scope := none
  lit : Option (Bool × BitVec 24) := none
  deriving DecidableEq, Repr

/-- The control value of STFE (R442). -/
structure StfeCtl where
  ord : Order := .rlx
  scope : Option Scope := none
  off : Option (BitVec 24) := none
  deriving DecidableEq, Repr

/-- The control value of the atomics and FLGSET (R442). -/
structure AtomCtl where
  ord : Order := .rlx
  scope : Option Scope := none
  deriving DecidableEq, Repr

/-- CMP of FLGWAIT and of launch nodes (R108). -/
inductive Cmp where
  | eq | ne | ltu | geu | any | none
  deriving DecidableEq, Repr

/-- The literal of FLGWAIT (R442). -/
structure FlgLit where
  ord : Order := .acq
  scope : Option Scope := none
  cmp : Cmp := .eq
  timeout : BitVec 22 := 0
  deriving DecidableEq, Repr

/-- FN of PLOG (R346). -/
inductive PFn where
  | and | or | xor | andn
  deriving DecidableEq, Repr

/-- A source format of a CVT (R403). -/
inductive CvtSrc where
  | fp32 | bf16 | fp16 | e4m3 | e5m2 | e3m2 | e2m3 | e2m1 | int8 | int16 | int32 | mxi8
  deriving DecidableEq, Repr

/-- The c6 field of a CVT (R403). -/
structure CvtCtl where
  src : CvtSrc
  part : BitVec 2 := 0
  deriving DecidableEq, Repr

/-- The element format of MXQ and MXDQ (R403). -/
inductive MxFmt where
  | e4m3 | e5m2 | e3m2 | e2m3 | e2m1 | mxi8
  deriving DecidableEq, Repr

/-- The c6 field of MXQ and MXDQ (R403). -/
structure MxCtl where
  fmt : MxFmt
  part : BitVec 2 := 0
  rne : Bool := false
  deriving DecidableEq, Repr

/-- A master of R64, with the source module that identifies a peer. -/
inductive Master where
  | host | host2 | bmc | peer (src : BitVec 6)
  deriving DecidableEq, Repr

/-- What a configuration write of the host port changes: a Function Level Reset (R63), MSI-X Enable and the Function Mask (R89), or a
register that the spec does not name. -/
inductive ConfigWrite where
  | flr | msix (enable mask : Bool) | other
  deriving DecidableEq, Repr

/-- A frame of the Eveel transport (R49), with whether its FCS was good. -/
structure Frame where
  /-- EtherType, and source MAC address -/
  etype : BitVec 16 := 0x88B5
  smac : BitVec 48 := 0
  ver : BitVec 4 := 1
  type : BitVec 4
  cls : BitVec 8
  len : BitVec 16
  src : BitVec 8
  dst : BitVec 8
  tag : BitVec 16
  seq : BitVec 32
  ackn : BitVec 32
  addr : BitVec 64
  attr : BitVec 16
  pcrc : BitVec 32
  resv : BitVec 16 := 0
  fcsOk : Bool := true
  data : List Byte := []
  deriving DecidableEq, Repr

/-- A point of R37 at which a shadow latch sits. -/
inductive ShadowPoint where
  | s | v | x | array | link
  deriving DecidableEq, Repr

/-- The engine classes of R149. -/
inductive EngineClass where
  | scu | vpipe | xpipe | nest | rein | whiff
  deriving DecidableEq, Repr

/-- The instruction set: one constructor per row of the opcode table: the pipe words, the next-address selectors, then
the steps of the device. -/
inductive Instr where
  /-- NOP. R374. -/
  | nop (h : SHead)
  /-- ADD. R340. -/
  | add (h : SHead) (d a b : RIdx)
  /-- SUB. R340. -/
  | sub (h : SHead) (d a b : RIdx)
  /-- MUL. R340. -/
  | mul (h : SHead) (d a b : RIdx)
  /-- MULHU. R340. -/
  | mulhu (h : SHead) (d a b : RIdx)
  /-- DIVU. R340. -/
  | divu (h : SHead) (d a b : RIdx)
  /-- REMU. R340. -/
  | remu (h : SHead) (d a b : RIdx)
  /-- AND. R340. -/
  | and (h : SHead) (d a b : RIdx)
  /-- OR. R340. -/
  | or (h : SHead) (d a b : RIdx)
  /-- XOR. R340. -/
  | xor (h : SHead) (d a b : RIdx)
  /-- SHL. R340. -/
  | shl (h : SHead) (d a b : RIdx)
  /-- SHR. R340. -/
  | shr (h : SHead) (d a b : RIdx)
  /-- SRA. R340. -/
  | sra (h : SHead) (d a b : RIdx)
  /-- MIN. R340. -/
  | min (h : SHead) (d a b : RIdx)
  /-- MAX. R340. -/
  | max (h : SHead) (d a b : RIdx)
  /-- MINU. R340. -/
  | minu (h : SHead) (d a b : RIdx)
  /-- MAXU. R340. -/
  | maxu (h : SHead) (d a b : RIdx)
  /-- CLZ. R340. -/
  | clz (h : SHead) (d a : RIdx)
  /-- POPC. R340. -/
  | popc (h : SHead) (d a : RIdx)
  /-- SEL. R342: G selects. -/
  | sel (h : SHead) (d a b : RIdx)
  /-- ADDI. R343. -/
  | addi (h : SHead) (d a : RIdx) (i : Imm 5)
  /-- ANDI. R343. -/
  | andi (h : SHead) (d a : RIdx) (i : Imm 5)
  /-- ORI. R343. -/
  | ori (h : SHead) (d a : RIdx) (i : Imm 5)
  /-- XORI. R343. -/
  | xori (h : SHead) (d a : RIdx) (i : Imm 5)
  /-- SHLI. R343. -/
  | shli (h : SHead) (d a : RIdx) (i : Imm 5)
  /-- SHRI. R343. -/
  | shri (h : SHead) (d a : RIdx) (i : Imm 5)
  /-- SRAI. R343. -/
  | srai (h : SHead) (d a : RIdx) (i : Imm 5)
  /-- MOVI. R344. -/
  | movi (h : SHead) (d : RIdx) (i : Imm 10)
  /-- MOVL. R344. -/
  | movl (h : SHead) (d : RIdx) (v : Word)
  /-- CMPEQ. R345. -/
  | cmpeq (h : SHead) (p : PIdx) (a b : RIdx)
  /-- CMPNE. R345. -/
  | cmpne (h : SHead) (p : PIdx) (a b : RIdx)
  /-- CMPLT. R345. -/
  | cmplt (h : SHead) (p : PIdx) (a b : RIdx)
  /-- CMPLTU. R345. -/
  | cmpltu (h : SHead) (p : PIdx) (a b : RIdx)
  /-- CMPGE. R345. -/
  | cmpge (h : SHead) (p : PIdx) (a b : RIdx)
  /-- CMPGEU. R345. -/
  | cmpgeu (h : SHead) (p : PIdx) (a b : RIdx)
  /-- CMPEQI. R345. -/
  | cmpeqi (h : SHead) (p : PIdx) (a : RIdx) (i : Imm 5)
  /-- CMPLTI. R345. -/
  | cmplti (h : SHead) (p : PIdx) (a : RIdx) (i : Imm 5)
  /-- PLOG. R346. -/
  | plog (h : SHead) (fn : PFn) (p a b : PIdx)
  /-- PFROM. R347. -/
  | pfrom (h : SHead) (p : PIdx) (a : RIdx)
  /-- SETJ. R348. -/
  | setj (h : SHead) (j : JIdx) (i : Imm 10)
  /-- LOOPR. R349. -/
  | loopr (h : SHead) (a : RIdx) (j : JIdx)
  /-- SFROMA. R350. -/
  | sfroma (h : SHead) (d a : RIdx)
  /-- SFROMV. R351. -/
  | sfromv (h : SHead) (d w b : RIdx)
  /-- SFROMN. R350. -/
  | sfromn (h : SHead) (d n : RIdx)
  /-- CSRR. R352. -/
  | csrr (h : SHead) (d : RIdx) (csr : BitVec 10)
  /-- CSRW. R352. -/
  | csrw (h : SHead) (d : RIdx) (csr : BitVec 10)
  /-- TRAP. R361. -/
  | trap (h : SHead) (i : BitVec 10)
  /-- TRET. R295. -/
  | tret (h : SHead)
  /-- FEAT. R363. -/
  | feat (h : SHead) (p : PIdx) (bits : Byte)
  /-- SPAWN. R364. -/
  | spawn (h : SHead) (d : RIdx) (j : JIdx) (b : RIdx)
  /-- HITCH_CREATE. R365. -/
  | hitchCreate (h : SHead) (d : RIdx)
  /-- HITCH_JOIN. R365. -/
  | hitchJoin (h : SHead) (d a : RIdx)
  /-- UNHITCH. R365. -/
  | unhitch (h : SHead)
  /-- HBAR. R366. -/
  | hbar (h : SHead) (p : PIdx) (t : Imm 10)
  /-- VWIN. R367. -/
  | vwin (h : SHead) (i : Imm 10)
  /-- VROT. R368. -/
  | vrot (h : SHead) (i : BitVec 10)
  /-- SETVT. R369. -/
  | setvt (h : SHead) (etype rm : BitVec 3) (sat : Bool) (mask : KIdx)
  /-- SRSEED. R370. -/
  | srseed (h : SHead) (a b : RIdx)
  /-- CONTAIN. R371. -/
  | contain (h : SHead) (j : JIdx)
  /-- ENDCONT. R371. -/
  | endcont (h : SHead)
  /-- CHKL. R372. -/
  | chkl (h : SHead) (p : PIdx) (a : RIdx)
  /-- RDCYC. R373. -/
  | rdcyc (h : SHead) (d : RIdx)
  /-- VADD. R384. -/
  | vadd (h : WHead) (d : VDst) (a b : VSrc)
  /-- VSUB. R384. -/
  | vsub (h : WHead) (d : VDst) (a b : VSrc)
  /-- VMUL. R384. -/
  | vmul (h : WHead) (d : VDst) (a b : VSrc)
  /-- VFMA. R385. -/
  | vfma (h : WHead) (d : RIdx) (a b : VSrc)
  /-- VFMS. R385. -/
  | vfms (h : WHead) (d : RIdx) (a b : VSrc)
  /-- VFNMA. R385. -/
  | vfnma (h : WHead) (d : RIdx) (a b : VSrc)
  /-- VMIN. R386. -/
  | vmin (h : WHead) (d : VDst) (a b : VSrc)
  /-- VMAX. R386. -/
  | vmax (h : WHead) (d : VDst) (a b : VSrc)
  /-- VABS. R386. -/
  | vabs (h : WHead) (d : VDst) (a : VSrc)
  /-- VNEG. R386. -/
  | vneg (h : WHead) (d : VDst) (a : VSrc)
  /-- VRCP. R387. -/
  | vrcp (h : WHead) (d : VDst) (a : VSrc)
  /-- VRSQ. R387. -/
  | vrsq (h : WHead) (d : VDst) (a : VSrc)
  /-- VEXP2. R387. -/
  | vexp2 (h : WHead) (d : VDst) (a : VSrc)
  /-- VLOG2. R387. -/
  | vlog2 (h : WHead) (d : VDst) (a : VSrc)
  /-- VTANH. R387. -/
  | vtanh (h : WHead) (d : VDst) (a : VSrc)
  /-- VCLAMP. R386. -/
  | vclamp (h : WHead) (d : VDst) (a b : VSrc)
  /-- VAND. R388. -/
  | vand (h : WHead) (d : VDst) (a b : VSrc)
  /-- VOR. R388. -/
  | vor (h : WHead) (d : VDst) (a b : VSrc)
  /-- VXOR. R388. -/
  | vxor (h : WHead) (d : VDst) (a b : VSrc)
  /-- VNOT. R388. -/
  | vnot (h : WHead) (d : VDst) (a : VSrc)
  /-- VSHL. R388. -/
  | vshl (h : WHead) (d : VDst) (a b : VSrc)
  /-- VSHR. R388. -/
  | vshr (h : WHead) (d : VDst) (a b : VSrc)
  /-- VSRA. R388. -/
  | vsra (h : WHead) (d : VDst) (a b : VSrc)
  /-- VADDI. R388. -/
  | vaddi (h : WHead) (d : VDst) (a : VSrc) (i : Imm 6)
  /-- VIMUL. R388. -/
  | vimul (h : WHead) (d : VDst) (a b : VSrc)
  /-- VPOPC. R388. -/
  | vpopc (h : WHead) (d : VDst) (a : VSrc)
  /-- VCEQ. R389. -/
  | vceq (h : WHead) (d : KIdx) (a b : VSrc)
  /-- VCNE. R389. -/
  | vcne (h : WHead) (d : KIdx) (a b : VSrc)
  /-- VCLT. R389. -/
  | vclt (h : WHead) (d : KIdx) (a b : VSrc)
  /-- VCLE. R389. -/
  | vcle (h : WHead) (d : KIdx) (a b : VSrc)
  /-- VCUN. R389. -/
  | vcun (h : WHead) (d : KIdx) (a b : VSrc)
  /-- VSEL. R390. -/
  | vsel (h : WHead) (d : VDst) (a b : VSrc)
  /-- KAND. R391. -/
  | kand (h : WHead) (d a b : KIdx)
  /-- KOR. R391. -/
  | kor (h : WHead) (d a b : KIdx)
  /-- KXOR. R391. -/
  | kxor (h : WHead) (d a b : KIdx)
  /-- KNOT. R391. -/
  | knot (h : WHead) (d a : KIdx)
  /-- KSET. R391. -/
  | kset (h : WHead) (d : KIdx) (i : Imm 6)
  /-- KANY. R391. -/
  | kany (h : WHead) (p : PIdx) (a : KIdx)
  /-- KFIRST. R391. -/
  | kfirst (h : WHead) (d a : KIdx)
  /-- VRSUM. R392. -/
  | vrsum (h : WHead) (d : VDst) (a : VSrc)
  /-- VRMAX. R392. -/
  | vrmax (h : WHead) (d : VDst) (a : VSrc)
  /-- VRMIN. R392. -/
  | vrmin (h : WHead) (d : VDst) (a : VSrc)
  /-- VRIMAX. R392. -/
  | vrimax (h : WHead) (d : VDst) (a : VSrc)
  /-- VMOV. R393. -/
  | vmov (h : WHead) (d : VDst) (a : VSrc)
  /-- STOV. R394. -/
  | stov (h : WHead) (d a : RIdx) (i : Imm 6)
  /-- VIOTA. R395. -/
  | viota (h : WHead) (d : VDst)
  /-- VPERM. R395. -/
  | vperm (h : WHead) (d : VDst) (a b : VSrc)
  /-- VSLIDE. R395. -/
  | vslide (h : WHead) (d : VDst) (a : VSrc) (i : Imm 6)
  /-- VCMPR. R396. -/
  | vcmpr (h : WHead) (d : VDst) (a : VSrc) (k : KIdx)
  /-- VXPND. R396. -/
  | vxpnd (h : WHead) (d : VDst) (a : VSrc) (k : KIdx)
  /-- VLANE. R395. -/
  | vlane (h : WHead) (d : VDst) (a : VSrc) (i : Imm 6)
  /-- CVTF32. R405. -/
  | cvtf32 (h : WHead) (d : VDst) (a : VSrc) (c : CvtCtl)
  /-- CVTBF16. R405. -/
  | cvtbf16 (h : WHead) (d : VDst) (a : VSrc) (c : CvtCtl)
  /-- CVTF16. R405. -/
  | cvtf16 (h : WHead) (d : VDst) (a : VSrc) (c : CvtCtl)
  /-- CVTE4M3. R405. -/
  | cvte4m3 (h : WHead) (d : VDst) (a : VSrc) (c : CvtCtl)
  /-- CVTE5M2. R405. -/
  | cvte5m2 (h : WHead) (d : VDst) (a : VSrc) (c : CvtCtl)
  /-- CVTE3M2. R405. -/
  | cvte3m2 (h : WHead) (d : VDst) (a : VSrc) (c : CvtCtl)
  /-- CVTE2M3. R405. -/
  | cvte2m3 (h : WHead) (d : VDst) (a : VSrc) (c : CvtCtl)
  /-- CVTE2M1. R405. -/
  | cvte2m1 (h : WHead) (d : VDst) (a : VSrc) (c : CvtCtl)
  /-- CVTI32. R405. -/
  | cvti32 (h : WHead) (d : VDst) (a : VSrc) (c : CvtCtl)
  /-- CVTI8. R405. -/
  | cvti8 (h : WHead) (d : VDst) (a : VSrc) (c : CvtCtl)
  /-- MXQ. R410. -/
  | mxq (h : WHead) (d : VDst) (a : VSrc) (c : MxCtl)
  /-- MXDQ. R411. -/
  | mxdq (h : WHead) (d : VDst) (a : VSrc) (c : MxCtl)
  /-- MXGETS. R412. -/
  | mxgets (h : WHead) (d : VDst) (a : VSrc)
  /-- MXSETS. R412. -/
  | mxsets (h : WHead) (d : RIdx) (a : VSrc)
  /-- VRAND. R413. -/
  | vrand (h : WHead) (d : VDst) (unif : Bool)
  /-- VDEFER. R398. -/
  | vdefer (h : WHead) (d : KIdx) (a : VSrc) (b : KIdx)
  /-- VDRAIN. R399. -/
  | vdrain (h : WHead) (d : VDst) (b : KIdx)
  /-- VLAME. R401. -/
  | vlame (h : WHead) (p : PIdx) (a : VSrc)
  /-- VCLRL. R402. -/
  | vclrl (h : WHead) (d : RIdx)
  /-- NFROMS. R439. -/
  | nfroms (h : WHead) (d a : RIdx)
  /-- NSETI. R439. -/
  | nseti (h : WHead) (d : RIdx) (i : Imm 10)
  /-- NGO. R422. -/
  | ngo (h : WHead) (mode : BitVec 3)
  /-- NWAIT. R440. -/
  | nwait (h : WHead) (p : PIdx) (t : Imm 10)
  /-- NSTAT. R424. -/
  | nstat (h : WHead) (d : RIdx)
  /-- NFREEZE. R433. -/
  | nfreeze (h : WHead)
  /-- NTHAW. R433. -/
  | nthaw (h : WHead)
  /-- NDRAIN. R434. -/
  | ndrain (h : WHead) (a : RIdx) (cnt : BitVec 10)
  /-- NFILL. R434. -/
  | nfill (h : WHead) (a : RIdx) (cnt : BitVec 10)
  /-- NPOS. R439. -/
  | npos (h : WHead) (d : RIdx)
  /-- NSEEK. R434. -/
  | nseek (h : WHead) (a : RIdx)
  /-- WFETCH. R427. -/
  | wfetch (h : WHead) (a : RIdx) (slot : BitVec 4)
  /-- WSWAP. R427. -/
  | wswap (h : WHead) (keep : Bool)
  /-- ACLR. R434. -/
  | aclr (h : WHead) (a : RIdx) (cnt : BitVec 10)
  /-- EPICFG. R439. -/
  | epicfg (h : WHead) (a : RIdx) (e : BitVec 3)
  /-- CKSUM. R439. -/
  | cksum (h : WHead) (d a : RIdx)
  /-- NCUT_END. R433. -/
  | ncutEnd (h : WHead)
  /-- NCUT_ABANDON. R433. -/
  | ncutAbandon (h : WHead)
  /-- LDB. R452. -/
  | ldb (h : WHead) (d : XDst) (a : RIdx) (c : MemCtl)
  /-- LDH. R452. -/
  | ldh (h : WHead) (d : XDst) (a : RIdx) (c : MemCtl)
  /-- LDW. R452. -/
  | ldw (h : WHead) (d : XDst) (a : RIdx) (c : MemCtl)
  /-- LDD. R452. -/
  | ldd (h : WHead) (d : XDst) (a : RIdx) (c : MemCtl)
  /-- STB. R452: d holds the address. -/
  | stb (h : WHead) (d : RIdx) (a : XSrc) (c : MemCtl)
  /-- STH. R452: d holds the address. -/
  | sth (h : WHead) (d : RIdx) (a : XSrc) (c : MemCtl)
  /-- STW. R452: d holds the address. -/
  | stw (h : WHead) (d : RIdx) (a : XSrc) (c : MemCtl)
  /-- STD. R452: d holds the address. -/
  | std (h : WHead) (d : RIdx) (a : XSrc) (c : MemCtl)
  /-- LDV. R453. -/
  | ldv (h : WHead) (d : VDst) (a : RIdx) (c : VecCtl)
  /-- STV. R453. -/
  | stv (h : WHead) (d : RIdx) (a : VSrc) (c : VecCtl)
  /-- LDFE. R454. -/
  | ldfe (h : WHead) (d : XDst) (a : RIdx) (c : LdfeCtl)
  /-- STFE. R454. -/
  | stfe (h : WHead) (d : RIdx) (a : XSrc) (c : StfeCtl)
  /-- FECLR. R454. -/
  | feclr (h : WHead) (d a : RIdx) (off : Option (BitVec 25))
  /-- TDESC. R455. -/
  | tdesc (h : WHead) (a : RIdx) (slot : BitVec 4) (zue : Bool)
  /-- TREAD. R456. -/
  | tread (h : WHead) (d : CIdx) (a : RIdx) (slot : BitVec 4)
  /-- TWRITE. R456. -/
  | twrite (h : WHead) (d : RIdx) (a : CSrc) (slot : BitVec 4)
  /-- TGATHER. R457. -/
  | tgather (h : WHead) (d : CIdx) (a b : RIdx)
  /-- TSCATTER. R457. -/
  | tscatter (h : WHead) (d : RIdx) (a : CSrc) (b : RIdx)
  /-- TSCADD. R457. -/
  | tscadd (h : WHead) (d : RIdx) (a : CSrc) (b : RIdx)
  /-- CHCFG. R446. -/
  | chcfg (h : WHead) (d : CIdx) (a : RIdx)
  /-- CHCFG_OFF. R446: UNCFG set; a is not read. -/
  | chcfgOff (h : WHead) (d : CIdx) (a : RIdx)
  /-- CHADV. R449. -/
  | chadv (h : WHead) (d : CIdx)
  /-- CHREL. R449. -/
  | chrel (h : WHead) (a : CSrc)
  /-- CHWAITF. R450. -/
  | chwaitf (h : WHead) (p : PIdx) (a : CSrc) (t : Imm 7)
  /-- CHWAITE. R450. -/
  | chwaite (h : WHead) (p : PIdx) (a : CSrc) (t : Imm 7)
  /-- CHSTAT. R451. -/
  | chstat (h : WHead) (d : RIdx) (a : Option CSrc)
  /-- RSEND. R459. -/
  | rsend (h : WHead) (d : RIdx) (a : CSrc) (ord : Order) (scope : Scope)
  /-- RCAST. R459. -/
  | rcast (h : WHead) (d : RIdx) (a : CSrc) (ord : Order) (scope : Scope) (col : Bool)
  /-- AADD. R460. -/
  | aadd (h : WHead) (d a : RIdx) (c : AtomCtl)
  /-- AMIN. R460. -/
  | amin (h : WHead) (d a : RIdx) (c : AtomCtl)
  /-- AMAX. R460. -/
  | amax (h : WHead) (d a : RIdx) (c : AtomCtl)
  /-- AAND. R460. -/
  | aand (h : WHead) (d a : RIdx) (c : AtomCtl)
  /-- AOR. R460. -/
  | aor (h : WHead) (d a : RIdx) (c : AtomCtl)
  /-- AXOR. R460. -/
  | axor (h : WHead) (d a : RIdx) (c : AtomCtl)
  /-- AXCHG. R460. -/
  | axchg (h : WHead) (d a : RIdx) (c : AtomCtl)
  /-- ACAS. R460. -/
  | acas (h : WHead) (d a : RIdx) (c : AtomCtl)
  /-- AFADD. R460. -/
  | afadd (h : WHead) (d a : RIdx) (c : AtomCtl)
  /-- FENCE. R461. -/
  | fence (h : WHead) (ord : Order) (scope : Scope)
  /-- FLUSH. R462. -/
  | flush (h : WHead) (d a : RIdx)
  /-- INVAL. R462. -/
  | inval (h : WHead) (d a : RIdx)
  /-- FLGSET. R464. -/
  | flgset (h : WHead) (d a : RIdx) (c : AtomCtl)
  /-- FLGWAIT. R465. -/
  | flgwait (h : WHead) (p : PIdx) (a b : RIdx) (l : FlgLit)
  /-- SMAP. R466. -/
  | smap (h : WHead) (d a b : RIdx)
  /-- SUNMAP. R466. -/
  | sunmap (h : WHead) (a : RIdx)
  /-- BAYSPLIT. R467. -/
  | baysplit (h : WHead) (p : PIdx) (a : RIdx) (t : Imm 7)
  /-- GCHECK. R469. -/
  | gcheck (h : WHead) (p : PIdx) (a : RIdx) (scope : Scope) (force : Bool)
  /-- AFROMS. R470. -/
  | afroms (h : WHead) (d a : RIdx)
  /-- AADDI. R470. -/
  | aaddi (h : WHead) (d a : RIdx) (i : Imm 7)
  /-- PREF. R463. -/
  | pref (h : WHead) (a : RIdx) (l0 : Bool) (linesM1 : BitVec 6)
  /-- SEQ. R323: the selector of a group, run after its words. -/
  | seq
  /-- LOOP. R323: the selector of a group, run after its words. -/
  | loop
  /-- BREAK. R323: the selector of a group, run after its words. -/
  | brk
  /-- RET. R323: the selector of a group, run after its words. -/
  | ret
  /-- JMP. R323: the selector of a group, run after its words. -/
  | jmp (j : JIdx)
  /-- CALL. R323: the selector of a group, run after its words. -/
  | call (j : JIdx)
  /-- YIELD. R323: the selector of a group, run after its words. -/
  | yield
  /-- WAITBRK. R323: the selector of a group, run after its words. -/
  | waitbrk
  /-- STOP. R323: the selector of a group, run after its words. -/
  | stop
  /-- POWER_ON_RESET. R91. -/
  | powerOnReset
  /-- MODULE_RESET. R63: a Function Level Reset by master m. -/
  | moduleReset (m : Master)
  /-- ROM_VERIFY. R94. -/
  | romVerify
  /-- BOOT_READY. R93. -/
  | bootReady
  /-- BOOT_RETRY. R96: a write of BOOTSTAT.RETRY. -/
  | bootRetry (m : Master)
  /-- UCIE_TRAINING_COMPLETE. R492. -/
  | ucieTrainingComplete (link : Nat) (up : Bool) (repaired : BitVec 3)
  /-- TEMP_CONVERSION. R35. -/
  | tempConversion (sensor : Nat) (code : BitVec 12)
  /-- THERMAL_CONTROL_TICK. R35. -/
  | thermalControlTick (row : Nat)
  /-- POWER_CONTROL_TICK. R34. -/
  | powerControlTick (watts : BitVec 12)
  /-- CAPEFF_UPDATE. R31. -/
  | capeffUpdate (row : Nat)
  /-- GROOM_CREDIT_REFILL. R124. -/
  | groomCreditRefill (stall : Nat)
  /-- DRAMCLK_STEP_WRITE. R26. -/
  | dramclkStepWrite (m : Master) (q : Nat) (v : Word)
  /-- RATIO_CHANGE_START. R27. -/
  | ratioChangeStart (q : Nat)
  /-- RATIO_CHANGE_END. R27. -/
  | ratioChangeEnd (q : Nat)
  /-- DRAM_REFRESH. R25. -/
  | dramRefresh (stall : Nat)
  /-- SHADOW_LATCH_DETECT. R307: key is the context whose pipe cycle it is, third a third consecutive detection. -/
  | shadowLatchDetect (stall : Nat) (point : ShadowPoint) (key : Nat) (third : Bool)
  /-- SHADOWCNT_CLEAR. R38. -/
  | shadowcntClear (m : Master) (stall : Nat)
  /-- COLMAP_WRITE. R20: by the groom context of a stall, CSR 0x08A. -/
  | colmapWrite (stall : Nat) (v : DWord)
  /-- TRACE_FLIT_RECEIVE. R42. -/
  | traceFlitReceive (link : Nat) (flit : BitVec 1152)
  /-- REIN_FLIT_RECEIVE. R43: at a stall, over a UCIe module or within the die; sender is the command that sent it, while its context lives. -/
  | reinFlitReceive (stall : Nat) (link : Option Nat) (flit : BitVec 512) (sender : Option Nat)
  /-- CREDIT_RETURN. R45. -/
  | creditReturn (link : Nat)
  /-- LINK_NAK. R46. -/
  | linkNak (link : Nat) (seq : Byte)
  /-- RETRAIN_COMPLETE. R46. -/
  | retrainComplete (link : Nat) (up : Bool)
  /-- XLINK_CLEAR. R47. -/
  | xlinkClear (m : Master) (link : Nat)
  /-- PORT_LINK_CHANGE. R50. -/
  | portLinkChange (port : Nat) (up : Bool)
  /-- SOPORT_CLEAR. R51. -/
  | soportClear (m : Master) (port : Nat)
  /-- READ. R54. -/
  | read (port : Nat) (f : Frame)
  /-- RDATA. R54. -/
  | rdata (port : Nat) (f : Frame)
  /-- WRITE. R54. -/
  | write (port : Nat) (f : Frame)
  /-- WDONE. R54. -/
  | wdone (port : Nat) (f : Frame)
  /-- ATOMIC. R54. -/
  | atomic (port : Nat) (f : Frame)
  /-- ATOMRSP. R54. -/
  | atomrsp (port : Nat) (f : Frame)
  /-- ACK. R50. -/
  | ack (port : Nat) (f : Frame)
  /-- NAK. R61. -/
  | nak (port : Nat) (f : Frame)
  /-- CKDATA. R61. -/
  | ckdata (port : Nat) (f : Frame)
  /-- CKACK. R60. -/
  | ckack (port : Nat) (f : Frame)
  /-- RETRANSMIT_TIMEOUT. R50. -/
  | retransmitTimeout (dst : BitVec 6) (cls : Nat)
  /-- DOMCFG_WRITE. R52. -/
  | domcfgWrite (m : Master) (v : DWord)
  /-- HOST_LINK_LOSS. R73: the link of master m has been down for 10 ms. -/
  | hostLinkLoss (m : Master)
  /-- BAR4_READ. R68: n bytes at an offset of BAR4, or, by bar, of BAR0 or BAR2. -/
  | bar4Read (m : Master) (bar : BitVec 3) (off n : Nat)
  /-- BAR4_WRITE. R68. -/
  | bar4Write (m : Master) (off : Nat) (data : List Byte)
  /-- CXL_MEM_ACCESS. R57: a read of n bytes, or a write of data. -/
  | cxlMemAccess (m : Master) (off n : Nat) (data : Option (List Byte))
  /-- CXL_SNOOP. R57. -/
  | cxlSnoop (addr : Nat) (inval : Bool)
  /-- CHECKPOINT_SAVE. R60: a write of CKPTCTL with GO and DIR 0. -/
  | checkpointSave (m : Master) (v : DWord)
  /-- CHECKPOINT_RESTORE. R61: a write of CKPTCTL with GO and DIR 1. -/
  | checkpointRestore (m : Master) (v : DWord)
  /-- CLAIM. R71. -/
  | claim (m : Master)
  /-- OFFER. R71. -/
  | offer (m : Master) (dest : BitVec 2)
  /-- ACCEPT. R71. -/
  | accept (m : Master)
  /-- RELEASE. R71. -/
  | release (m : Master)
  /-- DOORBELL. R84: a write of size bytes at an offset of the BAR2 page of queue q. -/
  | doorbell (m : Master) (q off size : Nat) (v : Word)
  /-- QUEUE_ENABLE. R76: a QCTL write with ENABLE set. -/
  | queueEnable (m : Master) (q : Nat) (v : DWord)
  /-- QUEUE_DISABLE. R76: a QCTL write with ENABLE clear. -/
  | queueDisable (m : Master) (q : Nat) (v : DWord)
  /-- QUEUE_RESUME. R82: writing 1 to HALTED. -/
  | queueResume (m : Master) (q : Nat)
  /-- HIFERR_CLEAR. R90. -/
  | hiferrClear (m : Master)
  /-- LIFE_CYCLE_CHANGE. R102: a write of LCREQ with GO. -/
  | lifeCycleChange (m : Master) (target : BitVec 3)
  /-- GET_VERSION. R97. -/
  | getVersion (conn : Nat)
  /-- GET_CAPABILITIES. R97. -/
  | getCapabilities (conn : Nat)
  /-- NEGOTIATE_ALGORITHMS. R97. -/
  | negotiateAlgorithms (conn : Nat) (offered : List (BitVec 32))
  /-- GET_DIGESTS. R97. -/
  | getDigests (conn : Nat)
  /-- GET_CERTIFICATE. R97. -/
  | getCertificate (conn slot off len : Nat)
  /-- CHALLENGE. R97. -/
  | challenge (conn slot : Nat) (nonce : BitVec 256)
  /-- GET_MEASUREMENTS. R100. -/
  | getMeasurements (conn index : Nat) (signed : Bool) (nonce : BitVec 256)
  /-- KEY_EXCHANGE. R97. -/
  | keyExchange (conn slot : Nat) (data : List Byte)
  /-- FINISH. R97. -/
  | finish (conn session : Nat) (hmac : List Byte)
  /-- HEARTBEAT. R97. -/
  | heartbeat (conn session : Nat)
  /-- KEY_UPDATE. R97. -/
  | keyUpdate (conn session : Nat) (op : Byte)
  /-- END_SESSION. R97. -/
  | endSession (conn session : Nat)
  /-- VENDOR_DEFINED_REQUEST. R98. -/
  | vendorDefinedRequest (conn : Nat) (std : BitVec 16) (vendor : Word) (payload : List Byte)
  /-- COMMAND_NOP. R78. -/
  | commandNop (cmd : Nat)
  /-- GRAPH_RUN. R113. -/
  | graphRun (cmd : Nat)
  /-- GRAPH_INSTALL. R112. -/
  | graphInstall (cmd : Nat)
  /-- PATCH. R122. -/
  | patch (cmd : Nat)
  /-- KERNEL. R109. -/
  | kernel (cmd : Nat)
  /-- COPY. R121. -/
  | copy (cmd : Nat)
  /-- FLAGSET. R78. -/
  | flagset (cmd : Nat)
  /-- FLAGWAIT. R78. -/
  | flagwait (cmd : Nat)
  /-- FLAGWAIT_SATISFIED. R78. -/
  | flagwaitSatisfied (cmd : Nat)
  /-- INDIRECT. R79. -/
  | indirect (cmd : Nat)
  /-- COMMAND_COMPLETE. R111. -/
  | commandComplete (cmd : Nat)
  /-- REPLAY_START. R114. -/
  | replayStart (replay : Nat)
  /-- KERNEL_NODE_LAUNCH. R116. -/
  | kernelNodeLaunch (replay node : Nat)
  /-- CONDITIONAL_NODE. R116. -/
  | conditionalNode (replay node : Nat)
  /-- LOOP_NODE. R118. -/
  | loopNode (replay node : Nat)
  /-- LOOP_ITERATION_END. R118. -/
  | loopIterationEnd (replay node : Nat)
  /-- SURROGATE_NODE. R156. -/
  | surrogateNode (replay node : Nat)
  /-- SIGNAL_NODE. R116. -/
  | signalNode (replay node : Nat)
  /-- COPY_NODE. R121. -/
  | copyNode (replay node : Nat)
  /-- NODE_COMPLETE. R115. -/
  | nodeComplete (replay node : Nat)
  /-- REPLAY_COMPLETE. R120. -/
  | replayComplete (replay : Nat)
  /-- ADMIT_WRITE. R125: a groom write of FEQ. -/
  | admitWrite (die q : Nat) (v : DWord)
  /-- HEAD_COMMIT. R125: a groom write of FEHEAD. -/
  | headCommit (die q : Nat) (v : DWord)
  /-- CONS_COMMIT. R87: a groom write of DBLSTAT. -/
  | consCommit (die : Nat) (v : DWord)
  /-- PACKET_START. R126. -/
  | packetStart (q : Nat)
  /-- WATCHDOG_EXPIRY. R128. -/
  | watchdogExpiry (die : Nat)
  /-- FIRMWARE_RESTART. R128. -/
  | firmwareRestart (die : Nat)
  /-- MCBSEL_READ. R360: a groom write of MCBSEL with READ. -/
  | mcbselRead (stall : Nat) (v : DWord)
  /-- MCBDATA_WRITE. R360. -/
  | mcbdataWrite (stall : Nat) (v : DWord)
  /-- BRKEND. R491: by the groom context of a stall. -/
  | brkend (stall : Nat) (v : DWord)
  /-- STALLWEAR_WRITE. R133: pos is the physical stall, row * 34 + position. -/
  | stallwearWrite (pos : Nat) (v : DWord)
  /-- FEATMASK_WRITE. R147. -/
  | featmaskWrite (pos : Nat) (v : DWord)
  /-- DEFERQ_WRITE. R195. -/
  | deferqWrite (key : Nat) (v : DWord)
  /-- REGISTER_WRITE. R10: a BAR0 write. -/
  | registerWrite (m : Master) (off size : Nat) (v : DWord)
  /-- WEAR_SAMPLE. R136: the monitor readings of a physical stall. -/
  | wearSample (pos fa fb em : Nat)
  /-- THRESH_UPDATE. R138. -/
  | threshUpdate
  /-- LIFE_RECORD_WRITE. R136. -/
  | lifeRecordWrite
  /-- RIDER_RECORD_GRANT. R167. -/
  | riderRecordGrant (launch : Nat)
  /-- RIDER_PLACE. R143. -/
  | riderPlace (key : Nat)
  /-- SPILL_EXPIRY. R143. -/
  | spillExpiry (key : Nat)
  /-- PREEMPTWAIT_EXPIRY. R148. -/
  | preemptwaitExpiry (key : Nat)
  /-- STOP_ACKNOWLEDGE. R149. -/
  | stopAcknowledge (col key : Nat) (cls : EngineClass)
  /-- COLLECTLIM_EXPIRY. R149. -/
  | collectlimExpiry (col : Nat)
  /-- SAVE_IMAGE_COMPLETE. R149. -/
  | saveImageComplete (col : Nat)
  /-- RESTARTABLE_REEXECUTION. R154. -/
  | restartableReexecution (launch : Nat)
  /-- SURROGATE_FALLBACK. R156. -/
  | surrogateFallback (launch tile : Nat)
  /-- MAINTENANCE_MOVE. R157. -/
  | maintenanceMove (stall : Nat)
  /-- MOVE_COPY_COMPLETE. R157. -/
  | moveCopyComplete (row : Nat)
  /-- RIDER_CONTEXT_FREE. R165. -/
  | riderContextFree (key : Nat)
  /-- HBAR_PHASE_COMPLETE. R170. -/
  | hbarPhaseComplete (hitch : Nat)
  /-- WAIT_TIMEOUT. R181. -/
  | waitTimeout (key : Nat)
  /-- IMPLICIT_WAIT_EXPIRY. R183. -/
  | implicitWaitExpiry (key : Nat)
  /-- LDFE_RETRY. R454. -/
  | ldfeRetry (key : Nat)
  /-- CHANNEL_WAIT_SATISFIED. R450. -/
  | channelWaitSatisfied (key : Nat)
  /-- FLGWAIT_POLL. R465. -/
  | flgwaitPoll (key : Nat)
  /-- BAYSPLIT_COMPLETE. R218. -/
  | baysplitComplete (key : Nat)
  /-- LOAD_DATA_ARRIVAL. R444. -/
  | loadDataArrival (key tok : Nat)
  /-- X_COMMAND_PERFORM. R237. -/
  | xCommandPerform (key tok : Nat)
  /-- ENGINE_RECORD_WRITE. R448. -/
  | engineRecordWrite (key tok : Nat)
  /-- TRANSLATION_WALK. R205: access as ACCESS of R213. -/
  | translationWalk (key : Nat) (va : Nat) (access : BitVec 4)
  /-- FAULT_BATCH_CLOSE. R211. -/
  | faultBatchClose
  /-- FAULT_BATCH_WRITE. R212. -/
  | faultBatchWrite
  /-- FAULT_RETRY. R214: a write of FLTRESP with OP RETRY. -/
  | faultRetry (m : Master) (v : DWord)
  /-- FAULT_ABORT. R214: a write of FLTRESP with OP ABORT. -/
  | faultAbort (m : Master) (v : DWord)
  /-- TLB_INVALIDATE. R209: a write of TLBINV with GO. -/
  | tlbInvalidate (m : Master) (v : DWord)
  /-- SPLINTER. R216: a write of SPLCTL with GO. -/
  | splinter (m : Master) (v : DWord)
  /-- LINE_WRITEBACK. R220. -/
  | lineWriteback (paddock line : Nat)
  /-- CLEAN_LINE_DROP. R220: of the L0 of a stall, or of its slice and stashes. -/
  | cleanLineDrop (stall line : Nat) (l0 : Bool)
  /-- GUARD_COMMIT. R469. -/
  | guardCommit (key : Nat)
  /-- NEST_GANG_START. R423. -/
  | nestGangStart (gang : Nat)
  /-- LATCH_FILL_COMPLETE. R425. -/
  | latchFillComplete (gang member : Nat)
  /-- ARRAY_STEP. R425. -/
  | arrayStep (gang member : Nat)
  /-- WHIFFLETREE_ACCUMULATE. R429. -/
  | whiffletreeAccumulate (gang : Nat)
  /-- PASS_BOUNDARY. R433. -/
  | passBoundary (gang : Nat)
  /-- EPILOGUE_STORE. R431: whether the checksum check of the store, and of its retry, agreed (R308). -/
  | epilogueStore (gang : Nat) (firstOk retryOk : Bool)
  /-- NEST_COLLECT_DRAIN. R435. -/
  | nestCollectDrain (gang : Nat)
  /-- NEST_RESUME. R435. -/
  | nestResume (gang : Nat)
  /-- CONFIGURATION_WRITE. R64. -/
  | configurationWrite (m : Master) (req : BitVec 16) (w : ConfigWrite)
  /-- ACCUMULATOR_COPY_COMPLETE. R434. -/
  | accumulatorCopyComplete (key : Nat)
  /-- ARRAY_SELF_TEST_COMPLETE. R309: the members that failed. -/
  | arraySelfTestComplete (gang : Nat) (failed : List Nat)
  deriving DecidableEq, Repr

end Sys2Proof
end

