-- ==== Sys2Proof/WellFormed.lean ====
section
/-! DEFINITION. WellFormed.lean: the pipe words that have an encoding (R320 to R323, R330, R353, R403, R405, R234),
and the bounds of the places that the device's own steps name. -/

namespace Sys2Proof

/-- The CSR numbers of R353. -/
def csrKnown (c : BitVec 10) : Bool :=
  let n := c.toNat
  n ≤ 0x00B || (0x010 ≤ n && n ≤ 0x015) || (0x020 ≤ n && n ≤ 0x024) || (0x080 ≤ n && n ≤ 0x08B) || (0x100 ≤ n && n ≤ 0x2FF)

/-- The register width of a CVT source (R405). -/
def cvtWidth : CvtSrc → Nat
  | .fp32 | .int32 => 32
  | .bf16 | .fp16 | .int16 => 16
  | .e4m3 | .e5m2 | .e3m2 | .e2m3 | .e2m1 | .int8 | .mxi8 => 8

/-- PART of a CVT lies below the ratio of the two register widths (R405). -/
def cvtPartOk (c : CvtSrc) (wt : Nat) (part : BitVec 2) : Bool :=
  part.toNat < Nat.max (cvtWidth c) wt / Nat.min (cvtWidth c) wt

/-- The orders a load may carry (R234). -/
def loadOrder : Order → Bool
  | .rlx | .acq | .sc => true
  | .rel | .acqrel => false
/-- The orders a store may carry (R234). -/
def storeOrder : Order → Bool
  | .rlx | .rel | .sc => true
  | .acq | .acqrel => false
/-- Every order may stand on an atomic (R234). -/
def atomOrder : Order → Bool
  | .rlx | .acq | .rel | .acqrel | .sc => true
/-- The orders of RSEND, RCAST and FLGSET (R234). -/
def sendOrder : Order → Bool
  | .rlx | .rel => true
  | .acq | .acqrel | .sc => false
/-- The orders of FENCE (R461). -/
def fenceOrder : Order → Bool
  | .rlx => false
  | .acq | .rel | .acqrel | .sc => true
/-- The order of FLGWAIT (R234). -/
def waitOrder : Order → Bool
  | .acq => true
  | .rlx | .rel | .acqrel | .sc => false

/-- A scalar destination is none of s26 to s31 (R320). -/
def sdOk (d : RIdx) : Bool := d.toNat < 26

/-- A word that carries a literal ends its group with it (R315). -/
def litEnds {n : Nat} (ch : Chain) : Imm n → Bool
  | .field _ => true
  | .lit _ => ch == .stop

/-- The instruction has an encoding, or names places of the machine that exist. -/
def Instr.wf : Instr → Bool
  | .add _ d _ _ | .sub _ d _ _ | .mul _ d _ _ | .mulhu _ d _ _ | .divu _ d _ _ | .remu _ d _ _ | .and _ d _ _
  | .or _ d _ _ | .xor _ d _ _ | .shl _ d _ _ | .shr _ d _ _ | .sra _ d _ _ | .min _ d _ _ | .max _ d _ _
  | .minu _ d _ _ | .maxu _ d _ _ | .sel _ d _ _ => sdOk d
  | .clz _ d _ | .popc _ d _ | .sfroma _ d _ | .sfromn _ d _ => sdOk d
  | .addi h d _ i | .andi h d _ i | .ori h d _ i | .xori h d _ i | .shli h d _ i | .shri h d _ i | .srai h d _ i =>
      sdOk d && litEnds h.ch i
  | .movi h d i => sdOk d && litEnds h.ch i
  | .movl h d _ => sdOk d && h.ch == .stop
  | .cmpeqi h _ _ i | .cmplti h _ _ i => litEnds h.ch i
  | .setj h _ i => litEnds h.ch i
  | .loopr h _ _ => h.nx == .seq
  | .sfromv _ d _ _ => sdOk d
  | .csrr _ d c => sdOk d && csrKnown c
  | .csrw _ _ c => csrKnown c
  | .tret h => h.nx == .seq
  | .spawn _ d _ _ => sdOk d
  | .hitchCreate _ d => sdOk d
  | .hitchJoin _ d _ => sdOk d
  | .hbar h _ t => litEnds h.ch t
  | .vwin h i => litEnds h.ch i
  | .rdcyc _ d => sdOk d
  | .vaddi h _ _ i | .vslide h _ _ i | .vlane h _ _ i => litEnds h.ch i
  | .kset h _ i => litEnds h.ch i
  | .stov h _ _ i => litEnds h.ch i
  | .cvtf32 _ _ _ c | .cvti32 _ _ _ c => cvtPartOk c.src 32 c.part
  | .cvtbf16 _ _ _ c | .cvtf16 _ _ _ c => cvtPartOk c.src 16 c.part
  | .cvte4m3 _ _ _ c | .cvte5m2 _ _ _ c | .cvte3m2 _ _ _ c | .cvte2m3 _ _ _ c | .cvte2m1 _ _ _ c | .cvti8 _ _ _ c =>
      cvtPartOk c.src 8 c.part
  | .nseti h _ i => litEnds h.ch i
  | .nwait h _ t => litEnds h.ch t
  | .ldb h _ _ c | .ldh h _ _ c | .ldw h _ _ c | .ldd h _ _ c => loadOrder c.ord && (c.off.isNone || h.ch == .stop)
  | .stb h _ _ c | .sth h _ _ c | .stw h _ _ c | .std h _ _ c => storeOrder c.ord && (c.off.isNone || h.ch == .stop)
  | .ldv h _ _ c => loadOrder c.ord && (c.lit.isNone || h.ch == .stop)
  | .stv h _ _ c => storeOrder c.ord && (c.lit.isNone || h.ch == .stop)
  | .ldfe h _ _ c => loadOrder c.ord && (c.lit.isNone || h.ch == .stop)
  | .stfe h _ _ c => storeOrder c.ord && (c.off.isNone || h.ch == .stop)
  | .feclr h _ _ o => o.isNone || h.ch == .stop
  | .chwaitf h _ _ t | .chwaite h _ _ t => litEnds h.ch t
  | .rsend _ _ _ o _ => sendOrder o
  | .rcast _ _ _ o _ _ => sendOrder o
  | .acas _ d _ _ => d.toNat < 31
  | .fence _ o _ => fenceOrder o
  | .flgset _ _ _ c => sendOrder c.ord
  | .flgwait h _ _ _ l => waitOrder l.ord && h.ch == .stop
  | .baysplit h _ _ t => litEnds h.ch t
  | .aaddi h _ _ i => litEnds h.ch i
  | .doorbell _ q _ _ _ | .queueEnable _ q _ | .queueDisable _ q _ | .queueResume _ q | .packetStart q
  | .admitWrite _ q _ | .headCommit _ q _ => q < 256
  | .bar4Read _ b _ _ => b == 0 || b == 2 || b == 4
  | .dramclkStepWrite _ q _ | .ratioChangeStart q | .ratioChangeEnd q | .watchdogExpiry q | .firmwareRestart q
  | .consCommit q _ => q < 4
  | .dramRefresh st | .shadowcntClear _ st | .groomCreditRefill st | .colmapWrite st _ | .mcbselRead st _
  | .mcbdataWrite st _ | .brkend st _ | .reinFlitReceive st _ _ _ | .cleanLineDrop st _ _ | .maintenanceMove st
  | .shadowLatchDetect st _ _ _ => st < 4096
  | .thermalControlTick r | .capeffUpdate r | .moveCopyComplete r => r < 128
  | .ucieTrainingComplete l _ _ | .traceFlitReceive l _ | .creditReturn l | .linkNak l _ | .retrainComplete l _
  | .xlinkClear _ l => l < 384
  | .portLinkChange p _ | .soportClear _ p | .read p _ | .rdata p _ | .write p _ | .wdone p _ | .atomic p _
  | .atomrsp p _ | .ack p _ | .nak p _ | .ckdata p _ | .ckack p _ => p < 16
  | .stallwearWrite p _ | .featmaskWrite p _ | .wearSample p _ _ _ => p < 4352
  | _ => true

end Sys2Proof
end

