-- ==== Sys2Proof/Decode.lean ====
section
/-! DEFINITION. Decode.lean: the decoder of the pipe words, total on any word and literal, refusing by name, and after
it the encoder, both written from R315, R317 to R319, R321, R324 to R327, R330, R403, R439 and R442. -/

namespace Sys2Proof

/-- Why a word is no instruction (R330). -/
inductive DecodeError where
  | reservedOpcode | badSelector | badField | badLiteral | badOrder
  deriving DecidableEq, Repr

/-- The fields of an S word but PIPE (R317). -/
structure SFields where
  ch : BitVec 2
  nx : BitVec 4
  g : BitVec 3
  op : BitVec 6
  d : BitVec 5
  a : BitVec 5
  b : BitVec 5
  deriving DecidableEq, Repr

/-- The fields of a V word but PIPE (R318). -/
structure VFields where
  ch : BitVec 2
  g : BitVec 3
  op : BitVec 7
  d : BitVec 6
  a : BitVec 6
  b : BitVec 6
  deriving DecidableEq, Repr

/-- The fields of an M word but PIPE (R318). -/
structure MFields where
  ch : BitVec 2
  g : BitVec 3
  op : BitVec 5
  d : BitVec 5
  a : BitVec 5
  b : BitVec 10
  deriving DecidableEq, Repr

/-- The fields of an X word but PIPE (R318). -/
structure XFields where
  ch : BitVec 2
  g : BitVec 3
  op : BitVec 6
  d : BitVec 6
  a : BitVec 6
  b : BitVec 7
  deriving DecidableEq, Repr

/-- The S word of its fields (R317). -/
def SFields.pack (f : SFields) : Word := f.ch ++ 0b00#2 ++ f.nx ++ f.g ++ f.op ++ f.d ++ f.a ++ f.b
/-- The V word of its fields (R318). -/
def VFields.pack (f : VFields) : Word := f.ch ++ 0b01#2 ++ f.g ++ f.op ++ f.d ++ f.a ++ f.b
/-- The M word of its fields (R318). -/
def MFields.pack (f : MFields) : Word := f.ch ++ 0b10#2 ++ f.g ++ f.op ++ f.d ++ f.a ++ f.b
/-- The X word of its fields (R318). -/
def XFields.pack (f : XFields) : Word := f.ch ++ 0b11#2 ++ f.g ++ f.op ++ f.d ++ f.a ++ f.b

/-- The fields of an S word (R317). -/
def SFields.of (w : Word) : SFields :=
  { ch := w.extractLsb' 30 2, nx := w.extractLsb' 24 4, g := w.extractLsb' 21 3, op := w.extractLsb' 15 6,
    d := w.extractLsb' 10 5, a := w.extractLsb' 5 5, b := w.extractLsb' 0 5 }
/-- The fields of a V word (R318). -/
def VFields.of (w : Word) : VFields :=
  { ch := w.extractLsb' 30 2, g := w.extractLsb' 25 3, op := w.extractLsb' 18 7, d := w.extractLsb' 12 6,
    a := w.extractLsb' 6 6, b := w.extractLsb' 0 6 }
/-- The fields of an M word (R318). -/
def MFields.of (w : Word) : MFields :=
  { ch := w.extractLsb' 30 2, g := w.extractLsb' 25 3, op := w.extractLsb' 20 5, d := w.extractLsb' 15 5,
    a := w.extractLsb' 10 5, b := w.extractLsb' 0 10 }
/-- The fields of an X word (R318). -/
def XFields.of (w : Word) : XFields :=
  { ch := w.extractLsb' 30 2, g := w.extractLsb' 25 3, op := w.extractLsb' 19 6, d := w.extractLsb' 13 6,
    a := w.extractLsb' 7 6, b := w.extractLsb' 0 7 }

/-- CH of R315 as the decoder keeps it: LIT shows as the literal operand. -/
def chainOf (c : BitVec 2) : Chain := if c = 1 then .link else if c = 2 then .pad else .stop

/-- NX of R323. -/
def nxOf (x : BitVec 4) : Option Nx :=
  match x.toNat with
  | 0 => some .seq | 1 => some .loop | 2 => some .brk | 3 => some .ret
  | 4 => some (.jmp 0) | 5 => some (.jmp 1) | 6 => some (.jmp 2) | 7 => some (.jmp 3)
  | 8 => some (.call 0) | 9 => some (.call 1) | 10 => some (.call 2) | 11 => some (.call 3)
  | 12 => some .yield | 13 => some .waitbrk | 14 => some .stop
  | _ => none

abbrev DecodeResult := Except DecodeError Instr

/-- Refuse for the reason e unless c holds. -/
def need (c : Bool) (e : DecodeError) (r : DecodeResult) : DecodeResult := if c then r else .error e

/-- A word whose opcode map marks No under LIT. -/
def noLit (lit : Option Word) (r : DecodeResult) : DecodeResult :=
  match lit with
  | none => r
  | some _ => .error .badLiteral

/-- An immediate of a word that may carry LIT: with a literal its field is zero (R321). -/
def immOf {n : Nat} (field : BitVec n) (lit : Option Word) (k : Imm n → DecodeResult) : DecodeResult :=
  match lit with
  | none => k (.field field)
  | some v => need (field == 0) .badField (k (.lit v))

/-- The predicate of a 5-bit field: the bits above are zero (R319). -/
def p5 (x : BitVec 5) (k : PIdx → DecodeResult) : DecodeResult :=
  need (x.extractLsb' 3 2 == 0) .badField (k (x.extractLsb' 0 3))
/-- A predicate or mask of a 6-bit field (R319). -/
def p6 (x : BitVec 6) (k : BitVec 3 → DecodeResult) : DecodeResult :=
  need (x.extractLsb' 3 3 == 0) .badField (k (x.extractLsb' 0 3))
/-- A jump register of a 5-bit field (R319). -/
def j5 (x : BitVec 5) (k : JIdx → DecodeResult) : DecodeResult :=
  need (x.extractLsb' 2 3 == 0) .badField (k (x.extractLsb' 0 2))
/-- A register of a 6-bit field (R319). -/
def r6 (x : BitVec 6) (k : RIdx → DecodeResult) : DecodeResult :=
  need (x.extractLsb' 5 1 == 0) .badField (k (x.extractLsb' 0 5))
/-- An a register of X field B (R319). -/
def r7 (x : BitVec 7) (k : RIdx → DecodeResult) : DecodeResult :=
  need (x.extractLsb' 5 2 == 0) .badField (k (x.extractLsb' 0 5))
/-- A scalar destination: s26 to s31 are read-only (R320). -/
def sd (x : RIdx) (r : DecodeResult) : DecodeResult := need (decide (x.toNat < 26)) .badField r

/-- A source of class v (R319). -/
def vsrc (x : BitVec 6) : VSrc :=
  if x.extractLsb' 5 1 == 0 then .win (x.extractLsb' 0 5)
  else if x.extractLsb' 4 1 == 0 then .pop (x.extractLsb' 0 4) else .peek (x.extractLsb' 0 4)
/-- A destination of class v: a peek bit is no destination (R319). -/
def vdst (x : BitVec 6) (k : VDst → DecodeResult) : DecodeResult :=
  if x.extractLsb' 5 1 == 0 then k (.win (x.extractLsb' 0 5))
  else need (x.extractLsb' 4 1 == 0) .badField (k (.push (x.extractLsb' 0 4)))
/-- A source of class ac (R319). -/
def xsrc (x : BitVec 6) : XSrc :=
  if x.extractLsb' 5 1 == 0 then .reg (x.extractLsb' 0 5)
  else if x.extractLsb' 4 1 == 0 then .pop (x.extractLsb' 0 4) else .peek (x.extractLsb' 0 4)
/-- A destination of class ac (R319). -/
def xdst (x : BitVec 6) (k : XDst → DecodeResult) : DecodeResult :=
  if x.extractLsb' 5 1 == 0 then k (.reg (x.extractLsb' 0 5))
  else need (x.extractLsb' 4 1 == 0) .badField (k (.push (x.extractLsb' 0 4)))
/-- A source of class c (R319). -/
def csrc (x : BitVec 6) (k : CSrc → DecodeResult) : DecodeResult :=
  need (x.extractLsb' 5 1 == 1) .badField (k ⟨x.extractLsb' 0 4, x.extractLsb' 4 1 == 1⟩)
/-- A destination of class c (R319). -/
def cdst (x : BitVec 6) (k : CIdx → DecodeResult) : DecodeResult :=
  need (x.extractLsb' 4 2 == 2) .badField (k (x.extractLsb' 0 4))

/-! The forms of the S pipe (R324). -/

def sNone (f : SFields) (lit : Option Word) (k : Instr) : DecodeResult :=
  noLit lit (need (f.d == 0 && f.a == 0 && f.b == 0) .badField (.ok k))
def sRRR (f : SFields) (lit : Option Word) (k : RIdx → RIdx → RIdx → Instr) : DecodeResult :=
  noLit lit (sd f.d (.ok (k f.d f.a f.b)))
def sRR (f : SFields) (lit : Option Word) (k : RIdx → RIdx → Instr) : DecodeResult :=
  noLit lit (need (f.b == 0) .badField (sd f.d (.ok (k f.d f.a))))
def sD (f : SFields) (lit : Option Word) (k : RIdx → Instr) : DecodeResult :=
  noLit lit (need (f.a == 0 && f.b == 0) .badField (sd f.d (.ok (k f.d))))
def sAB (f : SFields) (lit : Option Word) (k : RIdx → RIdx → Instr) : DecodeResult :=
  noLit lit (need (f.d == 0) .badField (.ok (k f.a f.b)))
def sJ (f : SFields) (lit : Option Word) (k : RIdx → RIdx → Imm 5 → Instr) : DecodeResult :=
  sd f.d (immOf f.b lit (fun i => .ok (k f.d f.a i)))
def sI (f : SFields) (lit : Option Word) (k : RIdx → Imm 10 → Instr) : DecodeResult :=
  sd f.d (immOf (f.a ++ f.b) lit (fun i => .ok (k f.d i)))
def sMovl (f : SFields) (lit : Option Word) (k : RIdx → Word → Instr) : DecodeResult :=
  match lit with
  | none => .error .badLiteral
  | some v => need (f.a == 0 && f.b == 0) .badField (sd f.d (.ok (k f.d v)))
def sPRR (f : SFields) (lit : Option Word) (k : PIdx → RIdx → RIdx → Instr) : DecodeResult :=
  noLit lit (p5 f.d (fun p => .ok (k p f.a f.b)))
def sPJ (f : SFields) (lit : Option Word) (k : PIdx → RIdx → Imm 5 → Instr) : DecodeResult :=
  p5 f.d (fun p => immOf f.b lit (fun i => .ok (k p f.a i)))
def sPR (f : SFields) (lit : Option Word) (k : PIdx → RIdx → Instr) : DecodeResult :=
  noLit lit (need (f.b == 0) .badField (p5 f.d (fun p => .ok (k p f.a))))
def sPI (f : SFields) (lit : Option Word) (k : PIdx → Imm 10 → Instr) : DecodeResult :=
  p5 f.d (fun p => immOf (f.a ++ f.b) lit (fun i => .ok (k p i)))
/-- FN of PLOG (R346). -/
def pfnOf (x : BitVec 2) : PFn := if x = 0 then .and else if x = 1 then .or else if x = 2 then .xor else .andn
def sPlog (f : SFields) (lit : Option Word) (h : SHead) : DecodeResult :=
  noLit lit (p5 f.d (fun p => p5 f.b (fun b => .ok (.plog h (pfnOf (f.a.extractLsb' 3 2)) p (f.a.extractLsb' 0 3) b))))
def sSetj (f : SFields) (lit : Option Word) (k : JIdx → Imm 10 → Instr) : DecodeResult :=
  j5 f.d (fun j => immOf (f.a ++ f.b) lit (fun i => .ok (k j i)))
def sLoopr (f : SFields) (lit : Option Word) (h : SHead) : DecodeResult :=
  noLit lit (need (h.nx == .seq) .badSelector (need (f.d == 0) .badField (j5 f.b (fun j => .ok (.loopr h f.a j)))))
def sCsrr (f : SFields) (lit : Option Word) (h : SHead) : DecodeResult :=
  noLit lit (sd f.d (need (csrKnown (f.a ++ f.b)) .badField (.ok (.csrr h f.d (f.a ++ f.b)))))
def sCsrw (f : SFields) (lit : Option Word) (h : SHead) : DecodeResult :=
  noLit lit (need (csrKnown (f.a ++ f.b)) .badField (.ok (.csrw h f.d (f.a ++ f.b))))
def sNoD (f : SFields) (lit : Option Word) (k : BitVec 10 → Instr) : DecodeResult :=
  noLit lit (need (f.d == 0) .badField (.ok (k (f.a ++ f.b))))
def sTret (f : SFields) (lit : Option Word) (h : SHead) : DecodeResult :=
  noLit lit (need (h.nx == .seq) .badSelector (need (f.d == 0 && f.a == 0 && f.b == 0) .badField (.ok (.tret h))))
def sFeat (f : SFields) (lit : Option Word) (h : SHead) : DecodeResult :=
  noLit lit (p5 f.d (fun p => need (f.a.extractLsb' 3 2 == 0) .badField (.ok (.feat h p (f.a.extractLsb' 0 3 ++ f.b)))))
def sSpawn (f : SFields) (lit : Option Word) (h : SHead) : DecodeResult :=
  noLit lit (sd f.d (j5 f.a (fun j => .ok (.spawn h f.d j f.b))))
def sHitch (f : SFields) (lit : Option Word) (h : SHead) : DecodeResult :=
  noLit lit (sd f.d (if f.b == 0 then need (f.a == 0) .badField (.ok (.hitchCreate h f.d))
    else need (f.b == 1) .badField (.ok (.hitchJoin h f.d f.a))))
def sVwin (f : SFields) (lit : Option Word) (k : Imm 10 → Instr) : DecodeResult :=
  need (f.d == 0) .badField (immOf (f.a ++ f.b) lit (fun i => .ok (k i)))
def sSetvt (f : SFields) (lit : Option Word) (h : SHead) : DecodeResult :=
  noLit lit (need (f.d == 0) .badField (.ok (.setvt h (f.b.extractLsb' 0 3) (f.a.extractLsb' 0 1 ++ f.b.extractLsb' 3 2)
    (f.a.extractLsb' 1 1 == 1) (f.a.extractLsb' 2 3))))
def sContain (f : SFields) (lit : Option Word) (h : SHead) : DecodeResult :=
  noLit lit (need (f.d == 0 && f.a == 0) .badField (j5 f.b (fun j => .ok (.contain h j))))

/-! The forms of the V pipe (R325). -/

def vDAB (f : VFields) (lit : Option Word) (k : VDst → VSrc → VSrc → Instr) : DecodeResult :=
  noLit lit (vdst f.d (fun d => .ok (k d (vsrc f.a) (vsrc f.b))))
def vDA (f : VFields) (lit : Option Word) (k : VDst → VSrc → Instr) : DecodeResult :=
  noLit lit (need (f.b == 0) .badField (vdst f.d (fun d => .ok (k d (vsrc f.a)))))
def vWAB (f : VFields) (lit : Option Word) (k : RIdx → VSrc → VSrc → Instr) : DecodeResult :=
  noLit lit (r6 f.d (fun d => .ok (k d (vsrc f.a) (vsrc f.b))))
def vWA (f : VFields) (lit : Option Word) (k : RIdx → VSrc → Instr) : DecodeResult :=
  noLit lit (need (f.b == 0) .badField (r6 f.d (fun d => .ok (k d (vsrc f.a)))))
def vDAI (f : VFields) (lit : Option Word) (k : VDst → VSrc → Imm 6 → Instr) : DecodeResult :=
  vdst f.d (fun d => immOf f.b lit (fun i => .ok (k d (vsrc f.a) i)))
def vKAB (f : VFields) (lit : Option Word) (k : KIdx → VSrc → VSrc → Instr) : DecodeResult :=
  noLit lit (p6 f.d (fun d => .ok (k d (vsrc f.a) (vsrc f.b))))
def vKKK (f : VFields) (lit : Option Word) (k : KIdx → KIdx → KIdx → Instr) : DecodeResult :=
  noLit lit (p6 f.d (fun d => p6 f.a (fun a => p6 f.b (fun b => .ok (k d a b)))))
def vKK (f : VFields) (lit : Option Word) (k : BitVec 3 → KIdx → Instr) : DecodeResult :=
  noLit lit (need (f.b == 0) .badField (p6 f.d (fun d => p6 f.a (fun a => .ok (k d a)))))
def vKI (f : VFields) (lit : Option Word) (k : KIdx → Imm 6 → Instr) : DecodeResult :=
  need (f.a == 0) .badField (p6 f.d (fun d => immOf f.b lit (fun i => .ok (k d i))))
def vWSI (f : VFields) (lit : Option Word) (k : RIdx → RIdx → Imm 6 → Instr) : DecodeResult :=
  r6 f.d (fun d => r6 f.a (fun a => immOf f.b lit (fun i => .ok (k d a i))))
def vD (f : VFields) (lit : Option Word) (k : VDst → Instr) : DecodeResult :=
  noLit lit (need (f.a == 0 && f.b == 0) .badField (vdst f.d (fun d => .ok (k d))))
def vDAK (f : VFields) (lit : Option Word) (k : VDst → VSrc → KIdx → Instr) : DecodeResult :=
  noLit lit (vdst f.d (fun d => p6 f.b (fun b => .ok (k d (vsrc f.a) b))))
def vKAK (f : VFields) (lit : Option Word) (k : KIdx → VSrc → KIdx → Instr) : DecodeResult :=
  noLit lit (p6 f.d (fun d => p6 f.b (fun b => .ok (k d (vsrc f.a) b))))
def vDK (f : VFields) (lit : Option Word) (k : VDst → KIdx → Instr) : DecodeResult :=
  noLit lit (need (f.a == 0) .badField (vdst f.d (fun d => p6 f.b (fun b => .ok (k d b)))))
def vPA (f : VFields) (lit : Option Word) (k : PIdx → VSrc → Instr) : DecodeResult :=
  noLit lit (need (f.b == 0) .badField (p6 f.d (fun p => .ok (k p (vsrc f.a)))))
def vW (f : VFields) (lit : Option Word) (k : RIdx → Instr) : DecodeResult :=
  noLit lit (need (f.a == 0 && f.b == 0) .badField (r6 f.d (fun d => .ok (k d))))

/-- SRC of a CVT (R403). -/
def cvtSrcOf (x : BitVec 4) : Option CvtSrc :=
  match x.toNat with
  | 0 => some .fp32 | 1 => some .bf16 | 2 => some .fp16 | 3 => some .e4m3 | 4 => some .e5m2 | 5 => some .e3m2
  | 6 => some .e2m3 | 7 => some .e2m1 | 8 => some .int8 | 9 => some .int16 | 10 => some .int32 | 11 => some .mxi8
  | _ => none
/-- FMT of MXQ and MXDQ (R403). -/
def mxFmtOf (x : BitVec 3) : Option MxFmt :=
  match x.toNat with
  | 0 => some .e4m3 | 1 => some .e5m2 | 2 => some .e3m2 | 3 => some .e2m3 | 4 => some .e2m1 | 5 => some .mxi8
  | _ => none
def vCvt (f : VFields) (lit : Option Word) (wt : Nat) (k : VDst → VSrc → CvtCtl → Instr) : DecodeResult :=
  noLit lit (vdst f.d (fun d =>
    match cvtSrcOf (f.b.extractLsb' 0 4) with
    | none => .error .badField
    | some c => need (cvtPartOk c wt (f.b.extractLsb' 4 2)) .badField (.ok (k d (vsrc f.a) ⟨c, f.b.extractLsb' 4 2⟩))))
def vMx (f : VFields) (lit : Option Word) (k : VDst → VSrc → MxCtl → Instr) : DecodeResult :=
  noLit lit (vdst f.d (fun d =>
    match mxFmtOf (f.b.extractLsb' 0 3) with
    | none => .error .badField
    | some c => .ok (k d (vsrc f.a) ⟨c, f.b.extractLsb' 3 2, f.b.extractLsb' 5 1 == 1⟩)))
def vRand (f : VFields) (lit : Option Word) (k : VDst → Bool → Instr) : DecodeResult :=
  noLit lit (need (f.a == 0 && f.b.extractLsb' 1 5 == 0) .badField (vdst f.d (fun d => .ok (k d (f.b.extractLsb' 0 1 == 1)))))

/-! The forms of the M pipe (R326, R439). -/

def mNone (f : MFields) (lit : Option Word) (k : Instr) : DecodeResult :=
  noLit lit (need (f.d == 0 && f.a == 0 && f.b == 0) .badField (.ok k))
def mDA (f : MFields) (lit : Option Word) (k : RIdx → RIdx → Instr) : DecodeResult :=
  noLit lit (need (f.b == 0) .badField (.ok (k f.d f.a)))
def mD (f : MFields) (lit : Option Word) (k : RIdx → Instr) : DecodeResult :=
  noLit lit (need (f.a == 0 && f.b == 0) .badField (.ok (k f.d)))
def mA (f : MFields) (lit : Option Word) (k : RIdx → Instr) : DecodeResult :=
  noLit lit (need (f.d == 0 && f.b == 0) .badField (.ok (k f.a)))
def mAI (f : MFields) (lit : Option Word) (k : RIdx → BitVec 10 → Instr) : DecodeResult :=
  noLit lit (need (f.d == 0) .badField (.ok (k f.a f.b)))
def mDI (f : MFields) (lit : Option Word) (k : RIdx → Imm 10 → Instr) : DecodeResult :=
  need (f.a == 0) .badField (immOf f.b lit (fun i => .ok (k f.d i)))
def mPI (f : MFields) (lit : Option Word) (k : PIdx → Imm 10 → Instr) : DecodeResult :=
  need (f.a == 0) .badField (p5 f.d (fun p => immOf f.b lit (fun i => .ok (k p i))))
def mGo (f : MFields) (lit : Option Word) (k : BitVec 3 → Instr) : DecodeResult :=
  noLit lit (need (f.d == 0 && f.a == 0 && f.b.extractLsb' 3 7 == 0) .badField (.ok (k (f.b.extractLsb' 0 3))))
def mWf (f : MFields) (lit : Option Word) (k : RIdx → BitVec 4 → Instr) : DecodeResult :=
  noLit lit (need (f.d == 0 && f.b.extractLsb' 4 6 == 0) .badField (.ok (k f.a (f.b.extractLsb' 0 4))))
def mSwap (f : MFields) (lit : Option Word) (k : Bool → Instr) : DecodeResult :=
  noLit lit (need (f.d == 0 && f.a == 0 && f.b.extractLsb' 1 9 == 0) .badField (.ok (k (f.b.extractLsb' 0 1 == 1))))
def mEpi (f : MFields) (lit : Option Word) (k : RIdx → BitVec 3 → Instr) : DecodeResult :=
  noLit lit (need (f.d == 0 && f.b.extractLsb' 3 7 == 0) .badField (.ok (k f.a (f.b.extractLsb' 0 3))))
def mCut (f : MFields) (lit : Option Word) (h : WHead) : DecodeResult :=
  noLit lit (need (f.d == 0 && f.a == 0 && f.b.extractLsb' 1 9 == 0) .badField
    (.ok (if f.b.extractLsb' 0 1 == 1 then .ncutAbandon h else .ncutEnd h)))

/-! The forms of the X pipe (R327, R442). -/

/-- ORDER of R234. -/
def orderOf (x : BitVec 3) : Option Order :=
  match x.toNat with
  | 0 => some .rlx | 1 => some .acq | 2 => some .rel | 3 => some .acqrel | 4 => some .sc
  | _ => none
/-- SCOPE of R233. -/
def scopeOf (x : BitVec 3) : Option Scope :=
  match x.toNat with
  | 0 => some .stall | 1 => some .paddock | 2 => some .die | 3 => some .module | 4 => some .domain | 5 => some .system
  | _ => none
/-- ORDER and SCOPE of a word without DEF. -/
def ordScope (ok : Order → Bool) (x : BitVec 6) (k : Order → Scope → DecodeResult) : DecodeResult :=
  match orderOf (x.extractLsb' 0 3), scopeOf (x.extractLsb' 3 3) with
  | some o, some s => need (ok o) .badOrder (k o s)
  | _, _ => .error .badOrder
/-- ORDER, SCOPE and DEF in bits [6:0] of a control value (R442). -/
def ordDef (ok : Order → Bool) (x : BitVec 7) (k : Order → Option Scope → DecodeResult) : DecodeResult :=
  match orderOf (x.extractLsb' 0 3), scopeOf (x.extractLsb' 3 3) with
  | some o, some s =>
    need (ok o) .badOrder
      (if x.extractLsb' 6 1 == 1 then need (x.extractLsb' 3 3 == 0) .badField (k o none) else k o (some s))
  | _, _ => .error .badOrder
/-- The control value of LDB to STD. -/
def memCtl (ok : Order → Bool) (b : BitVec 7) (lit : Option Word) (k : MemCtl → DecodeResult) : DecodeResult :=
  match lit with
  | none => ordDef ok b (fun o s => k ⟨o, s, none⟩)
  | some v => need (b == 0) .badField (ordDef ok (v.extractLsb' 0 7) (fun o s => k ⟨o, s, some (v.extractLsb' 7 25)⟩))
/-- PACK (R442). -/
def packOf (x : BitVec 2) : Option Pack :=
  match x.toNat with
  | 0 => some .p8 | 1 => some .p6 | 2 => some .p4
  | _ => none
/-- The control value of LDV and STV. -/
def vecCtl (ok : Order → Bool) (b : BitVec 7) (lit : Option Word) (k : VecCtl → DecodeResult) : DecodeResult :=
  match lit with
  | none => ordDef ok b (fun o s => k ⟨o, s, none⟩)
  | some v => need (b == 0) .badField (ordDef ok (v.extractLsb' 0 7) (fun o s =>
      match packOf (v.extractLsb' 7 2) with
      | none => .error .badField
      | some p => k ⟨o, s, some ⟨p, v.extractLsb' 9 1 == 1, v.extractLsb' 10 22⟩⟩))

def xLd (f : XFields) (lit : Option Word) (k : XDst → RIdx → MemCtl → Instr) : DecodeResult :=
  xdst f.d (fun d => r6 f.a (fun a => memCtl loadOrder f.b lit (fun c => .ok (k d a c))))
def xSt (f : XFields) (lit : Option Word) (k : RIdx → XSrc → MemCtl → Instr) : DecodeResult :=
  r6 f.d (fun d => memCtl storeOrder f.b lit (fun c => .ok (k d (xsrc f.a) c)))
def xLdv (f : XFields) (lit : Option Word) (k : VDst → RIdx → VecCtl → Instr) : DecodeResult :=
  vdst f.d (fun d => r6 f.a (fun a => vecCtl loadOrder f.b lit (fun c => .ok (k d a c))))
def xStv (f : XFields) (lit : Option Word) (k : RIdx → VSrc → VecCtl → Instr) : DecodeResult :=
  r6 f.d (fun d => vecCtl storeOrder f.b lit (fun c => .ok (k d (vsrc f.a) c)))
def xLdfe (f : XFields) (lit : Option Word) (k : XDst → RIdx → LdfeCtl → Instr) : DecodeResult :=
  xdst f.d (fun d => r6 f.a (fun a =>
    match lit with
    | none => ordDef loadOrder f.b (fun o s => .ok (k d a ⟨o, s, none⟩))
    | some v => need (f.b == 0) .badField (ordDef loadOrder (v.extractLsb' 0 7) (fun o s =>
        .ok (k d a ⟨o, s, some (v.extractLsb' 7 1 == 1, v.extractLsb' 8 24)⟩)))))
def xStfe (f : XFields) (lit : Option Word) (k : RIdx → XSrc → StfeCtl → Instr) : DecodeResult :=
  r6 f.d (fun d =>
    match lit with
    | none => ordDef storeOrder f.b (fun o s => .ok (k d (xsrc f.a) ⟨o, s, none⟩))
    | some v => need (f.b == 0 && v.extractLsb' 7 1 == 0) .badField (ordDef storeOrder (v.extractLsb' 0 7) (fun o s =>
        .ok (k d (xsrc f.a) ⟨o, s, some (v.extractLsb' 8 24)⟩))))
def xFeclr (f : XFields) (lit : Option Word) (k : RIdx → RIdx → Option (BitVec 25) → Instr) : DecodeResult :=
  r6 f.d (fun d => r6 f.a (fun a => need (f.b == 0) .badField (
    match lit with
    | none => .ok (k d a none)
    | some v => need (v.extractLsb' 0 7 == 0) .badField (.ok (k d a (some (v.extractLsb' 7 25)))))))
def xTdesc (f : XFields) (lit : Option Word) (k : RIdx → BitVec 4 → Bool → Instr) : DecodeResult :=
  noLit lit (need (f.d == 0 && f.b.extractLsb' 5 2 == 0) .badField
    (r6 f.a (fun a => .ok (k a (f.b.extractLsb' 0 4) (f.b.extractLsb' 4 1 == 1)))))
def xTread (f : XFields) (lit : Option Word) (k : CIdx → RIdx → BitVec 4 → Instr) : DecodeResult :=
  noLit lit (need (f.b.extractLsb' 4 3 == 0) .badField (cdst f.d (fun d => r6 f.a (fun a => .ok (k d a (f.b.extractLsb' 0 4))))))
def xTwrite (f : XFields) (lit : Option Word) (k : RIdx → CSrc → BitVec 4 → Instr) : DecodeResult :=
  noLit lit (need (f.b.extractLsb' 4 3 == 0) .badField (r6 f.d (fun d => csrc f.a (fun a => .ok (k d a (f.b.extractLsb' 0 4))))))
def xTgather (f : XFields) (lit : Option Word) (k : CIdx → RIdx → RIdx → Instr) : DecodeResult :=
  noLit lit (cdst f.d (fun d => r6 f.a (fun a => r7 f.b (fun b => .ok (k d a b)))))
def xTscat (f : XFields) (lit : Option Word) (k : RIdx → CSrc → RIdx → Instr) : DecodeResult :=
  noLit lit (r6 f.d (fun d => csrc f.a (fun a => r7 f.b (fun b => .ok (k d a b)))))
def xChcfg (f : XFields) (lit : Option Word) (h : WHead) : DecodeResult :=
  noLit lit (need (f.b.extractLsb' 1 6 == 0) .badField (cdst f.d (fun d => r6 f.a (fun a =>
    .ok (if f.b.extractLsb' 0 1 == 1 then .chcfgOff h d a else .chcfg h d a)))))
def xC (f : XFields) (lit : Option Word) (k : CIdx → Instr) : DecodeResult :=
  noLit lit (need (f.a == 0 && f.b == 0) .badField (cdst f.d (fun d => .ok (k d))))
def xCs (f : XFields) (lit : Option Word) (k : CSrc → Instr) : DecodeResult :=
  noLit lit (need (f.d == 0 && f.b == 0) .badField (csrc f.a (fun a => .ok (k a))))
def xChw (f : XFields) (lit : Option Word) (k : PIdx → CSrc → Imm 7 → Instr) : DecodeResult :=
  p6 f.d (fun p => csrc f.a (fun a => immOf f.b lit (fun t => .ok (k p a t))))
def xChstat (f : XFields) (lit : Option Word) (k : RIdx → Option CSrc → Instr) : DecodeResult :=
  noLit lit (need (f.b == 0) .badField (r6 f.d (fun d =>
    if f.a == 0 then .ok (k d none) else csrc f.a (fun a => .ok (k d (some a))))))
def xRsend (f : XFields) (lit : Option Word) (k : RIdx → CSrc → Order → Scope → Instr) : DecodeResult :=
  noLit lit (need (f.b.extractLsb' 6 1 == 0) .badField (r6 f.d (fun d => csrc f.a (fun a =>
    ordScope sendOrder (f.b.extractLsb' 0 6) (fun o s => .ok (k d a o s))))))
def xRcast (f : XFields) (lit : Option Word) (k : RIdx → CSrc → Order → Scope → Bool → Instr) : DecodeResult :=
  noLit lit (r6 f.d (fun d => csrc f.a (fun a =>
    ordScope sendOrder (f.b.extractLsb' 0 6) (fun o s => .ok (k d a o s (f.b.extractLsb' 6 1 == 1))))))
def xAtom (f : XFields) (lit : Option Word) (k : RIdx → RIdx → AtomCtl → Instr) : DecodeResult :=
  noLit lit (r6 f.d (fun d => r6 f.a (fun a => ordDef atomOrder f.b (fun o s => .ok (k d a ⟨o, s⟩)))))
def xAcas (f : XFields) (lit : Option Word) (k : RIdx → RIdx → AtomCtl → Instr) : DecodeResult :=
  noLit lit (r6 f.d (fun d => need (decide (d.toNat < 31)) .badField
    (r6 f.a (fun a => ordDef atomOrder f.b (fun o s => .ok (k d a ⟨o, s⟩))))))
def xFlgset (f : XFields) (lit : Option Word) (k : RIdx → RIdx → AtomCtl → Instr) : DecodeResult :=
  noLit lit (r6 f.d (fun d => r6 f.a (fun a => ordDef sendOrder f.b (fun o s => .ok (k d a ⟨o, s⟩)))))
def xFence (f : XFields) (lit : Option Word) (k : Order → Scope → Instr) : DecodeResult :=
  noLit lit (need (f.d == 0 && f.a == 0 && f.b.extractLsb' 6 1 == 0) .badField
    (ordScope fenceOrder (f.b.extractLsb' 0 6) (fun o s => .ok (k o s))))
def xAA (f : XFields) (lit : Option Word) (k : RIdx → RIdx → Instr) : DecodeResult :=
  noLit lit (need (f.b == 0) .badField (r6 f.d (fun d => r6 f.a (fun a => .ok (k d a)))))
def xAAA (f : XFields) (lit : Option Word) (k : RIdx → RIdx → RIdx → Instr) : DecodeResult :=
  noLit lit (r6 f.d (fun d => r6 f.a (fun a => r7 f.b (fun b => .ok (k d a b)))))
def xA (f : XFields) (lit : Option Word) (k : RIdx → Instr) : DecodeResult :=
  noLit lit (need (f.d == 0 && f.b == 0) .badField (r6 f.a (fun a => .ok (k a))))
/-- CMP (R108). -/
def cmpOf (x : BitVec 3) : Option Cmp :=
  match x.toNat with
  | 0 => some .eq | 1 => some .ne | 2 => some .ltu | 3 => some .geu | 4 => some .any | 5 => some .none
  | _ => none
def xFlgwait (f : XFields) (lit : Option Word) (k : PIdx → RIdx → RIdx → FlgLit → Instr) : DecodeResult :=
  p6 f.d (fun p => r6 f.a (fun a => r7 f.b (fun b =>
    match lit with
    | none => .error .badLiteral
    | some v => ordDef waitOrder (v.extractLsb' 0 7) (fun o s =>
        match cmpOf (v.extractLsb' 7 3) with
        | none => .error .badField
        | some c => .ok (k p a b ⟨o, s, c, v.extractLsb' 10 22⟩)))))
def xBs (f : XFields) (lit : Option Word) (k : PIdx → RIdx → Imm 7 → Instr) : DecodeResult :=
  p6 f.d (fun p => r6 f.a (fun a => immOf f.b lit (fun t => .ok (k p a t))))
def xGcheck (f : XFields) (lit : Option Word) (k : PIdx → RIdx → Scope → Bool → Instr) : DecodeResult :=
  noLit lit (need (f.b.extractLsb' 0 3 == 0) .badField (p6 f.d (fun p => r6 f.a (fun a =>
    match scopeOf (f.b.extractLsb' 3 3) with
    | none => .error .badOrder
    | some s => .ok (k p a s (f.b.extractLsb' 6 1 == 1))))))
def xAaddi (f : XFields) (lit : Option Word) (k : RIdx → RIdx → Imm 7 → Instr) : DecodeResult :=
  r6 f.d (fun d => r6 f.a (fun a => immOf f.b lit (fun i => .ok (k d a i))))
def xPref (f : XFields) (lit : Option Word) (k : RIdx → Bool → BitVec 6 → Instr) : DecodeResult :=
  noLit lit (need (f.d == 0) .badField (r6 f.a (fun a => .ok (k a (f.b.extractLsb' 0 1 == 1) (f.b.extractLsb' 1 6)))))

/-- The S pipe's opcode map (R324). -/
def decodeSOp (f : SFields) (lit : Option Word) (h : SHead) : DecodeResult :=
  match f.op.toNat with
  | 0x00 => sNone f lit (.nop h)
  | 0x01 => sRRR f lit (.add h)
  | 0x02 => sRRR f lit (.sub h)
  | 0x03 => sRRR f lit (.mul h)
  | 0x04 => sRRR f lit (.mulhu h)
  | 0x05 => sRRR f lit (.divu h)
  | 0x06 => sRRR f lit (.remu h)
  | 0x07 => sRRR f lit (.and h)
  | 0x08 => sRRR f lit (.or h)
  | 0x09 => sRRR f lit (.xor h)
  | 0x0a => sRRR f lit (.shl h)
  | 0x0b => sRRR f lit (.shr h)
  | 0x0c => sRRR f lit (.sra h)
  | 0x0d => sRRR f lit (.min h)
  | 0x0e => sRRR f lit (.max h)
  | 0x0f => sRRR f lit (.minu h)
  | 0x10 => sRRR f lit (.maxu h)
  | 0x11 => sRR f lit (.clz h)
  | 0x12 => sRR f lit (.popc h)
  | 0x13 => sRRR f lit (.sel h)
  | 0x14 => sJ f lit (.addi h)
  | 0x15 => sJ f lit (.andi h)
  | 0x16 => sJ f lit (.ori h)
  | 0x17 => sJ f lit (.xori h)
  | 0x18 => sJ f lit (.shli h)
  | 0x19 => sJ f lit (.shri h)
  | 0x1a => sJ f lit (.srai h)
  | 0x1b => sI f lit (.movi h)
  | 0x1c => sMovl f lit (.movl h)
  | 0x1d => sPRR f lit (.cmpeq h)
  | 0x1e => sPRR f lit (.cmpne h)
  | 0x1f => sPRR f lit (.cmplt h)
  | 0x20 => sPRR f lit (.cmpltu h)
  | 0x21 => sPRR f lit (.cmpge h)
  | 0x22 => sPRR f lit (.cmpgeu h)
  | 0x23 => sPJ f lit (.cmpeqi h)
  | 0x24 => sPJ f lit (.cmplti h)
  | 0x25 => sPlog f lit h
  | 0x26 => sPR f lit (.pfrom h)
  | 0x27 => sSetj f lit (.setj h)
  | 0x28 => sLoopr f lit h
  | 0x29 => sRR f lit (.sfroma h)
  | 0x2a => sRRR f lit (.sfromv h)
  | 0x2b => sRR f lit (.sfromn h)
  | 0x2c => sCsrr f lit h
  | 0x2d => sCsrw f lit h
  | 0x2e => sNoD f lit (.trap h)
  | 0x2f => sTret f lit h
  | 0x30 => sFeat f lit h
  | 0x31 => sSpawn f lit h
  | 0x32 => sHitch f lit h
  | 0x33 => sNone f lit (.unhitch h)
  | 0x34 => sPI f lit (.hbar h)
  | 0x35 => sVwin f lit (.vwin h)
  | 0x36 => sNoD f lit (.vrot h)
  | 0x37 => sSetvt f lit h
  | 0x38 => sAB f lit (.srseed h)
  | 0x39 => sContain f lit h
  | 0x3a => sNone f lit (.endcont h)
  | 0x3b => sPR f lit (.chkl h)
  | 0x3c => sD f lit (.rdcyc h)
  | _ => .error .reservedOpcode

/-- The V pipe's opcode map (R325). -/
def decodeVOp (f : VFields) (lit : Option Word) (h : WHead) : DecodeResult :=
  match f.op.toNat with
  | 0x00 => vDAB f lit (.vadd h)
  | 0x01 => vDAB f lit (.vsub h)
  | 0x02 => vDAB f lit (.vmul h)
  | 0x03 => vWAB f lit (.vfma h)
  | 0x04 => vWAB f lit (.vfms h)
  | 0x05 => vWAB f lit (.vfnma h)
  | 0x06 => vDAB f lit (.vmin h)
  | 0x07 => vDAB f lit (.vmax h)
  | 0x08 => vDA f lit (.vabs h)
  | 0x09 => vDA f lit (.vneg h)
  | 0x0a => vDA f lit (.vrcp h)
  | 0x0b => vDA f lit (.vrsq h)
  | 0x0c => vDA f lit (.vexp2 h)
  | 0x0d => vDA f lit (.vlog2 h)
  | 0x0e => vDA f lit (.vtanh h)
  | 0x0f => vDAB f lit (.vclamp h)
  | 0x10 => vDAB f lit (.vand h)
  | 0x11 => vDAB f lit (.vor h)
  | 0x12 => vDAB f lit (.vxor h)
  | 0x13 => vDA f lit (.vnot h)
  | 0x14 => vDAB f lit (.vshl h)
  | 0x15 => vDAB f lit (.vshr h)
  | 0x16 => vDAB f lit (.vsra h)
  | 0x17 => vDAI f lit (.vaddi h)
  | 0x18 => vDAB f lit (.vimul h)
  | 0x19 => vDA f lit (.vpopc h)
  | 0x1a => vKAB f lit (.vceq h)
  | 0x1b => vKAB f lit (.vcne h)
  | 0x1c => vKAB f lit (.vclt h)
  | 0x1d => vKAB f lit (.vcle h)
  | 0x1e => vKAB f lit (.vcun h)
  | 0x1f => vDAB f lit (.vsel h)
  | 0x20 => vKKK f lit (.kand h)
  | 0x21 => vKKK f lit (.kor h)
  | 0x22 => vKKK f lit (.kxor h)
  | 0x23 => vKK f lit (.knot h)
  | 0x24 => vKI f lit (.kset h)
  | 0x25 => vKK f lit (.kany h)
  | 0x26 => vKK f lit (.kfirst h)
  | 0x27 => vDA f lit (.vrsum h)
  | 0x28 => vDA f lit (.vrmax h)
  | 0x29 => vDA f lit (.vrmin h)
  | 0x2a => vDA f lit (.vrimax h)
  | 0x2b => vDA f lit (.vmov h)
  | 0x2c => vWSI f lit (.stov h)
  | 0x2d => vD f lit (.viota h)
  | 0x2e => vDAB f lit (.vperm h)
  | 0x2f => vDAI f lit (.vslide h)
  | 0x30 => vDAK f lit (.vcmpr h)
  | 0x31 => vDAK f lit (.vxpnd h)
  | 0x32 => vDAI f lit (.vlane h)
  | 0x33 => vCvt f lit 32 (.cvtf32 h)
  | 0x34 => vCvt f lit 16 (.cvtbf16 h)
  | 0x35 => vCvt f lit 16 (.cvtf16 h)
  | 0x36 => vCvt f lit 8 (.cvte4m3 h)
  | 0x37 => vCvt f lit 8 (.cvte5m2 h)
  | 0x38 => vCvt f lit 8 (.cvte3m2 h)
  | 0x39 => vCvt f lit 8 (.cvte2m3 h)
  | 0x3a => vCvt f lit 8 (.cvte2m1 h)
  | 0x3b => vCvt f lit 32 (.cvti32 h)
  | 0x3c => vCvt f lit 8 (.cvti8 h)
  | 0x3d => vMx f lit (.mxq h)
  | 0x3e => vMx f lit (.mxdq h)
  | 0x3f => vDA f lit (.mxgets h)
  | 0x40 => vWA f lit (.mxsets h)
  | 0x41 => vRand f lit (.vrand h)
  | 0x42 => vKAK f lit (.vdefer h)
  | 0x43 => vDK f lit (.vdrain h)
  | 0x44 => vPA f lit (.vlame h)
  | 0x45 => vW f lit (.vclrl h)
  | _ => .error .reservedOpcode

/-- The M pipe's opcode map (R326). -/
def decodeMOp (f : MFields) (lit : Option Word) (h : WHead) : DecodeResult :=
  match f.op.toNat with
  | 0x00 => mDA f lit (.nfroms h)
  | 0x01 => mDI f lit (.nseti h)
  | 0x02 => mGo f lit (.ngo h)
  | 0x03 => mPI f lit (.nwait h)
  | 0x04 => mD f lit (.nstat h)
  | 0x05 => mNone f lit (.nfreeze h)
  | 0x06 => mNone f lit (.nthaw h)
  | 0x07 => mAI f lit (.ndrain h)
  | 0x08 => mAI f lit (.nfill h)
  | 0x09 => mD f lit (.npos h)
  | 0x0a => mA f lit (.nseek h)
  | 0x0b => mWf f lit (.wfetch h)
  | 0x0c => mSwap f lit (.wswap h)
  | 0x0d => mAI f lit (.aclr h)
  | 0x0e => mEpi f lit (.epicfg h)
  | 0x0f => mDA f lit (.cksum h)
  | 0x10 => mCut f lit h
  | _ => .error .reservedOpcode

/-- The X pipe's opcode map (R327). -/
def decodeXOp (f : XFields) (lit : Option Word) (h : WHead) : DecodeResult :=
  match f.op.toNat with
  | 0x00 => xLd f lit (.ldb h)
  | 0x01 => xLd f lit (.ldh h)
  | 0x02 => xLd f lit (.ldw h)
  | 0x03 => xLd f lit (.ldd h)
  | 0x04 => xSt f lit (.stb h)
  | 0x05 => xSt f lit (.sth h)
  | 0x06 => xSt f lit (.stw h)
  | 0x07 => xSt f lit (.std h)
  | 0x08 => xLdv f lit (.ldv h)
  | 0x09 => xStv f lit (.stv h)
  | 0x0a => xLdfe f lit (.ldfe h)
  | 0x0b => xStfe f lit (.stfe h)
  | 0x0c => xFeclr f lit (.feclr h)
  | 0x0d => xTdesc f lit (.tdesc h)
  | 0x0e => xTread f lit (.tread h)
  | 0x0f => xTwrite f lit (.twrite h)
  | 0x10 => xTgather f lit (.tgather h)
  | 0x11 => xTscat f lit (.tscatter h)
  | 0x12 => xTscat f lit (.tscadd h)
  | 0x13 => xChcfg f lit h
  | 0x14 => xC f lit (.chadv h)
  | 0x15 => xCs f lit (.chrel h)
  | 0x16 => xChw f lit (.chwaitf h)
  | 0x17 => xChw f lit (.chwaite h)
  | 0x18 => xChstat f lit (.chstat h)
  | 0x19 => xRsend f lit (.rsend h)
  | 0x1a => xRcast f lit (.rcast h)
  | 0x1b => xAtom f lit (.aadd h)
  | 0x1c => xAtom f lit (.amin h)
  | 0x1d => xAtom f lit (.amax h)
  | 0x1e => xAtom f lit (.aand h)
  | 0x1f => xAtom f lit (.aor h)
  | 0x20 => xAtom f lit (.axor h)
  | 0x21 => xAtom f lit (.axchg h)
  | 0x22 => xAcas f lit (.acas h)
  | 0x23 => xAtom f lit (.afadd h)
  | 0x24 => xFence f lit (.fence h)
  | 0x25 => xAA f lit (.flush h)
  | 0x26 => xAA f lit (.inval h)
  | 0x27 => xFlgset f lit (.flgset h)
  | 0x28 => xFlgwait f lit (.flgwait h)
  | 0x29 => xAAA f lit (.smap h)
  | 0x2a => xA f lit (.sunmap h)
  | 0x2b => xBs f lit (.baysplit h)
  | 0x2c => xGcheck f lit (.gcheck h)
  | 0x2d => xAA f lit (.afroms h)
  | 0x2e => xAaddi f lit (.aaddi h)
  | 0x2f => xPref f lit (.pref h)
  | _ => .error .reservedOpcode

/-- An S word: its selector, then its opcode (R317, R323). -/
def decodeS (f : SFields) (lit : Option Word) : DecodeResult :=
  match nxOf f.nx with
  | none => .error .badSelector
  | some nx => decodeSOp f lit ⟨chainOf f.ch, nx, f.g⟩
/-- A V word (R318). -/
def decodeV (f : VFields) (lit : Option Word) : DecodeResult := decodeVOp f lit ⟨chainOf f.ch, f.g⟩
/-- An M word (R318). -/
def decodeM (f : MFields) (lit : Option Word) : DecodeResult := decodeMOp f lit ⟨chainOf f.ch, f.g⟩
/-- An X word (R318). -/
def decodeX (f : XFields) (lit : Option Word) : DecodeResult := decodeXOp f lit ⟨chainOf f.ch, f.g⟩

/-- The instruction of a word and the word after it, which is its literal when CH is LIT (R315, R316). Total:
a word that is no instruction is refused by name. -/
def decodeWord (w next : Word) : DecodeResult :=
  let lit := if w.extractLsb' 30 2 == 3 then some next else none
  if w.extractLsb' 28 2 == 0 then decodeS (SFields.of w) lit
  else if w.extractLsb' 28 2 == 1 then decodeV (VFields.of w) lit
  else if w.extractLsb' 28 2 == 2 then decodeM (MFields.of w) lit
  else decodeX (XFields.of w) lit

/-! The encoder. -/

def Chain.bits : Chain → BitVec 2
  | .stop => 0 | .link => 1 | .pad => 2
def Nx.bits : Nx → BitVec 4
  | .seq => 0 | .loop => 1 | .brk => 2 | .ret => 3
  | .jmp j => 0b01#2 ++ j
  | .call j => 0b10#2 ++ j
  | .yield => 12 | .waitbrk => 13 | .stop => 14
def Imm.bits {n : Nat} : Imm n → BitVec n
  | .field v => v
  | .lit _ => 0
def Imm.word {n : Nat} : Imm n → Option Word
  | .field _ => none
  | .lit v => some v
def PFn.bits : PFn → BitVec 2
  | .and => 0 | .or => 1 | .xor => 2 | .andn => 3
def VSrc.bits : VSrc → BitVec 6
  | .win w => 0#1 ++ w
  | .pop c => 0b10#2 ++ c
  | .peek c => 0b11#2 ++ c
def VDst.bits : VDst → BitVec 6
  | .win w => 0#1 ++ w
  | .push c => 0b10#2 ++ c
def XSrc.bits : XSrc → BitVec 6
  | .reg a => 0#1 ++ a
  | .pop c => 0b10#2 ++ c
  | .peek c => 0b11#2 ++ c
def XDst.bits : XDst → BitVec 6
  | .reg a => 0#1 ++ a
  | .push c => 0b10#2 ++ c
def CSrc.bits (c : CSrc) : BitVec 6 := 1#1 ++ BitVec.ofBool c.peek ++ c.c
def chanBits (c : CIdx) : BitVec 6 := 0b10#2 ++ c
def chstatBits : Option CSrc → BitVec 6
  | none => 0
  | some c => c.bits
def CvtSrc.bits : CvtSrc → BitVec 4
  | .fp32 => 0 | .bf16 => 1 | .fp16 => 2 | .e4m3 => 3 | .e5m2 => 4 | .e3m2 => 5
  | .e2m3 => 6 | .e2m1 => 7 | .int8 => 8 | .int16 => 9 | .int32 => 10 | .mxi8 => 11
def MxFmt.bits : MxFmt → BitVec 3
  | .e4m3 => 0 | .e5m2 => 1 | .e3m2 => 2 | .e2m3 => 3 | .e2m1 => 4 | .mxi8 => 5
def CvtCtl.bits (c : CvtCtl) : BitVec 6 := c.part ++ c.src.bits
def MxCtl.bits (c : MxCtl) : BitVec 6 := BitVec.ofBool c.rne ++ c.part ++ c.fmt.bits
def Order.bits : Order → BitVec 3
  | .rlx => 0 | .acq => 1 | .rel => 2 | .acqrel => 3 | .sc => 4
def Scope.bits : Scope → BitVec 3
  | .stall => 0 | .paddock => 1 | .die => 2 | .module => 3 | .domain => 4 | .system => 5
def Cmp.bits : Cmp → BitVec 3
  | .eq => 0 | .ne => 1 | .ltu => 2 | .geu => 3 | .any => 4 | .none => 5
def Pack.bits : Pack → BitVec 2
  | .p8 => 0 | .p6 => 1 | .p4 => 2
/-- ORDER, SCOPE and DEF: an omitted scope is DEF with SCOPE 0 (R443). -/
def ordBits (o : Order) : Option Scope → BitVec 7
  | none => 0b1000#4 ++ o.bits
  | some s => 0#1 ++ s.bits ++ o.bits
def MemCtl.field (c : MemCtl) : BitVec 7 := if c.off.isSome then 0 else ordBits c.ord c.scope
def MemCtl.word (c : MemCtl) : Option Word := c.off.map (fun o => o ++ ordBits c.ord c.scope)
def VecCtl.field (c : VecCtl) : BitVec 7 := if c.lit.isSome then 0 else ordBits c.ord c.scope
def VecCtl.word (c : VecCtl) : Option Word :=
  c.lit.map (fun l => l.off ++ BitVec.ofBool l.scl ++ l.pack.bits ++ ordBits c.ord c.scope)
def LdfeCtl.field (c : LdfeCtl) : BitVec 7 := if c.lit.isSome then 0 else ordBits c.ord c.scope
def LdfeCtl.word (c : LdfeCtl) : Option Word := c.lit.map (fun l => l.2 ++ BitVec.ofBool l.1 ++ ordBits c.ord c.scope)
def StfeCtl.field (c : StfeCtl) : BitVec 7 := if c.off.isSome then 0 else ordBits c.ord c.scope
def StfeCtl.word (c : StfeCtl) : Option Word := c.off.map (fun o => o ++ 0#1 ++ ordBits c.ord c.scope)
def AtomCtl.field (c : AtomCtl) : BitVec 7 := ordBits c.ord c.scope
def FlgLit.word (l : FlgLit) : Word := l.timeout ++ l.cmp.bits ++ ordBits l.ord l.scope

/-- The fields of a word, by pipe. -/
inductive Packed where
  | s (f : SFields) | v (f : VFields) | m (f : MFields) | x (f : XFields)
  deriving DecidableEq, Repr

def eS (h : SHead) (op : BitVec 6) (d a b : BitVec 5) : Packed := .s ⟨h.ch.bits, h.nx.bits, h.g, op, d, a, b⟩
def eSI (h : SHead) (op : BitVec 6) (d : BitVec 5) (i : BitVec 10) : Packed :=
  .s ⟨h.ch.bits, h.nx.bits, h.g, op, d, i.extractLsb' 5 5, i.extractLsb' 0 5⟩
def eV (h : WHead) (op : BitVec 7) (d a b : BitVec 6) : Packed := .v ⟨h.ch.bits, h.g, op, d, a, b⟩
def eM (h : WHead) (op : BitVec 5) (d a : BitVec 5) (b : BitVec 10) : Packed := .m ⟨h.ch.bits, h.g, op, d, a, b⟩
def eX (h : WHead) (op : BitVec 6) (d a : BitVec 6) (b : BitVec 7) : Packed := .x ⟨h.ch.bits, h.g, op, d, a, b⟩

/-- The fields and the literal of an S word (R317, R324). -/
def encodeS : Instr → Option (Packed × Option Word)
  | .nop h => some (eS h 0x00 0 0 0, none)
  | .add h d a b => some (eS h 0x01 d a b, none)
  | .sub h d a b => some (eS h 0x02 d a b, none)
  | .mul h d a b => some (eS h 0x03 d a b, none)
  | .mulhu h d a b => some (eS h 0x04 d a b, none)
  | .divu h d a b => some (eS h 0x05 d a b, none)
  | .remu h d a b => some (eS h 0x06 d a b, none)
  | .and h d a b => some (eS h 0x07 d a b, none)
  | .or h d a b => some (eS h 0x08 d a b, none)
  | .xor h d a b => some (eS h 0x09 d a b, none)
  | .shl h d a b => some (eS h 0x0a d a b, none)
  | .shr h d a b => some (eS h 0x0b d a b, none)
  | .sra h d a b => some (eS h 0x0c d a b, none)
  | .min h d a b => some (eS h 0x0d d a b, none)
  | .max h d a b => some (eS h 0x0e d a b, none)
  | .minu h d a b => some (eS h 0x0f d a b, none)
  | .maxu h d a b => some (eS h 0x10 d a b, none)
  | .clz h d a => some (eS h 0x11 d a 0, none)
  | .popc h d a => some (eS h 0x12 d a 0, none)
  | .sel h d a b => some (eS h 0x13 d a b, none)
  | .addi h d a i => some (eS h 0x14 d a i.bits, i.word)
  | .andi h d a i => some (eS h 0x15 d a i.bits, i.word)
  | .ori h d a i => some (eS h 0x16 d a i.bits, i.word)
  | .xori h d a i => some (eS h 0x17 d a i.bits, i.word)
  | .shli h d a i => some (eS h 0x18 d a i.bits, i.word)
  | .shri h d a i => some (eS h 0x19 d a i.bits, i.word)
  | .srai h d a i => some (eS h 0x1a d a i.bits, i.word)
  | .movi h d i => some (eSI h 0x1b d i.bits, i.word)
  | .movl h d v => some (eSI h 0x1c d 0, some v)
  | .cmpeq h p a b => some (eS h 0x1d (p.zeroExtend 5) a b, none)
  | .cmpne h p a b => some (eS h 0x1e (p.zeroExtend 5) a b, none)
  | .cmplt h p a b => some (eS h 0x1f (p.zeroExtend 5) a b, none)
  | .cmpltu h p a b => some (eS h 0x20 (p.zeroExtend 5) a b, none)
  | .cmpge h p a b => some (eS h 0x21 (p.zeroExtend 5) a b, none)
  | .cmpgeu h p a b => some (eS h 0x22 (p.zeroExtend 5) a b, none)
  | .cmpeqi h p a i => some (eS h 0x23 (p.zeroExtend 5) a i.bits, i.word)
  | .cmplti h p a i => some (eS h 0x24 (p.zeroExtend 5) a i.bits, i.word)
  | .plog h fn p a b => some (eS h 0x25 (p.zeroExtend 5) (fn.bits ++ a) (b.zeroExtend 5), none)
  | .pfrom h p a => some (eS h 0x26 (p.zeroExtend 5) a 0, none)
  | .setj h j i => some (eSI h 0x27 (j.zeroExtend 5) i.bits, i.word)
  | .loopr h a j => some (eS h 0x28 0 a (j.zeroExtend 5), none)
  | .sfroma h d a => some (eS h 0x29 d a 0, none)
  | .sfromv h d w b => some (eS h 0x2a d w b, none)
  | .sfromn h d n => some (eS h 0x2b d n 0, none)
  | .csrr h d c => some (eSI h 0x2c d c, none)
  | .csrw h d c => some (eSI h 0x2d d c, none)
  | .trap h i => some (eSI h 0x2e 0 i, none)
  | .tret h => some (eS h 0x2f 0 0 0, none)
  | .feat h p b => some (eSI h 0x30 (p.zeroExtend 5) (b.zeroExtend 10), none)
  | .spawn h d j b => some (eS h 0x31 d (j.zeroExtend 5) b, none)
  | .hitchCreate h d => some (eS h 0x32 d 0 0, none)
  | .hitchJoin h d a => some (eS h 0x32 d a 1, none)
  | .unhitch h => some (eS h 0x33 0 0 0, none)
  | .hbar h p t => some (eSI h 0x34 (p.zeroExtend 5) t.bits, t.word)
  | .vwin h i => some (eSI h 0x35 0 i.bits, i.word)
  | .vrot h i => some (eSI h 0x36 0 i, none)
  | .setvt h e r st m => some (eSI h 0x37 0 (m ++ BitVec.ofBool st ++ r ++ e), none)
  | .srseed h a b => some (eS h 0x38 0 a b, none)
  | .contain h j => some (eS h 0x39 0 0 (j.zeroExtend 5), none)
  | .endcont h => some (eS h 0x3a 0 0 0, none)
  | .chkl h p a => some (eS h 0x3b (p.zeroExtend 5) a 0, none)
  | .rdcyc h d => some (eS h 0x3c d 0 0, none)
  | _ => none
/-- The fields and the literal of a V word (R318, R325). -/
def encodeV : Instr → Option (Packed × Option Word)
  | .vadd h d a b => some (eV h 0x00 d.bits a.bits b.bits, none)
  | .vsub h d a b => some (eV h 0x01 d.bits a.bits b.bits, none)
  | .vmul h d a b => some (eV h 0x02 d.bits a.bits b.bits, none)
  | .vfma h d a b => some (eV h 0x03 (d.zeroExtend 6) a.bits b.bits, none)
  | .vfms h d a b => some (eV h 0x04 (d.zeroExtend 6) a.bits b.bits, none)
  | .vfnma h d a b => some (eV h 0x05 (d.zeroExtend 6) a.bits b.bits, none)
  | .vmin h d a b => some (eV h 0x06 d.bits a.bits b.bits, none)
  | .vmax h d a b => some (eV h 0x07 d.bits a.bits b.bits, none)
  | .vabs h d a => some (eV h 0x08 d.bits a.bits 0, none)
  | .vneg h d a => some (eV h 0x09 d.bits a.bits 0, none)
  | .vrcp h d a => some (eV h 0x0a d.bits a.bits 0, none)
  | .vrsq h d a => some (eV h 0x0b d.bits a.bits 0, none)
  | .vexp2 h d a => some (eV h 0x0c d.bits a.bits 0, none)
  | .vlog2 h d a => some (eV h 0x0d d.bits a.bits 0, none)
  | .vtanh h d a => some (eV h 0x0e d.bits a.bits 0, none)
  | .vclamp h d a b => some (eV h 0x0f d.bits a.bits b.bits, none)
  | .vand h d a b => some (eV h 0x10 d.bits a.bits b.bits, none)
  | .vor h d a b => some (eV h 0x11 d.bits a.bits b.bits, none)
  | .vxor h d a b => some (eV h 0x12 d.bits a.bits b.bits, none)
  | .vnot h d a => some (eV h 0x13 d.bits a.bits 0, none)
  | .vshl h d a b => some (eV h 0x14 d.bits a.bits b.bits, none)
  | .vshr h d a b => some (eV h 0x15 d.bits a.bits b.bits, none)
  | .vsra h d a b => some (eV h 0x16 d.bits a.bits b.bits, none)
  | .vaddi h d a i => some (eV h 0x17 d.bits a.bits i.bits, i.word)
  | .vimul h d a b => some (eV h 0x18 d.bits a.bits b.bits, none)
  | .vpopc h d a => some (eV h 0x19 d.bits a.bits 0, none)
  | .vceq h d a b => some (eV h 0x1a (d.zeroExtend 6) a.bits b.bits, none)
  | .vcne h d a b => some (eV h 0x1b (d.zeroExtend 6) a.bits b.bits, none)
  | .vclt h d a b => some (eV h 0x1c (d.zeroExtend 6) a.bits b.bits, none)
  | .vcle h d a b => some (eV h 0x1d (d.zeroExtend 6) a.bits b.bits, none)
  | .vcun h d a b => some (eV h 0x1e (d.zeroExtend 6) a.bits b.bits, none)
  | .vsel h d a b => some (eV h 0x1f d.bits a.bits b.bits, none)
  | .kand h d a b => some (eV h 0x20 (d.zeroExtend 6) (a.zeroExtend 6) (b.zeroExtend 6), none)
  | .kor h d a b => some (eV h 0x21 (d.zeroExtend 6) (a.zeroExtend 6) (b.zeroExtend 6), none)
  | .kxor h d a b => some (eV h 0x22 (d.zeroExtend 6) (a.zeroExtend 6) (b.zeroExtend 6), none)
  | .knot h d a => some (eV h 0x23 (d.zeroExtend 6) (a.zeroExtend 6) 0, none)
  | .kset h d i => some (eV h 0x24 (d.zeroExtend 6) 0 i.bits, i.word)
  | .kany h p a => some (eV h 0x25 (p.zeroExtend 6) (a.zeroExtend 6) 0, none)
  | .kfirst h d a => some (eV h 0x26 (d.zeroExtend 6) (a.zeroExtend 6) 0, none)
  | .vrsum h d a => some (eV h 0x27 d.bits a.bits 0, none)
  | .vrmax h d a => some (eV h 0x28 d.bits a.bits 0, none)
  | .vrmin h d a => some (eV h 0x29 d.bits a.bits 0, none)
  | .vrimax h d a => some (eV h 0x2a d.bits a.bits 0, none)
  | .vmov h d a => some (eV h 0x2b d.bits a.bits 0, none)
  | .stov h d a i => some (eV h 0x2c (d.zeroExtend 6) (a.zeroExtend 6) i.bits, i.word)
  | .viota h d => some (eV h 0x2d d.bits 0 0, none)
  | .vperm h d a b => some (eV h 0x2e d.bits a.bits b.bits, none)
  | .vslide h d a i => some (eV h 0x2f d.bits a.bits i.bits, i.word)
  | .vcmpr h d a k => some (eV h 0x30 d.bits a.bits (k.zeroExtend 6), none)
  | .vxpnd h d a k => some (eV h 0x31 d.bits a.bits (k.zeroExtend 6), none)
  | .vlane h d a i => some (eV h 0x32 d.bits a.bits i.bits, i.word)
  | .cvtf32 h d a c => some (eV h 0x33 d.bits a.bits c.bits, none)
  | .cvtbf16 h d a c => some (eV h 0x34 d.bits a.bits c.bits, none)
  | .cvtf16 h d a c => some (eV h 0x35 d.bits a.bits c.bits, none)
  | .cvte4m3 h d a c => some (eV h 0x36 d.bits a.bits c.bits, none)
  | .cvte5m2 h d a c => some (eV h 0x37 d.bits a.bits c.bits, none)
  | .cvte3m2 h d a c => some (eV h 0x38 d.bits a.bits c.bits, none)
  | .cvte2m3 h d a c => some (eV h 0x39 d.bits a.bits c.bits, none)
  | .cvte2m1 h d a c => some (eV h 0x3a d.bits a.bits c.bits, none)
  | .cvti32 h d a c => some (eV h 0x3b d.bits a.bits c.bits, none)
  | .cvti8 h d a c => some (eV h 0x3c d.bits a.bits c.bits, none)
  | .mxq h d a c => some (eV h 0x3d d.bits a.bits c.bits, none)
  | .mxdq h d a c => some (eV h 0x3e d.bits a.bits c.bits, none)
  | .mxgets h d a => some (eV h 0x3f d.bits a.bits 0, none)
  | .mxsets h d a => some (eV h 0x40 (d.zeroExtend 6) a.bits 0, none)
  | .vrand h d u => some (eV h 0x41 d.bits 0 (BitVec.zeroExtend 6 (BitVec.ofBool u)), none)
  | .vdefer h d a b => some (eV h 0x42 (d.zeroExtend 6) a.bits (b.zeroExtend 6), none)
  | .vdrain h d b => some (eV h 0x43 d.bits 0 (b.zeroExtend 6), none)
  | .vlame h p a => some (eV h 0x44 (p.zeroExtend 6) a.bits 0, none)
  | .vclrl h d => some (eV h 0x45 (d.zeroExtend 6) 0 0, none)
  | _ => none
/-- The fields and the literal of an M word (R318, R326). -/
def encodeM : Instr → Option (Packed × Option Word)
  | .nfroms h d a => some (eM h 0x00 d a 0, none)
  | .nseti h d i => some (eM h 0x01 d 0 i.bits, i.word)
  | .ngo h m => some (eM h 0x02 0 0 (m.zeroExtend 10), none)
  | .nwait h p t => some (eM h 0x03 (p.zeroExtend 5) 0 t.bits, t.word)
  | .nstat h d => some (eM h 0x04 d 0 0, none)
  | .nfreeze h => some (eM h 0x05 0 0 0, none)
  | .nthaw h => some (eM h 0x06 0 0 0, none)
  | .ndrain h a c => some (eM h 0x07 0 a c, none)
  | .nfill h a c => some (eM h 0x08 0 a c, none)
  | .npos h d => some (eM h 0x09 d 0 0, none)
  | .nseek h a => some (eM h 0x0a 0 a 0, none)
  | .wfetch h a sl => some (eM h 0x0b 0 a (sl.zeroExtend 10), none)
  | .wswap h k => some (eM h 0x0c 0 0 (BitVec.zeroExtend 10 (BitVec.ofBool k)), none)
  | .aclr h a c => some (eM h 0x0d 0 a c, none)
  | .epicfg h a e => some (eM h 0x0e 0 a (e.zeroExtend 10), none)
  | .cksum h d a => some (eM h 0x0f d a 0, none)
  | .ncutEnd h => some (eM h 0x10 0 0 0, none)
  | .ncutAbandon h => some (eM h 0x10 0 0 1, none)
  | _ => none
/-- The fields and the literal of an X word (R318, R327). -/
def encodeX : Instr → Option (Packed × Option Word)
  | .ldb h d a c => some (eX h 0x00 d.bits (a.zeroExtend 6) c.field, c.word)
  | .ldh h d a c => some (eX h 0x01 d.bits (a.zeroExtend 6) c.field, c.word)
  | .ldw h d a c => some (eX h 0x02 d.bits (a.zeroExtend 6) c.field, c.word)
  | .ldd h d a c => some (eX h 0x03 d.bits (a.zeroExtend 6) c.field, c.word)
  | .stb h d a c => some (eX h 0x04 (d.zeroExtend 6) a.bits c.field, c.word)
  | .sth h d a c => some (eX h 0x05 (d.zeroExtend 6) a.bits c.field, c.word)
  | .stw h d a c => some (eX h 0x06 (d.zeroExtend 6) a.bits c.field, c.word)
  | .std h d a c => some (eX h 0x07 (d.zeroExtend 6) a.bits c.field, c.word)
  | .ldv h d a c => some (eX h 0x08 d.bits (a.zeroExtend 6) c.field, c.word)
  | .stv h d a c => some (eX h 0x09 (d.zeroExtend 6) a.bits c.field, c.word)
  | .ldfe h d a c => some (eX h 0x0a d.bits (a.zeroExtend 6) c.field, c.word)
  | .stfe h d a c => some (eX h 0x0b (d.zeroExtend 6) a.bits c.field, c.word)
  | .feclr h d a o => some (eX h 0x0c (d.zeroExtend 6) (a.zeroExtend 6) 0, o.map (fun x => x ++ 0#7))
  | .tdesc h a sl z => some (eX h 0x0d 0 (a.zeroExtend 6) (BitVec.zeroExtend 7 (BitVec.ofBool z ++ sl)), none)
  | .tread h d a sl => some (eX h 0x0e (chanBits d) (a.zeroExtend 6) (sl.zeroExtend 7), none)
  | .twrite h d a sl => some (eX h 0x0f (d.zeroExtend 6) a.bits (sl.zeroExtend 7), none)
  | .tgather h d a b => some (eX h 0x10 (chanBits d) (a.zeroExtend 6) (b.zeroExtend 7), none)
  | .tscatter h d a b => some (eX h 0x11 (d.zeroExtend 6) a.bits (b.zeroExtend 7), none)
  | .tscadd h d a b => some (eX h 0x12 (d.zeroExtend 6) a.bits (b.zeroExtend 7), none)
  | .chcfg h d a => some (eX h 0x13 (chanBits d) (a.zeroExtend 6) 0, none)
  | .chcfgOff h d a => some (eX h 0x13 (chanBits d) (a.zeroExtend 6) 1, none)
  | .chadv h d => some (eX h 0x14 (chanBits d) 0 0, none)
  | .chrel h a => some (eX h 0x15 0 a.bits 0, none)
  | .chwaitf h p a t => some (eX h 0x16 (p.zeroExtend 6) a.bits t.bits, t.word)
  | .chwaite h p a t => some (eX h 0x17 (p.zeroExtend 6) a.bits t.bits, t.word)
  | .chstat h d a => some (eX h 0x18 (d.zeroExtend 6) (chstatBits a) 0, none)
  | .rsend h d a o sc => some (eX h 0x19 (d.zeroExtend 6) a.bits (BitVec.zeroExtend 7 (sc.bits ++ o.bits)), none)
  | .rcast h d a o sc c => some (eX h 0x1a (d.zeroExtend 6) a.bits (BitVec.ofBool c ++ sc.bits ++ o.bits), none)
  | .aadd h d a c => some (eX h 0x1b (d.zeroExtend 6) (a.zeroExtend 6) c.field, none)
  | .amin h d a c => some (eX h 0x1c (d.zeroExtend 6) (a.zeroExtend 6) c.field, none)
  | .amax h d a c => some (eX h 0x1d (d.zeroExtend 6) (a.zeroExtend 6) c.field, none)
  | .aand h d a c => some (eX h 0x1e (d.zeroExtend 6) (a.zeroExtend 6) c.field, none)
  | .aor h d a c => some (eX h 0x1f (d.zeroExtend 6) (a.zeroExtend 6) c.field, none)
  | .axor h d a c => some (eX h 0x20 (d.zeroExtend 6) (a.zeroExtend 6) c.field, none)
  | .axchg h d a c => some (eX h 0x21 (d.zeroExtend 6) (a.zeroExtend 6) c.field, none)
  | .acas h d a c => some (eX h 0x22 (d.zeroExtend 6) (a.zeroExtend 6) c.field, none)
  | .afadd h d a c => some (eX h 0x23 (d.zeroExtend 6) (a.zeroExtend 6) c.field, none)
  | .fence h o sc => some (eX h 0x24 0 0 (BitVec.zeroExtend 7 (sc.bits ++ o.bits)), none)
  | .flush h d a => some (eX h 0x25 (d.zeroExtend 6) (a.zeroExtend 6) 0, none)
  | .inval h d a => some (eX h 0x26 (d.zeroExtend 6) (a.zeroExtend 6) 0, none)
  | .flgset h d a c => some (eX h 0x27 (d.zeroExtend 6) (a.zeroExtend 6) c.field, none)
  | .flgwait h p a b l => some (eX h 0x28 (p.zeroExtend 6) (a.zeroExtend 6) (b.zeroExtend 7), some l.word)
  | .smap h d a b => some (eX h 0x29 (d.zeroExtend 6) (a.zeroExtend 6) (b.zeroExtend 7), none)
  | .sunmap h a => some (eX h 0x2a 0 (a.zeroExtend 6) 0, none)
  | .baysplit h p a t => some (eX h 0x2b (p.zeroExtend 6) (a.zeroExtend 6) t.bits, t.word)
  | .gcheck h p a sc fo => some (eX h 0x2c (p.zeroExtend 6) (a.zeroExtend 6) (BitVec.ofBool fo ++ sc.bits ++ 0#3), none)
  | .afroms h d a => some (eX h 0x2d (d.zeroExtend 6) (a.zeroExtend 6) 0, none)
  | .aaddi h d a i => some (eX h 0x2e (d.zeroExtend 6) (a.zeroExtend 6) i.bits, i.word)
  | .pref h a l n => some (eX h 0x2f 0 (a.zeroExtend 6) (n ++ BitVec.ofBool l), none)
  | _ => none

/-- The fields and the literal of a pipe word; a selector or a step of the device has none. -/
def encodeFields (i : Instr) : Option (Packed × Option Word) :=
  (encodeS i).or ((encodeV i).or ((encodeM i).or (encodeX i)))

/-- The word of its fields, with CH set to LIT when a literal follows (R315). -/
def Packed.pack (lit : Bool) : Packed → Word
  | .s f => (if lit then { f with ch := 3 } else f).pack
  | .v f => (if lit then { f with ch := 3 } else f).pack
  | .m f => (if lit then { f with ch := 3 } else f).pack
  | .x f => (if lit then { f with ch := 3 } else f).pack

/-- The words of an instruction: one, or two with its literal; none for a selector or a step of the device. -/
def encode (i : Instr) : List Word :=
  match encodeFields i with
  | none => []
  | some (p, none) => [p.pack false]
  | some (p, some v) => [p.pack true, v]

/-- The instruction the decoder reads from the bits w of an instruction: bits 31 to 0 are its word, bits 63 to 32
its literal. -/
def decodeTableWord (_nbits w : Nat) : Option Instr :=
  match decodeWord (BitVec.ofNat 32 w) (BitVec.ofNat 32 (w / 2 ^ 32)) with
  | .ok i => some i
  | .error _ => none

end Sys2Proof
end

