-- ==== Sys2Proof/Machine/State.lean ====
section
/-! DEFINITION. State.lean: the state of the module as plain data, and its value after reset. -/

namespace Sys2Proof.Machine

/-- Why the machine stops. -/
inductive Fault where
  /-- Raised by step: a thermal shutdown has removed power (R35); only a power-on reset starts the module again. Safe. -/
  | powerLost
  deriving DecidableEq, Repr

/-- Why a meaning refuses. -/
inductive Refusal where
  /-- Raised by an arm of exec that has no meaning yet. Safe. -/
  | notModelled (mnemonic : String)
  deriving DecidableEq, Repr

/-- A map from numbers, kept in rising order of its keys. -/
abbrev SMap (α : Type) := List (Nat × α)

/-- The value at a key. -/
def SMap.get? {α : Type} : SMap α → Nat → Option α
  | [], _ => none
  | (k, v) :: t, i => if k = i then some v else SMap.get? t i

/-- The value at a key, or a default. -/
def SMap.getD {α : Type} (m : SMap α) (i : Nat) (d : α) : α := (m.get? i).getD d

/-- The map with one value put at a key. -/
def SMap.put {α : Type} : SMap α → Nat → α → SMap α
  | [], i, x => [(i, x)]
  | (k, v) :: t, i, x =>
    if i < k then (i, x) :: (k, v) :: t
    else if i = k then (i, x) :: t
    else (k, v) :: SMap.put t i x

/-- The map without a key. -/
def SMap.del {α : Type} : SMap α → Nat → SMap α
  | [], _ => []
  | (k, v) :: t, i => if k = i then t else (k, v) :: SMap.del t i

/-- The map with the value at a key changed, when there is one. -/
def SMap.upd {α : Type} (m : SMap α) (i : Nat) (f : α → α) : SMap α :=
  match m.get? i with
  | none => m
  | some x => m.put i (f x)

/-- A value with the lame cause beside it: 0 not lame, 1 LATE, 2 REFUSED, 3 UE (R297). -/
structure Lamed (α : Type) where
  val : α
  lame : Lame := 0
  deriving DecidableEq, Repr

/-- A cause of R289 as it was raised, with the word and the pipe that TRAPCAUSE names (R288). -/
structure Cause where
  code : Byte
  info : DWord := 0
  word : BitVec 2 := 0
  pipe : BitVec 2 := 0
  /-- For UNCORRECTABLE, the lame cause that CONTSTAT takes in a containment region (R304, R306). -/
  lame : Lame := 0
  deriving DecidableEq, Repr

/-- Why a word or a group does not take effect: a cause of R289, or a hold before issue (R184, R210). -/
inductive Stop where
  | cause (c : Cause)
  | held
  | xfull
  deriving DecidableEq, Repr

/-- Where the word under way stands: its address, its position in the packet, its group's address, the sequential
successor of the group (R316), the bits of the word and its literal, whether the group is forced to issue (R183), and
whether it holds an X word, whose sources are served before a V destination (R186), and WAITLIM as the group found it
(R354). -/
structure Pos where
  addr : DWord := 0
  idx : BitVec 2 := 0
  group : DWord := 0
  succ : DWord := 0
  word : Word := 0
  lit : Word := 0
  forced : Bool := false
  withX : Bool := false
  limit : Nat := 0
  deriving DecidableEq, Repr

/-- An entry of the loop stack (R189). -/
structure LoopEntry where
  count : DWord
  head : DWord
  exit : DWord
  init : DWord
  deriving DecidableEq, Repr

/-- The register files of a context (R6, R161). The vector allocation lists the registers that differ from the wiped one. -/
structure Files where
  s : Vector (Lamed DWord) 32
  a : Vector (Lamed DWord) 32
  n : Vector (Lamed DWord) 32
  j : Vector (Lamed DWord) 4
  p : Vector (Lamed Bool) 8
  k : Vector (Lamed Mask) 8
  v : SMap (Lamed VReg)
  deriving DecidableEq, Repr

/-- The control and status registers of a context (R353). -/
structure Csrs where
  status : DWord := 0
  riderid : DWord := 0
  hitchid : DWord := 0
  wearcnt : DWord := 0
  declfeat : DWord := 0
  tolr : DWord := 0
  baymap : DWord := 0
  contstat : DWord := 0
  vtype : DWord := 0x80
  vwb : DWord := 0
  vrot : DWord := 0
  vflags : DWord := 0
  waitlim : DWord := 0x100000
  deferq : DWord := 0
  trapvec : DWord := 0
  trappc : DWord := 0
  trapcause : DWord := 0
  trapinfo : DWord := 0
  ssw : DWord := 0
  /-- GSEL, MCBSEL and MCBDATA belong to a groom context (R359, R360). -/
  gsel : DWord := 0
  mcbsel : DWord := 0x8000000
  mcbdata : DWord := 0
  deriving DecidableEq, Repr

/-- One register result of a landing-queue entry. -/
inductive RegWrite where
  | s (r : RIdx) (x : Lamed DWord)
  | a (r : RIdx) (x : Lamed DWord)
  | n (r : RIdx) (x : Lamed DWord)
  | j (r : JIdx) (x : Lamed DWord)
  | p (r : PIdx) (x : Lamed Bool)
  | k (r : KIdx) (x : Lamed Mask)
  /-- a vector register of the allocation, its window name resolved at issue (R354) -/
  | v (off : Nat) (x : Lamed VReg)
  /-- VCLRL: the lame bit of a vector register (R402) -/
  | vclr (off : Nat)
  /-- HITCHID, which changes with the result of HITCH (R365) -/
  | hitch (id : DWord)
  /-- a V result pushed to a channel: the record that the word reserved at issue (R380) -/
  | push (c : CIdx) (page rec : Nat) (x : Lamed VReg)
  deriving DecidableEq, Repr

/-- An entry of the landing queue (R178, R179): the issue order, the groups it still waits, its results, the VFLAGS it
raises on landing, the X command whose data it awaits, and the word that issued it. -/
structure Landing where
  seq : Nat
  remain : Nat
  writes : List RegWrite
  flags : BitVec 6 := 0
  tok : Option Nat := none
  divide : Bool := false
  word : Word := 0
  lit : Word := 0
  /-- VTYPE and the lane mask as the word found them (R311) -/
  vtype : DWord := 0
  mask : Mask := 0
  deriving DecidableEq, Repr

/-- What a trap sets aside (R292): the replay queue, the loop and link stacks, VWB and VROT. -/
structure Frame' where
  replay : List Landing
  loops : List LoopEntry
  links : List DWord
  vwb : DWord
  vrot : DWord
  guarded : Bool
  deriving DecidableEq, Repr

/-- The snapshot of a containment region (R303). -/
structure Snapshot where
  s : Vector (Lamed DWord) 32
  loops : List LoopEntry
  links : List DWord
  vwb : DWord
  vrot : DWord
  target : DWord
  deriving DecidableEq, Repr

/-- The state of a channel page (R185). -/
inductive PageSt where
  | free | open | filled | draining
  deriving DecidableEq, Repr

/-- A page: its state, the records reserved and written in it, whether its close is due, its absent records, the next
record to read, the records delivered lame with cause REFUSED (R227, R456) and with cause LATE (R183), and for REIN the offsets that have arrived
and the end that LASTPG named (R459). -/
structure Page where
  st : PageSt := .free
  res : Nat := 0
  wr : Nat := 0
  closed : Bool := false
  absent : List Nat := []
  rd : Nat := 0
  refused : List Nat := []
  late : List Nat := []
  flits : List Nat := []
  last : Option Nat := none
  deriving DecidableEq, Repr

/-- The producer class of a channel (R184). -/
inductive Prod where
  | rider | rein | whiff
  deriving DecidableEq, Repr

/-- A configured channel (R446, R188): head is the first page and open the index of the page the producer opens next. -/
structure Chan where
  base : Nat
  rpp : Nat
  prod : Prod
  array : Bool
  scal : Bool
  scope : BitVec 3
  pages : List Page
  head : Nat := 0
  openIx : Nat := 0
  zcnt : Nat := 0
  dcnt : Nat := 0
  deriving DecidableEq, Repr

/-- A tensor slot (R226, R455): the descriptor's fields, whether it is valid, and ZUE. -/
structure TSlot where
  valid : Bool
  fmt : Nat := 0
  ndim : Nat := 0
  scaled : Bool := false
  pinned : Bool := false
  spoff : Nat := 0
  dim : List Nat := []
  tile : List Nat := []
  slot : Nat := 0
  ttbase : Nat := 0
  zue : Bool := false
  raw : List Byte := []
  deriving DecidableEq, Repr

/-- Where an X command stands (R210, R444). -/
inductive XSt where
  /-- not begun -/
  | queued
  /-- halted at a translation fault, at a page and of a kind (R207, R210) -/
  | halted (va : Nat) (kind : Nat) (access : BitVec 4)
  /-- begun, with records still to move (R448) -/
  | moving
  /-- performed, with its data on the way (R444) or its reply from another module awaited (R54) -/
  | performed
  /-- LDFE that found its granule empty (R454) -/
  | empty
  deriving DecidableEq, Repr

/-- An X command (R210): the token and issue order, the word, the effective address, the operands captured at issue,
the channel records reserved, what has moved, and the data on their way. -/
structure XCmd where
  tok : Nat
  i : Instr
  ea : DWord := 0
  v1 : DWord := 0
  v2 : DWord := 0
  vec : VReg := 0
  org : List DWord := []
  guarded : Bool := false
  st : XSt := .queued
  /-- channel record reserved at issue: channel, page, record -/
  room : Option (Nat × Nat × Nat) := none
  prog : Nat := 0
  data : Option (Lamed VReg) := none
  data2 : DWord := 0
  commit : Bool := false
  /-- lame cause of the record held in vec -/
  lame : Lame := 0
  /-- discarded by an unwind after it had begun: its results are discarded (R304) -/
  mute : Bool := false
  /-- its place in the issue order, as a landing-queue entry has it; its channel has been unconfigured, so it moves no further record (R165, R446) -/
  seq : Nat := 0
  cut : Bool := false
  /-- an address generator's third detection has spoiled it: its results are lame, cause UE (R307) -/
  ue : Bool := false
  /-- pages whose halted access the owner has aborted: what the command does there next is not performed (R214) -/
  dead : List Nat := []
  deriving DecidableEq, Repr

/-- The state of a stash line (R222). -/
inductive StashSt where
  | absent | clean | dirty
  deriving DecidableEq, Repr

/-- A line of a stash mapping (R222, R223): its state, the physical line it holds, the cycles of its fill and of the first write
that made it dirty, its dirty bytes, and the granules that a write has poisoned since (R221, R301). -/
structure StashLine where
  st : StashSt := .absent
  pk : Nat := 0
  filled : Nat := 0
  written : Nat := 0
  dirty : BitVec 64 := 0
  tainted : BitVec 4 := 0
  deriving DecidableEq, Repr

/-- A stash mapping (R222): scratch offset, virtual address, length, and its 64-byte lines. -/
structure Stash where
  off : Nat
  va : Nat
  len : Nat
  lines : List StashLine
  deriving DecidableEq, Repr

/-- A held write of the guard buffer (R252, R312): a granule's address with its tag, the bytes and their mask. -/
structure Held where
  ea : DWord
  bytes : List Byte
  mask : BitVec 16
  fe : Bool := false
  poison : Bool := false
  deriving DecidableEq, Repr

/-- What a rider is blocked on (R180, R182, R183). -/
inductive WaitKind where
  | hbar
  | chf (c : CIdx)
  | che (c : CIdx)
  | flg (ea : DWord) (cmp : Cmp) (val : Word) (scope : Option Scope)
  | nwait
  | baysplit (cache : Byte)
  | ldfe (tok : Nat)
  /-- before a group held for a channel (R184) -/
  | held
  /-- before a group whose X word finds the command queue full (R210) -/
  | xfull
  /-- before a group whose code fetch is halted at a fault (R210); again when a RETRY has let it translate afresh (R214) -/
  | fetch (va : Nat) (kind : Nat) (again : Bool)
  | waitbrk
  deriving DecidableEq, Repr

/-- A wait in progress: its predicate when it is explicit, its whole length and the cycle in which it expires. -/
structure Wait where
  kind : WaitKind
  pred : Option PIdx
  limit : Nat
  deadline : Nat
  /-- its place in the issue order, with its word and literal, for the entry of its predicate -/
  seq : Nat := 0
  word : Word := 0
  lit : Word := 0
  /-- the poll of a FLGWAIT is halted at a fault, at an address and of a kind (R210) -/
  halted : Option (Nat × Nat) := none
  deriving DecidableEq, Repr

/-- The state of a nest (R424). -/
inductive NestSt where
  | idle | armed | running | frozen | done | cut | rejected | check
  deriving DecidableEq, Repr

/-- An M word in the port queue of a context, with its operands as read at issue (R438). -/
inductive PortWord where
  | ngo (cfg : List DWord) (mode : BitVec 3)
  | freeze | thaw
  /-- NDRAIN (out) and NFILL; ord is their place among the rider's X words (R434) -/
  | move (out : Bool) (a : DWord) (count ord : Nat)
  | aclr (a : DWord) (count : Nat)
  | seek (a : DWord)
  | wfetch (tile slot : Nat)
  | wswap (keep : Bool)
  | epicfg (e : Nat) (v : DWord)
  | cut (abandon : Bool)
  deriving DecidableEq, Repr

/-- The nest of a context (R420, R422, R424, R437). -/
structure Nest where
  st : NestSt := .idle
  code : Nat := 0
  misuse : Bool := false
  cfg : List DWord := []
  epi : List DWord := []
  staged : List DWord := List.replicate 8 0
  mode : BitVec 3 := 0
  pass : Nat := 0
  group : Nat := 0
  nck : Nat := 0
  rows : Nat := 0
  retried : Bool := false
  poison : Bool := false
  /-- the place of its arm in the order of arms (R417), and whether it has gathered -/
  arm : Nat := 0
  gathered : Bool := false
  /-- a freeze pending while it is armed (R433) -/
  fpend : Bool := false
  gang : Option Nat := none
  /-- grants of WSWAP: whether each keeps the active bank, and how many have been used (R427) -/
  grants : List Bool := []
  granted : Nat := 0
  /-- a WFETCH pending: tile and slot; and whether a WFETCH follows the previous swap (R427) -/
  wfetch : Option (Nat × Nat) := none
  fetched : Bool := false
  /-- port queue of R438, and the copy under way with the cycle of its end (R434) -/
  port : List PortWord := []
  copy : Option (PortWord × Nat) := none
  /-- the copy is halted at a fault of a stash fill (R210, R223), and the pages where its halted access has been aborted (R214) -/
  copyHalt : Option (Nat × Nat × BitVec 4) := none
  copyDead : List Nat := []
  /-- NEST_CHECK owed to the rider: step and module row (R309) -/
  owes : Option DWord := none
  deriving DecidableEq, Repr

/-- Where a rider stands. -/
inductive Loc where
  /-- waiting for the dispatcher, since a place in its arrival order (R143) -/
  | waiting (order : Nat)
  /-- resident on a stall, in user context 0 or 1, or 2 for the groom context -/
  | on (stall : Nat) (ctx : Nat)
  /-- stopped by a collection, still on its stall (R149) -/
  | stopped (stall : Nat) (ctx : Nat) (col : Nat)
  /-- saved in an image (R149, R311) -/
  | saved
  deriving DecidableEq, Repr

/-- A cached line of 64 bytes (R219 to R221, R301): its physical address, bytes, poison of its granules, dirty bytes,
the cycles of its fill and of the first write that made it dirty, the bytes that it holds (a store to a line that the slice does
not hold brings its own bytes alone), and the granules that a write has poisoned since it was last clean. -/
structure Line where
  pa : Nat
  bytes : List Byte
  poison : BitVec 4 := 0
  dirty : BitVec 64 := 0
  filled : Nat
  written : Nat := 0
  valid : BitVec 64 := BitVec.allOnes 64
  tainted : BitVec 4 := 0
  deriving DecidableEq, Repr

/-- A context: a rider with all it holds (R161), or a groom context. -/
structure Ctx where
  pc : DWord := 0
  loops : List LoopEntry := []
  links : List DWord := []
  f : Files
  csr : Csrs := {}
  /-- stochastic-rounding states that differ from those of sr_seed(seed) (R273, R274) -/
  srSeed : DWord × DWord := (0, 0)
  sr : SMap DWord := []
  land : List Landing := []
  seq : Nat := 0
  frame : Option Frame' := none
  snap : Option Snapshot := none
  chans : SMap Chan := []
  slots : SMap TSlot := []
  xq : List XCmd := []
  stash : List Stash := []
  guard : List Held := []
  guardMax : Nat := 0
  guardUsed : Nat := 0
  govf : Bool := false
  refused : Bool := false
  ue : Bool := false
  baddesc : Bool := false
  nref : Nat := 0
  nue : Nat := 0
  nest : Nest := {}
  waits : List Wait := []
  /-- the next group issues whatever its channels hold (R183) -/
  forced : Bool := false
  /-- a trap of TRAP that waits for the waits of its group (R361) -/
  pendingTrap : Option (Cause × DWord) := none
  /-- groups since the last sequencing point (R191) -/
  groups : Nat := 0
  /-- lines that other modules have returned for the access under way (R54) -/
  rbuf : List Line := []
  /-- the pages where the access under way is not performed (R214) -/
  dead : List Nat := []
  asid : Nat := 0
  root : Nat := 0
  aspace : Bool := false
  launch : Nat := 0
  /-- rider index within its launch (R117) -/
  index : Nat := 0
  tileX : Nat := 0
  tileY : Nat := 0
  bound : Option Nat := none
  loc : Loc := .waiting 0
  /-- the cycle at which it reached the dispatcher (R143, R151) -/
  since : Nat := 0
  /-- the collection that has a victim it chose: it chooses again when that one ends (R152) -/
  contested : Option Nat := none
  vbase : Nat := 0
  vregs : Nat := 0
  bays : List Nat := []
  nbays : Nat := 0
  deferOn : Bool := false
  /-- STOP has issued (R165) -/
  retiring : Bool := false
  /-- ended by an unrecovered error, with the cause (R296) -/
  failed : Option Cause := none
  /-- the first GCHECK in guarded mode has decided the tile (R469), and how -/
  gchecked : Option Bool := none
  deriving DecidableEq, Repr

/-- A valid leaf as a TLB holds it (R206, R208): its ASID, first address, size in bytes, permissions and frame. -/
structure TlbEntry where
  asid : Nat
  va : Nat
  size : Nat
  w : Bool
  x : Bool
  host : Bool
  nc : Bool
  pa : Nat
  deriving DecidableEq, Repr

/-- One bank of a weight latch (R22, R425): its format, and element k, n of its window at 32 k + n with
the scale that each brings. -/
structure Latch where
  full : Bool := false
  poison : Bool := false
  fmt : Nat := 0
  elems : List Nat := []
  scales : List Nat := []
  deriving DecidableEq, Repr

/-- A stall: which user context issued last, the context whose YIELD gives the next slot to another user context (R323), the cycles in
a row that each user context has been ready without a slot (R173), its two weight latches, and DISC of R451. -/
structure Stall where
  last : Bool := false
  yielded : Option Nat := none
  idle0 : Nat := 0
  idle1 : Nat := 0
  latch0 : Latch := {}
  latch1 : Latch := {}
  disc : Nat := 0
  deriving DecidableEq, Repr

/-- The byte memories of the module in one numbering (Ops.lean gives the base of each), the poisoned granules and the
full granules of scratch, and what the module has written to host memory, with the granules of it that are poisoned and the
4 KiB pages of host memory that the host refuses (the two are the host's own state, R82, R121; log entry 77). An address that is
not listed reads 0 (R91). -/
structure Mem where
  bytes : List Host.Cell := []
  poison : List Nat := []
  full : List Nat := []
  host : List Host.Cell := []
  hostPoison : List Nat := []
  hostGone : List Nat := []
  deriving DecidableEq, Repr

/-- The registers of the module and of its groom contexts that no context owns (R66, R67, R199, R310, R125, R132, R144,
R145, R150): one slot each, by index. -/
inductive Reg where
  | hifid | lcnonce | owner | lcstate | bootstat | intcause | inten | hiferr | msixPba
  | qbase (q : Nat) | qctl (q : Nat) | qptr (q : Nat) | qerr (q : Nat)
  | dblstat (die : Nat)
  | asroot (q : Nat) | tlbinv | splva | splctl | fltbase | fltptr
  | colmap (row : Nat) | dramclk (q : Nat) | pwrctl | rowpwr (row : Nat) | tsense (i : Nat) | shadowcnt (pos : Nat)
  | xlink (i : Nat) | soport (p : Nat) | domcfg | domreach | soetype | ckptctl | ckptdst | ckptstat
  | chklog (row : Nat)
  | stallwear (pos : Nat) | featmask (pos : Nat)
  | groomshare (stall : Nat) | dispctl | savepool (die : Nat) | feq (q : Nat) | festat (die : Nat)
  deriving DecidableEq, Repr

/-- What no reset wipes (R91): the life record by physical stall and row (R134, R19), serial and hours, the fuses (R101),
the identity keys (R103), the certificate chains of the module flash (R97, R493), and the MAC addresses of the ports (R48). -/
structure Nonvol where
  wear : SMap Nat := []
  state : SMap Nat := []
  featmask : SMap Nat := []
  retired : SMap Nat := []
  serial : Word := 0
  hours : Nat := 0
  lcs : Nat := 1
  svnmin : Nat := 0
  slotA : List Byte := []
  slotB : List Byte := []
  idKeys : Bool := true
  chain0 : List Byte := Config.chain 0
  chain1 : List Byte := Config.chain 1
  macs : List (BitVec 48) := (List.range 16).map Config.mac
  deriving DecidableEq, Repr

/-- A hitch (R168, R170). -/
structure Hitch where
  gen : Nat
  live : Bool := true
  members : List Nat
  arrived : List Nat := []
  phase : Nat := 0
  deriving DecidableEq, Repr

/-- What a launch runs (R107). -/
inductive LaunchKind where
  | kernel | surrogate
  deriving DecidableEq, Repr

/-- A launch in progress (R116, R117, R153, R156): its command or node, its bank, what its riders take, and how far it is. -/
structure Launch where
  kind : LaunchKind
  die : Nat
  cmd : Nat
  node : Option (Nat × Nat) := none
  bank : List Byte
  prio : Nat
  asid : Nat
  root : Nat
  aspace : Bool
  total : Nat
  created : Nat := 0
  hitch : Option Nat := none
  restart : Bool := false
  reexec : Bool := false
  stopping : Bool := false
  badStalls : List Nat := []
  fault : Bool := false
  /-- tiles that have fallen back, and those whose exact riders are not yet created (R156) -/
  fell : List Nat := []
  exact : List Nat := []
  /-- its completion has been reported; riders of committed tiles may still run (R116) -/
  finished : Bool := false
  wear : Nat := 0
  /-- how far the check of its inputs has come: a part of the list or a range, and a byte of it; and the lines that other modules have
  returned for it (R154) -/
  scan : Nat × Nat := (0, 0)
  input : List Line := []
  deriving DecidableEq, Repr

/-- A command in progress (R77, R80, R111). -/
structure Cmd where
  queue : Nat
  die : Nat
  opc : Nat
  irq : Bool
  prio : Nat
  space : Bool
  tag : Word
  ptr : DWord
  level : Nat
  /-- the INDIRECT that listed it (R79) -/
  parent : Option Nat := none
  cpl : Nat := 0
  desc : List Byte := []
  /-- started, and not yet carried out; a GRAPH may wait its turn in the order of R113 -/
  waiting : Bool := true
  /-- what it waits for has happened: its completion is due (R111) -/
  done : Bool := false
  status : Nat := 0
  node : Nat := 0xFFFF
  skipped : Nat := 0
  wear : Nat := 0
  /-- an INDIRECT whose list has been started to its end, or cut short (R111) -/
  listed : Bool := true
  deriving DecidableEq, Repr

/-- An expansion of an INDIRECT: its command, level, list and the next packet of it (R79, R80). -/
structure Expansion where
  cmd : Nat
  level : Nat
  space : Bool
  addr : Nat
  count : Nat
  next : Nat
  deriving DecidableEq, Repr

/-- The chaining engine of a queue: its expansions, innermost first, and the FLAGWAIT that holds the commands after it. -/
structure Engine where
  stack : List Expansion := []
  flagwait : Option Nat := none
  /-- the packet that halted the queue is a level-0 packet, which START has not passed (R126) -/
  refused0 : Bool := false
  deriving DecidableEq, Repr

/-- A replay (R114 to R120): LIVE of each node, the nodes that run, that are due to launch, and that have launched, the
iteration of each LOOP node that runs, and the status so far. -/
structure Replay where
  cmd : Nat
  die : Nat
  first : Nat
  count : Nat
  live : SMap Nat := []
  running : List Nat := []
  due : List Nat := []
  launched : List Nat := []
  /-- the launch of each KERNEL and SURROGATE node that has launched, the latest one (R116) -/
  runs : SMap Nat := []
  loops : SMap Nat := []
  loopFault : List Nat := []
  deriving DecidableEq, Repr

/-- A PATCH that waits for a GRAPH command or an INSTALL before it (R113, R122): its node, its bank, and its command. -/
structure Patch where
  die : Nat
  node : Nat
  bank : List Byte
  cmd : Nat
  deriving DecidableEq, Repr

/-- A collection (R149): its victims, the classes that have acknowledged, the space reserved, when its stops were sent,
whether COLLECTLIM bounds it, and the rider it makes room for. -/
structure Coll where
  victims : List Nat
  /-- its stops have been sent; until then its space is not reserved -/
  sent : Bool := false
  acks : List (Nat × EngineClass) := []
  space : SMap (Nat × Nat × Nat) := []
  start : Nat := 0
  limited : Bool := true
  /-- contexts are discarded without images (R154) -/
  discard : Bool := false
  waiter : Option Nat := none
  deriving DecidableEq, Repr

/-- A maintenance move: the logical column and the physical position of the drained stall (R157). -/
structure Move where
  col : Nat
  pos : Nat
  copying : Bool := false
  /-- the cycle in which the copy began -/
  since : Nat := 0
  deriving DecidableEq, Repr

/-- A member of a gang (R425): its context and stall; the pass of its next automatic fill; the cycle from which each bank is free; the active bank; the pass and step it starts next, the cycle of its latest step, and the rows
taken of the head record of its input channel. -/
structure Member where
  key : Nat
  stall : Nat
  fill : Nat := 0
  /-- the cycle in which the fill under way completes -/
  fillAt : Option Nat := none
  free0 : Nat := 0
  free1 : Nat := 0
  bank : Bool := true
  pass : Nat := 0
  step : Nat := 0
  last : Option Nat := none
  row : Nat := 0
  /-- the next fill is halted at a fault (R428), and the pages where its halted access has been aborted (R214) -/
  halted : Option (Nat × Nat × BitVec 4) := none
  dead : List Nat := []
  /-- its weight latches while the collector has drained the nest, in manual mode (R283, R427) -/
  kept0 : Latch := {}
  kept1 : Latch := {}
  deriving DecidableEq, Repr

/-- Sums that travel along a chain or wait at the whiffletree: the pass, the row, 32 FP32 sums, the checksum lane, whether they
carry POISON, the member that adds to them next, the cycle in which they reach it, and whether they are on a die crossing (R42,
R416, R421, R425). -/
structure Sums where
  pass : Nat
  row : Nat
  sums : List Nat
  poison : Bool
  next : Nat
  ready : Nat
  wire : Bool := false
  deriving DecidableEq, Repr

/-- An accumulator entry of a whiffletree: 32 FP32 sums, and whether it is poisoned (R429, R302). -/
structure AccEntry where
  vals : List Nat
  poison : Bool := false
  deriving DecidableEq, Repr

/-- A group whose bank is to be stored: the row that the store is at, and whether its entries are cleared at its end (R429, R433). -/
structure Store where
  group : Nat
  at' : Nat := 0
  clear : Bool := true
  deriving DecidableEq, Repr

/-- A gang that has started (R417, R423): its module row, its members from the head to the tail, the captured words of the tail,
the depth of R279, sums in flight, and what is pending. -/
structure Gang where
  row : Nat
  members : List Member
  cfg : List DWord
  epi : List DWord
  mode : BitVec 3
  depth : Nat
  /-- the first pass since the start, a seek or a resumption: its fill follows no other (R425, R434) -/
  base : Nat := 0
  oslot : Option TSlot := none
  /-- the bias row: not read yet, failed, or its codes (R430) -/
  bias : Option (Option (List Nat)) := none
  flight : List Sums := []
  frozen : Bool := false
  fpend : Bool := false
  cpend : Option Bool := none
  /-- the groups whose banks are being stored, and whether the nest ends when they are (R433, R440) -/
  stores : List Store := []
  ending : Option NestSt := none
  ended : Bool := false
  /-- entries that a group has touched (R435) -/
  touched : List Nat := []
  /-- a stop of the collector is pending; the collector has frozen the nest; it has been drained into these entries (R435) -/
  stopping : Bool := false
  byCollector : Bool := false
  saved : Option (List (Nat × AccEntry)) := none
  /-- its place in the order of R417 when it waits to resume -/
  order : Nat := 0
  /-- a store or the read of the bias row is halted at a fault, and the pages where its halted access has been aborted (R214) -/
  halted : Option (Nat × Nat × BitVec 4) := none
  dead : List Nat := []
  deriving DecidableEq, Repr

/-- A UCIe module in one direction (R45, R46); directions are numbered as their modules, those westward or northward from 384 on. -/
structure LinkDir where
  txSeq : Byte := 0
  rxSeq : Byte := 0
  rx : Nat := 0
  /-- the last 16 flits sent: SEQ, the stalls that receive it, and the flit -/
  replay : List (Nat × List Nat × Nat) := []
  credits : Nat := 16
  discarding : Bool := false
  nakSeq : Byte := 0
  nakRun : Nat := 0
  deriving DecidableEq, Repr

/-- A stream of the transport, both ways (R50). -/
structure Stream where
  txSeq : Word := 0
  rxSeq : Word := 0
  unacked : List Frame := []
  /-- the cycle of the first transmission of each of them -/
  firsts : List Nat := []
  tries : Nat := 0
  sentAt : Nat := 0
  /-- the port to which the first frame sent has pinned it -/
  port : Option Nat := none
  deriving DecidableEq, Repr

/-- What a request to another module asks for (R49). -/
inductive ReqKind where
  | read | write | atomic
  deriving DecidableEq, Repr

/-- A request to another module that awaits its response (R50, R54). -/
structure Outstanding where
  dst : Nat
  tag : Nat
  addr : Nat
  kind : ReqKind
  key : Nat
  tok : Nat
  deriving DecidableEq, Repr

/-- The checkpoint engine (R58 to R62): the next piece, the pieces that await their answer, dirty pages and rejections. -/
structure Ckpt where
  restore : Bool := false
  next : Nat := 0
  pending : List Nat := []
  /-- the port of each piece that a restore has asked for (R61) -/
  ports : SMap Nat := []
  dirty : List Nat := []
  pass : Nat := 0
  tries : SMap Nat := []
  arrived : SMap Nat := []
  /-- what is to be sent or asked for again before what follows: pages of a recopy pass, pieces of a page that failed its check -/
  todo : List Nat := []
  deriving DecidableEq, Repr

/-- A pending fault (R211). -/
structure PFault where
  asid : Nat
  page : Nat
  kind : Nat
  access : BitVec 4
  count : Nat
  arrived : Nat
  deriving DecidableEq, Repr

/-- An SPDM connection (R97, R98): how far its negotiation is, and the transcript hash it signed last. -/
structure Conn where
  version : Bool := false
  caps : Bool := false
  algs : Bool := false
  signed : Option (List Byte) := none
  transcript : List Byte := []
  deriving DecidableEq, Repr

/-- An SPDM session (R97). -/
structure Session where
  conn : Nat
  established : Bool := false
  secret : List Byte := []
  updates : Nat := 0
  deriving DecidableEq, Repr

/-- What the module sends to the outside. -/
inductive Out where
  /-- a signal of R89 -/
  | irq (master : Nat) (vector : Nat)
  /-- a frame on a scale-out port (R49) -/
  | frame (port : Nat) (f : Frame)
  /-- the completion of a read by a master: data, and whether the TLP is poisoned (R68) -/
  | readData (m : Master) (data : List Byte) (poisoned : Bool)
  /-- Unsupported Request (R68) -/
  | unsupported (m : Master)
  /-- an SPDM response (R97): its code and content -/
  | spdm (conn : Nat) (code : Byte) (data : List Byte)
  /-- an SPDM ERROR with its error code -/
  | spdmError (conn : Nat) (code : Byte)
  /-- a NAK or a credit on a UCIe module (R45, R46) -/
  | linkNak (link : Nat) (seq : Byte)
  | linkCredit (link : Nat)
  | linkFlit (link : Nat) (flit : Nat)
  /-- a snoop response with the line's bytes when it was dirty (R57) -/
  | snoop (addr : Nat) (data : Option (List Byte))
  /-- the board removes power (R35) -/
  | powerOff
  deriving DecidableEq, Repr

/-- Rein flits at a stall or a die's edge (R45, R185, R459): the stalls that they are for, the next direction that they take, the direction
whose receive buffer holds them, the flit, and its sender. -/
structure ReinUnit where
  dsts : List Nat
  via : Option Nat := none
  link : Option Nat := none
  flit : BitVec 512
  sender : Option Nat := none
  deriving DecidableEq, Repr

/-- A splinter in progress (R216): its space, address, level and table; the parent entry's place and the leaf that the walk read; and whether
the table has been written. -/
structure Splinter where
  asid : Nat
  va : Nat
  small : Nat
  table : Nat
  leaf : Option (Nat × DWord) := none
  written : Bool := false
  deriving DecidableEq, Repr

/-- An error that strikes stored bits and that their check code detects (R23, R302). -/
inductive Upset where
  /-- a granule of DRAM or of an SRAM bay, by module address / 16: one bit, which is corrected, or two -/
  | granule (g : Nat) (double : Bool)
  /-- a bank of the weight latch of a stall, by byte parity -/
  | latch (stall : Nat) (bank : Bool)
  /-- a register of a context, by its index in the lame map of R311 -/
  | register (key ix : Nat)
  /-- an entry of a context's landing queue, by its place in the issue order -/
  | landing (key seq : Nat)
  deriving DecidableEq, Repr

/-- A step that is due: a stimulus from outside, or a step that the machine's own engines have made due. -/
inductive Due where
  | ext (i : Instr)
  | xPerform (key tok : Nat)
  | loadArrive (key tok : Nat)
  | engineWrite (key tok : Nat)
  | waitTimeout (key : Nat)
  | implicitExpiry (key : Nat)
  | ldfeRetry (key : Nat)
  | chanWait (key : Nat)
  | flgPoll (key : Nat)
  | baysplitDone (key : Nat)
  | hbarDone (hitch : Nat)
  | contextFree (key : Nat)
  | guardCommit (key : Nat)
  | accCopy (key : Nat)
  | reinFlit (stalls : List Nat) (link : Option Nat) (flit : BitVec 512) (sender : Option Nat)
  | lineWriteback (paddock line : Nat)
  | lineDrop (stall line : Nat) (l0 : Bool)
  | packetStart (q : Nat)
  | commandNop (cmd : Nat)
  | graphRun (cmd : Nat)
  | graphInstall (cmd : Nat)
  | patch (cmd : Nat)
  | kernel (cmd : Nat)
  | copy (cmd : Nat)
  | flagset (cmd : Nat)
  | flagwait (cmd : Nat)
  | flagwaitOk (cmd : Nat)
  | indirect (cmd : Nat)
  | commandComplete (cmd : Nat)
  | replayStart (r : Nat)
  | kernelNode (r n : Nat)
  | condNode (r n : Nat)
  | loopNode (r n : Nat)
  | loopEnd (r n : Nat)
  | surrogateNode (r n : Nat)
  | signalNode (r n : Nat)
  | copyNode (r n : Nat)
  | nodeComplete (r n : Nat)
  | replayComplete (r : Nat)
  | recordGrant (launch : Nat)
  | riderPlace (key : Nat)
  | spill (key : Nat)
  | preempt (key : Nat)
  | stopAck (col key : Nat) (cls : EngineClass)
  | collectLim (col : Nat)
  | saveDone (col : Nat)
  | reexec (launch : Nat)
  | surrogateFallback (launch tile : Nat)
  | maintenanceMove (stall : Nat)
  | moveCopyDone (row : Nat)
  | faultClose
  | faultWrite
  /-- the next stage of the splinter in progress -/
  | splinter
  | gangStart (g : Nat)
  | latchFill (g m : Nat)
  | arrayStep (g m : Nat)
  | whiffle (g : Nat)
  | passBoundary (g : Nat)
  | epilogue (g : Nat)
  | nestDrain (g : Nat)
  | nestResume (g : Nat)
  | capeff (row : Nat)
  | credit (stall : Nat)
  | thermal (row : Nat)
  | ratioStart (q : Nat)
  | ratioEnd (q : Nat)
  | watchdog (die : Nat)
  | restart (die : Nat)
  | retransmit (dst : BitVec 6) (cls : Nat)
  | romVerify
  | bootReady
  | traceFlit (link : Nat) (flit : BitVec 1152)
  | mcbRead (key off : Nat)
  | mcbWrite (key off : Nat) (v : DWord)
  /-- an error of the silicon, which no row of the opcode table names (log entry 60) -/
  | upset (u : Upset)
  deriving DecidableEq, Repr

/-- A request that a home column holds (R27, R28, R158): an access through BAR4 or CXL.mem, of another module's frame, a write-back or
posted write of a requester, or a step of an engine that met the column. -/
inductive DevReq where
  | mem (m : Master) (off n : Nat) (data : Option (List Byte))
  | frame (f : Frame)
  | back (key pk : Nat) (data : List Byte) (poison : Bool)
  | step (d : Due)
  deriving DecidableEq, Repr

/-- The state of the module. -/
structure State where
  /-- power is present (R35) -/
  powered : Bool
  /-- cycles since the end of power-on reset; a stretched cycle counts as one (R307, R356) -/
  clock : Nat
  /-- the model's own: the steps that are due, in order (DESIGN CHOICE, log entry 1), and the stall whose turn it is to issue -/
  agenda : List Due
  turn : Nat
  /-- the model's own: the context and the place of the word under way, and what that word raised -/
  cur : Nat
  pos : Pos
  raised : Option Stop
  /-- the model's own: a V result whose channel room waits for the X sources of its group (R186) -/
  pendPush : Option (CIdx × Landing × Lamed VReg)
  /-- the model's own: the counter of free values, and the counter that names commands, launches and the like -/
  fresh : Nat
  ids : Nat
  out : List Out
  mem : Mem
  l0 : SMap (List Line)
  slices : SMap (List Line)
  stallTlb : SMap (List TlbEntry)
  paddockTlb : SMap (List TlbEntry)
  regs : SMap DWord
  nv : Nonvol
  ctxs : SMap Ctx
  gens : SMap Nat
  stalls : SMap Stall
  hitches : SMap Hitch
  launches : SMap Launch
  /-- launches that wait for rider records, oldest first (R167) -/
  recordWait : List Nat
  cmds : SMap Cmd
  engines : SMap Engine
  replays : SMap Replay
  /-- PATCH commands that a replay or an INSTALL before them has still to pass (R113, R122) -/
  patches : List Patch
  /-- HEAD of the queues whose HEAD a commit has changed in this cycle, as it stood at its start (R84) -/
  headWas : SMap Nat
  colls : SMap Coll
  /-- save space: image of a context as (die, first unit, units) (R150) -/
  saves : SMap (Nat × Nat × Nat)
  moves : SMap Move
  /-- X commands held at a home column, in arrival order, as context and token (R27, R158) -/
  homeWait : List (Nat × Nat)
  /-- the accesses from outside among them, by token -/
  devReqs : SMap DevReq
  /-- a ratio change in progress per quarter: the cycle of its start and its target step (R27) -/
  ratio : SMap (Nat × Nat)
  gangs : SMap Gang
  acc : SMap AccEntry
  links : SMap LinkDir
  streams : SMap Stream
  outstanding : List Outstanding
  /-- rein flits that wait at their stall for a FREE page, or at a die's edge for a credit (R45, R185) -/
  reinWait : List ReinUnit
  /-- steps that become due in a later cycle (R44) -/
  timed : List (Nat × Due)
  ckpt : Ckpt
  faults : List PFault
  faultBatch : List PFault
  reported : List (Nat × Nat × Nat)
  faultSerial : Nat
  /-- the splinter in progress (R216) -/
  spl : Option Splinter
  conns : SMap Conn
  sessions : SMap Session
  heldSignals : List Nat
  /-- MSI-X Enable and Function Mask of the host port's function (R89) -/
  msixOn : Bool
  msixHeld : Bool
  /-- IDE keys by stream and sub-stream, and the sub-streams that are secure (R56, R97) -/
  ideKeys : SMap (List Byte)
  ideOn : List Nat
  /-- the requester ID that names master 0 (R64) -/
  req0 : Option (BitVec 16)
  lcauth : List Byte
  /-- DRAM layers whose refresh is doubled: quarter * 4 + layer (R35) -/
  hot2x : List Nat
  /-- shadow-latch detections of each physical stall since its latest sample (R137), and those of this cycle, with the bit of PIPES (R38) -/
  shadowSeen : SMap Nat
  shadowNow : List (Nat × Nat)
  /-- per physical stall, the cycle of its latest uncorrectable SRAM or latch error (R137) -/
  sramErrAt : SMap Nat
  /-- stretched cycles of each row domain, by quarter * 32 + die row; the row domains whose cycle is stretched now, and those whose next
  cycle will be (R37, R307, R356) -/
  rowLag : SMap Nat
  stretched : List Nat
  stretchNext : List Nat
  /-- the running image's entry point, and the cycle at which CONS last advanced per die (R128) -/
  entry : DWord
  consAt : SMap Nat
  image : List Byte
  deriving DecidableEq, Repr

/-- The register files of a new rider (R162): zero, p0 true, k0 all ones, no lame bit. -/
def Files.reset : Files :=
  { s := Vector.replicate 32 ⟨0, 0⟩, a := Vector.replicate 32 ⟨0, 0⟩, n := Vector.replicate 32 ⟨0, 0⟩,
    j := Vector.replicate 4 ⟨0, 0⟩, p := (Vector.replicate 8 ⟨false, 0⟩).set 0 ⟨true, 0⟩,
    k := (Vector.replicate 8 ⟨0, 0⟩).set 0 ⟨BitVec.allOnes 256, 0⟩, v := [] }

/-- A context that has just been created (R162). -/
def Ctx.reset : Ctx := { f := Files.reset }

/-- The module right after power-on reset: every memory wiped, every register at its reset value (Regs.lean holds the
values that are not zero), and the boot ROM due (R91). LCNONCE reads 0 here, although R101 draws it at each module reset (DESIGN CHOICE,
log entry 3). -/
def State.reset : State :=
  { powered := true, clock := 0, agenda := [.romVerify], turn := 0, cur := 0, pos := {}, raised := none, pendPush := none,
    fresh := 0, ids := 1, out := [], mem := {}, l0 := [], slices := [], stallTlb := [], paddockTlb := [], regs := [],
    nv := {}, ctxs := [], gens := [], stalls := [], hitches := [], launches := [], recordWait := [], cmds := [],
    engines := [], replays := [], patches := [], headWas := [], colls := [], saves := [], moves := [], homeWait := [], devReqs := [], ratio := [], gangs := [],
    acc := [], links := [], streams := [], outstanding := [], reinWait := [], timed := [], ckpt := {}, faults := [], faultBatch := [],
    reported := [], faultSerial := 0, spl := none, conns := [], sessions := [], heldSignals := [], msixOn := false, msixHeld := false, ideKeys := [], ideOn := [], req0 := none, lcauth := [],
    hot2x := [], shadowSeen := [], shadowNow := [], sramErrAt := [], rowLag := [], stretched := [], stretchNext := [], entry := 0, consAt := [], image := [] }

end Sys2Proof.Machine
end

