-- ==== Sys2Proof/Machine/Regs.lean ====
section
/-! DEFINITION. Machine/Regs.lean: the places, the reset values and the bit fields of the module's registers. -/

namespace Sys2Proof.Machine

/-- Bits h down to l of a 64-bit value (R13). -/
def bits (x : DWord) (h l : Nat) : Nat := x.toNat / 2 ^ l % 2 ^ (h + 1 - l)

/-- Bit i. -/
def bit (x : DWord) (i : Nat) : Bool := x.getLsbD i

/-- x with bits h down to l set to v, taken modulo the field's width. -/
def setBits (x : DWord) (h l v : Nat) : DWord :=
  let mask : DWord := BitVec.ofNat 64 ((2 ^ (h + 1 - l) - 1) * 2 ^ l)
  (x &&& ~~~mask) ||| (BitVec.ofNat 64 (v % 2 ^ (h + 1 - l) * 2 ^ l))

/-- x with bit i set to b. -/
def setBit (x : DWord) (i : Nat) (b : Bool) : DWord := setBits x i i b.toNat

/-- The fields of w that the mask m selects, put into x. -/
def mergeMask (x w m : DWord) : DWord := (x &&& ~~~m) ||| (w &&& m)

/-- Bits h down to l as a mask. -/
def fmask (h l : Nat) : DWord := BitVec.ofNat 64 ((2 ^ (h + 1 - l) - 1) * 2 ^ l)

/-- A count that holds at its greatest value. -/
def holdAt (top n : Nat) : Nat := Nat.min top n

/-- Where a register lies: its BAR0 offset (R66, R67, R199, R310), or, for the groom registers without one, a number
above every offset. -/
def Reg.key : Reg → Nat
  | .hifid => 0x0000 | .lcnonce => 0x0008 | .owner => 0x0010 | .lcstate => 0x0020 | .bootstat => 0x0030
  | .intcause => 0x0038 | .inten => 0x0040 | .hiferr => 0x0048 | .msixPba => 0x9000
  | .qbase q => 0x10000 + 64 * q | .qctl q => 0x10000 + 64 * q + 8
  | .qptr q => 0x10000 + 64 * q + 16 | .qerr q => 0x10000 + 64 * q + 24
  | .dblstat d => 0x60000 + 8 * d
  | .asroot q => 0x40E000 + 8 * q | .tlbinv => 0x40E800 | .splva => 0x40E808 | .splctl => 0x40E810
  | .fltbase => 0x40E820 | .fltptr => 0x40E828
  | .colmap r => 0x400000 + 8 * r | .dramclk q => 0x400400 + 8 * q | .pwrctl => 0x400440
  | .rowpwr r => 0x400800 + 8 * r | .tsense i => 0x401000 + 8 * i 
  | .xlink i => 0x40C000 + 8 * i | .soport p => 0x40D000 + 8 * p
  | .domcfg => 0x40D100 | .domreach => 0x40D108 | .soetype => 0x40D110
  | .ckptctl => 0x40D200 | .ckptdst => 0x40D208 | .ckptstat => 0x40D210
  | .chklog r => 0x40F000 + 8 * r
  | .shadowcnt p => 0x8700000 + p
  | .stallwear p => 0x8000000 + p | .featmask p => 0x8100000 + p | .groomshare st => 0x8200000 + st
  | .dispctl => 0x8300000 | .savepool d => 0x8400000 + d | .feq q => 0x8500000 + q | .festat d => 0x8600000 + d

/-- The role of UCIe module i, by its edge and number (R40): 0 trace, 1 rein, 2 general. -/
def xlinkRole (i : Nat) : Nat :=
  let m := i % 96
  if i / 96 < 2 then m % 3 else if m % 3 = 0 then 1 else 2

/-- The value of a register after power-on reset (the Reset columns; the life record and fuses overlay theirs). LCNONCE, which R101 draws
from entropy, is 0 until it is drawn (DESIGN CHOICE, log entry 3). -/
def Reg.reset : Reg → DWord
  | .hifid => 0x010007
  | .lcstate => 1
  | .colmap _ => 0x800000000
  | .pwrctl => BitVec.ofNat 64 (2800 + 64 * 2 ^ 32)
  | .rowpwr _ => BitVec.ofNat 64 (64 + 64 * 2 ^ 8 + 64 * 2 ^ 16)
  | .tsense i => BitVec.ofNat 64 (i % 6 * 2 ^ 12)
  | .xlink i => BitVec.ofNat 64 (xlinkRole i * 4)
  | .soetype => 0x88B5
  | .ckptctl => 0x00FF0000
  | .qctl _ => BitVec.ofNat 64 (4 * 4 + 2 ^ 16)
  | .fltbase => 16
  | .stallwear _ => 0xFFFF0000
  | .featmask _ => 0xFF
  | .groomshare _ => BitVec.ofNat 64 (4 + 4 * 32)
  | .dispctl => BitVec.ofNat 64 (2 ^ 8 + 20 * 2 ^ 16 + 20 * 2 ^ 32)
  | .festat _ => BitVec.ofNat 64 (10000 * 2 ^ 32)
  | _ => 0

/-- The stored value of a register. -/
def State.reg (s : State) (r : Reg) : DWord := s.regs.getD r.key r.reset

/-- The state with a register's stored value changed. -/
def State.setReg (s : State) (r : Reg) (v : DWord) : State := { s with regs := s.regs.put r.key v }

/-- A register field changed. -/
def State.setField (s : State) (r : Reg) (h l v : Nat) : State := s.setReg r (setBits (s.reg r) h l v)

/-! The numbering of R21 and R18. -/

/-- Module row and column of a stall. -/
def stallRow (st : Nat) : Nat := st / 64
def stallCol (st : Nat) : Nat := st % 64
/-- The stall at a module row and column. -/
def stallAt (r c : Nat) : Nat := r * 64 + c
/-- The quarter of a stall. -/
def stallQuarter (st : Nat) : Nat := (if 32 ≤ stallRow st then 2 else 0) + (if 32 ≤ stallCol st then 1 else 0)
/-- The die row of a stall in all 128: quarter × 32 + die row. -/
def stallDieRow (st : Nat) : Nat := stallQuarter st * 32 + stallRow st % 32
/-- The paddock of a stall. -/
def stallPaddock (st : Nat) : Nat := stallRow st / 4 * 16 + stallCol st / 4
/-- The stalls of a paddock, in slice order (R219). -/
def paddockStalls (p : Nat) : List Nat :=
  (List.range 16).map (fun i => stallAt (p / 16 * 4 + i / 4) (p % 16 * 4 + i % 4))
/-- The stall at a logical column of a die row. -/
def rowStall (row col : Nat) : Nat :=
  stallAt (row % 32 + (if row / 32 = 2 ∨ row / 32 = 3 then 32 else 0)) (col + (if row / 32 % 2 = 1 then 32 else 0))

/-- The in-service positions of a die row from the west (R18). -/
def State.inService (s : State) (row : Nat) : List Nat :=
  (List.range 34).filter (fun p => ¬ bit (s.reg (.colmap row)) p)

/-- The physical position that serves a stall, or none when its logical column is RETIRED (R18). -/
def State.physOf (s : State) (st : Nat) : Option Nat := (s.inService (stallDieRow st))[stallCol st % 32]?

/-- The physical stall of a stall number: row × 34 + position (R134). -/
def State.physStall (s : State) (st : Nat) : Option Nat := (s.physOf st).map (fun p => stallDieRow st * 34 + p)

/-- STALLWEAR of the physical stall that serves a stall number. -/
def State.wearReg (s : State) (st : Nat) : DWord :=
  match s.physStall st with
  | none => 0
  | some p => s.reg (.stallwear p)

/-- STATE of a stall number: 3 where no position serves it (R133, R134). -/
def State.stallState (s : State) (st : Nat) : Nat :=
  match s.physStall st with
  | none => 3
  | some p => bits (s.reg (.stallwear p)) 33 32

/-- The declared features that a stall offers (R145). -/
def State.featOf (s : State) (st : Nat) : Byte :=
  match s.physStall st with
  | none => 0
  | some p => (s.reg (.featmask p)).extractLsb' 0 8

end Sys2Proof.Machine
end

