-- ==== Sys2Proof/Machine/Ops.lean ====
section
/-! DEFINITION. Machine/Ops.lean: the named operations over memory, contexts and registers, the landing queue, taking a
trap and returning from one. -/

namespace Sys2Proof.Machine

/-! ## Bytes -/

/-- The byte listed at an address. -/
def cellsGet : List Host.Cell → Nat → Option Byte
  | [], _ => none
  | (k, v) :: t, a => if k = a then some v else cellsGet t a

/-- The list with a byte at an address, kept in rising order. -/
def cellsPut : List Host.Cell → Nat → Byte → List Host.Cell
  | [], a, b => [(a, b)]
  | (k, v) :: t, a, b =>
    if a < k then (a, b) :: (k, v) :: t
    else if a = k then (a, b) :: t
    else (k, v) :: cellsPut t a b

/-- The list without an address. -/
def cellsDel (l : List Host.Cell) (a : Nat) : List Host.Cell := l.filter (fun c => c.1 != a)

/-- A set of numbers with one more, kept in rising order. -/
def setAdd : List Nat → Nat → List Nat
  | [], a => [a]
  | k :: t, a => if a < k then a :: k :: t else if a = k then k :: t else k :: setAdd t a

/-- A set of numbers with the n numbers from a. -/
def setAddRange (l : List Nat) (a n : Nat) : List Nat := (List.range n).foldl (fun l i => setAdd l (a + i)) l

/-- The little-endian number of a list of bytes (R9). -/
def leNat : List Byte → Nat
  | [] => 0
  | b :: t => b.toNat + 256 * leNat t

/-- The n little-endian bytes of a number (R9). -/
def leBytes : Nat → Nat → List Byte
  | 0, _ => []
  | n + 1, v => BitVec.ofNat 8 v :: leBytes n (v / 256)

/-- The byte at a module address; what nothing has written reads 0 (R91). -/
def Mem.get (m : Mem) (a : Nat) : Byte := (cellsGet m.bytes a).getD 0

/-- One byte written; a zero leaves no entry. -/
def Mem.set (m : Mem) (a : Nat) (b : Byte) : Mem :=
  { m with bytes := if b = 0 then cellsDel m.bytes a else cellsPut m.bytes a b }

/-- The n bytes from an address. -/
def Mem.read (m : Mem) (a : Nat) : Nat → List Byte
  | 0 => []
  | n + 1 => m.get a :: m.read (a + 1) n

/-- Bytes stored from an address, whatever their poison. -/
def Mem.store (m : Mem) (a : Nat) : List Byte → Mem
  | [] => m
  | b :: t => (m.set a b).store (a + 1) t

/-- A read of n bytes from a touches a poisoned granule (R301). -/
def Mem.poisoned (m : Mem) (a n : Nat) : Bool := m.poison.any (fun g => a < 16 * g + 16 && 16 * g < a + n)

/-- Bytes written by software or an engine: a granule that the write covers whole loses its poison (R301). -/
def Mem.write (m : Mem) (a : Nat) (l : List Byte) : Mem :=
  let m' := m.store a l
  { m' with poison := m.poison.filter (fun g => !(a ≤ 16 * g && 16 * g + 16 ≤ a + l.length)) }

/-- The number of granules that n bytes from a touch. -/
def granules (a n : Nat) : Nat := if n = 0 then 0 else (a + n - 1) / 16 - a / 16 + 1

/-- The granules of n bytes from a marked poisoned. -/
def Mem.taint (m : Mem) (a n : Nat) : Mem := { m with poison := setAddRange m.poison (a / 16) (granules a n) }

/-- The full-empty bits of the granules of n bytes from a set (R224). -/
def Mem.fill (m : Mem) (a n : Nat) : Mem := { m with full := setAddRange m.full (a / 16) (granules a n) }

/-- The full-empty bits of the granules that n bytes from a touch cleared (R224). -/
def Mem.drain (m : Mem) (a n : Nat) : Mem :=
  { m with full := m.full.filter (fun g => !(a < 16 * g + 16 && 16 * g < a + n)) }

/-- The full-empty bit of the granule of an address. -/
def Mem.isFull (m : Mem) (a : Nat) : Bool := m.full.contains (a / 16)

/-- Bytes wiped to zero, with their poison and full-empty bits (R91, R218). -/
def Mem.wipe (m : Mem) (a n : Nat) : Mem :=
  let out := fun (x : Nat) => !(a ≤ x && x < a + n)
  { m with bytes := m.bytes.filter (fun c => out c.1), poison := m.poison.filter (fun g => out (16 * g)),
           full := m.full.filter (fun g => out (16 * g)) }

/-- The byte of host memory at an address: what the module wrote, or a free value (DESIGN CHOICE, log entry 4). -/
def Mem.hostGet (m : Mem) (a : Nat) : Byte := (cellsGet m.host a).getD (Config.hostByte a)

/-- The n bytes of host memory from an address. -/
def Mem.hostRead (m : Mem) (a : Nat) : Nat → List Byte
  | 0 => []
  | n + 1 => m.hostGet a :: m.hostRead (a + 1) n

/-- Bytes written to host memory. -/
def Mem.hostWrite (m : Mem) (a : Nat) : List Byte → Mem
  | [] => m
  | b :: t => ({ m with host := cellsPut m.host a b } : Mem).hostWrite (a + 1) t

/-- A range of host memory meets a page that the host refuses (log entry 77). -/
def Mem.hostRefuses (m : Mem) (a n : Nat) : Bool := m.hostGone.any (fun g => a < 4096 * g + 4096 && 4096 * g < a + n)

/-- A read of n bytes of host memory touches a poisoned granule. -/
def Mem.hostPoisoned (m : Mem) (a n : Nat) : Bool := m.hostPoison.any (fun g => a < 16 * g + 16 && 16 * g < a + n)

/-- Bytes written to host memory with their poison; what the host refuses is discarded (R121, R301). -/
def Mem.hostPut (m : Mem) (a : Nat) (l : List Byte) (poison : Bool) : Mem :=
  if m.hostRefuses a l.length then m
  else
    let p := m.hostPoison.filter (fun g => !(a ≤ 16 * g && 16 * g + 16 ≤ a + l.length))
    { m.hostWrite a l with hostPoison := if poison then setAddRange p (a / 16) (granules a l.length) else p }

/-- Addresses strictly rising. -/
def rising : List Nat → Bool
  | [] => true
  | a :: t => t.all (fun b => a < b) && rising t

/-- The canonical form of the memory: rising addresses, no zero byte of the module listed, rising sets. -/
def Mem.wf (m : Mem) : Bool :=
  rising (m.bytes.map (·.1)) && m.bytes.all (fun c => c.2 != 0) && rising (m.host.map (·.1)) &&
  rising m.poison && rising m.full && rising m.hostPoison && rising m.hostGone

/-! The module's byte memories in one numbering: DRAM at its offsets (R203), then these. -/

/-- Bytes of module DRAM: 384 GiB (R203). -/
def dramBytes : Nat := 384 * 2 ^ 30
/-- Byte o of scratch bay b of a stall (R23). -/
def scratchAddr (stall bay o : Nat) : Nat := 2 ^ 44 + stall * 2 ^ 21 + bay * 2 ^ 18 + o
/-- Flag word w of a die (R225). -/
def flagAddr (die w : Nat) : Nat := 2 ^ 45 + die * 2 ^ 16 + 4 * w
/-- Launch node n of a die (R105). -/
def nodeAddr (die n : Nat) : Nat := 2 ^ 46 + die * 2 ^ 22 + 128 * n
/-- Edge e of a die (R105). -/
def edgeAddr (die e : Nat) : Nat := 2 ^ 46 + die * 2 ^ 22 + 2 ^ 21 + 2 * e
/-- Entry e of a die's doorbell log (R85). -/
def logAddr (die e : Nat) : Nat := 2 ^ 46 + 2 ^ 30 + die * 2 ^ 16 + 16 * e
/-- Byte o of the MSI-X table (R66, R89). -/
def msixAddr (o : Nat) : Nat := 2 ^ 46 + 2 ^ 31 + o
/-- Byte o of the groom code store of a die (R94). -/
def groomAddr (die o : Nat) : Nat := 2 ^ 46 + 2 ^ 32 + die * 2 ^ 23 + o

/-! ## Contexts -/

/-- Keys from here on name the groom context of a stall (R160). -/
def groomKey : Nat := 2 ^ 20

/-- The context of a key: a listed one, or the untouched one. -/
def State.ctx (s : State) (k : Nat) : Ctx :=
  match s.ctxs.get? k with
  | some c => c
  | none => if groomKey ≤ k then { Ctx.reset with loc := .on (k - groomKey) 2, asid := 0xFFF } else Ctx.reset

/-- The state with a context put in place. -/
def State.setCtx (s : State) (k : Nat) (c : Ctx) : State := { s with ctxs := s.ctxs.put k c }

/-- The state with a context changed. -/
def State.modCtx (s : State) (k : Nat) (f : Ctx → Ctx) : State := s.setCtx k (f (s.ctx k))

/-- The context of the word under way. -/
def State.me (s : State) : Ctx := s.ctx s.cur

/-- The state with the context of the word under way changed. -/
def State.modMe (s : State) (f : Ctx → Ctx) : State := s.modCtx s.cur f

/-- Steps added to those that are due. -/
def State.push (s : State) (l : List Due) : State := { s with agenda := s.agenda ++ l }

/-- Something sent to the outside. -/
def State.emit (s : State) (o : Out) : State := { s with out := s.out ++ [o] }

/-- A key names a groom context. -/
def isGroom (k : Nat) : Bool := groomKey ≤ k

/-- The stall on which a context runs. -/
def Ctx.stall (c : Ctx) : Nat :=
  match c.loc with
  | .on st _ => st
  | .stopped st _ _ => st
  | .waiting _ => 0
  | .saved => 0

/-- The context number on its stall. -/
def Ctx.slot (c : Ctx) : Nat :=
  match c.loc with
  | .on _ x => x
  | .stopped _ x _ => x
  | .waiting _ => 0
  | .saved => 0

/-- The context holds a place on a stall. -/
def Ctx.resident (c : Ctx) : Bool :=
  match c.loc with
  | .on _ _ => true
  | .stopped _ _ _ => true
  | .waiting _ => false
  | .saved => false

/-- Handler mode (R286). -/
def Ctx.handler (c : Ctx) : Bool := bit c.csr.status 3
/-- A containment region is open (R286); it is suspended in handler mode (R293). -/
def Ctx.contain (c : Ctx) : Bool := bit c.csr.status 4
/-- Guarded mode (R252). -/
def Ctx.guarded (c : Ctx) : Bool := bit c.csr.status 5
/-- Priority of the rider (R286). -/
def Ctx.prio (c : Ctx) : Nat := bits c.csr.status 8 6
/-- VROT.SIZE and VROT.BASE (R193). -/
def Ctx.rotSize (c : Ctx) : Nat := bits c.csr.vrot 5 0
def Ctx.rotBase (c : Ctx) : Nat := bits c.csr.vrot 12 8

/-- STATUS as it reads: the hardware maintains DEPTH and ROTBASE (R286). -/
def Ctx.statusWord (c : Ctx) : DWord := setBits (setBits c.csr.status 2 0 c.loops.length) 23 16 c.rotBase

/-- The record of a rider in its die's pool: slot × 4 + die (R163, R164). -/
def riderKey (die slot : Nat) : Nat := slot * 4 + die
/-- The die whose pool holds a rider. -/
def keyDie (k : Nat) : Nat := k % 4

/-- CYCLE of a row domain, and of the row domain of a stall (R356): a stretched cycle counts as one, so a row domain is behind by the
cycles that it has stretched. -/
def State.rowCycle (s : State) (row : Nat) : Nat := s.clock - s.rowLag.getD row 0
def State.cycle (s : State) (stall : Nat) : Nat := s.rowCycle (stallDieRow stall)

/-- Two ranges share a byte. -/
def overlaps (a n b m : Nat) : Bool := a < b + m && b < a + n && n != 0 && m != 0

/-- n bytes at a scratch offset lie in scratch bays of the rider: none outside its bays, none in a cache bay (R201). -/
def Ctx.inScratch (c : Ctx) (o n : Nat) : Bool :=
  o + n ≤ c.nbays * 2 ^ 18 &&
  (List.range 8).all (fun b => !(overlaps o n (b * 2 ^ 18) (2 ^ 18) && bit c.csr.baymap b))

/-- The address of a local scratch offset (R200). -/
def localAddr (o : Nat) : Nat := 2 ^ 60 + o

/-- The resident user contexts of a stall with their keys (R160). -/
def State.residents (s : State) (st : Nat) : List (Nat × Ctx) :=
  s.ctxs.filter (fun c => !isGroom c.1 && c.2.resident && c.2.stall == st)

/-! ## Registers -/

/-- A register of a file of 32. -/
def rget {α : Type} (v : Vector α 32) (r : RIdx) : α := v[r.toNat]'r.isLt
/-- A file of 32 with one register set. -/
def rset {α : Type} (v : Vector α 32) (r : RIdx) (x : α) : Vector α 32 := v.set r.toNat x r.isLt
/-- A predicate or lane mask register. -/
def pget {α : Type} (v : Vector α 8) (r : BitVec 3) : α := v[r.toNat]'r.isLt
/-- A file of 8 with one register set. -/
def pset {α : Type} (v : Vector α 8) (r : BitVec 3) (x : α) : Vector α 8 := v.set r.toNat x r.isLt
/-- A jump register. -/
def jget {α : Type} (v : Vector α 4) (r : JIdx) : α := v[r.toNat]'r.isLt
/-- The jump registers with one set. -/
def jset {α : Type} (v : Vector α 4) (r : JIdx) (x : α) : Vector α 4 := v.set r.toNat x r.isLt

/-- Loop index ik, which s26 to s31 read: initial count minus current count of the entry at depth − 1 − k (R190). -/
def Ctx.loopIndex (c : Ctx) (k : Nat) : DWord :=
  match c.loops[k]? with
  | some e => e.init - e.count
  | none => 0

/-- A scalar register as a group reads it: s0 reads zero, s26 to s31 the loop indices (R6, R190, R338). -/
def Ctx.sreg (c : Ctx) (r : RIdx) : Lamed DWord :=
  if r = 0 then ⟨0, 0⟩
  else if 26 ≤ r.toNat then ⟨c.loopIndex (r.toNat - 26), 0⟩
  else rget c.f.s r

/-- An access register: a0 reads zero (R6). -/
def Ctx.areg (c : Ctx) (r : RIdx) : Lamed DWord := if r = 0 then ⟨0, 0⟩ else rget c.f.a r
/-- A nest register (R6). -/
def Ctx.nreg (c : Ctx) (r : RIdx) : Lamed DWord := rget c.f.n r
/-- A predicate: p0 is always true (R6, R322). -/
def Ctx.preg (c : Ctx) (r : PIdx) : Lamed Bool := if r = 0 then ⟨true, 0⟩ else pget c.f.p r
/-- A lane mask register (R6). -/
def Ctx.kreg (c : Ctx) (r : KIdx) : Lamed Mask := pget c.f.k r
/-- A jump register (R348), and its lame cause (R297). -/
def Ctx.jreg (c : Ctx) (r : JIdx) : DWord := (jget c.f.j r).val
def Ctx.jlame (c : Ctx) (r : JIdx) : Lame := (jget c.f.j r).lame

/-- A wiped vector register: elements zero, every scale byte 0x7F (R162, R298). Scale byte g lies at bits 264g + 256 up (R262). -/
def zeroV : VReg :=
  (List.range 8).foldl (fun v g => v ||| (BitVec.ofNat 2112 (0x7F * 2 ^ (264 * g + 256)))) 0

/-- A vector register of the allocation (R161). -/
def Ctx.vreg (c : Ctx) (off : Nat) : Lamed VReg := c.f.v.getD off ⟨zeroV, 0⟩

/-- The greatest of two lame causes (R299). -/
def Lame.max (a b : Lame) : Lame := if a.toNat ≤ b.toNat then b else a

/-- The greatest lame cause of a list. -/
def lameOf (l : List Lame) : Lame := l.foldl Lame.max 0

/-! ## Words -/

/-- The effect of a word: a new state, or why it takes none. -/
abbrev W (α : Type) := StateT State (Except Stop) α

/-- A word raises a cause of R289 at its group; WORD and PIPE name the word (R288). -/
def raise {α : Type} (code : Nat) (info : Nat := 0) (lame : Lame := 0) : W α := fun s =>
  .error (.cause { code := BitVec.ofNat 8 code, info := BitVec.ofNat 64 info, word := s.pos.idx,
                   pipe := s.pos.word.extractLsb' 28 2, lame := lame })

/-- ILLEGAL_ENCODING names the word (R289). -/
def illegalEncoding {α : Type} : W α := fun s => raise 1 s.pos.word.toNat 0 s
/-- ILLEGAL_CONTEXT. -/
def illegalContext {α : Type} : W α := raise 2
/-- PROTECTION with the address or CSR number. -/
def protection {α : Type} (info : Nat) : W α := raise 5 info
/-- MISALIGNED with the address. -/
def misaligned {α : Type} (addr : Nat) : W α := raise 6 addr
/-- CHANNEL_CONFIG with the channel. -/
def channelConfig {α : Type} (c : CIdx) : W α := raise 11 c.toNat
/-- HITCH with the id operand. -/
def hitchCause {α : Type} (id : Nat) : W α := raise 12 id

/-- A consuming use of a value of the lame map index i (R300, R311): UNCORRECTABLE when the value is lame. -/
def consume (i : Nat) (l : Lame) : W Unit := if l = 0 then pure () else raise 7 (l.toNat + 256 * i) l

/-- The group is held before issue (R184). -/
def hold {α : Type} : W α := fun _ => .error .held

/-- The context of the word. -/
def getMe : W Ctx := fun s => .ok (s.me, s)
/-- The context of the word changed. -/
def modMe (f : Ctx → Ctx) : W Unit := fun s => .ok ((), s.modMe f)
/-- The state read. -/
def getS : W State := fun s => .ok (s, s)
/-- The state changed. -/
def modS (f : State → State) : W Unit := fun s => .ok ((), f s)

/-! ## The landing queue (R175 to R179) -/

/-- The queue with an entry in issue order: within a group the higher word of the packet is the later one (R329). -/
def insertLanding : List Landing → Landing → List Landing
  | [], e => [e]
  | h :: t, e => if e.seq < h.seq then e :: h :: t else h :: insertLanding t e

/-- The place of the word under way in the issue order of its context. -/
def State.seqNow (s : State) : Nat := 4 * s.me.seq + s.pos.idx.toNat

/-- A landing-queue entry of the word under way: the results land when its rider has begun n more groups (R175). -/
def landing (s : State) (n : Nat) (ws : List RegWrite) : Landing :=
  { seq := s.seqNow, remain := n, writes := ws, word := s.pos.word, lit := s.pos.lit, vtype := s.me.csr.vtype,
    mask := (s.me.kreg (BitVec.ofNat 3 (bits s.me.csr.vtype 10 8))).val }

/-- The word's results land n groups from now. -/
def State.land (s : State) (e : Landing) : State := s.modMe (fun c => { c with land := insertLanding c.land e })

/-- The word's results land n groups from now. -/
def land (n : Nat) (ws : List RegWrite) : W Unit := modS (fun s => s.land (landing s n ws))

/-- A result as it lands. What is written to s0, a0 or p0 is discarded (R320). -/
def RegWrite.apply (w : RegWrite) (f : Files) : Files :=
  match w with
  | .s r x => if r = 0 then f else { f with s := rset f.s r x }
  | .a r x => if r = 0 then f else { f with a := rset f.a r x }
  | .n r x => { f with n := rset f.n r x }
  | .j r x => { f with j := jset f.j r x }
  | .p r x => if r = 0 then f else { f with p := pset f.p r x }
  | .k r x => { f with k := pset f.k r x }
  | .v off x => { f with v := f.v.put off x }
  | .vclr off => { f with v := f.v.upd off (fun x => { x with lame := 0 }) }
  | .hitch _ => f
  | .push _ _ _ _ => f

/-- The lame cause that a result carries. -/
def RegWrite.lameOf : RegWrite → Lame
  | .s _ x => x.lame | .a _ x => x.lame | .n _ x => x.lame | .j _ x => x.lame | .p _ x => x.lame | .k _ x => x.lame
  | .v _ x => x.lame | .vclr _ => 0 | .hitch _ => 0 | .push _ _ _ _ => 0

/-- The physical address of a scratch offset of a context (R201): its bay of the offset, on its stall. -/
def Ctx.scratch (c : Ctx) (o : Nat) : Nat := scratchAddr c.stall (c.bays.getD (o / 2 ^ 18) 0) (o % 2 ^ 18)

/-- Stride of a channel's records (R445). -/
def Chan.stride (ch : Chan) : Nat := if ch.scal then 16 else 288
/-- Bytes of a page (R445). -/
def Chan.pageBytes (ch : Chan) : Nat := ch.rpp * ch.stride
/-- Scratch offset of a record (R445). -/
def Chan.recOff (ch : Chan) (page rec : Nat) : Nat := ch.base + page * ch.pageBytes + rec * ch.stride

/-- The 264 bytes of a vector register: its element field, then its scale bytes (R262, R445). -/
def vBytes (v : VReg) : List Byte :=
  (List.range 8).flatMap (fun g => (List.range 32).map (fun i => v.extractLsb' (264 * g + 8 * i) 8)) ++
  (List.range 8).map (fun g => v.extractLsb' (264 * g + 256) 8)

/-- A number packed from parts of a width, first part lowest. -/
def packNat (w : Nat) : List Nat → Nat
  | [] => 0
  | x :: t => x % 2 ^ w + 2 ^ w * packNat w t

/-- The vector register of a record's bytes (R445). -/
def vOfBytes (l : List Byte) : VReg :=
  BitVec.ofNat 2112 (packNat 264 ((List.range 8).map (fun g =>
    packNat 8 ((List.range 32).map (fun i => (l.getD (32 * g + i) 0).toNat) ++ [(l.getD (256 + g) 0).toNat]))))

/-- A page after one of its reserved records has been written or given up: it becomes FILLED when its close is due and
nothing reserved is missing, and a FILLED page with no present record is left to its channel (R185, R380, R448). -/
def Page.settle (p : Page) : Page :=
  if p.closed && p.res ≤ p.wr && p.st == .open then { p with st := .filled } else p

/-- Records that a page still has for its consumer. -/
def Page.left (p : Page) : Nat := (List.range p.res).countP (fun r => p.rd ≤ r && !p.absent.contains r)

/-- The pages of a channel with one changed. -/
def Chan.setPage (ch : Chan) (i : Nat) (p : Page) : Chan := { ch with pages := ch.pages.set i p }
/-- A page of a channel. -/
def Chan.page (ch : Chan) (i : Nat) : Page := ch.pages.getD i {}

/-- The head page of a channel when it is whole but has nothing present: it returns to FREE, and the next page becomes
the head (R185). The granules' full-empty bits are cleared by the caller. -/
def Chan.headEmpty (ch : Chan) : Bool :=
  let p := ch.page ch.head
  (p.st == .filled || p.st == .draining) && p.left == 0

/-- Page i of a channel of a context returns to FREE, every full-empty bit cleared; when it is the head, the next page
becomes the head (R185). -/
def State.freePage (s : State) (k : Nat) (c : CIdx) (i : Nat) : State :=
  let x := s.ctx k
  match x.chans.get? c.toNat with
  | none => s
  | some ch =>
    let ch' := { ch.setPage i {} with head := if i = ch.head then (ch.head + 1) % ch.pages.length else ch.head }
    let s1 := s.setCtx k { x with chans := x.chans.put c.toNat ch' }
    { s1 with mem := s1.mem.drain (x.scratch (ch.base + i * ch.pageBytes)) ch.pageBytes }

/-- Head pages that hold no present record return to FREE, at most as many as the ring has (R185). -/
def State.skipEmpty (s : State) (k : Nat) (c : CIdx) : Nat → State
  | 0 => s
  | n + 1 =>
    match (s.ctx k).chans.get? c.toNat with
    | none => s
    | some ch => if ch.headEmpty then (s.freePage k c ch.head).skipEmpty k c n else s

/-- A channel's page settled, and empty pages at the head of the ring freed. -/
def State.settlePage (s : State) (k : Nat) (c : CIdx) (i : Nat) : State :=
  let x := s.ctx k
  match x.chans.get? c.toNat with
  | none => s
  | some ch =>
    (s.setCtx k { x with chans := x.chans.put c.toNat (ch.setPage i (ch.page i).settle) }).skipEmpty k c 64

/-- A record written into its page: its bytes with their full-empty bits set, poisoned when the datum is lame (R380,
R445, R448); lame with cause REFUSED or LATE is kept beside the page (R456, R183). -/
def State.writeRecord (s : State) (k : Nat) (c : CIdx) (page rec : Nat) (bytes : List Byte) (lame : Lame) : State :=
  let x := s.ctx k
  match x.chans.get? c.toNat with
  | none => s
  | some ch =>
    let a := x.scratch (ch.recOff page rec)
    let m1 := (s.mem.write a bytes).fill a bytes.length
    let m2 := if lame = 3 then m1.taint a bytes.length else m1
    let p := ch.page page
    let p' := { p with wr := p.wr + 1, refused := if lame = 2 then setAdd p.refused rec else p.refused,
                       late := if lame = 1 then setAdd p.late rec else p.late }
    let s1 := { s with mem := m2 }
    (s1.setCtx k { x with chans := x.chans.put c.toNat (ch.setPage page p') }).settlePage k c page

/-- A reserved record given up: it is absent (R185, R304). -/
def State.dropRecord (s : State) (k : Nat) (c : CIdx) (page rec : Nat) : State :=
  let x := s.ctx k
  match x.chans.get? c.toNat with
  | none => s
  | some ch =>
    let p := ch.page page
    let p' := { p with wr := p.wr + 1, absent := setAdd p.absent rec, closed := true }
    let ch' := { ch.setPage page p' with openIx := if page = ch.openIx then (ch.openIx + 1) % ch.pages.length else ch.openIx }
    (s.setCtx k { x with chans := x.chans.put c.toNat ch' }).settlePage k c page

/-- The hitch of which a rider is a member (R168). -/
def State.hitchOf (s : State) (k : Nat) : Option Nat :=
  (s.hitches.find? (fun h => h.2.live && h.2.members.contains k)).map (·.1)

/-- The key of the hitch that an id names: entry × 4 + die (R168). -/
def hitchKeyOf (id : DWord) : Nat := bits id 7 0 * 4 + bits id 9 8

/-- What a landing entry does besides writing registers: HITCHID, unless the rider has left that hitch, and a pushed record. -/
def State.landEffect (s : State) (k : Nat) (w : RegWrite) : State :=
  match w with
  | .hitch id =>
    if s.hitchOf k = some (hitchKeyOf id) then s.modCtx k (fun c => { c with csr := { c.csr with hitchid := id } }) else s
  | .push c page rec x => s.writeRecord k c page rec (vBytes x.val ++ List.replicate 24 0) x.lame
  | .s _ _ | .a _ _ | .n _ _ | .j _ _ | .p _ _ | .k _ _ | .v _ _ | .vclr _ => s

/-- One entry lands in a context: its results and the VFLAGS it raises (R267, R354). -/
def State.landOne (s : State) (k : Nat) (e : Landing) : State :=
  let s1 := s.modCtx k (fun c =>
    { c with f := e.writes.foldl (fun f w => w.apply f) c.f,
             csr := { c.csr with vflags := c.csr.vflags ||| e.flags.setWidth 64 } })
  e.writes.foldl (fun s w => s.landEffect k w) s1

/-- The entry of a VCLRL, whose clearing comes before every other landing of its group (R402). -/
def Landing.clears (e : Landing) : Bool :=
  e.writes.any (fun w => match w with
    | .vclr _ => true
    | .s _ _ | .a _ _ | .n _ _ | .j _ _ | .p _ _ | .k _ _ | .v _ _ | .hitch _ | .push _ _ _ _ => false)

/-- The rider begins a group: every entry is one group nearer, and those that have waited out land in issue order
(R175, R176). Answers whether a result with cause UE landed (R304). -/
def State.tick (s : State) (k : Nat) : State × Bool :=
  let c := s.ctx k
  let aged := c.land.map (fun e => { e with remain := e.remain - 1 })
  let due := aged.filter (fun e => e.remain = 0)
  let order := due.filter Landing.clears ++ due.filter (fun e => !e.clears)
  let s1 := s.setCtx k { c with land := aged.filter (fun e => e.remain ≠ 0), seq := c.seq + 1 }
  (order.foldl (fun s e => s.landOne k e) s1, due.any (fun e => e.writes.any (fun w => w.lameOf = 3)))

/-- The context goes back before a group that takes no effect: the group does not count for what has not landed (R175, R179, R292). -/
def State.untick (s : State) (k : Nat) : State :=
  s.modCtx k (fun c => { c with land := c.land.map (fun e => { e with remain := e.remain + 1 }) })

/-! ## Ends of a rider -/

/-- An X command has begun when it has performed any part of itself (R304). -/
def XCmd.begun (x : XCmd) : Bool :=
  match x.st with
  | .moving | .performed => true
  | .halted _ _ _ => 0 < x.prog
  | .queued | .empty => false

/-- X commands that have not begun are discarded, and the room they reserved becomes absent records (R304). -/
def State.discardX (s : State) (k : Nat) : State :=
  let c := s.ctx k
  let s1 := s.setCtx k { c with xq := (c.xq.filter XCmd.begun).map (fun x => { x with mute := true }) }
  (c.xq.filter (fun x => !x.begun)).foldl (fun s x =>
    match x.room, x.i with
    | some (c, page, rec), _ => s.dropRecord k (BitVec.ofNat 4 c) page rec
    | none, _ => s) s1

/-- A rider withdraws its arrival at its hitch (R170). -/
def Hitch.withdraw (h : Hitch) (k : Nat) : Hitch := { h with arrived := h.arrived.filter (· ≠ k) }

/-- A phase completes when every member has arrived: its step is due (R170). -/
def State.hitchCheck (s : State) (h : Nat) : State :=
  match s.hitches.get? h with
  | none => s
  | some x => if x.live && x.arrived.length == x.members.length && x.members.length ≠ 0 then s.push [.hbarDone h] else s

/-- A rider leaves its hitch as UNHITCH does; the entry is freed with its last member (R169, R170). HITCHID then reads 0 in every field (R168
fixes MEMBER alone; DESIGN CHOICE, log entry 111). -/
def State.leaveHitch (s : State) (k : Nat) : State :=
  let c := s.ctx k
  match s.hitchOf k with
  | none => s
  | some h =>
    let s1 := s.setCtx k { c with csr := { c.csr with hitchid := 0 } }
    match s1.hitches.get? h with
    | none => s1
    | some x =>
      let m := x.members.filter (· ≠ k)
      let x' := { x.withdraw k with members := m, live := !m.isEmpty }
      ({ s1 with hitches := s1.hitches.put h x' } : State).hitchCheck h

/-- A rider ends through an unrecovered error: landing and replay entries and X commands not begun are discarded, and its
context is freed when what has begun is done (R296). -/
def State.failRider (s : State) (k : Nat) (cause : Cause) : State :=
  let s1 := (s.discardX k).leaveHitch k
  s1.modCtx k (fun c => { c with land := [], frame := none, waits := [], pendingTrap := none, retiring := true,
                                 failed := some cause })

/-- A firmware restart of a die is due (R128). -/
def State.restartDie (s : State) (k : Nat) : State := s.push [.restart (stallQuarter (k - groomKey))]

/-! ## Traps -/

/-- Trap entry as one event (R292): the trap registers, SSW, the frame, the status, and the handler's first packet. -/
def Ctx.enterTrap (c : Ctx) (t : Cause) (pc : DWord) : Ctx :=
  { c with
    pc := c.csr.trapvec,
    frame := some { replay := c.land, loops := c.loops, links := c.links, vwb := c.csr.vwb, vrot := c.csr.vrot,
                    guarded := c.guarded },
    land := [], loops := [], links := [], forced := false,
    csr := { c.csr with
      trappc := pc,
      trapcause := BitVec.ofNat 64 (t.code.toNat + 2 ^ 16 * t.word.toNat + 2 ^ 18 * t.pipe.toNat),
      trapinfo := t.info,
      ssw := c.statusWord,
      status := setBit (setBit c.csr.status 3 true) 4 false,
      vrot := 0 } }

/-- The channel records that the landing queue of a context has reserved become absent (R185, R304). -/
def State.dropPushes (s : State) (k : Nat) : State :=
  ((s.ctx k).land.flatMap (fun e => e.writes)).foldl (fun s w => match w with
    | .push c page rec _ => s.dropRecord k c page rec
    | .s _ _ | .a _ _ | .n _ _ | .j _ _ | .p _ _ | .k _ _ | .v _ _ | .vclr _ | .hitch _ => s) s

/-- The unwind of a containment region at the group at pc (R304, R306). -/
def State.unwind (s : State) (k : Nat) (pc : DWord) (cause : Lame) (use : Bool) : State :=
  let s1 := (s.dropPushes k).discardX k
  s1.modCtx k (fun c =>
    match c.snap with
    | none => c
    | some n =>
      let count := holdAt 0xFFF (bits c.csr.contstat 63 52 + 1)
      { c with
        land := [], snap := none, loops := n.loops, links := n.links, pc := n.target, waits := [], forced := false,
        f := { c.f with s := n.s },
        csr := { c.csr with
          vwb := n.vwb, vrot := n.vrot, status := setBit c.csr.status 4 false,
          contstat := setBits (setBit (setBits (setBits 0 48 0 pc.toNat) 50 49 cause.toNat) 51 use) 63 52 count } })

/-- A stall covers a feature mask (R145). -/
def covers (offered declared : Byte) : Bool := declared &&& ~~~offered == 0

/-- FEATURE_ABSENT goes to the groom context (R146): the trap registers name the missing bits, the declared mask grows,
and the context goes on at its group where its stall covers the mask. A context whose stall does not is stopped by a
collection without limit and placed again as a free rider; a BOUND one whose stall does not cover the mask ends its node with a fault.
In handler mode the trap registers keep the frame of the handler (DESIGN CHOICE, log entry 39). -/
def State.featureAbsent (s : State) (k : Nat) (t : Cause) (pc : DWord) : State :=
  let c := s.ctx k
  let mask := c.csr.declfeat ||| t.info
  let csr := { c.csr with declfeat := mask }
  let c1 := { c with
    pc := pc,
    csr := if c.handler then csr else { csr with
      trappc := pc, trapinfo := t.info,
      trapcause := BitVec.ofNat 64 (t.code.toNat + 2 ^ 16 * t.word.toNat + 2 ^ 18 * t.pipe.toNat) } }
  let s1 := s.setCtx k c1
  let covered := covers (s.featOf c.stall) (mask.extractLsb' 0 8)
  if covered && s.stallState c.stall < 2 && (s.moves.get? (stallDieRow c.stall)).isNone then s1
  else if c.bound.isSome && !covered then s1.failRider k t
  else
    match s.colls.find? (fun x => x.2.victims.contains k) with
    | some x => s1.setCtx k { c1 with loc := .stopped c.stall c.slot x.1 }
    | none =>
      { s1.setCtx k { c1 with loc := .stopped c.stall c.slot s1.ids } with
        colls := s1.colls.put s1.ids { victims := [k], limited := false, start := s1.clock }, ids := s1.ids + 1 }

/-- A cause at the group at pc is taken (R291, R294, R296, R304): by an unwind, by a restart, by the groom context, by the
end of the rider, or by its handler. -/
def State.takeCause (s : State) (k : Nat) (t : Cause) (pc : DWord) : State :=
  let s := { s with fresh := s.fresh + 1 }
  let s := if t.code = 8 then s.modCtx k (fun c => { c with nest := { c.nest with owes := none } }) else s
  let c := s.ctx k
  if t.code = 7 && c.contain && !c.handler then s.unwind k pc t.lame true
  else if isGroom k then
    if c.handler || c.csr.trapvec == 0 then s.restartDie k else s.setCtx k (c.enterTrap t pc)
  else if t.code = 4 then s.featureAbsent k t pc
  else if c.handler then s.failRider k t
  else if c.csr.trapvec == 0 then s.failRider k t
  else s.setCtx k (c.enterTrap t pc)

/-- The frame that TRET finds is refused (R295). -/
def Ctx.tretRefused (c : Ctx) (f : Frame') : Bool :=
  let w := c.csr.ssw
  bits w 15 9 != 0 || bits w 63 24 != 0 || bit w 3 || f.loops.length < bits w 2 0 || bit w 5 != f.guarded ||
  bits w 8 6 != bits c.csr.riderid 50 48 || (bit w 4 && c.snap.isNone) ||
  Nat.max 1 (bits f.vrot 5 0) ≤ bits w 23 16 || bits c.csr.trappc 1 0 != 0 || bits c.csr.trappc 63 49 != 0

/-- The return of TRET (R295): handler-mode entries land, the stacks and the window return, the replay queue is put back. -/
def State.tret (s : State) (k : Nat) (f : Frame') : State :=
  let s1 := (s.ctx k).land.foldl (fun s e => s.landOne k e) (s.modCtx k (fun c => { c with land := [] }))
  s1.modCtx k (fun c =>
    let w := c.csr.ssw
    { c with
      pc := c.csr.trappc, frame := none, land := f.replay,
      loops := f.loops.drop (f.loops.length - bits w 2 0), links := f.links,
      snap := if bit w 4 then c.snap else none,
      csr := { c.csr with vwb := f.vwb, vrot := setBits f.vrot 12 8 (bits w 23 16), status := w } })

/-! ## One word -/

/-- The causes that checks raise, each made on the same state. -/
def causesOf (l : List (W Unit)) (s : State) : List Cause :=
  l.filterMap (fun w => match w s with
    | .error (.cause c) => some c
    | .error .held => none
    | .error .xfull => none
    | .ok _ => none)

/-- The cause with the lower code; the first of two with one code (R290). -/
def lowerCause (a b : Cause) : Cause := if b.code.toNat < a.code.toNat then b else a

/-- Checks of a word: of several causes the lowest code is taken (R290). -/
def lowest (l : List (W Unit)) : W Unit := fun s =>
  match causesOf l s with
  | [] => .ok ((), s)
  | c :: t => .error (.cause (t.foldl lowerCause c))

/-- The consuming use of a lame guard (R300, R322). -/
def guardUse (g : PIdx) : W Unit := do consume (108 + g.toNat) ((← getMe).preg g).lame

/-- A word under its guard: squashed when the guard reads 0; a lame guard is a consuming use beside what the word itself
raises (R290, R300, R322). -/
def guarded (g : PIdx) (body : W Unit) : W Unit := do
  let v := (← getMe).preg g
  if v.lame = 0 then (if v.val then body else pure ())
  else if v.val then lowest [body, guardUse g] else guardUse g

/-- What a word's effect comes to: the next state, or the state in which its cause has been taken, or the unchanged state
with the hold noted. -/
def settle (s : State) (r : Except Stop (Unit × State)) : State :=
  match r with
  | .ok (_, t) => { t with raised := none }
  | .error (.cause c) => { s.takeCause s.cur c s.pos.group with raised := some (.cause c) }
  | .error e => { s with raised := some e }

/-- A word under its guard. -/
def runWord (g : PIdx) (body : W Unit) (s : State) : Host.Outcome State Fault Refusal :=
  .next (settle s (guarded g body s))

/-- A word that no guard squashes (SEL). -/
def runBare (body : W Unit) (s : State) : Host.Outcome State Fault Refusal := .next (settle s (body s))

/-- A feature of R145 that a word needs (R146). -/
def needFeature (b : Nat) : W Unit := do
  let c ← getMe
  if bit c.csr.declfeat b then pure () else raise 4 (2 ^ b)

end Sys2Proof.Machine
end

