-- ==== Sys2Proof/Machine/Transport.lean ====
section
/-! DEFINITION. Machine/Transport.lean: what the module sends to the other modules of its domain (R49, R50, R54). -/

namespace Sys2Proof.Machine

/-- MYMOD and ENABLE of DOMCFG (R52). -/
def State.myMod (s : State) : Nat := bits (s.reg .domcfg) 5 0
def State.domainOn (s : State) : Bool := bit (s.reg .domcfg) 6

/-- A port that is up (R51). -/
def State.portUp (s : State) (p : Nat) : Bool := bit (s.reg (.soport p)) 0

/-- A frame leaves on a port, with the module's EtherType and the port's MAC address (R48, R49). -/
def State.sendOut (s : State) (p : Nat) (f : Frame) : State :=
  s.emit (.frame p { f with etype := (s.reg .soetype).setWidth 16, smac := s.nv.macs.getD p 0 })

/-- The port 4q + (d mod 4) of R50. -/
def homePort (q dst : Nat) : Nat := 4 * q + dst % 4

/-- The port of a stream: the one it is pinned to, or the next that is up (R50). -/
def State.streamPort (s : State) (pin : Nat) : Option Nat :=
  ((List.range 16).map (fun i => (pin + i) % 16)).find? s.portUp

/-- The stream to a module of a class (R50): destination × 4 + class. -/
def streamKey (dst cls : Nat) : Nat := dst * 4 + cls

/-- ATTR of a frame (R49). -/
def frameAttr (scope order atomic : Nat) (poison : Bool) : BitVec 16 :=
  BitVec.ofNat 16 (scope % 8 + order % 8 * 8 + atomic % 16 * 64 + poison.toNat * 1024)

/-- A frame put on its stream from a quarter, towards a port: it takes the next sequence number, is kept until it is acknowledged, and
leaves on that port, or the next that is up (R50). -/
def State.sendFrom (s : State) (pin dst cls : Nat) (f : Frame) : State :=
  let k := streamKey dst cls
  let st := s.streams.getD k {}
  let f' := { f with cls := BitVec.ofNat 8 cls, src := BitVec.ofNat 8 s.myMod, dst := BitVec.ofNat 8 dst, seq := st.txSeq,
                     ackn := st.rxSeq }
  let st' := { st with txSeq := st.txSeq + 1, unacked := st.unacked ++ [f'], firsts := st.firsts ++ [s.clock], port := some pin,
                       sentAt := if st.unacked.isEmpty then s.clock else st.sentAt,
                       tries := if st.unacked.isEmpty then 0 else st.tries }
  let s1 := { s with streams := s.streams.put k st' }
  match s1.streamPort pin with
  | some p => s1.sendOut p f'
  | none => s1

/-- A frame put on its stream from a quarter; the first one pins the stream to the port of R50. -/
def State.sendFrame (s : State) (q dst cls : Nat) (f : Frame) : State :=
  s.sendFrom (((s.streams.getD (streamKey dst cls) {}).port).getD (homePort q dst)) dst cls f

/-- A frame of a type with its content. -/
def mkFrame (type len tag : Nat) (addr : Nat) (attr : BitVec 16) (data : List Byte) (pcrc : BitVec 32 := 0) : Frame :=
  { type := BitVec.ofNat 4 type, cls := 0, len := BitVec.ofNat 16 len, src := 0, dst := 0, tag := BitVec.ofNat 16 tag, seq := 0,
    ackn := 0, addr := BitVec.ofNat 64 addr, attr := attr, pcrc := pcrc, data := data }

/-- REFUSED in the status of CHSTAT (R202, R451). -/
def Ctx.noteRefused (c : Ctx) : Ctx := { c with refused := true, nref := holdAt 0xFFFF (c.nref + 1) }
/-- UE in the status of CHSTAT. -/
def Ctx.noteUe (c : Ctx) : Ctx := { c with ue := true, nue := holdAt 0xFFFF (c.nue + 1) }

/-- The X commands of a context with one changed. -/
def Ctx.modCmd (c : Ctx) (tok : Nat) (f : XCmd → XCmd) : Ctx := { c with xq := c.xq.map (fun x => if x.tok == tok then f x else x) }

/-- The requester of the input check of a launch (R154). -/
def launchKey (li : Nat) : Nat := 2 ^ 40 + li

/-- The state with a line from another module handed to the one that asked for it. -/
def State.giveLine (s : State) (key : Nat) (l : Line) : State :=
  if launchKey 0 ≤ key then
    { s with launches := s.launches.upd (key - launchKey 0) (fun x => { x with input := l :: x.input }) }
  else { s with ctxs := s.ctxs.upd key (fun c => { c with rbuf := l :: c.rbuf }) }

/-- A response reaches its request (R54): the line of a load, with its poison; a store is performed; the old value of an atomic, and
whether ACAS stored (R460), or for poison zero, with UE in the status (R254). What waited for it is tried again. -/
def State.answer (s : State) (o : Outstanding) (data : List Byte) (poison : BitVec 4) : State :=
  let s1 := { s with outstanding := s.outstanding.erase o }
  match o.kind with
  | .read =>
    let l : Line := { pa := 2 ^ 52 + o.addr, bytes := data, poison := poison, filled := s.clock }
    (s1.giveLine o.key l).push
      ((s1.ctx o.key).xq.map (fun x => .xPerform o.key x.tok))
  | .write => s1.push ((s1.ctx o.key).xq.map (fun x => .xPerform o.key x.tok))
  | .atomic =>
    let r : Lamed VReg := if poison = 0 then ⟨BitVec.ofNat 2112 (leNat data), 0⟩ else ⟨0, 3⟩
    let equal := fun (x : XCmd) => match x.i with
      | .acas _ _ _ _ => decide (poison = 0 ∧ leNat data = x.v1.toNat % 2 ^ (8 * data.length))
      | _ => false
    let s2 : State := { s1 with ctxs := s1.ctxs.upd o.key (fun c =>
      c.modCmd o.tok (fun x => { x with data := some r, data2 := BitVec.ofNat 64 (equal x).toNat })) }
    let s3 := if poison = 0 then s2 else { s2 with ctxs := s2.ctxs.upd o.key Ctx.noteUe }
    s3.push [.loadArrive o.key o.tok]

/-- A request that the other module will never answer (R50, R52, R54): a load or an atomic ends with poison, a store is discarded
and counted in LOSTW. -/
def State.lost (s : State) (o : Outstanding) : State :=
  match o.kind with
  | .read => s.answer o (List.replicate 64 0) 15
  | .atomic => s.answer o [] 15
  | .write =>
    let r := s.reg .domcfg
    (s.setReg .domcfg (setBits r 31 16 (holdAt 0xFFFF (bits r 31 16 + 1)))).answer o [] 0

/-- The frame type of a request (R49). -/
def ReqKind.type : ReqKind → Nat
  | .read => 0 | .write => 2 | .atomic => 4

/-- A request to another module: READ, WRITE or ATOMIC. It waits for its response under a tag of its own (R49, R54); while the
domain is disabled the module is unreachable (R52). -/
def State.request (s : State) (q : Nat) (addr : Nat) (kind : ReqKind) (len : Nat) (attr : BitVec 16) (data : List Byte)
    (key tok : Nat) : State :=
  let dst := addr / 2 ^ 39 % 64
  let tag := s.ids % 65536
  let o : Outstanding := { dst := dst, tag := tag, addr := addr, kind := kind, key := key, tok := tok }
  let s1 : State := { s with ids := s.ids + 1, outstanding := s.outstanding ++ [o] }
  if s.domainOn then s1.sendFrame q dst 0 (mkFrame kind.type len tag addr attr data) else s1.lost o

end Sys2Proof.Machine
end

