-- ==== Sys2Proof/Machine/Lines.lean ====
section
/-! DEFINITION. Machine/Lines.lean: home columns, the caches and stash lines with their write-back, and what a release and an acquire
do to them (R27, R54, R57, R158, R203, R219 to R223, R236, R243, R301). -/

namespace Sys2Proof.Machine

/-! ## Home columns (R27, R57, R158, R203) -/

/-- Physical keys from here on name addresses of other modules, and of host memory (R54, R57). -/
def remoteKey : Nat := 2 ^ 52
def hostKey : Nat := 2 ^ 60

/-- The stall whose column is home to a DRAM offset (R203). -/
def homeStall (o : Nat) : Nat := o / 65536 % 4096

/-- A home column holds its requests: a ratio change of its quarter, or a maintenance move that copies the column (R27, R158). -/
def State.homeHeld (s : State) (o : Nat) : Bool :=
  let st := homeStall o
  bit (s.reg (.dramclk (stallQuarter st))) 4 ||
  s.moves.any (fun m => m.2.copying && m.1 == stallDieRow st && m.2.col ≤ stallCol st % 32)

/-- A request that no X command makes, when a home column holds it, is named by this key (R27, R28, R158). -/
def devKey : Nat := 2 ^ 30

/-- Such a request is held at its home column, in the order of arrival. -/
def State.holdDev (s : State) (r : DevReq) : State :=
  { s with homeWait := s.homeWait ++ [(devKey, s.ids)], devReqs := s.devReqs.put s.ids r, ids := s.ids + 1 }

/-- The requester of the write-backs of a paddock's slices. -/
def paddockKey (p : Nat) : Nat := 2 ^ 29 + p

/-- Bytes performed at a home: DRAM, where a held column takes them in its order of arrival, host memory, or another module through a
WRITE (R28, R54, R57). Poisoned bytes mark their granules. The requester of a WRITE waits for its WDONE. -/
def State.homeWrite (s : State) (q pk : Nat) (l : List Byte) (poison : Bool) (attr key tok : Nat) : State :=
  if pk < remoteKey then
    if s.homeHeld pk then s.holdDev (.back key pk l poison)
    else
      let m := s.mem.write pk l
      { s with mem := if poison then m.taint pk l.length else m }
  else if pk < hostKey then
    s.request q (pk - remoteKey) .write l.length (BitVec.ofNat 16 (attr + poison.toNat * 1024)) l key tok
  else { s with mem := s.mem.hostPut (pk - hostKey) l poison }

/-- Writes that a rider's release must still wait for, on their way to another module or held at a home column: its own, and every
write-back of a cache, since a rider may have left the paddock whose lines hold its stores (R54, R151, R243). -/
def State.unsettled (s : State) (k : Nat) : Bool :=
  let counts := fun (key : Nat) => key == k || (paddockKey 0 ≤ key && key < paddockKey 256)
  s.outstanding.any (fun o => counts o.key && o.kind == .write) ||
  s.devReqs.any (fun r => match r.2 with
    | .back key _ _ _ => counts key
    | .mem _ _ _ _ | .frame _ | .step _ => false)

/-- Write-backs of a paddock's caches and stashes that their homes have not performed yet. -/
def State.backsLeft (s : State) (p : Nat) : Bool :=
  s.outstanding.any (fun o => o.key == paddockKey p && o.kind == .write) ||
  s.devReqs.any (fun r => match r.2 with
    | .back key _ _ _ => key == paddockKey p
    | .mem _ _ _ _ | .frame _ | .step _ => false)

/-- The poison bits of the four granules of a line. -/
def Mem.linePoison (m : Mem) (a : Nat) : BitVec 4 :=
  BitVec.ofNat 4 (packNat 1 ((List.range 4).map (fun g => (m.poison.contains (a / 16 + g)).toNat)))

/-- The same for a line of host memory; one that the host refuses arrives poisoned. -/
def Mem.hostLinePoison (m : Mem) (a : Nat) : BitVec 4 :=
  if m.hostRefuses a 64 then 15
  else BitVec.ofNat 4 (packNat 1 ((List.range 4).map (fun g => (m.hostPoison.contains (a / 16 + g)).toNat)))

/-- A clean line as its home holds it, when it can be read now. -/
def State.homeLine (s : State) (rb : List Line) (pk : Nat) : Option Line :=
  if pk < remoteKey then
    if s.homeHeld pk then none
    else some { pa := pk, bytes := s.mem.read pk 64, poison := s.mem.linePoison pk, filled := s.clock }
  else if pk < hostKey then rb.find? (fun l => l.pa == pk)
  else some { pa := pk, bytes := s.mem.hostRead (pk - hostKey) 64, poison := s.mem.hostLinePoison (pk - hostKey), filled := s.clock }

/-! ## Lines -/

/-- The mask of n bytes from byte o of a line. -/
def byteMask (o n : Nat) : BitVec 64 := BitVec.ofNat 64 ((2 ^ n - 1) * 2 ^ o)

/-- A granule lies wholly in a mask, and in part at least. -/
def granuleWhole (m : BitVec 64) (g : Nat) : Bool := m.extractLsb' (16 * g) 16 == BitVec.allOnes 16
def granuleMeets (m : BitVec 64) (g : Nat) : Bool := m.extractLsb' (16 * g) 16 != 0

/-- The four bits of the granules that a test picks. -/
def granuleBits (f : Nat → Bool) : BitVec 4 := BitVec.ofNat 4 (packNat 1 ((List.range 4).map (fun g => (f g).toNat)))

/-- A line holds every byte of a mask. -/
def Line.holds (l : Line) (m : BitVec 64) : Bool := m &&& ~~~l.valid == 0

/-- A line that holds nothing yet. -/
def Line.fresh (pa now : Nat) : Line := { pa := pa, bytes := List.replicate 64 0, filled := now, valid := 0 }

/-- A line with bytes written at an offset: a granule wholly written takes the poison of the write, another keeps its own or
takes it (R301). -/
def Line.put (l : Line) (o : Nat) (b : List Byte) (poison : Bool) : Line :=
  let m := byteMask o b.length
  { l with
    bytes := l.bytes.take o ++ b ++ l.bytes.drop (o + b.length),
    valid := l.valid ||| m,
    poison := granuleBits (fun g => if granuleWhole m g then poison else l.poison.getLsbD g || (poison && granuleMeets m g)),
    tainted := granuleBits (fun g => if granuleWhole m g then poison else l.tainted.getLsbD g || (poison && granuleMeets m g)) }

/-- A store to a cached line (R220). -/
def Line.store (l : Line) (o : Nat) (b : List Byte) (poison : Bool) (now : Nat) : Line :=
  { l.put o b poison with dirty := l.dirty ||| byteMask o b.length, written := if l.dirty = 0 then now else l.written }

/-- The bytes that a line holds over those of its home. -/
def Line.over (l h : Line) : Line :=
  { l with
    bytes := (List.range 64).map (fun i => if l.valid.getLsbD i then l.bytes.getD i 0 else h.bytes.getD i 0),
    valid := BitVec.allOnes 64, filled := h.filled,
    poison := granuleBits (fun g => l.poison.getLsbD g || (!granuleWhole l.valid g && h.poison.getLsbD g)) }

/-- A dirty line keeps its dirty bytes alone: those it was filled with may be stale (R236, R243). -/
def Line.forget (l : Line) : Line :=
  { l with valid := l.dirty, poison := granuleBits (fun g => l.poison.getLsbD g && (l.tainted.getLsbD g || granuleWhole l.dirty g)) }

/-- The runs of set bits of a 64-bit mask below n, as first bit and length. -/
def runsFrom (m : BitVec 64) : Nat → Nat → Option Nat → List (Nat × Nat)
  | 0, i, some st => [(st, i - st)]
  | 0, _, none => []
  | n + 1, i, cur =>
    match m.getLsbD i, cur with
    | true, some st => runsFrom m n (i + 1) (some st)
    | true, none => runsFrom m n (i + 1) (some i)
    | false, some st => (st, i - st) :: runsFrom m n (i + 1) none
    | false, none => runsFrom m n (i + 1) none
/-- The runs of dirty bytes of a line. -/
def dirtyRuns (m : BitVec 64) : List (Nat × Nat) := runsFrom m 64 0 none

/-- A granule whose dirty bytes go home poisoned: a write poisoned it, or it is wholly dirty and still poisoned (R221, R301). -/
def Line.badGranule (l : Line) (g : Nat) : Bool :=
  l.poison.getLsbD g && granuleMeets l.dirty g && (l.tainted.getLsbD g || granuleWhole l.dirty g)

/-- What a write-back of a line writes: its runs of dirty bytes, cut at granules when a granule goes home poisoned. -/
def Line.backs (l : Line) : List (Nat × Nat × Bool) :=
  if (List.range 4).any l.badGranule then
    (List.range 4).flatMap (fun g =>
      (dirtyRuns (l.dirty &&& byteMask (16 * g) 16)).map (fun r => (r.1, r.2, l.badGranule g)))
  else (dirtyRuns l.dirty).map (fun r => (r.1, r.2, false))

/-- The dirty bytes of a line written back to its home from a stall (R220, R221). -/
def State.writeBackLine (s : State) (st : Nat) (l : Line) : State :=
  l.backs.foldl (fun s r =>
    s.homeWrite (stallQuarter st) (l.pa + r.1) ((l.bytes.drop r.1).take r.2.1) r.2.2 0 (paddockKey (stallPaddock st)) 0) s

/-! ## L0 and slices (R22, R219 to R221) -/

/-- The slice of a paddock that a line belongs to, as a stall (R219). -/
def sliceStall (paddock pk : Nat) : Nat :=
  (paddockStalls paddock).getD (((pk / 2 ^ 6 % 16) ^^^ (pk / 2 ^ 10 % 16)) ^^^ ((pk / 2 ^ 14 % 16) ^^^ (pk / 2 ^ 18 % 16))) 0

/-- The ways of a line's slice: the cache bays of the riders resident on its stall (R219). -/
def State.sliceWays (s : State) (paddock pk : Nat) : Nat :=
  (s.residents (sliceStall paddock pk)).foldl (fun n c => n + (List.range 8).countP (fun b => bit c.2.csr.baymap b)) 0

/-- A slice has ways. -/
def State.hasWays (s : State) (paddock pk : Nat) : Bool :=
  (s.residents (sliceStall paddock pk)).any (fun c => bits c.2.csr.baymap 7 0 != 0)

/-- Lines of an L0 of 32 KiB, and of a bay of 256 KiB that is a cache way (R22, R23, R219). -/
def l0Lines : Nat := 512
def wayLines : Nat := 4096

/-- A line of a cache. -/
def findLine (l : List Line) (pk : Nat) : Option Line := l.find? (fun x => x.pa == pk)
/-- A cache without a line. -/
def dropLine (l : List Line) (pk : Nat) : List Line := l.filter (fun y => y.pa != pk)
/-- A cache with a line put in its place, or newest. -/
def putLine (l : List Line) (x : Line) : List Line :=
  if l.any (fun y => y.pa == x.pa) then l.map (fun y => if y.pa == x.pa then x else y) else x :: l
/-- An L0 with a line; with more than it has room for, the line that has been in it longest leaves (DESIGN CHOICE, log entry 44). -/
def putL0 (l : List Line) (x : Line) : List Line := (putLine l x).take l0Lines

/-- The state with the L0 of a stall, or the slices of a paddock, changed. -/
def State.modL0 (s : State) (st : Nat) (f : List Line → List Line) : State := { s with l0 := s.l0.put st (f (s.l0.getD st [])) }
def State.modSlice (s : State) (p : Nat) (f : List Line → List Line) : State :=
  { s with slices := s.slices.put p (f (s.slices.getD p [])) }

/-- A line of a paddock's slices written back; it stays, clean, from the fill it had (R220). -/
def State.cleanLine (s : State) (p pk : Nat) : State :=
  match findLine (s.slices.getD p []) pk with
  | none => s
  | some l =>
    if l.dirty = 0 then s
    else (s.writeBackLine (sliceStall p pk) l).modSlice p (fun ls => putLine ls { l with dirty := 0, tainted := 0 })

/-- A line of a paddock's slices written back and dropped. -/
def State.flushLine (s : State) (p pk : Nat) : State := (s.cleanLine p pk).modSlice p (fun ls => dropLine ls pk)

/-- A line put into its slice; a slice that has no room for one more writes back and drops the line that has been in it longest
(DESIGN CHOICE, log entry 44). -/
def State.putSlice (s : State) (p : Nat) (x : Line) : State :=
  let mine := (s.slices.getD p []).filter (fun l => sliceStall p l.pa == sliceStall p x.pa)
  let s1 := if mine.any (fun l => l.pa == x.pa) || mine.length < s.sliceWays p x.pa * wayLines then s
    else match mine.getLast? with
      | some l => s.flushLine p l.pa
      | none => s
  s1.modSlice p (fun ls => putLine ls x)

/-- A line dropped from the L0 of every stall of a paddock but one (R219, R221). -/
def State.snoopL0 (s : State) (p pk : Nat) (except : Option Nat) : State :=
  { s with l0 := s.l0.map (fun e => if stallPaddock e.1 == p && some e.1 != except then (e.1, dropLine e.2 pk) else e) }

/-! ## Stash mappings (R222 to R224) -/

/-- The line of a mapping at a byte of its range. -/
def Stash.lineAt (t : Stash) (i : Nat) : StashLine := t.lines.getD (i / 64) {}

/-- The mapping of a context whose scratch range, or whose global range, holds an address: its place and the byte in it. -/
def Ctx.stashOff (c : Ctx) (o : Nat) : Option (Nat × Nat) :=
  (c.stash.zipIdx.find? (fun t => t.1.off ≤ o && o < t.1.off + t.1.len)).map (fun t => (t.2, o - t.1.off))
def Ctx.stashVa (c : Ctx) (va : Nat) : Option (Nat × Nat) :=
  (c.stash.zipIdx.find? (fun t => t.1.va ≤ va && va < t.1.va + t.1.len)).map (fun t => (t.2, va - t.1.va))

/-- A line of a mapping of a context changed. -/
def State.setStashLine (s : State) (k i b : Nat) (x : StashLine) : State :=
  s.modCtx k (fun c => { c with stash := c.stash.modify i (fun t => { t with lines := t.lines.set (b / 64) x }) })

/-- Where a physical line lies in the stash of a rider of a paddock: the rider, the mapping, the byte (R223). -/
def State.stashOf (s : State) (p pk : Nat) : Option (Nat × Nat × Nat) :=
  s.ctxs.findSome? (fun c =>
    if isGroom c.1 || !c.2.resident || stallPaddock c.2.stall != p then none
    else c.2.stash.zipIdx.findSome? (fun t =>
      (t.1.lines.findIdx? (fun l => l.st != .absent && l.pk == pk)).map (fun j => (c.1, t.2, 64 * j))))

/-- The scratch address of a byte of a mapping. -/
def State.stashAddr (s : State) (k i b : Nat) : Nat :=
  let c := s.ctx k
  match c.stash[i]? with
  | some t => c.scratch (t.off + b)
  | none => 0

/-- A line whose scratch bytes of a mask have been written: DIRTY (R222, R223). -/
def StashLine.wrote (x : StashLine) (m : BitVec 64) (poison : Bool) (now : Nat) : StashLine :=
  { x with st := .dirty, written := if x.st = .dirty then x.written else now, dirty := x.dirty ||| m,
           tainted := if poison then x.tainted ||| granuleBits (granuleMeets m) else x.tainted }

/-- n bytes of a rider's scratch from an offset have been written: the lines of its mappings that hold them are DIRTY; an ABSENT line's
scratch bytes are not the line's (R222). -/
def State.markStash (s : State) (k o n : Nat) (poison : Bool) : State :=
  if (s.ctx k).stash.isEmpty then s
  else (List.range ((o % 64 + n + 63) / 64)).foldl (fun s i =>
    let a := o / 64 * 64 + 64 * i
    let lo := Nat.max a o
    let hi := Nat.min (a + 64) (o + n)
    match (s.ctx k).stashOff a with
    | none => s
    | some (t, b) =>
      match (s.ctx k).stash[t]? with
      | none => s
      | some m => if (m.lineAt b).st = .absent then s
        else s.setStashLine k t b ((m.lineAt b).wrote (byteMask (lo - a) (hi - lo)) poison s.clock)) s

/-- A line of a stash written back when it is dirty; it stays, clean, and the full-empty bits of the granules that it wrote are set
(R223, R224). -/
def State.cleanStash (s : State) (k i b : Nat) : State :=
  match (s.ctx k).stash[i]? with
  | none => s
  | some t =>
    let x := t.lineAt b
    if x.st = .dirty then
      let a := s.stashAddr k i b
      let l : Line := { pa := x.pk, bytes := s.mem.read a 64, poison := s.mem.linePoison a, dirty := x.dirty, tainted := x.tainted, filled := 0 }
      let s1 := s.writeBackLine (s.ctx k).stall l
      let m := (List.range 4).foldl (fun (m : Mem) g => if granuleMeets x.dirty g then m.fill (a + 16 * g) 16 else m) s1.mem
      ({ s1 with mem := m } : State).setStashLine k i b { x with st := .clean, dirty := 0, tainted := 0 }
    else s

/-- A line of a stash written back and made ABSENT. -/
def State.dropStash (s : State) (k i b : Nat) : State := (s.cleanStash k i b).setStashLine k i b {}

/-- The lines of a rider's stash mappings written back and made ABSENT (R223). -/
def State.dropStashes (s : State) (k : Nat) : State :=
  (s.ctx k).stash.zipIdx.foldl (fun s t => (List.range t.1.lines.length).foldl (fun s j => s.dropStash k t.2 (64 * j)) s) s

/-! ## Release, acquire, and the ends of cached lines (R218, R220, R243) -/

/-- The riders resident in a paddock. -/
def State.paddockRiders (s : State) (p : Nat) : List (Nat × Ctx) :=
  s.ctxs.filter (fun c => !isGroom c.1 && c.2.resident && stallPaddock c.2.stall == p)

/-- The paddock's dirty lines written back, those of its stashes too: what a release wider than PADDOCK does (R243). -/
def State.writeBackPaddock (s : State) (p : Nat) : State :=
  let s1 := (s.slices.getD p []).foldl (fun s l => s.cleanLine p l.pa) s
  (s1.paddockRiders p).foldl (fun s c =>
    c.2.stash.zipIdx.foldl (fun s t => (List.range t.1.lines.length).foldl (fun s j => s.cleanStash c.1 t.2 (64 * j)) s) s) s1

/-- The dirty lines of the slice of a stall written back; they stay valid and clean (R218). -/
def State.cleanSlice (s : State) (st : Nat) : State :=
  let p := stallPaddock st
  ((s.slices.getD p []).filter (fun l => sliceStall p l.pa == st)).foldl (fun s l => s.cleanLine p l.pa) s

/-- The lines of the slice of a stall written back and dropped when the stall has no cache bay left (R218, R220). -/
def State.flushSlice (s : State) (st : Nat) : State :=
  let p := stallPaddock st
  ((s.slices.getD p []).filter (fun l => sliceStall p l.pa == st)).foldl (fun s l => s.flushLine p l.pa) s

/-- What an acquire at a scope drops for a stall: from PADDOCK on its L0, and wider the clean bytes of its paddock's cache and the lines
of its paddock's stashes, the dirty ones written back first (R243). -/
def State.acquireAt (s : State) (st scope : Nat) : State :=
  if scope = 0 then s
  else
    let s1 : State := { s with l0 := s.l0.upd st (fun _ => []) }
    if scope = 1 then s1
    else
      let p := stallPaddock st
      let s2 : State := { s1 with slices := s1.slices.upd p (fun ls => (ls.filter (fun l => l.dirty != 0)).map Line.forget) }
      ((s2.paddockRiders p).filter (fun c => !c.2.stash.isEmpty)).foldl (fun s c => s.dropStashes c.1) s2

end Sys2Proof.Machine
end

