-- ==== Sys2Proof/Machine/Operands.lean ====
section
/-! DEFINITION. Machine/Operands.lean: the operand forms of the pipe words: registers with their lame bits, immediates
and literals, window names, channel sources and destinations. -/

namespace Sys2Proof.Machine

/-- The value of a signed immediate or its literal, as 64 bits (R316 imm_of). -/
def immS {n : Nat} : Imm n → DWord
  | .field v => v.signExtend 64
  | .lit v => v.signExtend 64

/-- The value of an unsigned immediate or its literal (R316 imm_of). -/
def immU {n : Nat} : Imm n → DWord
  | .field v => v.setWidth 64
  | .lit v => v.setWidth 64

/-- A scalar source (R338). -/
def sSrc (r : RIdx) : W (Lamed DWord) := do pure ((← getMe).sreg r)
/-- A scalar source whose use is consuming (R300, R338). -/
def sUse (r : RIdx) : W DWord := do
  let x := (← getMe).sreg r
  consume r.toNat x.lame
  pure x.val
/-- An access register whose use is consuming (R300, R444). -/
def aUse (r : RIdx) : W DWord := do
  let x := (← getMe).areg r
  consume (32 + r.toNat) x.lame
  pure x.val
/-- A jump register as a target: a consuming use (R300, R348; DEDUCED for the exit of LOOPR and the target of CONTAIN, log entry 100). -/
def jUse (r : JIdx) : W DWord := do
  let c ← getMe
  consume (96 + r.toNat) (c.jlame r)
  pure (c.jreg r)
/-- A nest register whose use is consuming (R300). -/
def nUse (r : RIdx) : W DWord := do
  let x := (← getMe).nreg r
  consume (64 + r.toNat) x.lame
  pure x.val

/-! ## The vector window -/

/-- f(i) of R194: the offset in the allocation that a window name maps to. -/
def Ctx.window (c : Ctx) (i : RIdx) : Nat :=
  let base := bits c.csr.vwb 10 0
  if i.toNat < c.rotSize then base + (i.toNat + c.rotBase) % c.rotSize else base + i.toNat

/-- A window name as a V word resolves it at issue; one past the allocation raises WINDOW (R194, R289). -/
def windowOf (i : RIdx) : W Nat := do
  let c ← getMe
  let o := c.window i
  if o < c.vregs then pure o else raise 10 (i.toNat + 2 ^ 16 * (o % 2 ^ 11))

/-- A window register with its lame bit (R175, R297). -/
def wSrc (i : RIdx) : W (Lamed VReg) := do
  let o ← windowOf i
  pure ((← getMe).vreg o)

/-! ## Channels -/

/-- The configured channel that a word names; an unconfigured one raises CHANNEL_CONFIG (R187). -/
def chanOf (c : CIdx) : W Chan := do
  match (← getMe).chans.get? c.toNat with
  | some ch => pure ch
  | none => channelConfig c

/-- A channel as a source of records of a kind: its consumer class must be RIDER (R187, R445). -/
def chanSource (c : CIdx) (scal : Bool) : W Chan := do
  let ch ← chanOf c
  if ch.array || ch.scal != scal then channelConfig c else pure ch

/-- A channel as a destination of records of a kind: its producer class must be RIDER (R187, R445). -/
def chanDest (c : CIdx) (scal : Bool) : W Chan := do
  let ch ← chanOf c
  if ch.prod != .rider || ch.scal != scal then channelConfig c else pure ch

/-- The first present record of a page from its read position (R185). -/
def Page.next (p : Page) : Option Nat := (List.range p.res).find? (fun r => p.rd ≤ r && !p.absent.contains r)

/-- The record that the next pop of a channel takes, when its head page is FILLED or DRAINING with a record left (R450). -/
def Chan.ready (ch : Chan) : Option Nat :=
  let p := ch.page ch.head
  match p.st with
  | .filled | .draining => p.next
  | .free | .open => none

/-- The bytes of a record with its lame cause: UE when a granule is poisoned, which delivers zero with scale bytes 0x7F,
or REFUSED or LATE when it was delivered so (R183, R297, R298). -/
def State.recordAt (s : State) (k : Nat) (ch : Chan) (page rec : Nat) : Lamed (List Byte) :=
  let c := s.ctx k
  let a := c.scratch (ch.recOff page rec)
  let n := if ch.scal then 8 else 264
  if s.mem.poisoned a ch.stride then
    ⟨if ch.scal then List.replicate 8 0 else List.replicate 256 0 ++ List.replicate 8 0x7F, 3⟩
  else ⟨s.mem.read a n, if (ch.page page).refused.contains rec then 2 else if (ch.page page).late.contains rec then 1 else 0⟩

/-- The bytes of a record as they stand, and its poisoned granules, a bit each: every granule of a record that was delivered lame with
another cause (R301, R457). -/
def State.rawRecord (s : State) (k : Nat) (ch : Chan) (page rec : Nat) : List Byte × Nat :=
  let a := (s.ctx k).scratch (ch.recOff page rec)
  (s.mem.read a 264,
   if (ch.page page).refused.contains rec || (ch.page page).late.contains rec then 2 ^ 18 - 1
   else packNat 1 ((List.range 18).map (fun g => (s.mem.poisoned (a + 16 * g) 16).toNat)))

/-- The consumer reads the head record: the page drains, and a pop that takes its last present record frees it
(R185); the first read of a FILLED page is an acquire at the channel's scope (R248). -/
def State.readRecord (s : State) (k : Nat) (c : CIdx) (ch : Chan) (rec : Nat) (peek : Bool) : State :=
  let p := ch.page ch.head
  let p' : Page := { p with st := .draining, rd := if peek then p.rd else rec + 1 }
  let s := if p.st = .filled then s.acquireAt (s.ctx k).stall ch.scope.toNat else s
  let x := s.ctx k
  (s.setCtx k { x with chans := x.chans.put c.toNat (ch.setPage ch.head p') }).skipEmpty k c 64

/-- What an operand delivers when its implicit wait has expired: zero, lame with cause LATE (R183). -/
def lateRecord (scal : Bool) : Lamed (List Byte) :=
  ⟨if scal then List.replicate 8 0 else List.replicate 256 0 ++ List.replicate 8 0x7F, 1⟩

/-- A word in the X command queue that has records of a channel still to write: a later word of the rider waits for room
until it has reserved them (R448). -/
def XCmd.fills (x : XCmd) (c : CIdx) : Bool :=
  !x.mute && !x.cut && (match x.i with
    | .tread _ d _ _ | .tgather _ d _ _ => d == c
    | _ => false)

/-- A word in the X command queue that has records of a channel still to take (R448). -/
def XCmd.drains (x : XCmd) (c : CIdx) : Bool :=
  !x.cut && (match x.i with
    | .twrite _ _ a _ | .tscatter _ _ a _ | .tscadd _ _ a _ => a.c == c
    | .rsend _ _ a _ _ | .rcast _ _ a _ _ _ => a.c == c
    | _ => false)

/-- A pop or peek of a channel of a kind: the record, or the hold of R184, or the forced delivery of R183. -/
def takeRecord (c : CIdx) (peek scal : Bool) : W (Lamed (List Byte)) := do
  let ch ← chanSource c scal
  let s ← getS
  match (if s.me.xq.any (fun x => x.drains c) then none else ch.ready) with
  | some r =>
    modS (fun s => s.readRecord s.cur c ch r peek)
    pure (s.recordAt s.cur ch ch.head r)
  | none => if s.pos.forced then pure (lateRecord scal) else hold

/-- The record that a producer reserves next in a channel, when its open page or the next page has room (R184, R185). -/
def Chan.room (ch : Chan) : Option Nat :=
  let p := ch.page ch.openIx
  match p.st with
  | .free => some 0
  | .open => if p.closed then none else some p.res
  | .filled | .draining => none

/-- The channel with that record reserved; the reservation of the last record of a page closes it (R185). -/
def Chan.reserve (ch : Chan) (rec : Nat) : Chan :=
  let p := ch.page ch.openIx
  let last := rec + 1 == ch.rpp
  { ch.setPage ch.openIx { p with st := .open, res := rec + 1, closed := last } with
    openIx := if last then (ch.openIx + 1) % ch.pages.length else ch.openIx }

/-- Room for one result in a channel of a kind: its page and record; none when a forced group discards it (R183, R184). -/
def takeRoom (c : CIdx) (scal : Bool) : W (Option (Nat × Nat)) := do
  let ch ← chanDest c scal
  let s ← getS
  match (if s.me.xq.any (fun x => x.fills c) then none else ch.room) with
  | some r =>
    modMe (fun x => { x with chans := x.chans.put c.toNat (ch.reserve r) })
    pure (some (ch.openIx, r))
  | none => if s.pos.forced then pure none else hold

/-! ## Operands of classes v and ac -/

/-- The checks of a v source before the group waits for a record (R187, R194). -/
def checkVSrc : VSrc → W Unit
  | .win w => do let _ ← windowOf w
  | .pop c | .peek c => do let _ ← chanSource c false

/-- The checks of a v destination (R187, R194). -/
def checkVDst : VDst → W Unit
  | .win w => do let _ ← windowOf w
  | .push c => do let _ ← chanDest c false

/-- A v source with its lame bit (R319, R375). -/
def vSrc : VSrc → W (Lamed VReg)
  | .win w => wSrc w
  | .pop c => do let r ← takeRecord c false false; pure ⟨vOfBytes r.val, r.lame⟩
  | .peek c => do let r ← takeRecord c true false; pure ⟨vOfBytes r.val, r.lame⟩

/-- A landing-queue entry that the word's result takes when it goes to a channel: the record is written as it lands
(R380). A lame result pushed is a consuming use (R381). When the room may come from the X source of the group, the result
waits for it (R186). -/
def pushV (c : CIdx) (n : Nat) (flags : BitVec 6) (x : Lamed VReg) (more : List RegWrite := []) : W Unit := do
  consume 0xFF x.lame
  let s ← getS
  let e := { landing s n more with flags := flags }
  let ch ← chanDest c false
  if (ch.room.isNone || s.me.xq.any (fun x => x.fills c)) && s.pos.withX then
    modS (fun s => { s with pendPush := some (c, e, x) })
  else
    match ← takeRoom c false with
    | some (page, rec) => modS (fun s => s.land { e with writes := .push c page rec x :: more })
    | none => modS (fun s => s.land e)

/-- A vector result lands in its destination n groups from now, with the flags it raises and the word's other result (R178, R379, R380). -/
def landV (d : VDst) (n : Nat) (flags : BitVec 6) (x : Lamed VReg) (more : List RegWrite := []) : W Unit :=
  match d with
  | .win w => do
    let o ← windowOf w
    modS (fun s => s.land { landing s n (.v o x :: more) with flags := flags })
  | .push c => pushV c n flags x more

/-- The V result that waited for room is served after the X sources of its group (R186). -/
def servePush (s : State) : Except Stop State :=
  match s.pendPush with
  | none => .ok s
  | some (c, e, x) =>
    match (takeRoom c false) { s with pendPush := none } with
    | .ok (some (page, rec), t) => .ok (t.land { e with writes := .push c page rec x :: e.writes })
    | .ok (none, t) => .ok (t.land e)
    | .error e => .error e

/-- The datum of a scalar X store: an access register or a popped SCAL record; its use is consuming (R300, R452). -/
def xDatum : XSrc → W DWord
  | .reg a => aUse a
  | .pop c => do
    let r ← takeRecord c false true
    consume 0xFF r.lame
    pure (BitVec.ofNat 64 (leNat r.val))
  | .peek c => do
    let r ← takeRecord c true true
    consume 0xFF r.lame
    pure (BitVec.ofNat 64 (leNat r.val))

/-! ## Ranges of the rider's scratch -/

/-- A range of scratch meets a configured channel ring of the rider. -/
def Ctx.hitsRing (c : Ctx) (o n : Nat) : Bool :=
  c.chans.any (fun p => overlaps o n p.2.base (p.2.pages.length * p.2.pageBytes))

/-- A range of scratch meets a stash range of the rider. -/
def Ctx.hitsStash (c : Ctx) (o n : Nat) : Bool := c.stash.any (fun t => overlaps o n t.off t.len)

/-- BASE, COUNT and HEAD of DEFERQ (R195). -/
def Ctx.deferBase (c : Ctx) : Nat := bits c.csr.deferq 20 0
def Ctx.deferCount (c : Ctx) : Nat := bits c.csr.deferq 36 24
def Ctx.deferHead (c : Ctx) : Nat := bits c.csr.deferq 51 40

/-- A range of scratch meets the deferral queue range while it is in force (R196). -/
def Ctx.hitsDefer (c : Ctx) (o n : Nat) : Bool := c.deferOn && overlaps o n c.deferBase 65536

end Sys2Proof.Machine
end

