-- ==== Sys2Proof/Machine/Flags.lean ====
section
/-! DEFINITION. Machine/Flags.lean: the vector type, the lane mask and the sticky flags of R266, R267, R376, R377. -/

namespace Sys2Proof.Machine

/-- Flags that a result raises, in the bit order of VFLAGS (R267). -/
abbrev VFl := BitVec 6

/-- NV: invalid. -/
def fNV : VFl := 0x01
/-- OF: overflow. -/
def fOF : VFl := 0x02
/-- UF: tiny and inexact. -/
def fUF : VFl := 0x04
/-- INX: inexact. -/
def fINX : VFl := 0x08
/-- CLAMP. -/
def fCLAMP : VFl := 0x10
/-- NANB: a block with scale 0xFF. -/
def fNANB : VFl := 0x20

/-- A flag when a condition holds. -/
def flagIf (b : Bool) (f : VFl) : VFl := if b then f else 0

/-- The union of the flags of several elements. -/
def unionFl (l : List VFl) : VFl := l.foldl (· ||| ·) 0

/-- ETYPE of VTYPE (R266). -/
inductive EType where
  | fp32 | bf16 | fp16 | int32 | int16 | int8
  deriving DecidableEq, Repr

/-- Rounding modes (R266). -/
inductive Rm where
  | rne | rtz | rdn | rup | sr
  deriving DecidableEq, Repr

/-- VTYPE as a word captures it at issue (R266, R354). -/
structure VType where
  etype : EType
  rm : Rm
  sat : Bool
  mask : KIdx
  deriving DecidableEq, Repr

/-- The element type of a code; a reserved code is stored as 0 (R266). -/
def etypeOf : Nat → EType
  | 1 => .bf16 | 2 => .fp16 | 3 => .int32 | 4 => .int16 | 5 => .int8 | _ => .fp32

/-- The rounding mode of a code; a reserved code is stored as 0 (R266). -/
def rmOf : Nat → Rm
  | 1 => .rtz | 2 => .rdn | 3 => .rup | 4 => .sr | _ => .rne

/-- VTYPE of a context (R266). -/
def Ctx.vt (c : Ctx) : VType :=
  { etype := etypeOf (bits c.csr.vtype 2 0), rm := rmOf (bits c.csr.vtype 6 4), sat := bit c.csr.vtype 7,
    mask := BitVec.ofNat 3 (bits c.csr.vtype 10 8) }

/-- VTYPE with its four fields; reserved ETYPE and RM codes store 0 (R266, R369). -/
def vtypeWord (etype rm : Nat) (sat : Bool) (mask : Nat) : DWord :=
  setBits (setBit (setBits (setBits 0 2 0 (if etype < 6 then etype else 0)) 6 4 (if rm < 5 then rm else 0)) 7 sat) 10 8 mask

/-- Lane width of an element type (R262). -/
def EType.width : EType → Nat
  | .fp32 | .int32 => 32
  | .bf16 | .fp16 | .int16 => 16
  | .int8 => 8

/-- Lane count n of an element type (R376). -/
def EType.lanes (e : EType) : Nat := 2048 / e.width

/-- The element type is an integer type. -/
def EType.isInt : EType → Bool
  | .int32 | .int16 | .int8 => true
  | .fp32 | .bf16 | .fp16 => false

/-- Code of an element type (R266). -/
def EType.code : EType → Nat
  | .fp32 => 0 | .bf16 => 1 | .fp16 => 2 | .int32 => 3 | .int16 => 4 | .int8 => 5

/-- Bit j of a lane mask. -/
def maskBit (m : Mask) (j : Nat) : Bool := m.getLsbD j

/-- Bits 0 to n − 1 of a mask are all set. -/
def maskFull (m : Mask) (n : Nat) : Bool := m.setWidth n == BitVec.allOnes n

/-- The number of set bits of a mask below n. -/
def maskCount (m : Mask) (n : Nat) : Nat := (List.range n).countP (maskBit m)

/-- The mask of those lanes below n for which f holds. -/
def maskOf (n : Nat) (f : Nat → Bool) : Mask := BitVec.ofNat 256 (packNat 1 ((List.range n).map (fun j => (f j).toNat)))

/-- A write of VFLAGS clears the flags whose bits are 1 (R267, R354). -/
def clearFlags (old w : DWord) : DWord := old &&& ~~~(w &&& 0x3F)

end Sys2Proof.Machine
end

