-- ==== Sys2Proof/Machine/Num.lean ====
section
/-! DEFINITION. Machine/Num.lean: number formats, exact values, rounding, stochastic draws, MX scales and the pair tree
(chapter "Number formats, rounding and summation order"). -/

namespace Sys2Proof.Machine

/-- The formats of R257 and R259. -/
inductive Fmt where
  | fp32 | bf16 | fp16 | e4m3 | e5m2 | e3m2 | e2m3 | e2m1 | mxi8 | int8 | int16 | int32
  deriving DecidableEq, Repr

/-- Bits of a code (R257, R259). -/
def Fmt.bits : Fmt → Nat
  | .fp32 | .int32 => 32
  | .bf16 | .fp16 | .int16 => 16
  | .e4m3 | .e5m2 | .mxi8 | .int8 => 8
  | .e3m2 | .e2m3 => 6
  | .e2m1 => 4

/-- Mantissa bits of a floating-point format (R257). -/
def Fmt.m : Fmt → Nat
  | .fp32 => 23 | .bf16 => 7 | .fp16 => 10 | .e4m3 => 3 | .e5m2 => 2 | .e3m2 => 2 | .e2m3 => 3 | .e2m1 => 1
  | .mxi8 | .int8 | .int16 | .int32 => 0

/-- Bias of a floating-point format (R257). -/
def Fmt.bias : Fmt → Nat
  | .fp32 | .bf16 => 127 | .fp16 | .e5m2 => 15 | .e4m3 => 7 | .e3m2 => 3 | .e2m3 | .e2m1 => 1
  | .mxi8 | .int8 | .int16 | .int32 => 0

/-- An integer type or the MXINT8 element. -/
def Fmt.isFixed : Fmt → Bool
  | .mxi8 | .int8 | .int16 | .int32 => true
  | .fp32 | .bf16 | .fp16 | .e4m3 | .e5m2 | .e3m2 | .e2m3 | .e2m1 => false

/-- INT8, INT16 or INT32. -/
def Fmt.isInt : Fmt → Bool
  | .int8 | .int16 | .int32 => true
  | .mxi8 | .fp32 | .bf16 | .fp16 | .e4m3 | .e5m2 | .e3m2 | .e2m3 | .e2m1 => false

/-- The exponent of the unit of a fixed-point target: 2^-6 for the MXINT8 element (R268). -/
def Fmt.unit : Fmt → Int
  | .mxi8 => -6
  | .int8 | .int16 | .int32 | .fp32 | .bf16 | .fp16 | .e4m3 | .e5m2 | .e3m2 | .e2m3 | .e2m1 => 0

/-- The code of the largest finite magnitude (R257); for a fixed-point target its largest code. -/
def Fmt.maxCode : Fmt → Nat
  | .fp32 => 0x7F7FFFFF | .bf16 => 0x7F7F | .fp16 => 0x7BFF | .e5m2 => 0x7B | .e4m3 => 0x7E | .e3m2 | .e2m3 => 0x1F
  | .e2m1 => 0x7 | .mxi8 | .int8 => 127 | .int16 => 32767 | .int32 => 2147483647

/-- The canonical NaN (R271); formats without one give 0. -/
def Fmt.nan : Fmt → Nat
  | .fp32 => 0x7FC00000 | .bf16 => 0x7FC0 | .fp16 => 0x7E00 | .e5m2 => 0x7E | .e4m3 => 0x7F
  | .e3m2 | .e2m3 | .e2m1 | .mxi8 | .int8 | .int16 | .int32 => 0

/-- The code of +∞, where the format has one (R257). -/
def Fmt.inf : Fmt → Option Nat
  | .fp32 => some 0x7F800000 | .bf16 => some 0x7F80 | .fp16 => some 0x7C00 | .e5m2 => some 0x7C
  | .e4m3 | .e3m2 | .e2m3 | .e2m1 | .mxi8 | .int8 | .int16 | .int32 => none

/-- An exact value: a NaN (signalling or not), an infinity, or (−1)^neg × m × 2^e, which covers both zeros. -/
inductive Val where
  | nan (sig : Bool)
  | inf (neg : Bool)
  | fin (neg : Bool) (m : Nat) (e : Int)
  deriving DecidableEq, Repr

/-- The exact value of a code (R257, R258, R259, R263). -/
def decode (f : Fmt) (code0 : Nat) : Val :=
  let code := code0 % 2 ^ f.bits
  if f.isFixed then
    if code < 2 ^ (f.bits - 1) then .fin false code f.unit else .fin true (2 ^ f.bits - code) f.unit
  else
    let neg := 2 ^ (f.bits - 1) ≤ code
    let mag := code % 2 ^ (f.bits - 1)
    let e := mag / 2 ^ f.m
    let mant := mag % 2 ^ f.m
    if f.inf == some mag then .inf neg
    else if f.maxCode < mag then
      .nan (match f with
        | .fp32 | .bf16 | .fp16 => mant < 2 ^ (f.m - 1)
        | .e4m3 | .e5m2 | .e3m2 | .e2m3 | .e2m1 | .mxi8 | .int8 | .int16 | .int32 => false)
    else if e = 0 then .fin neg mant (1 - (f.bias : Int) - f.m)
    else .fin neg (2 ^ f.m + mant) ((e : Int) - f.bias - f.m)

/-- The code with sign and magnitude code; fixed-point codes are two's complement. -/
def signed (f : Fmt) (neg : Bool) (mag : Nat) : Nat :=
  if f.isFixed then (if neg then (2 ^ f.bits - mag) % 2 ^ f.bits else mag)
  else if neg then 2 ^ (f.bits - 1) + mag else mag

/-- A rounding is away from zero at overflow (R269). -/
def Rm.away : Rm → Bool → Bool
  | .rne, _ | .sr, _ => true
  | .rup, neg => !neg
  | .rdn, neg => neg
  | .rtz, _ => false

/-- overflow_result of R269. -/
def overflowResult (f : Fmt) (neg : Bool) (rm : Rm) (sat : Bool) : Nat × VFl :=
  match f with
  | .fp32 | .bf16 | .fp16 | .e5m2 =>
    (signed f neg (if !sat && rm.away neg then f.inf.getD 0 else f.maxCode), fOF ||| fINX)
  | .e4m3 => (if !sat && rm.away neg then f.nan else signed f neg f.maxCode, fOF ||| fINX)
  | .e3m2 | .e2m3 | .e2m1 => (signed f neg f.maxCode, fOF ||| fINX ||| flagIf (!sat && rm.away neg) fCLAMP)
  | .mxi8 => (signed f neg f.maxCode, fOF ||| fINX)
  | .int8 | .int16 | .int32 => (signed f neg (f.maxCode + neg.toNat), fNV)

/-- inf_result of R270. -/
def infResult (f : Fmt) (neg : Bool) (sat : Bool) : Nat × VFl :=
  match f with
  | .fp32 | .bf16 | .fp16 | .e5m2 => (signed f neg (f.inf.getD 0), 0)
  | .e4m3 => if sat then (signed f neg f.maxCode, fOF ||| fINX) else (f.nan, fNV)
  | .e3m2 | .e2m3 | .e2m1 => (signed f neg f.maxCode, fOF ||| fINX ||| flagIf (!sat) fCLAMP)
  | .mxi8 => (signed f neg f.maxCode, fOF ||| fINX)
  | .int8 | .int16 | .int32 => (signed f neg (f.maxCode + neg.toNat), fNV)

/-- nan_result of R270; a signalling NaN also sets NV. -/
def nanResult (f : Fmt) (sig : Bool) : Nat × VFl :=
  (f.nan, match f with
    | .fp32 | .bf16 | .fp16 | .e5m2 | .e4m3 => flagIf sig fNV
    | .e3m2 | .e2m3 | .e2m1 | .mxi8 | .int8 | .int16 | .int32 => fNV)

/-- a × 2^sh rounded down, with the remainder and the weight of one unit: (n, r, w) with a × 2^sh = n + r / w (R268). -/
def splitUnits (a : Nat) (sh : Int) : Nat × Nat × Nat :=
  match sh with
  | .ofNat k => (a * 2 ^ k, 0, 1)
  | .negSucc k => (a / 2 ^ (k + 1), a % 2 ^ (k + 1), 2 ^ (k + 1))

/-- Whether the magnitude n + r/w rounds up (R268). -/
def roundsUp (rm : Rm) (neg : Bool) (n r w d : Nat) : Bool :=
  match rm with
  | .rne => w < 2 * r || (2 * r == w && n % 2 == 1)
  | .rtz => false
  | .rdn => r != 0 && neg
  | .rup => r != 0 && !neg
  | .sr => w * 2 ^ 32 ≤ r * 2 ^ 32 + d * w

/-- round_to_format of R268: the code and the flags. d is the draw under SR. -/
def roundTo (f : Fmt) (rm : Rm) (sat : Bool) (d : Nat) : Val → Nat × VFl
  | .nan sig => nanResult f sig
  | .inf neg => infResult f neg sat
  | .fin neg a e =>
    if a = 0 then (if f.isFixed then (0, 0) else (signed f neg 0, 0))
    else
      let q : Int := if f.isFixed then f.unit
        else (if (Nat.log2 a : Int) + e < 1 - f.bias then 1 - (f.bias : Int) else (Nat.log2 a : Int) + e) - f.m
      let (n, r, w) := splitUnits a (e - q)
      let n' := if roundsUp rm neg n r w d then n + 1 else n
      let mag := if f.isFixed then n' else (q + f.m + f.bias - 1).toNat * 2 ^ f.m + n'
      let top := f.maxCode + (if f.isInt && neg then 1 else 0)
      if top < mag then overflowResult f neg rm sat
      else
        (signed f neg mag,
         flagIf (r != 0) fINX ||| flagIf (!f.isFixed && r != 0 && mag < 2 ^ f.m) fUF)

/-- A value times a power of two (R261). -/
def Val.scale (k : Int) : Val → Val
  | .nan s => .nan s
  | .inf n => .inf n
  | .fin n m e => .fin n m (e + k)

/-- A value negated. -/
def Val.neg : Val → Val
  | .nan s => .nan s
  | .inf n => .inf (!n)
  | .fin n m e => .fin (!n) m e

/-- Whether a value is a NaN, and whether a signalling one. -/
def Val.isNan : Val → Bool
  | .nan _ => true
  | .inf _ => false
  | .fin _ _ _ => false
/-- A signalling NaN. -/
def Val.isSig : Val → Bool
  | .nan s => s
  | .inf _ => false
  | .fin _ _ _ => false
/-- An infinity. -/
def Val.isInf : Val → Bool
  | .inf _ => true
  | .nan _ => false
  | .fin _ _ _ => false
/-- A finite value. -/
def Val.isFin : Val → Bool
  | .fin _ _ _ => true
  | .nan _ => false
  | .inf _ => false
/-- The sign bit of a value. -/
def Val.sign : Val → Bool
  | .nan _ => false
  | .inf n => n
  | .fin n _ _ => n

/-- The signed integer of a finite value at a common exponent no greater than its own. -/
def signedAt (neg : Bool) (m : Nat) (e lo : Int) : Int :=
  let x : Int := (m : Int) * 2 ^ (e - lo).toNat
  if neg then -x else x

/-- The sum of two values with the flags of its operation; rm decides the sign of an exact zero (R272). -/
def addVal (rm : Rm) (x y : Val) : Val × VFl :=
  match x, y with
  | .nan s, y => (.nan false, flagIf (s || y.isSig) fNV)
  | x, .nan s => (.nan false, flagIf (s || x.isSig) fNV)
  | .inf a, .inf b => if a == b then (.inf a, 0) else (.nan false, fNV)
  | .inf a, .fin _ _ _ => (.inf a, 0)
  | .fin _ _ _, .inf b => (.inf b, 0)
  | .fin n1 m1 e1, .fin n2 m2 e2 =>
    let lo := if e1 ≤ e2 then e1 else e2
    let t := signedAt n1 m1 e1 lo + signedAt n2 m2 e2 lo
    if t = 0 then
      (.fin (if m1 = 0 && m2 = 0 && n1 == n2 then n1 else rm == .rdn) 0 lo, 0)
    else (.fin (t < 0) t.natAbs lo, 0)

/-- The product of two values with the flags of its operation. -/
def mulVal (x y : Val) : Val × VFl :=
  match x, y with
  | .nan s, y => (.nan false, flagIf (s || y.isSig) fNV)
  | x, .nan s => (.nan false, flagIf (s || x.isSig) fNV)
  | .inf a, .inf b => (.inf (a != b), 0)
  | .inf a, .fin n m _ => if m = 0 then (.nan false, fNV) else (.inf (a != n), 0)
  | .fin n m _, .inf b => if m = 0 then (.nan false, fNV) else (.inf (n != b), 0)
  | .fin n1 m1 e1, .fin n2 m2 e2 => (.fin (n1 != n2) (m1 * m2) (e1 + e2), 0)

/-- a × b + d, exact, with the flags of its operation (R385): 0 × ∞ sets NV even beside a quiet NaN. -/
def fmaVal (rm : Rm) (a b d : Val) : Val × VFl :=
  let p := mulVal a b
  let r := addVal rm p.1 d
  (r.1, p.2 ||| r.2)

/-- x < y of two numbers; no NaN is below anything. -/
def ltVal (x y : Val) : Bool :=
  match x, y with
  | .nan _, _ => false
  | _, .nan _ => false
  | .inf a, .inf b => a && !b
  | .inf a, .fin _ _ _ => a
  | .fin _ _ _, .inf b => !b
  | .fin n1 m1 e1, .fin n2 m2 e2 =>
    let lo := if e1 ≤ e2 then e1 else e2
    signedAt n1 m1 e1 lo < signedAt n2 m2 e2 lo

/-- x == y of two numbers: −0 equals +0, and no NaN equals anything (R389). -/
def eqVal (x y : Val) : Bool := !x.isNan && !y.isNan && !ltVal x y && !ltVal y x

/-- x goes below y in the total order of minimum and maximum: −0 is less than +0 (R284, R386). -/
def belowVal (x y : Val) : Bool := ltVal x y || (eqVal x y && x.sign && !y.sign)

/-! ## Element types -/

/-- The format of an element type. -/
def EType.fmt : EType → Fmt
  | .fp32 => .fp32 | .bf16 => .bf16 | .fp16 => .fp16 | .int32 => .int32 | .int16 => .int16 | .int8 => .int8

/-- A w-bit code read as a two's-complement integer. -/
def sextNat (x w : Nat) : Int := if x % 2 ^ w < 2 ^ (w - 1) then (x % 2 ^ w : Nat) else (x % 2 ^ w : Nat) - (2 : Int) ^ w

/-- An integer's low w bits. -/
def lowBits (x : Int) (w : Nat) : Nat := (x % (2 : Int) ^ w).toNat

/-- An integer result of R383: wrapped under NONSAT, clamped with OF under SAT. -/
def intResult (x : Int) (w : Nat) (sat : Bool) : Nat × VFl :=
  if sat then
    if x < -(2 : Int) ^ (w - 1) then (2 ^ (w - 1), fOF)
    else if (2 : Int) ^ (w - 1) - 1 < x then (2 ^ (w - 1) - 1, fOF)
    else (lowBits x w, 0)
  else (lowBits x w, 0)

/-! ## Lanes (R262) -/

/-- The 2,048-bit element field of a register image. -/
def vElem (v : VReg) : Nat := packNat 256 ((List.range 8).map (fun g => v.toNat / 2 ^ (264 * g) % 2 ^ 256))

/-- The scale byte of a granule. -/
def vScale (v : VReg) (g : Nat) : Nat := v.toNat / 2 ^ (264 * g + 256) % 256

/-- A register image of an element field and eight scale bytes. -/
def vMake (elem : Nat) (scales : List Nat) : VReg :=
  BitVec.ofNat 2112 (packNat 264 ((List.range 8).map (fun g =>
    elem / 2 ^ (256 * g) % 2 ^ 256 + scales.getD g 0x7F % 256 * 2 ^ 256)))

/-- The scale bytes of a register image. -/
def vScales (v : VReg) : List Nat := (List.range 8).map (vScale v)

/-- The lane codes of width w, lowest first. -/
def lanes (w : Nat) (v : VReg) : List Nat :=
  let x := vElem v
  (List.range (2048 / w)).map (fun j => x / 2 ^ (w * j) % 2 ^ w)

/-- A register image of lane codes of width w, with scale bytes 0x7F (R264). -/
def ofLanes (w : Nat) (l : List Nat) : VReg := vMake (packNat w l) (List.replicate 8 0x7F)

/-! ## Stochastic rounding (R273 to R276) -/

/-- GOLD of R274. -/
def gold : DWord := 0x9E3779B97F4A7C15

/-- The state of lane j after sr_seed(seed, stream) (R274). -/
def srSeedState (seed stream : DWord) (j : Nat) : DWord :=
  (seed ^^^ BitVec.ofNat 64 (stream.toNat % 2 ^ 32 * 2 ^ 32 + j)) * gold

/-- The state of lane j of a context (R273). -/
def Ctx.srState (c : Ctx) (j : Nat) : DWord := c.sr.getD j (srSeedState c.srSeed.1 c.srSeed.2 j)

/-- The output function of sr_draw (R274). -/
def srMix (x : DWord) : Nat :=
  let z1 := (x ^^^ (x >>> 30)) * 0xBF58476D1CE4E5B9
  let z2 := (z1 ^^^ (z1 >>> 27)) * 0x94D049BB133111EB
  ((z2 ^^^ (z2 >>> 31)) >>> 32).toNat

/-- The draw that lane j takes after k earlier ones of the same word (R274). -/
def Ctx.draw (c : Ctx) (j k : Nat) : Nat := srMix (c.srState j + gold * BitVec.ofNat 64 (k + 1))

/-- The context after the lanes of a list have each drawn once, in order (R275). -/
def Ctx.advance (c : Ctx) (l : List Nat) : Ctx :=
  { c with sr := l.foldl (fun m j => m.put j (m.getD j (srSeedState c.srSeed.1 c.srSeed.2 j) + gold)) c.sr }

/-! ## MX scales (R277, R278) -/

/-- emax of an element format (R277). -/
def Fmt.emax : Fmt → Nat
  | .e4m3 => 8 | .e5m2 => 15 | .e3m2 => 4 | .e2m3 => 2 | .e2m1 => 2
  | .mxi8 | .fp32 | .bf16 | .fp16 | .int8 | .int16 | .int32 => 0

/-- floor(log2 |x|) of a nonzero finite value. -/
def Val.log2 : Val → Option Int
  | .fin _ m e => if m = 0 then none else some ((Nat.log2 m : Int) + e)
  | .nan _ => none
  | .inf _ => none

/-- mx_scale of R277. -/
def mxScale (x : List Val) (f : Fmt) : Nat :=
  if x.any Val.isNan && (match f with
      | .e4m3 | .e5m2 => false
      | .e3m2 | .e2m3 | .e2m1 | .mxi8 | .fp32 | .bf16 | .fp16 | .int8 | .int16 | .int32 => true) then 0xFF
  else if x.any Val.isInf && f != .e5m2 then 0xFF
  else
    match (x.filterMap Val.log2) with
    | [] => 0x7F
    | h :: t =>
      let top := t.foldl (fun a b => if a < b then b else a) h
      let k := top - f.emax + 127
      if k < 0 then 0 else if 254 < k then 254 else k.toNat

/-- One element of mx_quantise: a finite one is scaled and rounds as SATFINITE (R277, R278). -/
def mxElement (f : Fmt) (k : Nat) (rm : Rm) (sat : Bool) (d : Nat) (x : Val) : Nat × VFl :=
  if x.isFin then roundTo f rm true d (x.scale (127 - (k : Int))) else roundTo f rm sat d x

/-! ## The pair tree (R284) -/

/-- Adjacent pairs of a list. -/
def pairs {α : Type} : List α → List (α × α)
  | a :: b :: t => (a, b) :: pairs t
  | [_] => []
  | [] => []

/-! ## Transcendentals (R387)

Irrational results are formed in fixed point of 2^-256 with the bit below the last place set, so that they lie strictly
between two neighbours; quotients and roots that are not exact likewise. -/

/-- 2^256. -/
def fxOne : Nat := 2 ^ 256
/-- floor(ln 2 × 2^256). -/
def fxLn2 : Nat := 80260960185991308862233904206310070533990667611589946606122867505419956976171
/-- floor(2^256 / ln 2). -/
def fxLog2e : Nat := 167052672916848388242985626561247531987276682633131050150846402744536260568207

/-- The terms of the exponential series from the n-th on, given the n-th term. -/
def expTerms : Nat → Nat → Nat → Nat → Nat
  | 0, _, _, _ => 0
  | fuel + 1, n, term, t => term + expTerms fuel (n + 1) (term * t / fxOne / (n + 1)) t

/-- 2^f × 2^256 for f in [0, 1) given × 2^256. -/
def fxExp2 (f : Nat) : Nat := expTerms 80 0 fxOne (f * fxLn2 / fxOne)

/-- The terms of the series of artanh from z^(2i+1) / (2i+1) on. -/
def artanhTerms : Nat → Nat → Nat → Nat → Nat
  | 0, _, _, _ => 0
  | fuel + 1, i, pow, z2 => pow / (2 * i + 1) + artanhTerms fuel (i + 1) (pow * z2 / fxOne) z2

/-- log2 x × 2^256 for x = m / 2^k in [1, 2). -/
def fxLog2 (m k : Nat) : Nat :=
  let z := (m - 2 ^ k) * fxOne / (m + 2 ^ k)
  2 * artanhTerms 90 0 z (z * z / fxOne) * fxLog2e / fxOne

/-- A positive value strictly above m × 2^e and below (m + 1) × 2^e. -/
def stickyVal (neg : Bool) (m : Nat) (e : Int) : Val := .fin neg (2 * m + 1) (e - 1)

/-- The integer square root, by halving: bits from k down. -/
def isqrt (x : Nat) : Nat → Nat → Nat
  | 0, r => r
  | k + 1, r => let r' := r + 2 ^ k; isqrt x k (if r' * r' ≤ x then r' else r)

/-- 1/a of a nonzero finite magnitude m × 2^e. -/
def rcpMag (neg : Bool) (m : Nat) (e : Int) : Val :=
  let n := 2 ^ 320 / m
  if n * m = 2 ^ 320 then .fin neg n (-e - 320) else stickyVal neg n (-e - 320)

/-- 1/√a of m × 2^e. -/
def rsqMag (m : Nat) (e : Int) : Val :=
  let odd := e % 2 ≠ 0
  let m' := if odd then 2 * m else m
  let e' := if odd then e - 1 else e
  let r := isqrt (2 ^ 600 / m') 301 0
  if r * r * m' = 2 ^ 600 then .fin false r (-(e' / 2) - 300) else stickyVal false r (-(e' / 2) - 300)

/-- floor(m × 2^e × 2^256) and whether it is exact. -/
def toFx (m : Nat) (e : Int) : Nat × Bool :=
  match e + 256 with
  | .ofNat k => (m * 2 ^ k, true)
  | .negSucc k => (m / 2 ^ (k + 1), m % 2 ^ (k + 1) = 0)

/-- 2^a of a finite a; beyond ±2^11 the value is far outside every format. -/
def exp2Val (neg : Bool) (m : Nat) (e : Int) : Val :=
  if m = 0 then .fin false 1 0
  else if 11 ≤ (Nat.log2 m : Int) + e then .fin false 1 (if neg then -4096 else 4096)
  else
    let x := (toFx m e).1
    let whole := x / fxOne
    let frac := x % fxOne
    if (toFx m e).2 && frac = 0 then .fin false 1 (if neg then -(whole : Int) else whole)
    else if neg then stickyVal false (fxExp2 (fxOne - 1 - frac) - 1) (-(whole : Int) - 1 - 256)
    else stickyVal false (fxExp2 frac) ((whole : Int) - 256)

/-- log2 of m × 2^e. -/
def log2Val (m : Nat) (e : Int) : Val :=
  let k := Nat.log2 m
  let n := (k : Int) + e
  if m = 2 ^ k then .fin (n < 0) n.natAbs 0
  else
    let x := n * fxOne + fxLog2 m k
    if x < 0 then stickyVal true (x.natAbs - 1) (-256) else stickyVal false x.toNat (-256)

/-- tanh of a nonzero m × 2^e. -/
def tanhVal (neg : Bool) (m : Nat) (e : Int) : Val :=
  let top := (Nat.log2 m : Int) + e
  if top < -30 then .fin neg (m * 2 ^ 64 - 1) (e - 64)
  else if 5 ≤ top then .fin neg (2 ^ 64 - 1) (-64)
  else
    let y := (toFx m (e + 1)).1 * fxLog2e / fxOne
    let big := fxExp2 (y % fxOne) * 2 ^ (y / fxOne)
    stickyVal neg ((big - fxOne) * fxOne / (big + fxOne)) (-256)

/-- x ÷ (1 + e^−x) of a nonzero x = ±m × 2^e (R430). -/
def siluVal (neg : Bool) (m : Nat) (e : Int) : Val :=
  let top := (Nat.log2 m : Int) + e
  if top < -200 then .fin neg (if neg then m * 2 ^ 64 - 1 else m * 2 ^ 64 + 1) (e - 65)
  else if 11 ≤ top then (if neg then .fin true 1 (-4096) else .fin false (m * 2 ^ 64 - 1) (e - 64))
  else
    -- t = e^−|x| as frac × 2^−(n + 1), with n + 1 - log2 frac = |x| log2 e
    let y := (toFx m e).1 * fxLog2e / fxOne
    let n := y / fxOne
    let t := fxExp2 (fxOne - 1 - y % fxOne)
    let den := fxOne * 2 ^ (n + 1) + t
    if neg then stickyVal true (m * t * 2 ^ 256 / den) (e - 256)
    else stickyVal false (m * 2 ^ (n + 1) * fxOne * 2 ^ 256 / den) (e - 256)

/-- SiLU of a value (R430). -/
def silu (x : Val) : Val :=
  match x with
  | .nan _ => .nan false
  | .inf n => if n then .fin false 0 0 else .inf false
  | .fin n m e => if m = 0 then .fin n 0 e else siluVal n m e

/-- The transcendental functions. -/
inductive Trans where
  | rcp | rsq | exp2 | log2 | tanh
  deriving DecidableEq, Repr

/-- The exact function value of a lane, with NV where R387 sets it. -/
def transVal (t : Trans) (x : Val) : Val × VFl :=
  match t, x with
  | _, .nan s => (.nan false, flagIf s fNV)
  | .rcp, .inf n => (.fin n 0 0, 0)
  | .rcp, .fin n m e => if m = 0 then (.inf n, 0) else (rcpMag n m e, 0)
  | .rsq, .inf n => if n then (.nan false, fNV) else (.fin false 0 0, 0)
  | .rsq, .fin n m e => if m = 0 then (.inf n, 0) else if n then (.nan false, fNV) else (rsqMag m e, 0)
  | .exp2, .inf n => if n then (.fin false 0 0, 0) else (.inf false, 0)
  | .exp2, .fin n m e => (exp2Val n m e, 0)
  | .log2, .inf n => if n then (.nan false, fNV) else (.inf false, 0)
  | .log2, .fin n m e => if m = 0 then (.inf true, 0) else if n then (.nan false, fNV) else (log2Val m e, 0)
  | .tanh, .inf n => (.fin n 1 0, 0)
  | .tanh, .fin n m e => if m = 0 then (.fin n 0 e, 0) else (tanhVal n m e, 0)

/-- A transcendental lane: rounded to FP32 under RNE, then to the element type (R387). -/
def transLane (t : Trans) (v : VType) (d : Nat) (code : Nat) : Nat × VFl :=
  if v.etype.isInt then (0, fNV)
  else
    let (x, f0) := transVal t (decode v.etype.fmt code)
    let (y, f1) := roundTo .fp32 .rne v.sat 0 x
    if v.etype == .fp32 then (y, f0 ||| f1)
    else
      let (z, f2) := roundTo v.etype.fmt v.rm v.sat d (decode .fp32 y)
      (z, f0 ||| f1 ||| f2)

end Sys2Proof.Machine
end

