-- ==== Sys2Proof/Machine/Scalar.lean ====
section
/-! DEFINITION. Machine/Scalar.lean: the S pipe words of chapter "Control pipe instructions" that compute: integer
arithmetic and logic, constants, compares, predicates, jump targets, copies, the cycle counter. -/

namespace Sys2Proof.Machine

/-! ## The common frame (R338) -/

/-- A scalar result of two sources: it lands n groups on and is lame with the greatest cause of its sources (R338). -/
def sOp2 (n : Nat) (d a b : RIdx) (f : DWord → DWord → DWord) : W Unit := do
  let x ← sSrc a
  let y ← sSrc b
  land n [.s d ⟨f x.val y.val, lameOf [x.lame, y.lame]⟩]

/-- A scalar result of one source. -/
def sOp1 (n : Nat) (d a : RIdx) (f : DWord → DWord) : W Unit := do
  let x ← sSrc a
  land n [.s d ⟨f x.val, x.lame⟩]

/-- A predicate of two sources: it lands at g+2 (R177, R345). -/
def pOp2 (p : PIdx) (a b : RIdx) (f : DWord → DWord → Bool) : W Unit := do
  let x ← sSrc a
  let y ← sSrc b
  land 2 [.p p ⟨f x.val y.val, lameOf [x.lame, y.lame]⟩]

/-- A predicate of one source. -/
def pOp1 (p : PIdx) (a : RIdx) (f : DWord → Bool) : W Unit := do
  let x ← sSrc a
  land 2 [.p p ⟨f x.val, x.lame⟩]

/-- DIVU and REMU hold the context's one divide: a second one before it lands raises ILLEGAL_ENCODING, whether its guard
is true or false (R178, R330, R341). -/
def divideFree : W Unit := do
  let c ← getMe
  if c.land.any (fun e => e.divide) then illegalEncoding else pure ()

/-- The result of a divide, marked in the landing queue (R178). -/
def divide (d a b : RIdx) (f : DWord → DWord → DWord) : W Unit := do
  let x ← sSrc a
  let y ← sSrc b
  modS (fun s => s.land { landing s 20 [.s d ⟨f x.val y.val, lameOf [x.lame, y.lame]⟩] with divide := true })

/-- The shift amount of a register or immediate operand: its low six bits (R340, R343). -/
def shiftAmount (b : DWord) : Nat := b.toNat % 64

/-- The number of leading zero bits; 64 for zero (R340). -/
def leadingZeros (a : DWord) : Nat := 64 - a.toNat.log2 - (if a = 0 then 0 else 1)

/-- The number of one bits (R340). -/
def oneBits (a : DWord) : Nat := (List.range 64).countP (fun i => a.getLsbD i)

/-! ## Arithmetic and logic (R340 to R343) -/

/-- NOP: no effect except through its NX (R374). -/
def execNop (h : SHead) (s : State) : Host.Outcome State Fault Refusal := runWord h.g (pure ()) s
/-- ADD: a + b modulo 2^64 (R340). -/
def execAdd (h : SHead) (d a b : RIdx) (s : State) : Host.Outcome State Fault Refusal :=
  runWord h.g (sOp2 1 d a b (fun x y => x + y)) s
/-- SUB: a − b modulo 2^64 (R340). -/
def execSub (h : SHead) (d a b : RIdx) (s : State) : Host.Outcome State Fault Refusal :=
  runWord h.g (sOp2 1 d a b (fun x y => x - y)) s
/-- MUL: the low half of the product (R340). -/
def execMul (h : SHead) (d a b : RIdx) (s : State) : Host.Outcome State Fault Refusal :=
  runWord h.g (sOp2 3 d a b (fun x y => x * y)) s
/-- MULHU: the high half of the unsigned product (R340). -/
def execMulhu (h : SHead) (d a b : RIdx) (s : State) : Host.Outcome State Fault Refusal :=
  runWord h.g (sOp2 3 d a b (fun x y => BitVec.ofNat 64 (x.toNat * y.toNat / 2 ^ 64))) s
/-- DIVU: the quotient; all ones for a divisor of 0 (R340, R341). -/
def execDivu (h : SHead) (d a b : RIdx) (s : State) : Host.Outcome State Fault Refusal :=
  runBare (do divideFree; guarded h.g (divide d a b (fun x y => if y = 0 then BitVec.allOnes 64 else x / y))) s
/-- REMU: the remainder; a for a divisor of 0 (R340, R341). -/
def execRemu (h : SHead) (d a b : RIdx) (s : State) : Host.Outcome State Fault Refusal :=
  runBare (do divideFree; guarded h.g (divide d a b (fun x y => if y = 0 then x else x % y))) s
/-- AND: bitwise (R340). -/
def execAnd (h : SHead) (d a b : RIdx) (s : State) : Host.Outcome State Fault Refusal :=
  runWord h.g (sOp2 1 d a b (fun x y => x &&& y)) s
/-- OR: bitwise (R340). -/
def execOr (h : SHead) (d a b : RIdx) (s : State) : Host.Outcome State Fault Refusal :=
  runWord h.g (sOp2 1 d a b (fun x y => x ||| y)) s
/-- XOR: bitwise (R340). -/
def execXor (h : SHead) (d a b : RIdx) (s : State) : Host.Outcome State Fault Refusal :=
  runWord h.g (sOp2 1 d a b (fun x y => x ^^^ y)) s
/-- SHL: left shift by b[5:0] (R340). -/
def execShl (h : SHead) (d a b : RIdx) (s : State) : Host.Outcome State Fault Refusal :=
  runWord h.g (sOp2 1 d a b (fun x y => x <<< shiftAmount y)) s
/-- SHR: logical right shift by b[5:0] (R340). -/
def execShr (h : SHead) (d a b : RIdx) (s : State) : Host.Outcome State Fault Refusal :=
  runWord h.g (sOp2 1 d a b (fun x y => x >>> shiftAmount y)) s
/-- SRA: arithmetic right shift by b[5:0] (R340). -/
def execSra (h : SHead) (d a b : RIdx) (s : State) : Host.Outcome State Fault Refusal :=
  runWord h.g (sOp2 1 d a b (fun x y => x.sshiftRight (shiftAmount y))) s
/-- MIN: the lesser, signed (R340). -/
def execMin (h : SHead) (d a b : RIdx) (s : State) : Host.Outcome State Fault Refusal :=
  runWord h.g (sOp2 1 d a b (fun x y => if y.slt x then y else x)) s
/-- MAX: the greater, signed (R340). -/
def execMax (h : SHead) (d a b : RIdx) (s : State) : Host.Outcome State Fault Refusal :=
  runWord h.g (sOp2 1 d a b (fun x y => if x.slt y then y else x)) s
/-- MINU: the lesser, unsigned (R340). -/
def execMinu (h : SHead) (d a b : RIdx) (s : State) : Host.Outcome State Fault Refusal :=
  runWord h.g (sOp2 1 d a b (fun x y => if y < x then y else x)) s
/-- MAXU: the greater, unsigned (R340). -/
def execMaxu (h : SHead) (d a b : RIdx) (s : State) : Host.Outcome State Fault Refusal :=
  runWord h.g (sOp2 1 d a b (fun x y => if x < y then y else x)) s
/-- CLZ: leading zero bits (R340). -/
def execClz (h : SHead) (d a : RIdx) (s : State) : Host.Outcome State Fault Refusal :=
  runWord h.g (sOp1 1 d a (fun x => BitVec.ofNat 64 (leadingZeros x))) s
/-- POPC: one bits (R340). -/
def execPopc (h : SHead) (d a : RIdx) (s : State) : Host.Outcome State Fault Refusal :=
  runWord h.g (sOp1 1 d a (fun x => BitVec.ofNat 64 (oneBits x))) s
/-- SEL is never squashed: its G selects between its sources, and its result is lame when any of the three is (R342). -/
def selWord (g : PIdx) (d a b : RIdx) : W Unit := do
  let x ← sSrc a
  let y ← sSrc b
  let p := (← getMe).preg g
  land 1 [.s d ⟨if p.val then x.val else y.val, lameOf [x.lame, y.lame, p.lame]⟩]
/-- SEL (R342). -/
def execSel (h : SHead) (d a b : RIdx) (s : State) : Host.Outcome State Fault Refusal := runBare (selWord h.g d a b) s
/-- ADDI: ADD with a signed immediate (R343). -/
def execAddi (h : SHead) (d a : RIdx) (i : Imm 5) (s : State) : Host.Outcome State Fault Refusal :=
  runWord h.g (sOp1 1 d a (fun x => x + immS i)) s
/-- ANDI: AND with a signed immediate (R343). -/
def execAndi (h : SHead) (d a : RIdx) (i : Imm 5) (s : State) : Host.Outcome State Fault Refusal :=
  runWord h.g (sOp1 1 d a (fun x => x &&& immS i)) s
/-- ORI: OR with a signed immediate (R343). -/
def execOri (h : SHead) (d a : RIdx) (i : Imm 5) (s : State) : Host.Outcome State Fault Refusal :=
  runWord h.g (sOp1 1 d a (fun x => x ||| immS i)) s
/-- XORI: XOR with a signed immediate (R343). -/
def execXori (h : SHead) (d a : RIdx) (i : Imm 5) (s : State) : Host.Outcome State Fault Refusal :=
  runWord h.g (sOp1 1 d a (fun x => x ^^^ immS i)) s
/-- SHLI: SHL with a unsigned immediate (R343). -/
def execShli (h : SHead) (d a : RIdx) (i : Imm 5) (s : State) : Host.Outcome State Fault Refusal :=
  runWord h.g (sOp1 1 d a (fun x => x <<< shiftAmount (immU i))) s
/-- SHRI: SHR with a unsigned immediate (R343). -/
def execShri (h : SHead) (d a : RIdx) (i : Imm 5) (s : State) : Host.Outcome State Fault Refusal :=
  runWord h.g (sOp1 1 d a (fun x => x >>> shiftAmount (immU i))) s
/-- SRAI: SRA with a unsigned immediate (R343). -/
def execSrai (h : SHead) (d a : RIdx) (i : Imm 5) (s : State) : Host.Outcome State Fault Refusal :=
  runWord h.g (sOp1 1 d a (fun x => x.sshiftRight (shiftAmount (immU i)))) s
/-- MOVI: a signed constant (R344). -/
def execMovi (h : SHead) (d : RIdx) (i : Imm 10) (s : State) : Host.Outcome State Fault Refusal :=
  runWord h.g (land 1 [.s d ⟨immS i, 0⟩]) s
/-- MOVL: the literal, zero-extended (R344). -/
def execMovl (h : SHead) (d : RIdx) (v : Word) (s : State) : Host.Outcome State Fault Refusal :=
  runWord h.g (land 1 [.s d ⟨v.setWidth 64, 0⟩]) s

/-! ## Compares and predicates (R345 to R347) -/

/-- CMPEQ: equal (R345). -/
def execCmpeq (h : SHead) (p : PIdx) (a b : RIdx) (s : State) : Host.Outcome State Fault Refusal :=
  runWord h.g (pOp2 p a b (fun x y => x == y)) s
/-- CMPNE: not equal (R345). -/
def execCmpne (h : SHead) (p : PIdx) (a b : RIdx) (s : State) : Host.Outcome State Fault Refusal :=
  runWord h.g (pOp2 p a b (fun x y => x != y)) s
/-- CMPLT: less, signed (R345). -/
def execCmplt (h : SHead) (p : PIdx) (a b : RIdx) (s : State) : Host.Outcome State Fault Refusal :=
  runWord h.g (pOp2 p a b (fun x y => x.slt y)) s
/-- CMPLTU: less, unsigned (R345). -/
def execCmpltu (h : SHead) (p : PIdx) (a b : RIdx) (s : State) : Host.Outcome State Fault Refusal :=
  runWord h.g (pOp2 p a b (fun x y => x.ult y)) s
/-- CMPGE: not less, signed (R345). -/
def execCmpge (h : SHead) (p : PIdx) (a b : RIdx) (s : State) : Host.Outcome State Fault Refusal :=
  runWord h.g (pOp2 p a b (fun x y => !x.slt y)) s
/-- CMPGEU: not less, unsigned (R345). -/
def execCmpgeu (h : SHead) (p : PIdx) (a b : RIdx) (s : State) : Host.Outcome State Fault Refusal :=
  runWord h.g (pOp2 p a b (fun x y => !x.ult y)) s
/-- CMPEQI: equal to a signed immediate (R345). -/
def execCmpeqi (h : SHead) (p : PIdx) (a : RIdx) (i : Imm 5) (s : State) : Host.Outcome State Fault Refusal :=
  runWord h.g (pOp1 p a (fun x => x == immS i)) s
/-- CMPLTI: less than a signed immediate (R345). -/
def execCmplti (h : SHead) (p : PIdx) (a : RIdx) (i : Imm 5) (s : State) : Host.Outcome State Fault Refusal :=
  runWord h.g (pOp1 p a (fun x => x.slt (immS i))) s
/-- FN of PLOG (R346). -/
def plogFn : PFn → Bool → Bool → Bool
  | .and, a, b => a && b
  | .or, a, b => a || b
  | .xor, a, b => a != b
  | .andn, a, b => a && !b

/-- The result of PLOG (R299, R346). -/
def plogWord (fn : PFn) (p a b : PIdx) : W Unit := do
  let c ← getMe
  let x := c.preg a
  let y := c.preg b
  land 2 [.p p ⟨plogFn fn x.val y.val, lameOf [x.lame, y.lame]⟩]

/-- PLOG (R346). -/
def execPlog (h : SHead) (fn : PFn) (p a b : PIdx) (s : State) : Host.Outcome State Fault Refusal :=
  runWord h.g (plogWord fn p a b) s
/-- PFROM: whether a scalar is not zero (R347). -/
def execPfrom (h : SHead) (p : PIdx) (a : RIdx) (s : State) : Host.Outcome State Fault Refusal :=
  runWord h.g (pOp1 p a (fun x => x != 0)) s

/-! ## Jump targets and copies from other files (R348, R350, R351) -/

/-- A code address as a j register holds it: bits [1:0] and [63:49] read zero (R323). -/
def codeAddr (x : DWord) : DWord := x &&& fmask 48 2

/-- SETJ: the address of its word plus four times the offset, modulo 2^49 (R348). -/
def setjWord (j : JIdx) (i : Imm 10) : W Unit := do
  let s ← getS
  land 1 [.j j ⟨codeAddr (s.pos.addr + 4 * immS i), 0⟩]
/-- SETJ (R348). -/
def execSetj (h : SHead) (j : JIdx) (i : Imm 10) (s : State) : Host.Outcome State Fault Refusal :=
  runWord h.g (setjWord j i) s

/-- A copy of an access register (R350). -/
def sfromaWord (d a : RIdx) : W Unit := do
  let x := (← getMe).areg a
  land 2 [.s d x]
/-- SFROMA (R350). -/
def execSfroma (h : SHead) (d a : RIdx) (s : State) : Host.Outcome State Fault Refusal := runWord h.g (sfromaWord d a) s
/-- A copy of a nest register (R350). -/
def sfromnWord (d n : RIdx) : W Unit := do
  let x := (← getMe).nreg n
  land 2 [.s d x]
/-- SFROMN (R350). -/
def execSfromn (h : SHead) (d n : RIdx) (s : State) : Host.Outcome State Fault Refusal := runWord h.g (sfromnWord d n) s

/-- The lane of a width at an index of a vector register: FP lanes are zero-extended, integer lanes sign-extended (R351). -/
def laneValue (t : EType) (x : VReg) (i : Nat) : DWord :=
  let v := (lanes t.width x).getD (i % t.lanes) 0
  if t.isInt then BitVec.ofInt 64 (sextNat v t.width) else BitVec.ofNat 64 v

/-- One lane of a window register (R351). -/
def sfromvWord (d w b : RIdx) : W Unit := do
  let x ← wSrc w
  let i ← sSrc b
  let c ← getMe
  land 4 [.s d ⟨laneValue c.vt.etype x.val i.val.toNat, lameOf [x.lame, i.lame]⟩]
/-- SFROMV (R351). -/
def execSfromv (h : SHead) (d w b : RIdx) (s : State) : Host.Outcome State Fault Refusal := runWord h.g (sfromvWord d w b) s

/-! ## The cycle counter (R373) -/

/-- CYCLE.COUNT of the row domain (R356, R373). -/
def rdcycWord (d : RIdx) : W Unit := do
  let s ← getS
  land 1 [.s d ⟨BitVec.ofNat 64 (s.cycle s.me.stall), 0⟩]
/-- RDCYC (R373). -/
def execRdcyc (h : SHead) (d : RIdx) (s : State) : Host.Outcome State Fault Refusal := runWord h.g (rdcycWord d) s

end Sys2Proof.Machine
end

