-- ==== Sys2Proof/Machine/Selector.lean ====
section
/-! DEFINITION. Machine/Selector.lean: the next-address selectors of S words, which run after every word of their group
(R189, R323). -/

namespace Sys2Proof.Machine

/-- The group continues at its sequential successor (R316, R323). -/
def goOn : W Unit := do
  let s ← getS
  modMe (fun c => { c with pc := s.pos.succ })

/-- SEQ: the sequential successor (R323). -/
def execSeq (s : State) : Host.Outcome State Fault Refusal := runBare goOn s

/-- The rotation of a loop-back: BASE is one lower modulo SIZE (R189, R194). -/
def Ctx.rotate (c : Ctx) : Ctx :=
  if c.rotSize = 0 then c
  else { c with csr := { c.csr with vrot := setBits c.csr.vrot 12 8 ((c.rotBase + c.rotSize - 1) % c.rotSize) } }

/-- LOOP: one iteration of the innermost loop is done; another follows at its head with the rotation, or the entry leaves the
stack and the rider goes on at the sequential successor (R189; DEDUCED, log entry 14). -/
def loopWord : W Unit := do
  let c ← getMe
  match c.loops with
  | [] => illegalContext
  | e :: t =>
    if 1 < e.count.toNat then
      modMe (fun c => { c.rotate with pc := e.head, loops := { e with count := e.count - 1 } :: t })
    else do
      goOn
      modMe (fun c => { c with loops := t })
/-- LOOP (R189). -/
def execLoop (s : State) : Host.Outcome State Fault Refusal := runBare loopWord s

/-- BREAK: out of the innermost loop, at its exit, with no rotation (R189). -/
def brkWord : W Unit := do
  let c ← getMe
  match c.loops with
  | [] => illegalContext
  | e :: t => modMe (fun c => { c with pc := e.exit, loops := t })
/-- BREAK (R189). -/
def execBrk (s : State) : Host.Outcome State Fault Refusal := runBare brkWord s

/-- RET: the address on top of the link stack (R323). -/
def retWord : W Unit := do
  let c ← getMe
  match c.links with
  | [] => illegalContext
  | a :: t => modMe (fun c => { c with pc := a, links := t })
/-- RET (R323). -/
def execRet (s : State) : Host.Outcome State Fault Refusal := runBare retWord s

/-- JMP: the address in a j register (R323). -/
def jmpWord (j : JIdx) : W Unit := do
  let a ← jUse j
  modMe (fun c => { c with pc := a })
/-- JMP (R323). -/
def execJmp (j : JIdx) (s : State) : Host.Outcome State Fault Refusal := runBare (jmpWord j) s

/-- CALL: as JMP, with the sequential successor pushed onto the link stack of eight (R323). -/
def callWord (j : JIdx) : W Unit := do
  let s ← getS
  if 8 ≤ s.me.links.length then illegalContext
  let a ← jUse j
  modMe (fun c => { c with pc := a, links := s.pos.succ :: c.links })
/-- CALL (R323). -/
def execCall (j : JIdx) (s : State) : Host.Outcome State Fault Refusal := runBare (callWord j) s

/-- YIELD: the sequential successor, and the next issue slot in which another user context is ready goes to it (R323). -/
def yieldWord : W Unit := do
  goOn
  modS (fun s => { s with stalls := s.stalls.put s.me.stall { s.stalls.getD s.me.stall {} with yielded := some s.me.slot } })
/-- YIELD (R323). -/
def execYield (s : State) : Host.Outcome State Fault Refusal := runBare yieldWord s

/-- The life-cycle state (R101). -/
def State.lifeCycle (s : State) : Nat := bits (s.reg .lcstate) 2 0

/-- Groom-context debug is allowed in the life-cycle states PROVISIONED and RMA, not in DEPLOYED (R103). -/
def State.debugAllowed (s : State) : Bool := s.lifeCycle != 2

/-- A context blocks in an implicit wait of n cycles (R182). -/
def State.blockFor (s : State) (k : Nat) (w : WaitKind) (n : Nat) : State :=
  s.modCtx k (fun c => { c with waits := c.waits ++ [{ kind := w, pred := none, limit := n, deadline := s.clock + n }] })

/-- WAITBRK: the sequential successor, after a block as an implicit wait (R323, R491). -/
def waitbrkWord : W Unit := do
  goOn
  let s ← getS
  if s.debugAllowed then modS (fun s => s.blockFor s.cur .waitbrk s.pos.limit) else pure ()
/-- WAITBRK (R323). -/
def execWaitbrk (s : State) : Host.Outcome State Fault Refusal := runBare waitbrkWord s

/-- A NEST_CHECK that the rider owes is raised at a group with an M word or with NX = STOP (R309). -/
def nestCheckOwed : W Unit := do
  let c ← getMe
  match c.nest.owes with
  | some i => raise 8 i.toNat
  | none => pure ()

/-- What a squashed S word with NX = STOP does: NEST_CHECK when it is owed, and the sequential successor (R309, R322). -/
def execNestOwed (s : State) : Host.Outcome State Fault Refusal := runBare (do nestCheckOwed; goOn) s

/-- STOP: the rider retires; it issues no later group and leaves its hitch (R165). -/
def stopWord : W Unit := do
  nestCheckOwed
  modS (fun s => s.leaveHitch s.cur)
  modMe (fun c => { c with retiring := true, pendingTrap := none })
/-- STOP (R165, R323). -/
def execStop (s : State) : Host.Outcome State Fault Refusal := runBare stopWord s

end Sys2Proof.Machine
end

