-- ==== Sys2Proof/Machine/GroomRegs.lean ====
section
/-! DEFINITION. Machine/GroomRegs.lean: the registers that a groom context writes through its own CSRs: STALLWEAR, FEATMASK,
COLMAP, DISPCTL, SAVEPOOL, GROOMSHARE, the front-end registers, DBLSTAT, BRKEND, MCBSEL and MCBDATA. -/

namespace Sys2Proof.Machine

/-! ## Physical stalls (R18, R134) -/

/-- The logical column that a physical position of a die row serves, when it serves one (R18). -/
def State.colOf (s : State) (row pos : Nat) : Option Nat :=
  match (s.inService row).idxOf? pos with
  | some l => if l < 32 then some l else none
  | none => none

/-- The stall number that a physical stall (row × 34 + position) serves. -/
def State.stallOfPhys (s : State) (p : Nat) : Option Nat := (s.colOf (p / 34) (p % 34)).map (fun l => rowStall (p / 34) l)

/-- STATE of a physical stall: 3 exactly when its RETIRED bit is set, else what the life record and R133 keep. -/
def State.physState (s : State) (p : Nat) : Nat :=
  if bit (s.reg (.colmap (p / 34))) (p % 34) then 3 else bits (s.reg (.stallwear p)) 33 32

/-- STALLWEAR of a physical stall as it reads: CTX, VUSED and BUSED are those of its resident contexts (R132, R140). -/
def State.wearRead (s : State) (p : Nat) : DWord :=
  let l := match s.stallOfPhys p with
    | some st => s.residents st
    | none => []
  let w := setBits (s.reg (.stallwear p)) 33 32 (s.physState p)
  setBits (setBits (setBits w 35 34 l.length) 47 36 ((l.map (fun c => c.2.vregs)).sum)) 51 48
    ((l.map (fun c => c.2.nbays)).sum)

/-- STALLWEAR of a stall number; a RETIRED logical column reads STATE 3 alone. -/
def State.wearOfStall (s : State) (st : Nat) : DWord :=
  match s.physStall st with
  | some p => s.wearRead p
  | none => BitVec.ofNat 64 (3 * 2 ^ 32)

/-- FEATMASK of a stall number. -/
def State.featOfStall (s : State) (st : Nat) : DWord := (s.featOf st).setWidth 64

/-- A collection of victims is asked for (R149): limited by COLLECTLIM or not; for a waiting rider or not; with images or not. -/
def State.collect (s : State) (victims : List Nat) (limited : Bool) (waiter : Option Nat) (discard : Bool) : State :=
  if victims.isEmpty then s
  else { s with colls := s.colls.put s.ids { victims := victims, limited := limited, start := s.clock, waiter := waiter, discard := discard },
                ids := s.ids + 1 }

/-- Resident contexts of a stall are stopped by a collection without limit (R135, R147). -/
def State.evict (s : State) (keys : List Nat) : State :=
  s.collect (keys.filter (fun k => !s.colls.any (fun c => c.2.victims.contains k))) false none false

/-- WEAR and STATE of every physical stall written to the life record (R134, R136). -/
def State.lifeRecord (s : State) : State :=
  { s with nv := { s.nv with
      wear := (List.range 4352).filterMap (fun p => let w := bits (s.reg (.stallwear p)) 15 0; if w = 0 then none else some (p, w)),
      state := (List.range 4352).filterMap (fun p => let w := s.physState p; if w = 0 then none else some (p, w)) } }

/-- What a change of STATE brings with it: the life record of every stall (R136), and for DRAINED the maintenance move or, with no spare, the
eviction of its contexts, of which the BOUND ones end (R135, R141, R157). -/
def State.stateChanged (s : State) (p n : Nat) : State :=
  let s1 := s.lifeRecord
  match s1.stallOfPhys p with
  | some st => if n = 2 then s1.push [.maintenanceMove st] else s1
  | none => s1

/-- A write of STALLWEAR (R132, R133). -/
def State.writeWear (s : State) (p : Nat) (v : DWord) : State :=
  let r := s.reg (.stallwear p)
  let cur := s.physState p
  let new := bits v 33 32
  let fwd := (new == 1 || new == 2) && cur < new
  let r1 := if bits r 15 0 ≤ bits v 15 0 then setBits r 15 0 (bits v 15 0) else r
  let r2 := setBits r1 31 16 (bits v 31 16)
  let r3 := if bit v 63 then setBit r2 63 false else r2
  let r4 := if fwd then setBits r3 33 32 new else if new = cur then r3 else setBit r3 63 true
  let s1 := s.setReg (.stallwear p) r4
  if fwd then s1.stateChanged p new else s1

/-- A write of FEATMASK; the life record keeps every bit that a write clears, whatever the reason for the write (R145; DESIGN CHOICE, log
entry 102): a bit cleared under a resident context that declares it stops the context (R147). -/
def State.writeFeat (s : State) (p : Nat) (v : DWord) : State :=
  let life := { s.nv with featmask := s.nv.featmask.put p (Nat.land (s.nv.featmask.getD p 0xFF) (bits v 7 0)) }
  let s1 := { s.setReg (.featmask p) (v &&& 0xFF) with nv := life }
  match s.stallOfPhys p with
  | none => s1
  | some st =>
    s1.evict (((s.residents st).filter (fun c =>
      !covers (v.extractLsb' 0 8) (c.2.csr.declfeat.extractLsb' 0 8) &&
      covers ((s.reg (.featmask p)).extractLsb' 0 8) (c.2.csr.declfeat.extractLsb' 0 8))).map (·.1))

/-- The stalls of a die row. -/
def rowStalls (row : Nat) : List Nat := (List.range 32).map (rowStall row)

/-- A nest of a die row is armed, running or frozen (R20). -/
def State.rowBusy (s : State) (row : Nat) : Bool :=
  s.ctxs.any (fun c => !isGroom c.1 && c.2.resident && stallDieRow c.2.stall == row) ||
  s.gangs.any (fun g => !g.2.ended && g.2.saved.isNone && g.2.members.any (fun m => stallDieRow m.stall == row))

/-- SPARES of a map (R19). -/
def sparesOf (retired : Nat) : Nat := 2 - ((List.range 34).countP (fun p => retired.testBit p))

/-- The in-service positions under a map. -/
def inServiceOf (retired : Nat) : List Nat := (List.range 34).filter (fun p => !retired.testBit p)

/-- The new logical column of the stall at an old one, when the map changes (R18). -/
def remapCol (old new col : Nat) : Option Nat :=
  match (inServiceOf old)[col]? with
  | some p =>
    match (inServiceOf new).idxOf? p with
    | some l => if l < 32 then some l else none
    | none => none
  | none => none

/-- A DRAM offset or scratch address of a die row after its map changed: each stall keeps its own contents under its new number (R20);
dram says whether the DRAM columns keep theirs too. -/
def remapAddr (row old new : Nat) (dram : Bool) (a : Nat) : Option Nat :=
  let scratch := 2 ^ 44 ≤ a && a < 2 ^ 44 + 4096 * 2 ^ 21
  let unit := if scratch then 2 ^ 21 else 65536
  let st := if scratch then (a - 2 ^ 44) / 2 ^ 21 else a / 65536 % 4096
  if (scratch || (dram && a < dramBytes)) && stallDieRow st == row then
    (remapCol old new (stallCol st % 32)).map (fun c => a - stallCol st % 32 * unit + c * unit)
  else some a

/-- The memory after a row's map changed. -/
def Mem.remapRow (m : Mem) (row old new : Nat) (dram : Bool) : Mem :=
  let f := remapAddr row old new dram
  let gr := fun (l : List Nat) => (l.filterMap (fun g => (f (16 * g)).map (fun a => a / 16))).foldl setAdd []
  { m with bytes := m.bytes.foldl (fun l c => match f c.1 with
             | some a => cellsPut l a c.2
             | none => l) [],
           poison := gr m.poison, full := gr m.full }

/-- A write of COLMAP through CSR 0x08A (R20). One that leaves RETIRED as it is refuses nothing, and one that is refused sets MAPERR
even when it carries 1 in it (DESIGN CHOICE, log entry 103). A position that leaves service changes its STATE to 3 (R133, R136). -/
def State.writeColmap (s : State) (row : Nat) (v : DWord) : State :=
  let r := s.reg (.colmap row)
  let old := bits r 33 0
  let new := bits v 33 0
  let r1 := if bit v 40 then setBit r 40 false else r
  let pos := List.range 34
  let ok := !s.rowBusy row && pos.all (fun p => !(old.testBit p) || new.testBit p) &&
    pos.all (fun p => !(new.testBit p) || old.testBit p || s.physState (row * 34 + p) == 2)
  if new = old then s.setReg (.colmap row) r1
  else if ok then
    let s1 := s.setReg (.colmap row) (setBits (setBits r1 33 0 new) 35 34 (sparesOf new))
    ({ s1 with nv := { s1.nv with retired := s1.nv.retired.put row new }, mem := s1.mem.remapRow row old new true,
               moves := s1.moves.del row } : State).lifeRecord
  else s.setReg (.colmap row) (setBit r1 40 true)

/-! ## The dispatcher's and the front end's registers -/

/-- A write of DISPCTL: the write of COLLECTLIM below 13 stores 13 (R144); PAUSED follows PAUSE, since no placement is ever
half done. -/
def State.writeDispctl (s : State) (v : DWord) : State :=
  let r := mergeMask (s.reg .dispctl) v (fmask 0 0 ||| fmask 23 8)
  s.setReg .dispctl (setBit (setBits r 47 32 (Nat.max 13 (bits v 47 32))) 1 (bit v 0))

/-- A write of SAVEPOOL (R150). -/
def State.writeSavepool (s : State) (die : Nat) (v : DWord) : State :=
  s.setReg (.savepool die) (v &&& (fmask 38 16 ||| fmask 63 40))

/-- A write of GROOMSHARE: SHARE is held between 1 and 16 (R123); CREDIT stays at most SHARE. -/
def State.writeShare (s : State) (st : Nat) (v : DWord) : State :=
  let n := Nat.min 16 (Nat.max 1 (bits v 4 0))
  let r := setBits (s.reg (.groomshare st)) 4 0 n
  s.setReg (.groomshare st) (setBits r 12 5 (Nat.min n (bits r 12 5)))

/-- A write of FESTAT (R125). -/
def State.writeFestat (s : State) (die : Nat) (v : DWord) : State :=
  let r := s.reg (.festat die)
  let r1 := r &&& ~~~(v &&& 3)
  s.setReg (.festat die) (setBits r1 55 32 (Nat.max 1 (bits v 55 32)))

/-- BADW: a write to ADMIT or HEAD was refused (R125). -/
def State.badWrite (s : State) (die : Nat) : State := s.setReg (.festat die) (setBit (s.reg (.festat die)) 0 true)

/-- HEAD and TAIL of a queue (R75). -/
def State.qTail (s : State) (q : Nat) : Nat := bits (s.reg (.qptr q)) 31 0
def State.qHead (s : State) (q : Nat) : Nat := bits (s.reg (.qptr q)) 63 32
/-- ADMIT and START of a queue (R125). -/
def State.qAdmit (s : State) (q : Nat) : Nat := bits (s.reg (.feq q)) 31 0
def State.qStart (s : State) (q : Nat) : Nat := bits (s.reg (.feq q)) 63 32
/-- The die that serves a queue (R75). -/
def State.qDie (s : State) (q : Nat) : Nat := bits (s.reg (.qctl q)) 9 8

/-- d(x) of R84. -/
def State.qDist (s : State) (q x : Nat) : Nat := (x + 2 ^ 32 - s.qHead q) % 2 ^ 32

/-- A write of FEQ.ADMIT by a groom context of a die (R125): only a queue of that die acts. -/
def State.writeAdmit (s : State) (die q : Nat) (v : DWord) : State :=
  if s.qDie q != die then s
  else
    let n := bits v 31 0
    if s.qDist q (s.qAdmit q) ≤ s.qDist q n && s.qDist q n ≤ s.qDist q (s.qTail q) then s.setField (.feq q) 31 0 n
    else s.badWrite die

/-- A write of FEHEAD.HEAD (R125): it writes QPTR.HEAD. -/
def State.writeHead (s : State) (die q : Nat) (v : DWord) : State :=
  if s.qDie q != die then s
  else
    let n := bits v 31 0
    if s.qDist q n ≤ s.qDist q (s.qStart q) then
      ({ s with headWas := if (s.headWas.get? q).isSome then s.headWas else s.headWas.put q (s.qHead q) } : State).setField (.qptr q) 63 32 n
    else s.badWrite die

/-- A write of DBLSTAT from a groom context (R86, R87); CONS that advances restarts the watchdog (R128). -/
def State.writeDblstat (s : State) (die : Nat) (v : DWord) : State :=
  let r := s.reg (.dblstat die)
  let r1 := if bit v 29 then setBit r 29 false else r
  let cons := bits v 28 16
  let ignored := 4096 < (bits r 12 0 + 8192 - cons) % 8192
  let s1 := s.setReg (.dblstat die) (if ignored then r1 else setBits r1 28 16 cons)
  if ignored ∨ cons = bits r 28 16 then s1 else { s1 with consAt := s1.consAt.put die s.clock }

/-! ## BRKEND, MCBSEL, MCBDATA (R360, R491) -/

/-- A context leaves a wait of WAITBRK, with none of the effects of an expiry (R491). -/
def Ctx.endBreak (c : Ctx) : Ctx := { c with waits := c.waits.filter (fun w => w.kind != .waitbrk) }

/-- A write of BRKEND by a groom context on a die (R491). -/
def State.writeBrkend (s : State) (die : Nat) (v : DWord) : State :=
  let st := bits v 11 0
  if !bit v 13 || stallQuarter st != die then s
  else
    { s with ctxs := s.ctxs.map (fun c =>
        if !isGroom c.1 && c.2.resident && c.2.stall == st && c.2.slot == bits v 12 12 then (c.1, c.2.endBreak) else c) }

/-- A write of MCBSEL: OFFSET is stored, and READ makes an 8-byte read due and clears READY (R360). -/
def State.writeMcbsel (s : State) (k : Nat) (v : DWord) : State :=
  let c := s.ctx k
  let r := setBits c.csr.mcbsel 25 3 (bits v 25 3)
  if bit v 26 then
    (s.setCtx k { c with csr := { c.csr with mcbsel := setBit r 27 false } }).push [.mcbRead k (bits v 25 3 * 8)]
  else s.setCtx k { c with csr := { c.csr with mcbsel := r } }

/-- A write of MCBDATA: an 8-byte write at OFFSET is due, after the accesses before it (R360). -/
def State.writeMcbdata (s : State) (k : Nat) (v : DWord) : State :=
  s.push [.mcbWrite k (bits (s.ctx k).csr.mcbsel 25 3 * 8) v]

/-! ## GSEL (R359) -/

/-- The physical stall that CSRs 0x081 and 0x082 address, when it exists. -/
def State.gselPhys (s : State) (k : Nat) : Option Nat :=
  let c := s.ctx k
  let i := bits c.csr.gsel 11 0
  if bit c.csr.gsel 12 then
    if 34 ≤ i % 64 then none
    else some (stallDieRow (stallAt (i / 64) (stallCol c.stall)) * 34 + i % 64)
  else s.physStall i

/-- The die row that CSR 0x08A addresses: that of the stall, or with PHYS that of the module row on the context's own half
(DEDUCED, log entry 15). -/
def State.gselRow (s : State) (k : Nat) : Nat :=
  let c := s.ctx k
  let i := bits c.csr.gsel 11 0
  if bit c.csr.gsel 12 then stallDieRow (stallAt (i / 64) (stallCol c.stall)) else stallDieRow i

/-! ## Wear units (R139) -/

/-- The temperature factor of wear units (R139). -/
def State.wearFactor (s : State) (st : Nat) : Nat :=
  let p := stallPaddock st
  let pd := p / 16 % 8 * 8 + p % 16 % 8
  let t := bits (s.reg (.tsense ((stallQuarter st * 64 + pd) * 6))) 11 0
  (if t < 1192 then 1 else if t < 1312 then 2 else 4) * (if s.stallState st = 1 then 2 else 1)


end Sys2Proof.Machine
end

