-- ==== Sys2Proof/Machine/Riders.lean ====
section
/-! DEFINITION. Machine/Riders.lean: the rider pools, the banks that launches run from, the hitch tables, and the creation of
a rider (R107, R117, R162 to R171). -/

namespace Sys2Proof.Machine

/-! ## Parameter banks (R107) -/

/-- The little-endian number in bytes lo to hi of a list. -/
def fieldOf (l : List Byte) (hi lo : Nat) : Nat := leNat ((l.drop lo).take (hi + 1 - lo))

/-- VREGS, BAYS, FEAT, ARGS and ENTRY of a bank of a kind. -/
def bankVregs (k : LaunchKind) (b : List Byte) : Nat := if k = .kernel then fieldOf b 21 20 else fieldOf b 41 40
def bankBays (k : LaunchKind) (b : List Byte) : Nat := (if k = .kernel then fieldOf b 22 22 else fieldOf b 42 42) % 16
def bankFeat (k : LaunchKind) (b : List Byte) : Nat := if k = .kernel then fieldOf b 24 24 else fieldOf b 32 32
def bankArgs (k : LaunchKind) (b : List Byte) : Nat := if k = .kernel then fieldOf b 15 8 else fieldOf b 23 16
def bankEntry (b : List Byte) : Nat := fieldOf b 7 0
def bankXentry (b : List Byte) : Nat := fieldOf b 15 8
def bankBound (k : LaunchKind) (b : List Byte) : Bool := k == .kernel && (fieldOf b 23 23).testBit 0
def bankHitch (k : LaunchKind) (b : List Byte) : Bool := k == .kernel && (fieldOf b 23 23).testBit 1
def bankTilesX (b : List Byte) : Nat := fieldOf b 25 24
def bankTilesY (b : List Byte) : Nat := fieldOf b 27 26
def bankTolr (b : List Byte) : Nat := fieldOf b 31 28
def bankGuard (b : List Byte) : Nat := fieldOf b 43 43
def bankRodata (b : List Byte) : Nat := fieldOf b 47 40
/-- ORIGIN, HEIGHT and WIDTH of RECT. -/
def bankOrigin (b : List Byte) : Nat := fieldOf b 39 32 % 4096
def bankHeight (b : List Byte) : Nat := fieldOf b 39 32 / 2 ^ 12 % 64 + 1
def bankWidth (b : List Byte) : Nat := fieldOf b 39 32 / 2 ^ 18 % 64 + 1

/-- The riders of a launch: RIDERS, or the tile count (R117). -/
def bankRiders (k : LaunchKind) (b : List Byte) : Nat :=
  if k = .kernel then fieldOf b 19 16 else bankTilesX b * bankTilesY b

/-! ## Rider records (R163, R164, R167) -/

/-- Records of a die's pool. -/
def poolSize : Nat := 65536

/-- The records in use of a die's pool. -/
def State.recordsOf (s : State) (die : Nat) : List Nat :=
  (s.ctxs.filter (fun c => !isGroom c.1 && keyDie c.1 == die)).map (fun c => c.1 / 4)

/-- The lowest free record of a die (DESIGN CHOICE, log entry 16). -/
def State.freeRecord (s : State) (die : Nat) : Option Nat :=
  let used := s.recordsOf die
  if poolSize ≤ used.length then none else (List.range (used.length + 1)).find? (fun i => !used.contains i)

/-- The oldest waiting launch of a die with HITCH, which holds every record that frees (R167). -/
def State.holder (s : State) (die : Nat) : Option Nat :=
  s.recordWait.find? (fun l => (s.launches.get? l).any (fun x => x.die == die && bankHitch x.kind x.bank))

/-- Records of a die are held for a launch. -/
def State.recordsHeld (s : State) (die : Nat) : Bool := (s.holder die).isSome

/-- RIDERID of a record (R163). -/
def riderId (die slot gen prio : Nat) : DWord :=
  BitVec.ofNat 64 (slot + die * 2 ^ 16 + gen % 65536 * 2 ^ 32 + prio * 2 ^ 48)

/-- A new rider in a record of a die: the common part of R117, R162 and R166. -/
def newRider (die slot gen prio feat pc order clock : Nat) (s1 s2 s3 : DWord) : Ctx :=
  { Ctx.reset with
    pc := BitVec.ofNat 64 pc,
    f := { Files.reset with s := rset (rset (rset Files.reset.s 1 ⟨s1, 0⟩) 2 ⟨s2, 0⟩) 3 ⟨s3, 0⟩ },
    csr := { riderid := riderId die slot gen prio, status := BitVec.ofNat 64 (prio * 64), declfeat := BitVec.ofNat 64 feat },
    loc := .waiting order, since := clock }

/-- The state with a rider put into a free record of a die; its generation is used. -/
def State.putRider (s : State) (die slot : Nat) (c : Ctx) : State :=
  let k := riderKey die slot
  { s.setCtx k c with gens := s.gens.put k ((s.gens.getD k 0 + 1) % 65536), ids := s.ids + 1 }

/-- SPAWN's rider (R166, R364): the parent's launch, ENTRY aside, with s3 = 0; answers its RIDERID. -/
def State.spawnRider (s : State) (k : Nat) (pc s1 s2 : DWord) : Option (DWord × State) :=
  let p := s.ctx k
  let die := bits p.csr.riderid 17 16
  if s.recordsHeld die then none
  else
    match s.freeRecord die with
    | none => none
    | some slot =>
      let gen := s.gens.getD (riderKey die slot) 0
      let launch := s.launches.get? p.launch
      let feat := match launch with
        | some l => bankFeat l.kind l.bank
        | none => bits p.csr.declfeat 7 0
      let prio := match launch with
        | some l => l.prio
        | none => bits p.csr.riderid 50 48
      let c := newRider die slot gen prio feat pc.toNat s.ids s.clock s1 s2 0
      let c1 := { c with launch := p.launch, asid := p.asid, root := p.root, aspace := p.aspace,
                         tileX := s2.toNat % 65536, tileY := 1, vregs := p.vregs, nbays := p.nbays,
                         csr := { c.csr with baymap := BitVec.ofNat 64 (p.nbays * 256) } }
      let s1 := s.putRider die slot c1
      some (c1.csr.riderid, s1)

/-! ## Hitches (R168 to R171) -/

/-- The lowest free entry of a die's hitch table of 256 (DESIGN CHOICE, log entry 16). -/
def State.freeHitch (s : State) (die : Nat) : Option Nat :=
  (List.range 256).find? (fun e => !(s.hitches.get? (e * 4 + die)).any (fun h => h.live))

/-- HITCHID of a member (R168). -/
def hitchId (key gen : Nat) : DWord := BitVec.ofNat 64 (key / 4 + key % 4 * 256 + 1024 + gen % 65536 * 65536)

/-- A new hitch in a free entry, with members; its generation follows that of the entry's last use. -/
def State.makeHitch (s : State) (key : Nat) (members : List Nat) : State :=
  let gen := match s.hitches.get? key with
    | some h => (h.gen + 1) % 65536
    | none => 0
  { s with hitches := s.hitches.put key { gen := gen, members := members } }

/-- The generation of a hitch entry. -/
def State.hitchGen (s : State) (key : Nat) : Nat := ((s.hitches.get? key).map (·.gen)).getD 0

/-! ## Waits -/

/-- An explicit wait of the word under way: t cycles pass from the cycle after its group issues; its condition is tested at the end of
the cycle of its group and of each of these cycles (R181; DEDUCED, log entry 101). -/
def State.explicitWait (s : State) (kind : WaitKind) (p : PIdx) (t : Nat) : State :=
  let seq := s.seqNow
  s.modMe (fun c => { c with waits := c.waits ++
    [{ kind := kind, pred := some p, limit := t, deadline := s.clock + 1 + t, seq := seq, word := s.pos.word, lit := s.pos.lit }] })

/-- A wait of a context ends with its predicate, which lands at g+2 counted from the wait's group (R177, R181). -/
def State.endWait (s : State) (k : Nat) (kind : WaitKind) (v : Bool) : State :=
  s.modCtx k (fun c =>
    match c.waits.find? (fun w => w.kind == kind) with
    | none => c
    | some w =>
      let c1 := { c with waits := c.waits.erase w }
      match w.pred with
      | none => c1
      | some p => { c1 with land := insertLanding c1.land { seq := w.seq, remain := 2, writes := [.p p ⟨v, 0⟩], word := w.word, lit := w.lit } })

/-- p7 is set when an implicit wait has expired; it lands at g+2 of the wait's group (R183). -/
def State.setP7 (s : State) (k : Nat) (remain : Nat) : State :=
  s.modCtx k (fun c => { c with land := insertLanding c.land { seq := 4 * c.seq + 3, remain := remain, writes := [.p 7 ⟨true, 0⟩] } })

/-- A trap of TRAP is entered when every wait of its group has ended (R361). -/
def State.afterWait (s : State) (k : Nat) : State :=
  let c := s.ctx k
  match c.pendingTrap with
  | some (t, pc) => if c.waits.isEmpty then (s.setCtx k { c with pendingTrap := none }).takeCause k t pc else s
  | none => s

end Sys2Proof.Machine
end

