-- ==== Sys2Proof/Machine/System.lean ====
section
/-! DEFINITION. Machine/System.lean: the S pipe words of chapter "Control pipe instructions" that act on the rider itself:
loops, CSRs, traps, riders and hitches, window and type set-up, containment. -/

namespace Sys2Proof.Machine

/-! ## LOOPR (R189, R349) -/

/-- The packet after the one that holds an address (R314). -/
def nextPacket (a : DWord) : DWord := (a &&& ~~~(15 : DWord)) + 16

/-- LOOPR: an entry pushed, whose head is the next packet, and the sequential successor; or for a count of 0 the exit (R189, R323, R349). -/
def looprWord (a : RIdx) (j : JIdx) : W Unit := do
  let c ← getMe
  let s ← getS
  let n := c.sreg a
  if n.val ≠ 0 ∧ 6 ≤ c.loops.length then illegalContext
  let n ← sUse a
  let exit ← jUse j
  if n = 0 then modMe (fun c => { c with pc := exit })
  else
    goOn
    modMe (fun c => { c with loops := { count := n, head := nextPacket s.pos.addr, exit := exit, init := n } :: c.loops })
/-- LOOPR (R349). -/
def execLoopr (h : SHead) (a : RIdx) (j : JIdx) (s : State) : Host.Outcome State Fault Refusal := runWord h.g (looprWord a j) s

/-! ## Control and status registers (R352 to R360) -/

/-- STALLID (R355). -/
def State.stallId (s : State) (c : Ctx) : DWord :=
  let phys := match s.physOf c.stall with
    | some p => p
    | none => 0
  BitVec.ofNat 64 (c.stall + stallPaddock c.stall * 2 ^ 12 + stallQuarter c.stall * 2 ^ 20 + c.slot * 2 ^ 22 + phys * 2 ^ 24)

/-- A CSR number that only a groom context may read or write (R353). -/
def csrGroom (n : Nat) : Bool := 0x080 ≤ n

/-- The value that CSRR reads (R353). -/
def State.csrValue (s : State) (k n : Nat) : DWord :=
  let c := s.ctx k
  let die := stallQuarter c.stall
  match n with
  | 0x000 => c.statusWord
  | 0x001 => c.csr.riderid
  | 0x002 => s.stallId c
  | 0x003 => c.csr.hitchid
  | 0x004 => BitVec.ofNat 64 (s.cycle c.stall)
  | 0x005 => if isGroom k then 0 else c.csr.wearcnt
  | 0x006 => s.featOfStall c.stall
  | 0x007 => s.wearOfStall c.stall
  | 0x008 => c.csr.declfeat
  | 0x009 => c.csr.tolr
  | 0x00A => c.csr.baymap
  | 0x00B => c.csr.contstat
  | 0x010 => c.csr.vtype
  | 0x011 => c.csr.vwb
  | 0x012 => c.csr.vrot
  | 0x013 => c.csr.vflags
  | 0x014 => c.csr.waitlim
  | 0x015 => c.csr.deferq
  | 0x020 => c.csr.trapvec
  | 0x021 => c.csr.trappc
  | 0x022 => c.csr.trapcause
  | 0x023 => c.csr.trapinfo
  | 0x024 => c.csr.ssw
  | 0x080 => s.reg (.groomshare c.stall)
  | 0x081 => match s.gselPhys k with
    | some p => s.wearRead p
    | none => if bit c.csr.gsel 12 then 0 else s.wearOfStall (bits c.csr.gsel 11 0)
  | 0x082 => match s.gselPhys k with
    | some p => s.reg (.featmask p)
    | none => 0
  | 0x083 => s.reg .dispctl
  | 0x084 => s.reg (.savepool die)
  | 0x085 => s.reg (.festat die)
  | 0x086 => s.reg (.dblstat die)
  | 0x087 => c.csr.gsel
  | 0x088 => c.csr.mcbsel
  | 0x089 => c.csr.mcbdata
  | 0x08A => s.reg (.colmap (s.gselRow k))
  | n =>
    if 0x100 ≤ n ∧ n < 0x200 then BitVec.ofNat 64 (s.qHead (n - 0x100))
    else if 0x200 ≤ n ∧ n < 0x300 then s.reg (.feq (n - 0x200))
    else 0

/-- CSRR (R352): PROTECTION in a user context for the groom registers. -/
def csrrWord (d : RIdx) (csr : BitVec 10) : W Unit := do
  let s ← getS
  if csrGroom csr.toNat && !isGroom s.cur then protection csr.toNat
  land 1 [.s d ⟨s.csrValue s.cur csr.toNat, 0⟩]
/-- CSRR (R352). -/
def execCsrr (h : SHead) (d : RIdx) (csr : BitVec 10) (s : State) : Host.Outcome State Fault Refusal :=
  runWord h.g (csrrWord d csr) s

/-- A write of DEFERQ: BASE, and COUNT and HEAD become 0 (R195). -/
def deferqValue (v : DWord) : DWord := BitVec.ofNat 64 (bits v 20 0 / 16 * 16)

/-- A write of a CSR that belongs to the context (R353); read-only ones keep their value. -/
def Csrs.write (c : Csrs) (n : Nat) (v : DWord) : Csrs :=
  match n with
  | 0x010 => { c with vtype := vtypeWord (bits v 2 0) (bits v 6 4) (bit v 7) (bits v 10 8) }
  | 0x011 => { c with vwb := v &&& fmask 10 0 }
  | 0x012 => { c with vrot := BitVec.ofNat 64 (Nat.min 32 (bits v 5 0)) }
  | 0x013 => { c with vflags := clearFlags c.vflags v }
  | 0x014 => { c with waitlim := BitVec.ofNat 64 (Nat.max 1 (bits v 23 0)) }
  | 0x015 => { c with deferq := deferqValue v }
  | 0x020 => { c with trapvec := v &&& fmask 48 4 }
  | 0x021 => { c with trappc := v }
  | 0x024 => { c with ssw := v }
  | 0x087 => { c with gsel := v &&& fmask 12 0 }
  | _ => c

/-- A write of a groom register by the groom context of key k (R353). -/
def State.groomWrite (s : State) (k n : Nat) (v : DWord) : State :=
  let c := s.ctx k
  let die := stallQuarter c.stall
  match n with
  | 0x006 => match s.physStall c.stall with
    | some p => s.writeFeat p v
    | none => s
  | 0x007 => match s.physStall c.stall with
    | some p => s.writeWear p v
    | none => s
  | 0x080 => s.writeShare c.stall v
  | 0x081 => match s.gselPhys k with
    | some p => s.writeWear p v
    | none => s
  | 0x082 => match s.gselPhys k with
    | some p => s.writeFeat p v
    | none => s
  | 0x083 => s.writeDispctl v
  | 0x084 => s.writeSavepool die v
  | 0x085 => s.writeFestat die v
  | 0x086 => s.writeDblstat die v
  | 0x088 => s.writeMcbsel k v
  | 0x089 => s.writeMcbdata k v
  | 0x08A => s.writeColmap (s.gselRow k) v
  | 0x08B => s.writeBrkend die v
  | n =>
    if 0x100 ≤ n ∧ n < 0x200 then s.writeHead die (n - 0x100) v
    else if 0x200 ≤ n ∧ n < 0x300 then s.writeAdmit die (n - 0x200) v
    else s

/-- The causes of a CSRW beside its datum (R286, R353). -/
def csrwCheck (c : Ctx) (groom : Bool) (n : Nat) (v : DWord) : W Unit :=
  if (n = 0x021 ∨ n = 0x023 ∨ n = 0x024) ∧ ¬ c.handler then illegalContext
  else if n = 0x010 ∧ bits v 6 4 = 4 then needFeature 3
  else if (n = 0x006 ∨ n = 0x007 ∨ csrGroom n) ∧ ¬ groom then protection n
  else pure ()

/-- CSRW (R352, R353): its datum is a consuming use. -/
def csrwWord (d : RIdx) (csr : BitVec 10) : W Unit := do
  let s ← getS
  let n := csr.toNat
  csrwCheck s.me (isGroom s.cur) n (s.me.sreg d).val
  let v ← sUse d
  modMe (fun c => { c with csr := c.csr.write n v })
  if isGroom s.cur then modS (fun s => s.groomWrite s.cur n v)
/-- CSRW (R352). -/
def execCsrw (h : SHead) (d : RIdx) (csr : BitVec 10) (s : State) : Host.Outcome State Fault Refusal :=
  runWord h.g (csrwWord d csr) s

/-! ## TRAP, TRET, FEAT (R361 to R363) -/

/-- The next-address selector of a word, as a part of it: YIELD and WAITBRK select as SEQ in a TRAP (R361). -/
def selectFor : Nx → W Unit
  | .seq | .yield | .waitbrk => goOn
  | .loop => loopWord
  | .brk => brkWord
  | .ret => retWord
  | .jmp j => jmpWord j
  | .call j => callWord j
  | .stop => stopWord

/-- TRAP: its group takes effect, NX included; then SOFTWARE is taken, at once or when the waits of the group have ended;
with NX = STOP the rider retires and no trap is taken (R361). -/
def trapWord (nx : Nx) (i : BitVec 10) : W Unit := do
  selectFor nx
  if nx = .stop then pure ()
  else modS (fun s =>
    (s.modMe (fun c => { c with pendingTrap := some ({ code := 9, info := i.setWidth 64, word := s.pos.idx, pipe := 0 }, c.pc) })).afterWait s.cur)
/-- TRAP (R361). -/
def execTrap (h : SHead) (i : BitVec 10) (s : State) : Host.Outcome State Fault Refusal := runWord h.g (trapWord h.nx i) s

/-- TRET: the frame is refused through HCAUSE, or the return takes place (R294, R295). -/
def tretWord : W Unit := do
  let c ← getMe
  if !c.handler then illegalContext
  match c.frame with
  | none => illegalContext
  | some f =>
    if c.tretRefused f then
      modMe (fun c => { c with pc := c.csr.trapvec, csr := { c.csr with trapcause := setBits c.csr.trapcause 15 8 3 } })
    else modS (fun s => s.tret s.cur f)
/-- TRET (R295, R362). -/
def execTret (h : SHead) (s : State) : Host.Outcome State Fault Refusal := runWord h.g tretWord s

/-- FEAT: whether the declared mask holds the named bits (R363). -/
def featWord (p : PIdx) (b : Byte) : W Unit := do
  let c ← getMe
  land 2 [.p p ⟨covers (c.csr.declfeat.extractLsb' 0 8) b, 0⟩]
/-- FEAT (R363). -/
def execFeat (h : SHead) (p : PIdx) (bits : Byte) (s : State) : Host.Outcome State Fault Refusal := runWord h.g (featWord p bits) s

/-! ## Riders and hitches (R364 to R366) -/

/-- ILLEGAL_CONTEXT in a groom context. -/
def userOnly : W Unit := do
  let s ← getS
  if isGroom s.cur then illegalContext else pure ()

/-- SPAWN: one rider, whose RIDERID lands at g+4; all ones when the pool has no free record (R166, R364). In guarded mode
PROTECTION, whose INFO the spec does not give (DESIGN CHOICE, log entry 13). -/
def spawnWord (d : RIdx) (j : JIdx) (b : RIdx) : W Unit := do
  userOnly
  let s ← getS
  if s.me.guarded then protection (Config.freeWord s.fresh).toNat
  let x ← sUse d
  let y ← sUse b
  let entry ← jUse j
  match s.spawnRider s.cur entry x y with
  | some (id, t) => do
    modS (fun _ => t)
    land 4 [.s d ⟨id, 0⟩]
  | none => land 4 [.s d ⟨BitVec.allOnes 64, 0⟩]
/-- SPAWN (R364). -/
def execSpawn (h : SHead) (d : RIdx) (j : JIdx) (b : RIdx) (s : State) : Host.Outcome State Fault Refusal :=
  runWord h.g (spawnWord d j b) s

/-- HITCH, create form: a free entry of the table of RIDERID.DIE, with the rider as its member (R169, R365). -/
def hitchCreateWord (d : RIdx) : W Unit := do
  userOnly
  let s ← getS
  if (s.hitchOf s.cur).isSome then hitchCause 0
  match s.freeHitch (bits s.me.csr.riderid 17 16) with
  | none => hitchCause 0
  | some e => do
    let key := e * 4 + bits s.me.csr.riderid 17 16
    modS (fun s => s.makeHitch key [s.cur])
    let s1 ← getS
    let id := hitchId key (s1.hitchGen key)
    land 4 [.s d ⟨id, 0⟩, .hitch id]
/-- HITCH sD (R365). -/
def execHitchCreate (h : SHead) (d : RIdx) (s : State) : Host.Outcome State Fault Refusal := runWord h.g (hitchCreateWord d) s

/-- The hitch that an id names, when it is live (R168, R365). -/
def State.liveHitch (s : State) (id : DWord) : Option (Nat × Hitch) :=
  if bits id 63 32 != 0 || bits id 15 11 != 0 then none
  else
    match s.hitches.get? (hitchKeyOf id) with
    | some x => if x.live && x.gen == bits id 31 16 then some (hitchKeyOf id, x) else none
    | none => none

/-- HITCH, join form: the rider is a member from the open phase on (R169, R365). -/
def hitchJoinWord (d a : RIdx) : W Unit := do
  userOnly
  let id ← sUse a
  let s ← getS
  if (s.hitchOf s.cur).isSome then hitchCause id.toNat
  match s.liveHitch id with
  | none => hitchCause id.toNat
  | some (key, x) => do
    if 4096 ≤ x.members.length then hitchCause id.toNat
    modS (fun s => { s with hitches := s.hitches.put key { x with members := setAdd x.members s.cur } })
    let own := hitchId key x.gen
    land 4 [.s d ⟨own, 0⟩, .hitch own]
/-- HITCH sD, sA (R365). -/
def execHitchJoin (h : SHead) (d a : RIdx) (s : State) : Host.Outcome State Fault Refusal := runWord h.g (hitchJoinWord d a) s

/-- UNHITCH (R169, R170). -/
def unhitchWord : W Unit := do
  userOnly
  let s ← getS
  if (s.hitchOf s.cur).isNone then hitchCause 0
  modS (fun s => s.leaveHitch s.cur)
/-- UNHITCH (R365). -/
def execUnhitch (h : SHead) (s : State) : Host.Outcome State Fault Refusal := runWord h.g unhitchWord s

/-- HBAR: an arrival at the open phase, and an explicit wait for its completion (R170, R366). -/
def hbarWord (p : PIdx) (t : Imm 10) : W Unit := do
  userOnly
  let s ← getS
  match s.hitchOf s.cur with
  | none => hitchCause 0
  | some key =>
    modS (fun s =>
      (({ s with hitches := s.hitches.upd key (fun x => { x with arrived := setAdd x.arrived s.cur }) } : State).explicitWait .hbar p
        (immU t).toNat).hitchCheck key)
/-- HBAR (R366). -/
def execHbar (h : SHead) (p : PIdx) (t : Imm 10) (s : State) : Host.Outcome State Fault Refusal := runWord h.g (hbarWord p t) s

/-! ## Window, type and generator set-up (R367 to R370) -/

/-- VWIN: the window base; a literal above 2,047 raises WINDOW (R367). -/
def vwinWord (i : Imm 10) : W Unit := do
  let v := (immU i).toNat
  if 2047 < v then raise 10 (v % 2 ^ 11 * 2 ^ 16)
  modMe (fun c => { c with csr := { c.csr with vwb := BitVec.ofNat 64 v } })
/-- VWIN (R367). -/
def execVwin (h : SHead) (i : Imm 10) (s : State) : Host.Outcome State Fault Refusal := runWord h.g (vwinWord i) s

/-- VROT: the rotating region, with the rotation base 0 (R368). -/
def vrotWord (i : BitVec 10) : W Unit :=
  modMe (fun c => { c with csr := { c.csr with vrot := BitVec.ofNat 64 (Nat.min 32 i.toNat) } })
/-- VROT (R368). -/
def execVrot (h : SHead) (i : BitVec 10) (s : State) : Host.Outcome State Fault Refusal := runWord h.g (vrotWord i) s

/-- SETVT: all four fields of VTYPE; SR needs SROUND (R369). -/
def setvtWord (etype rm : BitVec 3) (sat : Bool) (mask : KIdx) : W Unit := do
  if rm = 4 then needFeature 3
  modMe (fun c => { c with csr := { c.csr with vtype := vtypeWord etype.toNat rm.toNat sat mask.toNat } })
/-- SETVT (R369). -/
def execSetvt (h : SHead) (etype rm : BitVec 3) (sat : Bool) (mask : KIdx) (s : State) : Host.Outcome State Fault Refusal :=
  runWord h.g (setvtWord etype rm sat mask) s

/-- SRSEED: every stochastic-rounding state from a seed and a stream (R274, R370). -/
def srseedWord (a b : RIdx) : W Unit := do
  needFeature 3
  let x ← sUse a
  let y ← sUse b
  modMe (fun c => { c with srSeed := (x, y), sr := [] })
/-- SRSEED (R370). -/
def execSrseed (h : SHead) (a b : RIdx) (s : State) : Host.Outcome State Fault Refusal := runWord h.g (srseedWord a b) s

/-! ## Containment and lame tests (R371, R372) -/

/-- CONTAIN: the snapshot of R303, and the region opens. -/
def containWord (j : JIdx) : W Unit := do
  let c ← getMe
  if c.contain || c.handler then illegalContext
  let target ← jUse j
  modMe (fun c => { c with
    snap := some { s := c.f.s, loops := c.loops, links := c.links, vwb := c.csr.vwb, vrot := c.csr.vrot, target := target },
    csr := { c.csr with status := setBit c.csr.status 4 true } })
/-- CONTAIN (R303, R371). -/
def execContain (h : SHead) (j : JIdx) (s : State) : Host.Outcome State Fault Refusal := runWord h.g (containWord j) s

/-- ENDCONT: the region closes and its snapshot is discarded (R303). -/
def endcontWord : W Unit := do
  let c ← getMe
  if !c.contain then illegalContext
  modMe (fun c => { c with snap := none, csr := { c.csr with status := setBit c.csr.status 4 false } })
/-- ENDCONT (R303, R371). -/
def execEndcont (h : SHead) (s : State) : Host.Outcome State Fault Refusal := runWord h.g endcontWord s

/-- CHKL: whether a scalar is lame at issue, landing at g+2; its lame bit is clear from g+1 on (R372). -/
def chklWord (p : PIdx) (a : RIdx) : W Unit := do
  let x ← sSrc a
  land 2 [.p p ⟨x.lame != 0, 0⟩]
  modMe (fun c => { c with f := { c.f with s := rset c.f.s a ⟨(rget c.f.s a).val, 0⟩ } })
/-- CHKL (R372). -/
def execChkl (h : SHead) (p : PIdx) (a : RIdx) (s : State) : Host.Outcome State Fault Refusal := runWord h.g (chklWord p a) s

end Sys2Proof.Machine
end

