-- ==== Sys2Proof/Machine/Space.lean ====
section
/-! DEFINITION. Machine/Space.lean: translation, the caches, the stash mappings, and reads and writes of the four address
spaces (R198 to R225, R233 to R246). -/

namespace Sys2Proof.Machine

/-! ## Accesses that may halt or wait -/

/-- Why an access does not end now: a translation fault of a kind at an address, with the type of the access (R207, R210, R213), or a hold at a home column or
a response of another module (R27, R54, R158). -/
inductive Halt where
  | fault (va kind : Nat) (acc : BitVec 4)
  | wait
  /-- the access is not performed (R214) -/
  | refused
  deriving DecidableEq, Repr

/-- An access: it may change the state before it halts or waits. -/
abbrev A (α : Type) := ExceptT Halt (StateM State) α

/-- The state read. -/
def aGet : A State := fun s => (.ok s, s)
/-- The state changed. -/
def aMod (f : State → State) : A Unit := fun s => (.ok (), f s)
/-- A fault of an access of a type. -/
def aFault {α : Type} (va kind : Nat) (acc : BitVec 4) : A α := fun s => (.error (.fault va kind acc), s)
/-- An access that is not performed. -/
def aRefused {α : Type} : A α := fun s => (.error .refused, s)
/-- A wait. -/
def aWait {α : Type} : A α := fun s => (.error .wait, s)

/-! ## Translation (R204 to R208) -/

/-- Bytes of the table of a level (R205). -/
def tableBytes : Nat → Nat
  | 3 => 8192
  | 0 => 256
  | _ => 4096

/-- The least address bit that a level indexes: a leaf there maps 2 to this power bytes (R205). -/
def levelShift : Nat → Nat
  | 3 => 39
  | 2 => 30
  | 1 => 21
  | _ => 16

/-- Entries of a level's table. -/
def levelEntries (l : Nat) : Nat := tableBytes l / 8

/-- n bytes at a module offset meet the SAVEPOOL range of a die (R150, R207). -/
def State.inSavepool (s : State) (o n : Nat) : Bool :=
  (List.range 4).any (fun d =>
    let r := s.reg (.savepool d)
    overlaps o n (bits r 38 16 * 65536) (bits r 63 40 * 65536))

/-- n bytes at a module offset that no table or leaf may use (R207, kind 4). -/
def State.reservedRange (s : State) (o n : Nat) : Bool := dramBytes < o + n || s.inSavepool o n

/-- A table entry breaks the format of its level (R206, R207, kind 3). -/
def badFormat (level : Nat) (e : DWord) : Bool :=
  let leaf := bit e 1
  let a := bits e 56 8 * 256
  bits e 7 6 != 0 || bits e 63 57 != 0 || (level == 3 && leaf) || (level == 0 && !leaf) || (!leaf && bit e 4) ||
  (if leaf then a % 2 ^ levelShift level != 0 || (!bit e 4 && a / 2 ^ 45 != 0) else a % tableBytes (level - 1) != 0)

/-- The walk from the table of a level: the level and the entry of the leaf, or the lowest fault kind (R205, R207); 0 while the home
column of a table holds its requests (R232). -/
def State.walkFrom (s : State) (va : Nat) : List Nat → Nat → Except Nat (Nat × DWord)
  | [], _ => .error 3
  | l :: ls, table =>
    if s.reservedRange table (tableBytes l) then .error 4
    else
      let a := table + 8 * (va / 2 ^ levelShift l % levelEntries l)
      let e := BitVec.ofNat 64 (leNat (s.mem.read a 8))
      if s.homeHeld a then .error 0
      else if s.mem.poisoned a 8 then .error 5
      else if !bit e 0 then .error 2
      else if badFormat l e then .error 3
      else if bit e 1 then .ok (l, e)
      else s.walkFrom va ls (bits e 56 8 * 256)

/-- The leaf of an address, as a TLB holds it (R206, R208). -/
def State.walk (s : State) (asid root va : Nat) : Except Nat TlbEntry :=
  match s.walkFrom va [3, 2, 1, 0] (root * 8192) with
  | .error k => .error k
  | .ok (l, e) =>
    let size := 2 ^ levelShift l
    let a := bits e 56 8 * 256
    let mine := a / 2 ^ 39 % 64 = s.myMod
    if !bit e 4 && (if mine then s.reservedRange (a % 2 ^ 39) size else dramBytes ≤ a % 2 ^ 39) then .error 4
    else .ok { asid := asid, va := va / size * size, size := size, w := bit e 2, x := bit e 3, host := bit e 4, nc := bit e 5, pa := a }

/-- The entry of a TLB that maps an address of a space (R208). -/
def tlbFind (l : List TlbEntry) (asid va : Nat) : Option TlbEntry :=
  l.find? (fun e => e.asid == asid && e.va ≤ va && va < e.va + e.size)

/-- The permission fault of an access at a leaf: ACCESS bit 1 a write, bit 2 a fetch (R207, R213). -/
def permFault (e : TlbEntry) (acc : BitVec 4) : Option Nat :=
  if acc.getLsbD 1 && !e.w then some 6 else if acc.getLsbD 2 && !e.x then some 7 else none

/-- The set of a paddock's TLB that holds an entry, of 256 with 8 ways (DESIGN CHOICE, log entry 44: the spec names no index). -/
def tlbSet (e : TlbEntry) : Nat := e.va / e.size % 256

/-- A list of TLB entries with one more, the newest first; the oldest of its set leaves when the set has more than its ways. -/
def tlbPut (l : List TlbEntry) (e : TlbEntry) (ways : Nat) (same : TlbEntry → Bool) : List TlbEntry :=
  let l1 := e :: l.erase e
  if ways < l1.countP same then
    match (l1.reverse.find? same) with
    | some old => (l1.reverse.erase old).reverse
    | none => l1
  else l1

/-- An entry held by the TLBs of a stall, of 64 entries, and of its paddock, of 2,048 in 8 ways (R208). -/
def State.tlbFill (s : State) (st : Nat) (e : TlbEntry) : State :=
  let p := stallPaddock st
  { s with stallTlb := s.stallTlb.put st (tlbPut (s.stallTlb.getD st []) e 64 (fun _ => true)),
           paddockTlb := s.paddockTlb.put p (tlbPut (s.paddockTlb.getD p []) e 8 (fun x => tlbSet x == tlbSet e)) }

/-- The translation of a global address for a context on a stall: its TLB, its paddock's TLB, or a walk (R205 to R208; log
entry 12). A page whose halted access the owner has aborted is refused to that access (R214). -/
def translate (k st va : Nat) (acc : BitVec 4) : A TlbEntry := do
  let s ← aGet
  let c := s.ctx k
  if c.dead.contains (va / 65536) then aRefused
  else if !c.aspace then aFault va 1 acc
  else
    let hit := match tlbFind (s.stallTlb.getD st []) c.asid va with
      | some e => some e
      | none => tlbFind (s.paddockTlb.getD (stallPaddock st) []) c.asid va
    let r : Except Nat TlbEntry := match hit with
      | some e => .ok e
      | none => s.walk c.asid c.root va
    match r with
    | .error kind => if kind = 0 then aWait else aFault va kind acc
    | .ok e =>
      match permFault e acc with
      | some kind => aFault va kind acc
      | none => do
        aMod (fun s => s.tlbFill st e)
        pure e

/-- An access of a context in which what it does at the pages named is not performed (R214). -/
def withDead {α : Type} (k : Nat) (l : List Nat) (x : A α) : A α := fun s =>
  if l.isEmpty then x s
  else
    let r := x (s.modCtx k (fun c => { c with dead := l }))
    (r.1, r.2.modCtx k (fun c => { c with dead := [] }))

/-- An access whose abort delivers zero bytes, lame with cause REFUSED (R214). -/
def orRefused (n : Nat) (x : A (Lamed (List Byte))) : A (Lamed (List Byte)) := fun s =>
  match x s with
  | (.error .refused, t) => (.ok ⟨List.replicate n 0, 2⟩, t)
  | r => r

/-- An access whose abort leaves nothing (R214). -/
def orNothing (x : A Unit) : A Unit := fun s =>
  match x s with
  | (.error .refused, t) => (.ok (), t)
  | r => r

/-! ## Physical addresses -/

/-- The physical key of an address under its leaf: an offset of this module's DRAM, another module's domain address, or a
host address. -/
def State.physKey (s : State) (e : TlbEntry) (va : Nat) : Nat :=
  let a := e.pa + va % e.size
  if e.host then hostKey + a else if a / 2 ^ 39 % 64 = s.myMod then a % 2 ^ 39 else remoteKey + a

/-- A line of another module asked for, unless it is asked for already (R54). -/
def askLine (k st pk : Nat) (attr : Nat) : A Unit := do
  let s ← aGet
  if remoteKey ≤ pk ∧ pk < hostKey ∧ ¬ s.outstanding.any (fun o => o.key == k && remoteKey + o.addr == pk) then
    aMod (fun s => s.request (stallQuarter st) (pk - remoteKey) .read 64 (BitVec.ofNat 16 attr) [] k 0)

/-- A touch of a line of a mapping: an ABSENT line is translated and filled, which takes it from the caches and from any
other mapping of the paddock and sets the full-empty bits of its granules (R223). -/
def touchStash (k i b : Nat) (acc : BitVec 4) : A Unit := do
  let s ← aGet
  let c := s.ctx k
  match c.stash[i]? with
  | none => pure ()
  | some t =>
    if (t.lineAt b).st != .absent then pure ()
    else do
      let va := t.va + b / 64 * 64
      let e ← translate k c.stall va acc
      let s1 ← aGet
      let pk := s1.physKey e va
      let p := stallPaddock c.stall
      aMod (fun s =>
        let s1 := match s.stashOf p pk with
          | some (k', i', b') => s.dropStash k' i' b'
          | none => s
        (s1.flushLine p pk).snoopL0 p pk none)
      let s2 ← aGet
      match s2.homeLine c.rbuf pk with
      | none => do
        askLine k c.stall pk 0
        aWait
      | some l =>
        let a := s2.stashAddr k i (b / 64 * 64)
        aMod (fun s =>
          let m := (s.mem.write a l.bytes).fill a 64
          let m1 := (List.range 4).foldl (fun (m : Mem) g => if l.poison.getLsbD g then m.taint (a + 16 * g) 16 else m) m
          ({ s with mem := m1 } : State).setStashLine k i b { st := .clean, pk := pk, filled := s.clock })

/-! ## Reads and writes of one line -/

/-- A line as a stall reads bytes of it, with the fills that the read makes (R219 to R223): the stash that holds it, the L0, the
slice, or the home. A line of the L0 is as old as the slice's (R220). -/
def readLine (k st pk : Nat) (nc l0 : Bool) (need : BitVec 64) (attr : Nat) : A Line := do
  let s ← aGet
  let p := stallPaddock st
  match s.stashOf p pk with
  | some (k', i, b) =>
    let a := s.stashAddr k' i b
    pure { pa := pk, bytes := s.mem.read a 64, poison := s.mem.linePoison a, filled := s.clock }
  | none =>
    let useL0 := l0 && !nc && pk < hostKey
    let inL0 := fun (l : Line) => aMod (fun s => if useL0 then s.modL0 st (fun ls => putL0 ls { l with dirty := 0, tainted := 0 }) else s)
    match (if useL0 then (findLine (s.l0.getD st []) pk).filter (fun l => l.holds need) else none) with
    | some l => pure l
    | none =>
      let ways := !nc && s.hasWays p pk
      let cached := if ways then findLine (s.slices.getD p []) pk else none
      match cached.filter (fun l => l.holds need) with
      | some l => do
        inL0 l
        pure l
      | none =>
        match s.homeLine (s.ctx k).rbuf pk with
        | none => do
          askLine k st pk attr
          aWait
        | some h => do
          let l := match cached with
            | some c => c.over h
            | none => h
          if ways then aMod (fun s => s.putSlice p l)
          inL0 l
          pure l

/-- Bytes written in one line by a stall (R219 to R223): into the stash that holds it, or through the L0 into the slice, which needs
nothing of the line's home for it, or at the home. -/
def writeLine (k tok st pk : Nat) (nc : Bool) (b : List Byte) (poison : Bool) (attr : Nat) : A Unit := do
  let s ← aGet
  let p := stallPaddock st
  let line := pk / 64 * 64
  let o := pk % 64
  let inL0 := fun (s : State) => s.modL0 st (fun ls => ls.map (fun x => if x.pa == line then x.put o b poison else x))
  match s.stashOf p line with
  | some (k', i, x) =>
    aMod (fun s =>
      let a := s.stashAddr k' i x + o
      let m := s.mem.write a b
      let s1 : State := { s with mem := if poison then m.taint a b.length else m }
      match (s.ctx k').stash[i]? with
      | none => s1
      | some t => s1.setStashLine k' i x ((t.lineAt x).wrote (byteMask o b.length) poison s.clock))
  | none =>
    if !nc && s.hasWays p line then
      aMod (fun s =>
        let old := (findLine (s.slices.getD p []) line).getD (Line.fresh line s.clock)
        ((inL0 s).putSlice p (old.store o b poison s.clock)).snoopL0 p line (some st))
    else do
      if pk < remoteKey ∧ s.homeHeld pk then aWait
      aMod (fun s => (inL0 s).homeWrite (stallQuarter st) pk b poison attr k tok)

/-! ## Reads and writes of an address (R200 to R202) -/

/-- Whole accesses cut at 64-byte lines: the length of the first part of n bytes from a. -/
def lineCut (a n : Nat) : Nat := Nat.min n (64 - a % 64)

/-- Tag and layout of an address (R200). -/
def eaTag (ea : DWord) : Nat := bits ea 63 60
/-- The stall and the user context of a tag 2 address, and the offset of tags 1 and 2. -/
def eaStall (ea : DWord) : Nat := bits ea 43 32
def eaSlot (ea : DWord) : Nat := bits ea 44 44
def eaOff (ea : DWord) : Nat := bits ea 20 0
/-- The virtual address of tag 0. -/
def eaVa (ea : DWord) : Nat := bits ea 48 0
/-- The flag word of tag 3. -/
def eaFlag (ea : DWord) : Nat := flagAddr (bits ea 17 16) (bits ea 15 2)

/-- The rider that a remote scratch access of n bytes reaches: one of the requester's launch, resident at the named stall and
context, with the offset in its scratch bays (R202). -/
def State.remoteTarget (s : State) (k : Nat) (ea : DWord) (n : Nat) : Option Nat :=
  ((s.residents (eaStall ea)).find? (fun c =>
    c.2.slot == eaSlot ea && c.2.launch == (s.ctx k).launch && c.2.inScratch (eaOff ea) n)).map (·.1)

/-- A read's bytes with their lame cause. -/
abbrev Got := Lamed (List Byte)

/-- The touches that an access of n bytes of scratch from an offset makes (R223). -/
def touchScratch (k o n : Nat) (acc : BitVec 4) : A Unit := do
  for i in List.range ((o % 64 + n + 63) / 64) do
    let s ← aGet
    match (s.ctx k).stashOff (o / 64 * 64 + 64 * i) with
    | some (t, b) => touchStash k t b acc
    | none => pure ()

/-- n bytes of scratch of a context from an offset, after the touches of its stash lines. -/
def readScratch (k o n : Nat) (acc : BitVec 4) : A Got := do
  touchScratch k o n acc
  let s ← aGet
  let a := (s.ctx k).scratch o
  pure ⟨s.mem.read a n, if s.mem.poisoned a n then 3 else 0⟩

/-- n bytes of one line of a global address, as the contexts of a stall read it (R221, R223). -/
def readGlobal (k st va n : Nat) (acc : BitVec 4) (attr : Nat) : A Got := do
  let e ← translate k st va acc
  let s ← aGet
  match (s.ctx k).stashVa va with
  | some (t, b) => do
    touchStash k t b acc
    let s ← aGet
    let a := s.stashAddr k t b
    pure ⟨s.mem.read a n, if s.mem.poisoned a n then 3 else 0⟩
  | none => do
    let pk := s.physKey e va
    let o := pk % 64
    let l ← readLine k st (pk / 64 * 64) e.nc true (byteMask o n) attr
    pure ⟨(l.bytes.drop o).take n,
          if (List.range 4).any (fun g => l.poison.getLsbD g && overlaps (16 * g) 16 o n) then 3 else 0⟩

/-- Global bytes in several lines. -/
def readGlobals (k st : Nat) (acc : BitVec 4) (attr : Nat) : Nat → Nat → Nat → A Got
  | 0, _, _ => pure ⟨[], 0⟩
  | fuel + 1, va, n =>
    if n = 0 then pure ⟨[], 0⟩
    else do
      let m := lineCut va n
      let x ← readGlobal k st va m acc attr
      let y ← readGlobals k st acc attr fuel (va + m) (n - m)
      pure ⟨x.val ++ y.val, Lame.max x.lame y.lame⟩

/-- What the reads of a guarded rider see: its own held bytes over those of memory (R252). -/
def Ctx.mergeHeld (c : Ctx) (ea : DWord) (x : Got) : Got :=
  if c.guard.isEmpty then x
  else
    let held := fun (i : Nat) =>
      let a := ea + BitVec.ofNat 64 i
      c.guard.find? (fun h => h.ea == (a &&& ~~~(15 : DWord)) && h.mask.getLsbD (a.toNat % 16))
    let bytes := x.val.zipIdx.map (fun b =>
      match held b.2 with
      | some h => h.bytes.getD ((ea.toNat + b.2) % 16) 0
      | none => b.1)
    let all := (List.range x.val.length).all (fun i => (held i).isSome)
    let bad := (List.range x.val.length).any (fun i => (held i).any (fun h => h.poison))
    ⟨bytes, if bad then 3 else if all then 0 else x.lame⟩

/-- n bytes at an address for a context (R200, R202): zero with cause REFUSED for a remote scratch access that is refused. -/
def readEa (k : Nat) (ea : DWord) (n : Nat) (acc : BitVec 4) (attr : Nat := 0) : A Got := do
  let s ← aGet
  let c := s.ctx k
  let x ← (match eaTag ea with
    | 0 => readGlobals k c.stall acc attr (n / 64 + 2) (eaVa ea) n
    | 1 => readScratch k (eaOff ea) n acc
    | 2 =>
      match s.remoteTarget k ea n with
      | some t =>
        let a := (s.ctx t).scratch (eaOff ea)
        pure ⟨s.mem.read a n, if s.mem.poisoned a n then 3 else 0⟩
      | none => pure ⟨List.replicate n 0, 2⟩
    | _ => pure ⟨s.mem.read (eaFlag ea) n, 0⟩)
  pure (c.mergeHeld ea x)

/-- Bytes written to scratch of a context at an offset: its mappings' lines that hold them are DIRTY, and an engine's write sets the
full-empty bits (R222, R224). -/
def State.putScratch (s : State) (k o : Nat) (b : List Byte) (poison eng : Bool) : State :=
  let a := (s.ctx k).scratch o
  let m := s.mem.write a b
  let m1 := if poison then m.taint a b.length else m
  ({ s with mem := if eng then m1.fill a b.length else m1 } : State).markStash k o b.length poison

/-- Bytes written to scratch of a context at an offset, after the touches of its stash lines (R223). -/
def writeScratch (k o : Nat) (b : List Byte) (poison eng : Bool) : A Unit := do
  touchScratch k o b.length 2
  aMod (fun s => s.putScratch k o b poison eng)

/-- Bytes written in one line of a global address. -/
def writeGlobal (k tok st va : Nat) (b : List Byte) (poison : Bool) (attr : Nat) : A Unit := do
  let e ← translate k st va 2
  let s ← aGet
  match (s.ctx k).stashVa va with
  | some (t, x) =>
    match (s.ctx k).stash[t]? with
    | some m => writeScratch k (m.off + x) b poison false
    | none => pure ()
  | none => writeLine k tok st (s.physKey e va) e.nc b poison attr

/-- Global bytes written in several lines. -/
def writeGlobals (k tok st : Nat) (poison : Bool) (attr : Nat) : Nat → Nat → List Byte → A Unit
  | 0, _, _ => pure ()
  | fuel + 1, va, b =>
    if b.isEmpty then pure ()
    else do
      let m := lineCut va b.length
      writeGlobal k tok st va (b.take m) poison attr
      writeGlobals k tok st poison attr fuel (va + m) (b.drop m)

/-- Bytes performed at an address for a context (R200, R202, R224). -/
def writeEa (k tok : Nat) (ea : DWord) (b : List Byte) (poison eng : Bool) (attr : Nat) : A Unit := do
  let s ← aGet
  let c := s.ctx k
  match eaTag ea with
  | 0 => writeGlobals k tok c.stall poison attr (b.length / 64 + 2) (eaVa ea) b
  | 1 => writeScratch k (eaOff ea) b poison eng
  | 2 =>
    match s.remoteTarget k ea b.length with
    | some t => aMod (fun s => s.putScratch t (eaOff ea) b poison true)
    | none => aMod (fun s => s.modCtx k Ctx.noteRefused)
  | _ => aMod (fun s => { s with mem := s.mem.store (eaFlag ea) b })

/-! ## Translation faults (R210, R211) -/

/-- Pending faults that the fault unit holds at most (R211). -/
def faultRoom : Nat := 4096

/-- A fault taken by the fault unit (R211): merged into the pending entry of its page and kind, in a batch that waits to be written
too, or a new one where there is room; a page already reported is not reported again, whatever the kind. -/
def State.reportFault (s : State) (asid va kind : Nat) (acc : BitVec 4) : State :=
  let page := va / 65536
  let mine := fun (f : PFault) => f.asid == asid && f.page == page && f.kind == kind
  let merge := fun (f : PFault) => { f with access := f.access ||| acc, count := f.count + 1 }
  if s.reported.any (fun r => r.1 == asid && r.2.1 == page) then s
  else if s.faultBatch.any mine then { s with faultBatch := s.faultBatch.map (fun f => if mine f then merge f else f) }
  else if s.faults.any mine then { s with faults := s.faults.map (fun f => if mine f then merge f else f) }
  else if faultRoom ≤ s.faults.length + s.faultBatch.length then s
  else { s with faults := s.faults ++ [{ asid := asid, page := page, kind := kind, access := acc, count := 1, arrived := s.clock }] }

end Sys2Proof.Machine
end

