-- ==== Sys2Proof/Machine/Access.lean ====
section
/-! DEFINITION. Machine/Access.lean: the X pipe words at issue (chapter "Access pipe instructions"): addresses and their
checks, operands, channel configuration and status, waits, and the entry into the X command queue. -/

namespace Sys2Proof.Machine

/-! ## Effective addresses and checks (R200, R201, R441) -/

/-- The effective address: the tag of the register, and the sum of the rest modulo 2^60 (R441). -/
def effAddr (a off : DWord) : DWord := setBits a 59 0 (bits (a + off) 59 0)

/-- A byte offset of a literal, sign-extended; none is 0. -/
def offBytes {n : Nat} : Option (BitVec n) → DWord
  | some o => o.signExtend 64
  | none => 0

/-- The layout of a tag's address has its zero bits zero (R200). -/
def layoutOk (ea : DWord) : Bool :=
  match eaTag ea with
  | 0 => bits ea 59 49 == 0
  | 1 => bits ea 59 21 == 0
  | 2 => bits ea 31 21 == 0 && bits ea 59 45 == 0
  | 3 => bits ea 59 18 == 0 && bits ea 1 0 == 0
  | _ => false

/-- The tags that a word admits, the size of its access for tag 3, and its alignment (R441). -/
structure EaRule where
  tags : List Nat
  size : Nat
  align : Nat := 1
  /-- a full-empty word, for which tag 3 raises PROTECTION (R224) -/
  fe : Bool := false

/-- The checks of an address of n bytes at issue: PROTECTION first, then MISALIGNED (R201, R225, R290, R441). -/
def checkEa (r : EaRule) (ea : DWord) (n : Nat) : W Unit := do
  let c ← getMe
  let t := eaTag ea
  let bad3 := t == 3 && r.size != 4 && !r.fe
  if !layoutOk ea then protection ea.toNat
  else if !r.tags.contains t && !bad3 then protection ea.toNat
  else if t = 1 && !(c.inScratch (eaOff ea) n) then protection ea.toNat
  else if bad3 || ea.toNat % r.align != 0 then misaligned ea.toNat
  else pure ()

/-- Tags 0, 1 and 2, with an alignment. -/
def plainRule (size : Nat) (align : Nat) : EaRule := { tags := [0, 1, 2], size := size, align := align }
/-- Tags 0 to 3 with 4 bytes. -/
def wordRule : EaRule := { tags := [0, 1, 2, 3], size := 4, align := 4 }

/-- An access register as it stands. -/
def aVal (r : RIdx) : W DWord := do pure ((← getMe).areg r).val
/-- The consuming use of an access register (R300, R444). -/
def aConsume (r : RIdx) : W Unit := do let _ ← aUse r

/-- A word that issues now is performed in guarded mode: no GCHECK that commits is on its way before it (R469). -/
def Ctx.willGuard (c : Ctx) : Bool := c.guarded && !c.xq.any (fun x => x.commit)

/-- PROTECTION in guarded mode (R252, R459). -/
def notGuarded (info : Nat) : W Unit := do
  let c ← getMe
  if c.willGuard then protection info else pure ()

/-! ## The X command queue (R210, R444) -/

/-- Commands the X command queue holds (R210). -/
def xqSize : Nat := 32

/-- A word that enters the X command queue: while the queue is full its group is held; a forced group discards it, and its
destination lands lame (R210). -/
def xRoom (late body : W Unit) : W Unit := do
  let s ← getS
  if xqSize ≤ s.me.xq.length then
    if s.pos.forced then late else fun _ => .error .xfull
  else body

/-- What the destinations of a discarded word land: zero, lame with cause LATE (R210). -/
def lateA (n : Nat) (d : RIdx) : W Unit := land n [.a d ⟨0, 1⟩]
def lateP (p : PIdx) : W Unit := land 2 [.p p ⟨false, 1⟩]
def lateX (n : Nat) : XDst → W Unit
  | .reg a => lateA n a
  | .push _ => pure ()
def lateV (n : Nat) : VDst → W Unit
  | .win w => do
    let o ← windowOf w
    land n [.v o ⟨zeroV, 1⟩]
  | .push _ => pure ()

/-- A command put at the end of the queue; its performance is due. Answers its token. -/
def enqueue (x : XCmd) : W Nat := do
  let s ← getS
  let tok := s.ids
  modS (fun s => (({ s with ids := s.ids + 1 } : State).modMe (fun c => { c with xq := c.xq ++ [{ x with tok := tok, seq := s.seqNow }] })).push
    [.xPerform s.cur tok])
  pure tok

/-- A result that awaits the data of a command: until they arrive it would land zero, lame with cause LATE (R178, R444). -/
def landTok (n tok : Nat) (ws : List RegWrite) : W Unit :=
  modS (fun s => s.land { landing s n ws with tok := some tok })

/-- The checks of an ac destination. -/
def checkXDst : XDst → W Unit
  | .reg _ => pure ()
  | .push c => do let _ ← chanDest c true
/-- The checks of an ac source. -/
def checkXSrc : XSrc → W Unit
  | .reg a => aConsume a
  | .pop c | .peek c => do let _ ← chanSource c true

/-- The room of a channel destination at issue (R184, R444). -/
def xRoomOf (scal : Bool) (c : CIdx) : W (Option (Nat × Nat × Nat)) := do
  match ← takeRoom c scal with
  | some (p, r) => pure (some (c.toNat, p, r))
  | none => pure none

/-- A command with a register or channel destination of class ac; a channel without room in a forced group discards its result
but not its access (R183). -/
def enqueueLoad (n : Nat) (d : XDst) (x : XCmd) : W Unit := do
  match d with
  | .reg a => do
    let tok ← enqueue x
    landTok n tok [.a a ⟨0, 1⟩]
  | .push c => do
    let room ← xRoomOf true c
    let _ ← enqueue { x with room := room }

/-! ## Loads and stores (R452 to R454) -/

/-- LDB to LDD at issue. -/
def loadWord (i : Instr) (size : Nat) (d : XDst) (a : RIdx) (c : MemCtl) : W Unit :=
  xRoom (lateX 5 d) do
    let ea := effAddr (← aVal a) (offBytes c.off)
    lowest [checkEa (if size = 4 then wordRule else plainRule size size) ea size, aConsume a, checkXDst d]
    enqueueLoad 5 d { tok := 0, i := i, ea := ea }
/-- LDB (R452). -/
def execLdb (h : WHead) (d : XDst) (a : RIdx) (c : MemCtl) (s : State) : Host.Outcome State Fault Refusal :=
  runWord h.g (loadWord (.ldb h d a c) 1 d a c) s
/-- LDH (R452). -/
def execLdh (h : WHead) (d : XDst) (a : RIdx) (c : MemCtl) (s : State) : Host.Outcome State Fault Refusal :=
  runWord h.g (loadWord (.ldh h d a c) 2 d a c) s
/-- LDW (R452). -/
def execLdw (h : WHead) (d : XDst) (a : RIdx) (c : MemCtl) (s : State) : Host.Outcome State Fault Refusal :=
  runWord h.g (loadWord (.ldw h d a c) 4 d a c) s
/-- LDD (R452). -/
def execLdd (h : WHead) (d : XDst) (a : RIdx) (c : MemCtl) (s : State) : Host.Outcome State Fault Refusal :=
  runWord h.g (loadWord (.ldd h d a c) 8 d a c) s

/-- The guard buffer's room for a write of n bytes of a guarded rider at tags 0 and 2: 32 bytes for each granule it touches; a
write that does not fit is discarded and GOVF is set (R468). Answers whether the write stands. -/
def guardRoom (ea : DWord) (n : Nat) : W Bool := do
  let c ← getMe
  if !c.willGuard || eaTag ea == 1 || eaTag ea == 3 then pure true
  else
    let need := 32 * granules (ea.toNat % 16) n
    if c.guardMax < c.guardUsed + need then do
      modMe (fun c => { c with govf := true })
      pure false
    else do
      modMe (fun c => { c with guardUsed := c.guardUsed + need })
      pure true

/-- A write command put in the queue, unless the guard buffer has no room for it. -/
def enqueueStore (n : Nat) (x : XCmd) : W Unit := do
  if ← guardRoom x.ea n then
    let c ← getMe
    let _ ← enqueue { x with guarded := c.willGuard && eaTag x.ea != 1 }

/-- A store to a flag word in guarded mode (R252). -/
def guardFlag (ea : DWord) : W Unit := if eaTag ea = 3 then notGuarded ea.toNat else pure ()

/-- STB to STD at issue. -/
def storeWord (i : Instr) (size : Nat) (d : RIdx) (a : XSrc) (c : MemCtl) : W Unit :=
  xRoom (pure ()) do
    let ea := effAddr (← aVal d) (offBytes c.off)
    lowest [checkEa (if size = 4 then wordRule else plainRule size size) ea size, guardFlag ea, aConsume d, checkXSrc a]
    let v ← xDatum a
    enqueueStore size { tok := 0, i := i, ea := ea, v1 := v }
/-- STB (R452). -/
def execStb (h : WHead) (d : RIdx) (a : XSrc) (c : MemCtl) (s : State) : Host.Outcome State Fault Refusal :=
  runWord h.g (storeWord (.stb h d a c) 1 d a c) s
/-- STH (R452). -/
def execSth (h : WHead) (d : RIdx) (a : XSrc) (c : MemCtl) (s : State) : Host.Outcome State Fault Refusal :=
  runWord h.g (storeWord (.sth h d a c) 2 d a c) s
/-- STW (R452). -/
def execStw (h : WHead) (d : RIdx) (a : XSrc) (c : MemCtl) (s : State) : Host.Outcome State Fault Refusal :=
  runWord h.g (storeWord (.stw h d a c) 4 d a c) s
/-- STD (R452). -/
def execStd (h : WHead) (d : RIdx) (a : XSrc) (c : MemCtl) (s : State) : Host.Outcome State Fault Refusal :=
  runWord h.g (storeWord (.std h d a c) 8 d a c) s

/-- OFF, PACK and SCL of LDV and STV (R442). -/
def vecOff (c : VecCtl) : DWord :=
  match c.lit with
  | some l => 16 * l.off.signExtend 64
  | none => 0
def vecPack (c : VecCtl) : Pack :=
  match c.lit with
  | some l => l.pack
  | none => .p8
def vecScl (c : VecCtl) : Bool :=
  match c.lit with
  | some l => l.scl
  | none => false
/-- Bits of an element of a plane, and the bytes of a plane with its scales (R453). -/
def packBits : Pack → Nat
  | .p8 => 8
  | .p6 => 6
  | .p4 => 4
def vecBytes (c : VecCtl) : Nat := 32 * packBits (vecPack c) + (if vecScl c then 8 else 0)

/-- LDV at issue (R453). -/
def ldvWord (i : Instr) (d : VDst) (a : RIdx) (c : VecCtl) : W Unit :=
  xRoom (lateV 6 d) do
    let ea := effAddr (← aVal a) (vecOff c)
    lowest [checkEa (plainRule 256 16) ea (vecBytes c), aConsume a, checkVDst d]
    match d with
    | .win w => do
      let o ← windowOf w
      let tok ← enqueue { tok := 0, i := i, ea := ea }
      landTok 6 tok [.v o ⟨zeroV, 1⟩]
    | .push ch => do
      let room ← xRoomOf false ch
      let _ ← enqueue { tok := 0, i := i, ea := ea, room := room }
/-- LDV (R453). -/
def execLdv (h : WHead) (d : VDst) (a : RIdx) (c : VecCtl) (s : State) : Host.Outcome State Fault Refusal :=
  runWord h.g (ldvWord (.ldv h d a c) d a c) s

/-- STV at issue: its datum is a consuming use (R300, R453). -/
def stvWord (i : Instr) (d : RIdx) (a : VSrc) (c : VecCtl) : W Unit :=
  xRoom (pure ()) do
    let ea := effAddr (← aVal d) (vecOff c)
    lowest [checkEa (plainRule 256 16) ea (vecBytes c), aConsume d, checkVSrc a]
    let x ← vSrc a
    consume 0xFF x.lame
    enqueueStore (vecBytes c) { tok := 0, i := i, ea := ea, vec := x.val }
/-- STV (R453). -/
def execStv (h : WHead) (d : RIdx) (a : VSrc) (c : VecCtl) (s : State) : Host.Outcome State Fault Refusal :=
  runWord h.g (stvWord (.stv h d a c) d a c) s

/-- The rule of full-empty words: tags 1 and 2 (R224, R441). -/
def feRule (align : Nat) : EaRule := { tags := [1, 2], size := 8, align := align, fe := true }

/-- OFF of LDFE. -/
def ldfeOff (c : LdfeCtl) : DWord :=
  match c.lit with
  | some (_, o) => o.signExtend 64
  | none => 0

/-- LDFE at issue (R454). -/
def ldfeWord (i : Instr) (d : XDst) (a : RIdx) (c : LdfeCtl) : W Unit :=
  xRoom (lateX 5 d) do
    let ea := effAddr (← aVal a) (ldfeOff c)
    lowest [checkEa (feRule 8) ea 8, aConsume a, checkXDst d]
    let s ← getS
    enqueueLoad 5 d { tok := 0, i := i, ea := ea, v2 := BitVec.ofNat 64 s.pos.limit }
/-- LDFE (R454). -/
def execLdfe (h : WHead) (d : XDst) (a : RIdx) (c : LdfeCtl) (s : State) : Host.Outcome State Fault Refusal :=
  runWord h.g (ldfeWord (.ldfe h d a c) d a c) s

/-- STFE at issue (R454). -/
def stfeWord (i : Instr) (d : RIdx) (a : XSrc) (c : StfeCtl) : W Unit :=
  xRoom (pure ()) do
    let ea := effAddr (← aVal d) (offBytes c.off)
    lowest [checkEa (feRule 8) ea 8, aConsume d, checkXSrc a]
    let v ← xDatum a
    enqueueStore 8 { tok := 0, i := i, ea := ea, v1 := v }
/-- STFE (R454). -/
def execStfe (h : WHead) (d : RIdx) (a : XSrc) (c : StfeCtl) (s : State) : Host.Outcome State Fault Refusal :=
  runWord h.g (stfeWord (.stfe h d a c) d a c) s

/-- FECLR at issue: a length that is not a multiple of 16 below 2^21 raises MISALIGNED (R454). -/
def feclrWord (i : Instr) (d a : RIdx) (off : Option (BitVec 25)) : W Unit :=
  xRoom (pure ()) do
    let ea := effAddr (← aVal d) (offBytes off)
    let n ← aVal a
    let len := if n.toNat % 16 = 0 ∧ n.toNat < 2 ^ 21 then n.toNat else 0
    lowest [checkEa (feRule 16) ea len, if n.toNat % 16 = 0 ∧ n.toNat < 2 ^ 21 then pure () else misaligned ea.toNat,
            aConsume d, aConsume a]
    let _ ← enqueue { tok := 0, i := i, ea := ea, v1 := n }
/-- FECLR (R454). -/
def execFeclr (h : WHead) (d a : RIdx) (off : Option (BitVec 25)) (s : State) : Host.Outcome State Fault Refusal :=
  runWord h.g (feclrWord (.feclr h d a off) d a off) s

/-! ## Tensors (R455 to R457) -/

/-- TDESC at issue (R455). -/
def tdescWord (i : Instr) (a : RIdx) : W Unit :=
  xRoom (pure ()) do
    let ea ← aVal a
    lowest [checkEa { tags := [0], size := 64, align := 16 } ea 64, aConsume a]
    let _ ← enqueue { tok := 0, i := i, ea := ea }
/-- TDESC (R455). -/
def execTdesc (h : WHead) (a : RIdx) (slot : BitVec 4) (zue : Bool) (s : State) : Host.Outcome State Fault Refusal :=
  runWord h.g (tdescWord (.tdesc h a slot zue) a) s

/-- The origin of a box: three access registers from r on, numbers modulo 32, each a consuming use (R444, R456). -/
def originRegs (r : RIdx) : List RIdx := [r, r + 1, r + 2]
/-- The values of the origin. -/
def origin (r : RIdx) : W (List DWord) := (originRegs r).mapM aVal

/-- The first record of a consumer word, taken at issue (R444, R448). -/
def firstRecord (a : CSrc) (x : XCmd) : W XCmd := do
  let r ← takeRecord a.c false false
  pure { x with vec := vOfBytes r.val, lame := r.lame, data2 := 1 }

/-- The first record of TSCADD, taken at issue: its bytes as they stand, with its poisoned granules beside them (R457); a record that an
expired wait delivers is poisoned throughout (R183). -/
def firstAddends (a : CSrc) (x : XCmd) : W XCmd := do
  let s ← getS
  let ch ← chanSource a.c false
  let x1 ← firstRecord a x
  pure (if x1.lame = 1 && ch.ready.isNone then { x1 with v2 := 2 ^ 18 - 1 }
    else match ch.ready with
      | some r =>
        let raw := s.rawRecord s.cur ch ch.head r
        { x1 with vec := vOfBytes raw.1, v2 := BitVec.ofNat 64 raw.2 }
      | none => x1)

/-- TREAD at issue (R456). -/
def treadWord (i : Instr) (d : CIdx) (a : RIdx) : W Unit :=
  xRoom (pure ()) do
    lowest ((originRegs a).map aConsume ++ [do let _ ← chanDest d false])
    let org ← origin a
    let room ← xRoomOf false d
    let _ ← enqueue { tok := 0, i := i, org := org, room := room, mute := room.isNone }
/-- TREAD (R456). -/
def execTread (h : WHead) (d : CIdx) (a : RIdx) (slot : BitVec 4) (s : State) : Host.Outcome State Fault Refusal :=
  runWord h.g (treadWord (.tread h d a slot) d a) s

/-- TWRITE at issue (R456). -/
def twriteWord (i : Instr) (d : RIdx) (a : CSrc) : W Unit :=
  xRoom (pure ()) do
    lowest ((originRegs d).map aConsume ++ [do let _ ← chanSource a.c false])
    let org ← origin d
    let c ← getMe
    let x ← firstRecord a { tok := 0, i := i, org := org, guarded := c.willGuard }
    let _ ← enqueue x
/-- TWRITE (R456). -/
def execTwrite (h : WHead) (d : RIdx) (a : CSrc) (slot : BitVec 4) (s : State) : Host.Outcome State Fault Refusal :=
  runWord h.g (twriteWord (.twrite h d a slot) d a) s

/-- TGATHER at issue (R457). -/
def tgatherWord (i : Instr) (d : CIdx) (a b : RIdx) : W Unit :=
  xRoom (pure ()) do
    lowest ((originRegs a).map aConsume ++ [aConsume b, do let _ ← chanDest d false])
    let org ← origin a
    let v ← aVal b
    let room ← xRoomOf false d
    let _ ← enqueue { tok := 0, i := i, org := org, v1 := v, room := room, mute := room.isNone }
/-- TGATHER (R457). -/
def execTgather (h : WHead) (d : CIdx) (a b : RIdx) (s : State) : Host.Outcome State Fault Refusal :=
  runWord h.g (tgatherWord (.tgather h d a b) d a b) s

/-- TSCATTER and TSCADD at issue; TSCADD counts as an atomic, which guarded mode refuses (R252, R457). The INFO of that
PROTECTION is not stated (DESIGN CHOICE, log entry 13). -/
def tscatterWord (i : Instr) (add : Bool) (d : RIdx) (a : CSrc) (b : RIdx) : W Unit :=
  xRoom (pure ()) do
    let s ← getS
    lowest ((if add then [notGuarded (Config.freeWord s.fresh).toNat] else []) ++ (originRegs d).map aConsume ++
      [aConsume b, do let _ ← chanSource a.c false])
    let org ← origin d
    let v ← aVal b
    let c ← getMe
    let x ← (if add then firstAddends else firstRecord) a { tok := 0, i := i, org := org, v1 := v, guarded := c.willGuard }
    let _ ← enqueue x
/-- TSCATTER (R457). -/
def execTscatter (h : WHead) (d : RIdx) (a : CSrc) (b : RIdx) (s : State) : Host.Outcome State Fault Refusal :=
  runWord h.g (tscatterWord (.tscatter h d a b) false d a b) s
/-- TSCADD (R457). -/
def execTscadd (h : WHead) (d : RIdx) (a : CSrc) (b : RIdx) (s : State) : Host.Outcome State Fault Refusal :=
  runWord h.g (tscatterWord (.tscadd h d a b) true d a b) s

/-! ## Channels (R446 to R451) -/

/-- The producer class of a code. -/
def prodOf : Nat → Option Prod
  | 0 => some .rider
  | 1 => some .rein
  | 2 => some .whiff
  | _ => none

/-- The channel that a configuration word describes, when its fields are in range (R446, R447). -/
def chanFrom (v : DWord) : Option Chan :=
  match prodOf (bits v 38 37) with
  | none => none
  | some p =>
    let scal := bit v 40
    let ch : Chan := { base := bits v 20 0, rpp := bits v 36 27 + 1, prod := p, array := bit v 39, scal := scal,
                       scope := (v.extractLsb' 41 3), pages := List.replicate (bits v 26 21 + 1) {} }
    if bits v 20 0 % 32 != 0 || bits v 26 21 == 0 || 3 < bits v 43 41 || bits v 63 44 != 0 || ch.pageBytes % 32 != 0 ||
       ((ch.array || p == .whiff) && scal) then none
    else some ch

/-- The other user context of the stall has a channel of a number with producer REIN (R447). -/
def State.reinTaken (s : State) (k : Nat) (c : CIdx) : Bool :=
  (s.residents (s.ctx k).stall).any (fun o => o.1 != k && (o.2.chans.get? c.toNat).any (fun x => x.prod == .rein))

/-- CHCFG at issue (R446, R447). -/
def chcfgWord (d : CIdx) (a : RIdx) : W Unit :=
  xRoom (pure ()) do
    let v ← aUse a
    let s ← getS
    let c := s.me
    match chanFrom v with
    | none => channelConfig d
    | some ch =>
      let n := ch.pages.length * ch.pageBytes
      if (c.chans.get? d.toNat).isSome || !c.inScratch ch.base n || c.hitsRing ch.base n || c.hitsStash ch.base n ||
         c.hitsDefer ch.base n || (ch.prod == .rein && s.reinTaken s.cur d) then channelConfig d
      else modS (fun s =>
        let s1 := s.modMe (fun c => { c with chans := c.chans.put d.toNat ch })
        { s1 with mem := (List.range ch.pages.length).foldl (fun m i => m.drain (c.scratch (ch.base + i * ch.pageBytes)) ch.pageBytes) s1.mem })
/-- CHCFG (R446). -/
def execChcfg (h : WHead) (d : CIdx) (a : RIdx) (s : State) : Host.Outcome State Fault Refusal := runWord h.g (chcfgWord d a) s

/-- A landing-queue entry without the records that it would push to a channel. -/
def Landing.dropChan (e : Landing) (d : CIdx) : Landing :=
  { e with writes := e.writes.filter (fun w => match w with
      | .push c _ _ _ => c != d
      | .s _ _ | .a _ _ | .n _ _ | .j _ _ | .p _ _ | .k _ _ | .v _ _ | .vclr _ | .hitch _ => true) }

/-- A command without its channel: it writes no record there and moves none further. -/
def XCmd.dropChan (x : XCmd) (d : CIdx) : XCmd :=
  { x with cut := x.cut || x.fills d || x.drains d,
           room := if x.room.any (fun r => r.1 == d.toNat) then none else x.room }

/-- A channel left unconfigured: its pages are discarded, and what is still on its way to them writes nothing further (R165, R446). -/
def Ctx.unconfigure (c : Ctx) (d : CIdx) : Ctx :=
  { c with chans := c.chans.del d.toNat, xq := c.xq.map (fun x => x.dropChan d), land := c.land.map (fun e => e.dropChan d),
           frame := c.frame.map (fun f => { f with replay := f.replay.map (fun e => e.dropChan d) }) }
/-- CHCFG.OFF (R446). -/
def execChcfgOff (h : WHead) (d : CIdx) (_a : RIdx) (s : State) : Host.Outcome State Fault Refusal :=
  runWord h.g (xRoom (pure ()) (modMe (fun c => c.unconfigure d))) s

/-- CHADV: the open page closes; what comes after its last reserved record is absent (R185, R449). -/
def chadvWord (d : CIdx) : W Unit :=
  xRoom (pure ()) do
    let ch ← chanOf d
    if ch.prod != .rider then channelConfig d
    let p := ch.page ch.openIx
    if p.st = .open ∧ ¬ p.closed then
      let ch1 : Chan := ch.setPage ch.openIx { p with closed := true }
      let ch2 : Chan := { ch1 with openIx := (ch.openIx + 1) % ch.pages.length }
      modS (fun s => (s.modMe (fun c => { c with chans := c.chans.put d.toNat ch2 })).settlePage s.cur d ch.openIx)
/-- CHADV (R449). -/
def execChadv (h : WHead) (d : CIdx) (s : State) : Host.Outcome State Fault Refusal := runWord h.g (chadvWord d) s

/-- CHREL: the head page returns to FREE with its unread records (R449). -/
def chrelWord (a : CSrc) : W Unit :=
  xRoom (pure ()) do
    let ch ← chanOf a.c
    if ch.array then channelConfig a.c
    let p := ch.page ch.head
    if p.st = .filled ∨ p.st = .draining then modS (fun s => (s.freePage s.cur a.c ch.head).skipEmpty s.cur a.c 64)
/-- CHREL (R449). -/
def execChrel (h : WHead) (a : CSrc) (s : State) : Host.Outcome State Fault Refusal := runWord h.g (chrelWord a) s

/-- The condition of CHWAITF or CHWAITE on a channel (R450). -/
def Chan.condition (ch : Chan) (full : Bool) : Bool :=
  if full then ch.ready.isSome else ch.pages.all (fun p => p.st == .free)

/-- CHWAITF and CHWAITE at issue: an explicit wait; a channel of any class may be named (R187, R450). -/
def chwaitWord (full : Bool) (p : PIdx) (a : CSrc) (t : Imm 7) : W Unit :=
  xRoom (lateP p) do
    let _ ← chanOf a.c
    modS (fun s => s.explicitWait (if full then .chf a.c else .che a.c) p (immU t).toNat)
/-- CHWAITF (R450). -/
def execChwaitf (h : WHead) (p : PIdx) (a : CSrc) (t : Imm 7) (s : State) : Host.Outcome State Fault Refusal :=
  runWord h.g (chwaitWord true p a t) s
/-- CHWAITE (R450). -/
def execChwaite (h : WHead) (p : PIdx) (a : CSrc) (t : Imm 7) (s : State) : Host.Outcome State Fault Refusal :=
  runWord h.g (chwaitWord false p a t) s

/-- The channel status (R451); an unconfigured channel reads zero. -/
def chanStatus (c : Option Chan) : DWord :=
  match c with
  | none => 0
  | some ch =>
    let count := fun f => (ch.pages.filter f).length
    let openp := (ch.page ch.openIx).st == .open
    BitVec.ofNat 64 (ch.head + ch.openIx * 2 ^ 6 + count (fun p => p.st == .filled || p.st == .draining) * 2 ^ 12 +
      count (fun p => p.st == .free) * 2 ^ 19 + 2 ^ 26 + openp.toNat * 2 ^ 27 + ch.zcnt * 2 ^ 32 + ch.dcnt * 2 ^ 48)

/-- The context status (R451). -/
def State.ctxStatus (s : State) (k : Nat) : DWord :=
  let c := s.ctx k
  BitVec.ofNat 64 (c.refused.toNat + c.ue.toNat * 2 + c.baddesc.toNat * 4 + c.govf.toNat * 8 + c.nref * 2 ^ 8 + c.nue * 2 ^ 24 +
    (s.stalls.getD c.stall {}).disc * 2 ^ 40)

/-- CHSTAT: it reads at issue without entering the queue, and its result lands at g+2; the context status clears (R451). -/
def chstatWord (d : RIdx) (a : Option CSrc) : W Unit := do
  let s ← getS
  match a with
  | some x => land 2 [.a d ⟨chanStatus (s.me.chans.get? x.c.toNat), 0⟩]
  | none => do
    land 2 [.a d ⟨s.ctxStatus s.cur, 0⟩]
    modMe (fun c => { c with refused := false, ue := false, baddesc := false, nref := 0, nue := 0 })
/-- CHSTAT (R451). -/
def execChstat (h : WHead) (d : RIdx) (a : Option CSrc) (s : State) : Host.Outcome State Fault Refusal :=
  runWord h.g (chstatWord d a) s

/-! ## Rein sends (R459) -/

/-- The head page of a channel of the rider's consumer class. -/
def sendSource (c : CIdx) : W Chan := do
  let ch ← chanOf c
  if ch.array then channelConfig c else pure ch

/-- A record of a page is lame (R297, R300). -/
def State.pageLame (s : State) (k : Nat) (ch : Chan) (page : Nat) : Lame :=
  lameOf ((List.range (ch.page page).res).map (fun r => if (ch.page page).absent.contains r then 0 else (s.recordAt k ch page r).lame))

/-- RSEND and RCAST at issue: held until the head page is FILLED; a lame record of it is a consuming use; PROTECTION in
guarded mode, with an INFO that the spec does not state (R300, R459; DESIGN CHOICE, log entry 13). -/
def sendWord (i : Instr) (d : RIdx) (a : CSrc) : W Unit :=
  xRoom (pure ()) do
    let s ← getS
    lowest [notGuarded (Config.freeWord s.fresh).toNat, aConsume d, do let _ ← sendSource a.c]
    let ch ← sendSource a.c
    let v ← aVal d
    if (ch.page ch.head).st = .filled ∧ ¬ s.me.xq.any (fun x => x.drains a.c) then
      consume 0xFF (s.pageLame s.cur ch ch.head)
      let _ ← enqueue { tok := 0, i := i, v1 := v, prog := ch.head }
    else if s.pos.forced then pure ()
    else hold
/-- RSEND (R459). -/
def execRsend (h : WHead) (d : RIdx) (a : CSrc) (ord : Order) (scope : Scope) (s : State) : Host.Outcome State Fault Refusal :=
  runWord h.g (sendWord (.rsend h d a ord scope) d a) s
/-- RCAST (R459). -/
def execRcast (h : WHead) (d : RIdx) (a : CSrc) (ord : Order) (scope : Scope) (col : Bool) (s : State) : Host.Outcome State Fault Refusal :=
  runWord h.g (sendWord (.rcast h d a ord scope col) d a) s

/-! ## Atomics (R460) -/

/-- The size of an atomic: 4 bytes for a flag word and for AFADD, else 8 (R460). -/
def atomSize (ea : DWord) (fadd : Bool) : Nat := if fadd || eaTag ea = 3 then 4 else 8

/-- An atomic at issue: the operand and the address are consuming uses; PROTECTION in guarded mode (R252, R441, R460). -/
def atomWord (i : Instr) (fadd cas : Bool) (d a : RIdx) : W Unit :=
  xRoom (if cas then land 6 [.a d ⟨0, 1⟩, .a (d + 1) ⟨0, 1⟩] else lateA 6 d) do
    if fadd then needFeature 5
    let ea ← aVal a
    let n := atomSize ea fadd
    lowest ([checkEa { tags := [0, 1, 2, 3], size := n, align := n } ea n, notGuarded ea.toNat, aConsume a, aConsume d] ++
      (if cas then [aConsume (d + 1)] else []))
    let v ← aVal d
    let w ← aVal (d + 1)
    let tok ← enqueue { tok := 0, i := i, ea := ea, v1 := v, v2 := w }
    landTok 6 tok (if cas then [.a d ⟨0, 1⟩, .a (d + 1) ⟨0, 1⟩] else [.a d ⟨0, 1⟩])
/-- AADD (R460). -/
def execAadd (h : WHead) (d a : RIdx) (c : AtomCtl) (s : State) : Host.Outcome State Fault Refusal :=
  runWord h.g (atomWord (.aadd h d a c) false false d a) s
/-- AMIN (R460). -/
def execAmin (h : WHead) (d a : RIdx) (c : AtomCtl) (s : State) : Host.Outcome State Fault Refusal :=
  runWord h.g (atomWord (.amin h d a c) false false d a) s
/-- AMAX (R460). -/
def execAmax (h : WHead) (d a : RIdx) (c : AtomCtl) (s : State) : Host.Outcome State Fault Refusal :=
  runWord h.g (atomWord (.amax h d a c) false false d a) s
/-- AAND (R460). -/
def execAand (h : WHead) (d a : RIdx) (c : AtomCtl) (s : State) : Host.Outcome State Fault Refusal :=
  runWord h.g (atomWord (.aand h d a c) false false d a) s
/-- AOR (R460). -/
def execAor (h : WHead) (d a : RIdx) (c : AtomCtl) (s : State) : Host.Outcome State Fault Refusal :=
  runWord h.g (atomWord (.aor h d a c) false false d a) s
/-- AXOR (R460). -/
def execAxor (h : WHead) (d a : RIdx) (c : AtomCtl) (s : State) : Host.Outcome State Fault Refusal :=
  runWord h.g (atomWord (.axor h d a c) false false d a) s
/-- AXCHG (R460). -/
def execAxchg (h : WHead) (d a : RIdx) (c : AtomCtl) (s : State) : Host.Outcome State Fault Refusal :=
  runWord h.g (atomWord (.axchg h d a c) false false d a) s
/-- ACAS (R460). -/
def execAcas (h : WHead) (d a : RIdx) (c : AtomCtl) (s : State) : Host.Outcome State Fault Refusal :=
  runWord h.g (atomWord (.acas h d a c) false true d a) s
/-- AFADD (R460). -/
def execAfadd (h : WHead) (d a : RIdx) (c : AtomCtl) (s : State) : Host.Outcome State Fault Refusal :=
  runWord h.g (atomWord (.afadd h d a c) true false d a) s

/-! ## Fences, flush, invalidate, prefetch, flags (R461 to R465) -/

/-- FENCE at issue: its effect holds in the queue (R243, R461). -/
def execFence (h : WHead) (ord : Order) (scope : Scope) (s : State) : Host.Outcome State Fault Refusal :=
  runWord h.g (xRoom (pure ()) (do let _ ← enqueue { tok := 0, i := .fence h ord scope })) s

/-- FLUSH and INVAL at issue: aA below 2^40; a greater length is outside what the spec gives and takes its low 40 bits as a
free value would not: it raises PROTECTION with the address (R462; DESIGN CHOICE, log entry 19). -/
def rangeWord (i : Instr) (d a : RIdx) : W Unit :=
  xRoom (pure ()) do
    let ea ← aVal d
    let n ← aVal a
    lowest [checkEa { tags := [0], size := 64 } ea 1, if n.toNat < 2 ^ 40 then pure () else protection ea.toNat, aConsume d, aConsume a]
    let _ ← enqueue { tok := 0, i := i, ea := ea, v1 := n }
/-- FLUSH (R244, R462). -/
def execFlush (h : WHead) (d a : RIdx) (s : State) : Host.Outcome State Fault Refusal := runWord h.g (rangeWord (.flush h d a) d a) s
/-- INVAL (R244, R462). -/
def execInval (h : WHead) (d a : RIdx) (s : State) : Host.Outcome State Fault Refusal := runWord h.g (rangeWord (.inval h d a) d a) s

/-- PREF at issue: a tag of 1 to 3 does nothing, a tag of 4 to 15 raises PROTECTION (R441, R463). -/
def prefWord (i : Instr) (a : RIdx) : W Unit :=
  xRoom (pure ()) do
    let ea ← aVal a
    lowest [if 4 ≤ eaTag ea ∨ ¬ layoutOk ea then protection ea.toNat else pure (), aConsume a]
    if eaTag ea = 0 then
      let _ ← enqueue { tok := 0, i := i, ea := ea }
/-- PREF (R463). -/
def execPref (h : WHead) (a : RIdx) (l0 : Bool) (linesM1 : BitVec 6) (s : State) : Host.Outcome State Fault Refusal :=
  runWord h.g (prefWord (.pref h a l0 linesM1) a) s

/-- FLGSET at issue (R464). -/
def flgsetWord (i : Instr) (d a : RIdx) : W Unit :=
  xRoom (pure ()) do
    let ea ← aVal d
    lowest [checkEa wordRule ea 4, notGuarded ea.toNat, aConsume d, aConsume a]
    let v ← aVal a
    let _ ← enqueue { tok := 0, i := i, ea := ea, v1 := v }
/-- FLGSET (R464). -/
def execFlgset (h : WHead) (d a : RIdx) (c : AtomCtl) (s : State) : Host.Outcome State Fault Refusal :=
  runWord h.g (flgsetWord (.flgset h d a c) d a) s

/-- FLGWAIT at issue: an explicit wait whose word the access unit polls (R465). -/
def flgwaitWord (p : PIdx) (a b : RIdx) (l : FlgLit) : W Unit :=
  xRoom (lateP p) do
    let ea ← aVal a
    lowest [checkEa wordRule ea 4, aConsume a, aConsume b]
    let v ← aVal b
    modS (fun s => s.explicitWait (.flg ea l.cmp (v.setWidth 32) l.scope) p l.timeout.toNat)
/-- FLGWAIT (R465). -/
def execFlgwait (h : WHead) (p : PIdx) (a b : RIdx) (l : FlgLit) (s : State) : Host.Outcome State Fault Refusal :=
  runWord h.g (flgwaitWord p a b l) s

/-! ## Stash mappings, bay splits, the guard check (R466 to R469) -/

/-- The refusals of SMAP (R466). -/
def smapBad (c : Ctx) (so va n : DWord) : Bool :=
  eaTag so != 1 || eaTag va != 0 || !layoutOk so || !layoutOk va || so.toNat % 4096 != 0 || va.toNat % 4096 != 0 || n.toNat % 4096 != 0 ||
  n == 0 || !c.inScratch (eaOff so) n.toNat || 8 ≤ c.stash.length || c.hitsStash (eaOff so) n.toNat || c.hitsRing (eaOff so) n.toNat ||
  c.hitsDefer (eaOff so) n.toNat || c.stash.any (fun t => overlaps t.va t.len (eaVa va) n.toNat)

/-- SMAP at issue: the mapping stands from here on, every line ABSENT (R222, R466; DEDUCED, log entry 20). -/
def smapWord (d a b : RIdx) : W Unit :=
  xRoom (pure ()) do
    let so ← aVal d
    let va ← aVal a
    let n ← aVal b
    let c ← getMe
    lowest [if smapBad c so va n then protection so.toNat else pure (), aConsume d, aConsume a, aConsume b]
    modMe (fun c => { c with stash := c.stash ++
      [{ off := eaOff so, va := eaVa va, len := n.toNat, lines := List.replicate (n.toNat / 64) {} }] })
/-- SMAP (R466). -/
def execSmap (h : WHead) (d a b : RIdx) (s : State) : Host.Outcome State Fault Refusal := runWord h.g (smapWord d a b) s

/-- SUNMAP at issue: it names a scratch offset; its writebacks are performed in the queue (R466). -/
def sunmapWord (i : Instr) (a : RIdx) : W Unit :=
  xRoom (pure ()) do
    let v ← aUse a
    let _ ← enqueue { tok := 0, i := i, ea := v }
/-- SUNMAP (R466). -/
def execSunmap (h : WHead) (a : RIdx) (s : State) : Host.Outcome State Fault Refusal := runWord h.g (sunmapWord (.sunmap h a) a) s

/-- The new CACHE value is refused (R218): a bit at or above OWNED, or a scratch bay in use that would turn into cache. -/
def baysplitBad (c : Ctx) (cache : Nat) : Bool :=
  (List.range 8).any (fun b =>
    cache.testBit b && (c.nbays ≤ b || (!bit c.csr.baymap b &&
      (c.hitsRing (b * 2 ^ 18) (2 ^ 18) || c.hitsStash (b * 2 ^ 18) (2 ^ 18) || c.hitsDefer (b * 2 ^ 18) (2 ^ 18)))))

/-- BAYSPLIT at issue: an explicit wait for the change of roles (R218, R467). The INFO of its PROTECTION is the operand. -/
def baysplitWord (p : PIdx) (a : RIdx) (t : Imm 7) : W Unit :=
  xRoom (lateP p) do
    let v ← aVal a
    let c ← getMe
    lowest [if baysplitBad c (bits v 7 0) then protection v.toNat else pure (), aConsume a]
    modS (fun s => s.explicitWait (.baysplit (v.extractLsb' 0 8)) p (immU t).toNat)
/-- BAYSPLIT (R467). -/
def execBaysplit (h : WHead) (p : PIdx) (a : RIdx) (t : Imm 7) (s : State) : Host.Outcome State Fault Refusal :=
  runWord h.g (baysplitWord p a t) s

/-- Whether GCHECK commits: FORCE clear, no overflow, and a residual that is no NaN and at most TOLR (R469). -/
def gcheckCommits (c : Ctx) (force : Bool) (r : Word) : Bool :=
  let x := Sys2Proof.Machine.decode .fp32 r.toNat
  let t := Sys2Proof.Machine.decode .fp32 (bits c.csr.tolr 31 0)
  !force && !c.govf && !x.isNan && !t.isNan && !ltVal t x

/-- GCHECK at issue: its predicate lands at g+2; the commit or the discard follows every earlier X word (R469). -/
def gcheckWord (i : Instr) (p : PIdx) (a : RIdx) (force : Bool) : W Unit :=
  xRoom (lateP p) do
    needFeature 6
    let c ← getMe
    let r ← aUse a
    if !c.willGuard then land 2 [.p p ⟨true, 0⟩]
    else do
      let ok := gcheckCommits c force (r.setWidth 32)
      land 2 [.p p ⟨ok, 0⟩]
      modMe (fun c => { c with gchecked := c.gchecked.or (some ok) })
      let _ ← enqueue { tok := 0, i := i, commit := ok }
/-- GCHECK (R469). -/
def execGcheck (h : WHead) (p : PIdx) (a : RIdx) (scope : Scope) (force : Bool) (s : State) : Host.Outcome State Fault Refusal :=
  runWord h.g (gcheckWord (.gcheck h p a scope force) p a force) s

/-! ## Address arithmetic (R470) -/

/-- AFROMS: a copy of a scalar, with its lame bit (R470). -/
def afromsWord (d a : RIdx) : W Unit :=
  xRoom (lateA 2 d) do
    let x ← sSrc a
    land 2 [.a d x]
/-- AFROMS (R470). -/
def execAfroms (h : WHead) (d a : RIdx) (s : State) : Host.Outcome State Fault Refusal := runWord h.g (afromsWord d a) s

/-- AADDI: a sum with a signed immediate, lame when its source is (R470). -/
def aaddiWord (d a : RIdx) (i : Imm 7) : W Unit :=
  xRoom (lateA 1 d) do
    let x := (← getMe).areg a
    land 1 [.a d ⟨x.val + immS i, x.lame⟩]
/-- AADDI (R470). -/
def execAaddi (h : WHead) (d a : RIdx) (i : Imm 7) (s : State) : Host.Outcome State Fault Refusal := runWord h.g (aaddiWord d a i) s

end Sys2Proof.Machine
end

