-- ==== Sys2Proof/Machine/Rein.lean ====
section
/-! DEFINITION. Machine/Rein.lean: CRC-32, the UCIe modules, and the rein network: sending a page and receiving its flits
(R40 to R46, R185, R187, R459). -/

namespace Sys2Proof.Machine

/-! ## Cyclic redundancy checks (R42, R49) -/

/-- One bit of a reflected CRC-32. -/
def crcStep (poly st : Word) (b : Bool) : Word := (st >>> 1) ^^^ (if st.getLsbD 0 != b then poly else 0)
/-- One byte, bit 0 first. -/
def crcByte (poly st : Word) (b : Byte) : Word := (List.range 8).foldl (fun st i => crcStep poly st (b.getLsbD i)) st
/-- The CRC of bytes: register all ones at the start, complemented at the end. -/
def crcOf (poly : Word) (l : List Byte) : Word := ~~~(l.foldl (crcByte poly) (BitVec.allOnes 32))
/-- CRC-32 of IEEE 802.3, whose polynomial R42 gives; the other parameters are that standard's (PRESUMED, log entry 21). -/
def crc32 (l : List Byte) : Word := crcOf 0xEDB88320 l
/-- CRC-32C (R49; PRESUMED, log entry 21). -/
def crc32c (l : List Byte) : Word := crcOf 0x82F63B78 l

/-! ## UCIe modules (R40, R45, R47) -/

/-- Module m of an edge: EN 0, ES 1, NW 2, NE 3. -/
def linkIx (edge m : Nat) : Nat := edge * 96 + m

/-- UCIe modules; the directions of a module i are i, eastward or southward, and i + 384 (R45). -/
def linkCount : Nat := 384

/-- STATE of the module of a direction. -/
def State.linkState (s : State) (i : Nat) : Nat := bits (s.reg (.xlink (i % linkCount))) 1 0

/-- The state of a module's direction, as it stands. -/
def State.linkDir (s : State) (i : Nat) : LinkDir := s.links.getD i {}

/-- The state with a module's direction changed. -/
def State.modLink (s : State) (i : Nat) (f : LinkDir → LinkDir) : State := { s with links := s.links.put i (f (s.linkDir i)) }

/-- The directions on the way from a stall to a stall: the row link of the sender's die row across its east-west edge, then the
column link of the receiver's column across the north-south edge (R40). -/
def reinPath (a b : Nat) : List Nat :=
  let north := stallRow a < 32
  let ew := if stallCol a / 32 != stallCol b / 32 then
    [linkIx (if north then 0 else 1) (3 * (stallRow a % 32) + 1) + (if stallCol a < 32 then 0 else linkCount)] else []
  let ns := if stallRow a / 32 != stallRow b / 32 then
    [linkIx (if stallCol b < 32 then 2 else 3) (3 * (stallCol b % 32)) + (if north then 0 else linkCount)] else []
  ew ++ ns

/-- The direction that a flit takes next when it has crossed an east-west edge on its way to a stall beyond the north-south edge. -/
def nextHop (l st : Nat) : Option Nat :=
  let edge := l % linkCount / 96
  if edge < 2 && (decide (stallRow st < 32) != (edge == 0)) then
    some (linkIx (if stallCol st < 32 then 2 else 3) (3 * (stallCol st % 32)) + (if edge = 0 then 0 else linkCount))
  else none

/-- The trace module of a die row of Q0 or Q2 (R40). -/
def traceLink (moduleRow : Nat) : Nat := linkIx (if moduleRow < 32 then 0 else 1) (3 * (moduleRow % 32))

/-! ## Rein flits (R43) -/

/-- A rein flit without its SEQ and CRC. -/
def reinBody (data : List Byte) (dest mode chan off : Nat) (last poison : Bool) : Nat :=
  leNat data % 2 ^ 256 + dest % 4096 * 2 ^ 256 + mode % 4 * 2 ^ 268 + chan % 16 * 2 ^ 270 + off % 2 ^ 18 * 2 ^ 274 +
  last.toNat * 2 ^ 292 + poison.toNat * 2 ^ 293

/-- A flit with its SEQ and its CRC over bits 479:0. -/
def sealFlit (body seq : Nat) : BitVec 512 :=
  let x := body + seq % 256 * 2 ^ 294
  BitVec.ofNat 512 (x + (crc32 (leBytes 60 x)).toNat * 2 ^ 480)

/-- A field of a flit. -/
def flitBits (f : BitVec 512) (h l : Nat) : Nat := f.toNat / 2 ^ l % 2 ^ (h + 1 - l)

/-- The CRC of a flit is right. -/
def flitGood (f : BitVec 512) : Bool := (crc32 (leBytes 60 f.toNat)).toNat == flitBits f 511 480

/-! ## Receiving (R185, R187, R459) -/

/-- The context of a stall whose channel c is configured with producer REIN. -/
def State.reinOwner (s : State) (st c : Nat) : Option (Nat × Chan) :=
  (s.residents st).findSome? (fun r =>
    match r.2.chans.get? c with
    | some ch => if ch.prod = .rein then some (r.1, ch) else none
    | none => none)

/-- DISC of a stall one higher (R187). -/
def State.discard1 (s : State) (st n : Nat) : State :=
  { s with stalls := s.stalls.put st { s.stalls.getD st {} with disc := holdAt 0xFFFF ((s.stalls.getD st {}).disc + n) } }

/-- A receiving page with one more flit; it is whole once every flit up to the one with LASTPG has arrived, and what lies past the
last received byte is absent (R185, R459). -/
def Chan.takeFlit (ch : Chan) (off : Nat) (last : Bool) : Chan :=
  let p := ch.page ch.openIx
  let inPage := off * 32 < ch.pageBytes
  let p1 : Page := { p with st := .open, flits := if inPage then setAdd p.flits off else p.flits, last := if last then some off else p.last }
  match p1.last with
  | none => ch.setPage ch.openIx p1
  | some n =>
    let want := Nat.min (n + 1) (ch.pageBytes / 32)
    if (List.range want).all (fun i => p1.flits.contains i) then
      let p2 : Page := { p1 with st := .filled, res := ch.rpp, wr := ch.rpp, closed := true,
                                 absent := (List.range ch.rpp).filter (fun r => want * 32 ≤ r * ch.stride) }
      { ch.setPage ch.openIx p2 with openIx := (ch.openIx + 1) % ch.pages.length }
    else ch.setPage ch.openIx p1

/-- A flit at its stall: written into the open page of its channel, or discarded (R187, R459); none when it waits for a FREE page
(R185). -/
def State.reinWrite (s : State) (st : Nat) (f : BitVec 512) : Option State :=
  let c := flitBits f 273 270
  match s.reinOwner st c with
  | none => some (s.discard1 st 1)
  | some (k, ch) =>
    let p := ch.page ch.openIx
    if p.st != .free && p.st != .open then none
    else
      let off := flitBits f 291 274
      let x := s.ctx k
      let inPage := off * 32 < ch.pageBytes
      let ch1 := ch.takeFlit off (flitBits f 292 292 == 1)
      let ch2 : Chan := if inPage then ch1 else { ch1 with dcnt := holdAt 0xFFFF (ch1.dcnt + 1) }
      let a := x.scratch (ch.base + ch.openIx * ch.pageBytes + off * 32)
      let m := (s.mem.write a (leBytes 32 f.toNat)).fill a 32
      let m1 := if flitBits f 293 293 = 1 then m.taint a 32 else m
      let s1 : State := if inPage then { s with mem := m1 } else s
      some ((s1.setCtx k { x with chans := x.chans.put c ch2 }).skipEmpty k (BitVec.ofNat 4 c) 64)

/-- Cycles of a rein flit's crossing (R44), and the least of its repeat (R46). -/
def crossCycles : Nat := 8
def repeatCycles : Nat := 16

/-- A step that becomes due some cycles from now. -/
def State.later (s : State) (n : Nat) (d : Due) : State := { s with timed := s.timed ++ [(s.clock + n, d)] }

/-- A direction that may send now: its module is up and it has credit; over one that is DOWN everything is lost (R45, R46). -/
def State.canSend (s : State) (l : Nat) : Bool := s.linkState l == 3 || (s.linkState l == 1 && (s.linkDir l).credits != 0)

/-- One flit sent in a direction for some stalls: it takes the direction's next SEQ and a credit, and crosses in 8 cycles (R44, R45); where
the module is DOWN it is lost (R46). -/
def State.sendOver (s : State) (l : Nat) (dsts : List Nat) (body : Nat) (sender : Option Nat) : State :=
  if s.linkState l = 3 then s
  else
    let d := s.linkDir l
    let f := sealFlit body d.txSeq.toNat
    (s.modLink l (fun d => { d with txSeq := d.txSeq + 1, replay := (d.replay ++ [(d.txSeq.toNat, dsts, f.toNat)]).reverse.take 16 |>.reverse,
                                    credits := d.credits - 1 })).later crossCycles (.reinFlit dsts (some l) f sender)

/-- The credit of a flit that has been consumed goes back to the sender of its direction (R45). -/
def State.giveCredit (s : State) (link : Option Nat) : State :=
  match link with
  | some l => (s.modLink l (fun d => { d with credits := Nat.min 16 (d.credits + 1) })).emit (.linkCredit l)
  | none => s

/-- Flits at a stall are written there, and those at an edge cross it; or they wait, and hold those behind them for their channel or their
direction (R45, R185). -/
def State.reinOrWait (s : State) (u : ReinUnit) : State :=
  let held := s.reinWait.any (fun w => w.via == u.via && w.dsts == u.dsts && flitBits w.flit 273 270 == flitBits u.flit 273 270)
  let done := match u.via with
    | some m => if s.canSend m && !s.reinWait.any (fun w => w.via == u.via) then some (s.sendOver m u.dsts (u.flit.toNat % 2 ^ 294) u.sender) else none
    | none => if held then none else s.reinWrite (u.dsts.headD 0) u.flit
  match done with
  | some t => t.giveCredit u.link
  | none => { s with reinWait := s.reinWait ++ [u] }

/-- What a flit that has crossed, or has been sent within its die, is for: each stall of the die, and each direction that it goes on in
(R40). The last of them returns its credit. -/
def reinUnits (link : Option Nat) (dsts : List Nat) (f : BitVec 512) (sender : Option Nat) : List ReinUnit :=
  let hop := fun (st : Nat) => link.bind (fun l => nextHop l st)
  let on := (dsts.filterMap hop).eraseDups
  let all := ((dsts.filter (fun st => (hop st).isNone)).map (fun st => ({ dsts := [st], flit := f, sender := sender } : ReinUnit))) ++
    on.map (fun m => { dsts := dsts.filter (fun st => hop st == some m), via := some m, flit := f, sender := sender })
  all.zipIdx.map (fun u => if u.2 + 1 = all.length then { u.1 with link := link } else u.1)

/-- REIN_FLIT_RECEIVE: over a UCIe module a bad CRC, or a flit after one, is discarded with a NAK of the failed SEQ (R46); a good
flit goes to its stalls. -/
def State.reinReceive (s : State) (dsts : List Nat) (link : Option Nat) (f : BitVec 512) (sender : Option Nat) : State :=
  let go := fun (s : State) => (reinUnits link dsts f sender).foldl (fun s u => s.reinOrWait u) s
  match link with
  | none => go s
  | some l =>
    let d := s.linkDir l
    let seq : Byte := BitVec.ofNat 8 (flitBits f 301 294)
    if d.discarding && seq != d.rxSeq then s
    else if !flitGood f then (s.modLink l (fun d => { d with discarding := true, rxSeq := seq })).emit (.linkNak l seq.toNat)
    else go (s.modLink l (fun d => { d with discarding := false, rxSeq := seq + 1 }))

/-- The waiting flits tried again. -/
def State.reinRetry (s : State) : State := s.reinWait.foldl (fun s w => s.reinOrWait w) { s with reinWait := [] }

/-! ## Sending (R459) -/

/-- The destinations of RSEND or RCAST; none when the span leaves the module row or the grid (R459). -/
def sendTargets (w : DWord) (cast : Option Bool) : Option (List Nat) :=
  let st := bits w 11 0
  match cast with
  | none => some [st]
  | some col =>
    let n := bits w 21 16
    if col then (if stallRow st + n ≤ 63 then some ((List.range (n + 1)).map (fun k => st + 64 * k)) else none)
    else if stallCol st + n ≤ 63 then some ((List.range (n + 1)).map (fun k => st + k)) else none

/-- The first directions on the ways from a stall to some stalls. -/
def firstHops (src : Nat) (dsts : List Nat) : List Nat := (dsts.filterMap (fun d => (reinPath src d).head?)).eraseDups

/-- One flit sent from a stall to some stalls: it reaches those of its die, and leaves once in each direction that leads to the others. -/
def State.sendFlit (s : State) (key src : Nat) (dsts : List Nat) (body : Nat) : State :=
  let near := dsts.filter (fun d => (reinPath src d).isEmpty)
  (firstHops src dsts).foldl (fun s l => s.sendOver l (dsts.filter (fun d => (reinPath src d).head? == some l)) body (some key))
    (if near.isEmpty then s else s.push [.reinFlit near none (sealFlit body 0) (some key)])

/-- A module that a flit would leave through trains or retrains, or is without credit, so nothing is sent (R45, R46). -/
def State.sendHeld (s : State) (src : Nat) (dsts : List Nat) : Bool := (firstHops src dsts).any (fun l => !s.canSend l)

/-- Flit i of a page of a context's channel sent to stalls (R459). -/
def State.sendPart (s : State) (k : Nat) (ch : Chan) (page i : Nat) (w : DWord) (mode : Nat) (dsts : List Nat) : State :=
  let c := s.ctx k
  let a := c.scratch (ch.base + page * ch.pageBytes + 32 * i)
  s.sendFlit k c.stall dsts (reinBody (s.mem.read a 32) (bits w 11 0) mode (bits w 15 12) i (i + 1 == ch.pageBytes / 32) (s.mem.poisoned a 32))

end Sys2Proof.Machine
end

