-- ==== Sys2Proof/Machine/Tensor.lean ====
section
/-! DEFINITION. Machine/Tensor.lean: tensor descriptors, the layout unit, tile table entries, and the records that tensor words
read and write (R226 to R231, R263, R265, R456 to R458). -/

namespace Sys2Proof.Machine

/-! ## Descriptors (R226, R227) -/

/-- The format of an FMT code (R226); a reserved code has none. -/
def fmtOf : Nat → Option Fmt
  | 0 => some .fp32 | 1 => some .bf16 | 2 => some .fp16 | 3 => some .e4m3 | 4 => some .e5m2 | 5 => some .e3m2 | 6 => some .e2m3
  | 7 => some .e2m1 | 8 => some .int8 | 9 => some .int16 | 10 => some .int32
  | _ => none

/-- The element width w of an FMT code (R226). -/
def fmtWidth (f : Nat) : Nat := ((fmtOf f).map Fmt.bits).getD 8
/-- The register lane width rw (R456): codes of 6 and 4 bits are held in bytes (R263). -/
def fmtLane (f : Nat) : Nat := Nat.max 8 (fmtWidth f)

/-- The product of a list of extents. -/
def extents (l : List Nat) : Nat := l.foldl (· * ·) 1

/-- ⌈a ÷ b⌉. -/
def ceilDiv (a b : Nat) : Nat := (a + b - 1) / b

/-- The elements of a tile. -/
def TSlot.elems (t : TSlot) : Nat := extents t.tile

/-- The bytes of a tile's element plane. -/
def TSlot.planeBytes (t : TSlot) : Nat := ceilDiv (t.elems * fmtWidth t.fmt) 8

/-- A descriptor's bytes as a slot (R226), valid under R227. -/
def parseDesc (l : List Byte) (zue : Bool) : TSlot :=
  let dim := (List.range 6).map (fun i => fieldOf l (11 + 4 * i) (8 + 4 * i))
  let tile := (List.range 6).map (fun i => fieldOf l (33 + 2 * i) (32 + 2 * i))
  let nd := fieldOf l 0 0
  let fl := fieldOf l 2 2
  let t : TSlot := { valid := true, fmt := fieldOf l 1 1, ndim := nd % 8, scaled := fl.testBit 0, pinned := fl.testBit 1,
                     spoff := fieldOf l 7 4, dim := dim, tile := tile, slot := fieldOf l 47 44, ttbase := fieldOf l 55 48, zue := zue, raw := l }
  let ok := 1 ≤ nd && nd ≤ 6 && t.fmt ≤ 10 && fl < 4 && fieldOf l 3 3 == 0 && t.spoff % 16 == 0 &&
    dim.all (fun d => 1 ≤ d && d ≤ 2 ^ 31) && tile.all (fun e => 1 ≤ e && e ≤ 4096) &&
    (dim.drop nd).all (· == 1) && (tile.drop nd).all (· == 1) && t.slot % 64 == 0 && t.slot ≤ 65536 &&
    t.ttbase % 8 == 0 && t.ttbase < 2 ^ 49 && fieldOf l 63 56 == 0 && t.planeBytes ≤ t.slot &&
    (!t.scaled || (3 ≤ t.fmt && t.fmt ≤ 8 && (tile.getD 0 1) % 32 == 0 && t.planeBytes ≤ t.spoff && t.spoff + t.elems / 32 ≤ t.slot))
  { t with valid := ok }

/-! ## The layout unit (R228, R229) -/

/-- Tile counts of the dimensions. -/
def TSlot.counts (t : TSlot) : List Nat := (t.dim.zip t.tile).map (fun p => ceilDiv p.1 p.2)

/-- Tile number and element position of coordinates (R228). -/
def locateFrom : List Nat → List Nat → List Nat → Nat → Nat → Nat × Nat
  | x :: xs, te :: tes, nt :: nts, ntp, tep =>
    let r := locateFrom xs tes nts (ntp * nt) (tep * te)
    (x / te * ntp + r.1, x % te * tep + r.2)
  | _, _, _, _, _ => (0, 0)
/-- Tile number and element position of coordinates. -/
def TSlot.locate (t : TSlot) (x : List Nat) : Nat × Nat := locateFrom x t.tile t.counts 1 1

/-- Box-local coordinates of element e, dimension 0 innermost. -/
def boxCoords : List Nat → Nat → List Nat
  | [], _ => []
  | te :: t, e => e % te :: boxCoords t (e / te)

/-- Coordinates of element e of a box, or of a row along dimension 0 (R456, R457). -/
def TSlot.coords (t : TSlot) (full : Bool) (org : List Nat) (e : Nat) : List Nat :=
  let b := if full then boxCoords t.tile e else [e, 0, 0, 0, 0, 0]
  (org.zip b).map (fun p => p.1 + p.2)

/-- Coordinates lie outside the tensor (R229). -/
def TSlot.outside (t : TSlot) (x : List Nat) : Bool := (x.zip t.dim).any (fun p => p.2 ≤ p.1)

/-- Where element e of a box or row lies, when it is inside the tensor. -/
def TSlot.place (t : TSlot) (full : Bool) (org : List Nat) (e : Nat) : Option (Nat × Nat) :=
  let x := t.coords full org e
  if t.outside x then none else some (t.locate x)

/-- Elements of a box or of a row. -/
def TSlot.count (t : TSlot) (full : Bool) : Nat := if full then t.elems else t.tile.getD 0 1

/-- Lanes of a record, and records of a box or row (R456). -/
def TSlot.lanesOf (t : TSlot) : Nat := 2048 / fmtLane t.fmt
def TSlot.records (t : TSlot) (full : Bool) : Nat := ceilDiv (t.count full) t.lanesOf

/-- The tiles that a box or row meets inside the tensor: per dimension, as its first coordinate, its extent, the tile's extent, the tiles
and DIM, the tiles from its first coordinate to its last one below DIM; none when it starts outside (R229). -/
def tilesFrom : List (Nat × Nat × Nat × Nat × Nat) → Nat → List Nat
  | [], _ => [0]
  | (x, n, te, nt, dim) :: t, ntp =>
    let lo := x / te
    let hi := (Nat.min (x + n) dim - 1) / te
    let rest := tilesFrom t (ntp * nt)
    if dim ≤ x then [] else (List.range (hi + 1 - lo)).flatMap (fun i => rest.map (fun r => (lo + i) * ntp + r))
/-- The tiles that a box or row meets. -/
def TSlot.tiles (t : TSlot) (full : Bool) (org : List Nat) : List Nat :=
  let ext := if full then t.tile else [t.tile.getD 0 1, 1, 1, 1, 1, 1]
  tilesFrom (org.zip (ext.zip (t.tile.zip (t.counts.zip t.dim)))) 1

/-! ## Accesses -/

/-- ACCESS of a tensor read and of a tensor write (R213). -/
def tensorRead : BitVec 4 := 9
def tensorWrite : BitVec 4 := 10

/-- n bytes of global memory as a tensor word reads them. -/
def tRead (k va n : Nat) : A Got := orRefused n (readEa k (BitVec.ofNat 64 (va % 2 ^ 49)) n tensorRead)

/-- The slot address of a tile (R228, R230, R231): the entry's faults of kind TILE and PIN; pin is the stall to whose column the
tile must be bound (R426). A lame entry gives its cause. -/
def tileEntry (k : Nat) (t : TSlot) (tile : Nat) (pin : Option Nat) (acc : BitVec 4) : A (Lamed Nat) := do
  let eva := (t.ttbase + 8 * tile) % 2 ^ 49
  let x ← tRead k eva 8
  let fail := fun (va kind : Nat) (acc : BitVec 4) => do
    let s ← aGet
    if (s.ctx k).dead.contains (va / 65536) then pure ⟨0, 2⟩ else (aFault va kind acc : A (Lamed Nat))
  if x.lame ≠ 0 then pure ⟨0, x.lame⟩
  else
    let e : DWord := BitVec.ofNat 64 (leNat x.val)
    let sva := bits e 58 16 * 64
    if !bit e 0 || bits e 15 14 != 0 || bits e 63 59 != 0 || 65536 < sva % 65536 + t.slot then fail eva 8 tensorRead
    else if !bit e 1 then
      if t.pinned || pin.isSome then fail eva 9 tensorRead else pure ⟨sva, 0⟩
    else if pin.isSome ∧ pin ≠ some (bits e 13 2) then fail eva 9 tensorRead
    else do
      let s ← aGet
      match (translate k (s.ctx k).stall sva acc) s with
      | (.error .refused, _) => pure ⟨0, 2⟩
      | (.error h, t) => fun _ => (.error h, t)
      | (.ok le, t1) => do
        aMod (fun _ => t1)
        let pk := t1.physKey le sva
        if pk < remoteKey ∧ homeStall pk = bits e 13 2 then pure ⟨sva, 0⟩ else fail sva 9 acc

/-- The entries of tiles. -/
def tileEntries (k : Nat) (t : TSlot) (acc : BitVec 4) (l : List Nat) : A (List (Nat × Lamed Nat)) :=
  l.mapM (fun tile => do pure (tile, ← tileEntry k t tile none acc))

/-- An entry of a list of them. -/
def entryOf (l : List (Nat × Lamed Nat)) (tile : Nat) : Lamed Nat := ((l.find? (fun e => e.1 == tile)).map (·.2)).getD ⟨0, 2⟩

/-- The code of an element of a tile (R228, R265). -/
def elemRead (k : Nat) (t : TSlot) (sva el : Nat) : A (Lamed Nat) := do
  let w := fmtWidth t.fmt
  let bp := el * w
  let x ← tRead k (sva + bp / 8) ((bp + w - 1) / 8 - bp / 8 + 1)
  pure ⟨leNat x.val / 2 ^ (bp % 8) % 2 ^ w, x.lame⟩

/-- A record as a tensor word reads it: 288 bytes, the granules that carry poison, and the lame cause (R301, R456). -/
structure TRecord where
  bytes : List Byte
  bad : List Nat := []
  lame : Lame := 0

/-- The record of zero elements with scale bytes 0x7F. -/
def zeroRecord : List Byte := List.replicate 256 0 ++ List.replicate 8 0x7F ++ List.replicate 24 0

/-- Record r of a box or row (R228, R229, R456). -/
def readBoxRecord (k : Nat) (t : TSlot) (full : Bool) (org : List Nat) (r : Nat) : A TRecord := do
  let n := t.lanesOf
  let rw := fmtLane t.fmt
  let places := (List.range n).map (fun j => if r * n + j < t.count full then t.place full org (r * n + j) else none)
  let entries ← tileEntries k t tensorRead ((places.filterMap (fun p => p.map (·.1))).eraseDups)
  let codes ← places.mapM (fun p =>
    match p with
    | none => pure (⟨0, 0⟩ : Lamed Nat)
    | some (tile, el) =>
      let e := entryOf entries tile
      if e.lame ≠ 0 then pure ⟨0, e.lame⟩ else elemRead k t e.val el)
  let scales ← (List.range 8).mapM (fun g =>
    match (if t.scaled then (places[32 * g]?).join else none) with
    | none => pure (⟨0x7F, 0⟩ : Lamed Nat)
    | some (tile, el) =>
      let e := entryOf entries tile
      if e.lame ≠ 0 then pure ⟨0x7F, e.lame⟩
      else do
        let x ← tRead k (e.val + t.spoff + el / 32) 1
        pure ⟨leNat x.val, x.lame⟩)
  let per := 128 / rw
  let bad := ((List.range 16).filter (fun g => ((codes.drop (g * per)).take per).any (fun c => c.lame = 3))) ++
    (if scales.any (fun c => c.lame = 3) then [16] else [])
  pure { bytes := leBytes 256 (packNat rw (codes.map (·.val))) ++ scales.map (fun x => BitVec.ofNat 8 x.val) ++ List.replicate 24 0,
         bad := bad, lame := lameOf ((codes ++ scales).map (·.lame)) }

/-- The index of row i of a gather or scatter (R457). -/
def rowIndex (k lst i : Nat) : A (Lamed Nat) := do
  let x ← readEa k (BitVec.ofNat 64 (localAddr (lst + 4 * i))) 4 1
  pure ⟨leNat x.val, x.lame⟩

/-- The origin with the index of a row in a dimension. -/
def rowOrigin (org : List Nat) (gdim ix : Nat) : List Nat := org.set gdim ix

/-- The records of one row of a gather: a poisoned index makes the whole row lame (R458). -/
def readRow (k : Nat) (t : TSlot) (org : List Nat) (gdim lst i : Nat) : A (List TRecord) := do
  let ix ← rowIndex k lst i
  (List.range (t.records false)).mapM (fun r =>
    if ix.lame ≠ 0 then pure { bytes := zeroRecord, bad := List.range 18, lame := ix.lame }
    else readBoxRecord k t false (rowOrigin org gdim ix.val) r)

/-! ## Writes -/

/-- What a write covers of each byte: its value, and the bits of it that the write covers. -/
abbrev BitMap := SMap (Nat × Nat)

/-- A bit string put into a map at a bit address. -/
def putBits (m : BitMap) (va bp w code : Nat) : BitMap :=
  (List.range ((bp + w - 1) / 8 - bp / 8 + 1)).foldl (fun m i =>
    let b := bp / 8 + i
    let v := code * 2 ^ (bp % 8) / 2 ^ (8 * i) % 256
    let k := (2 ^ w - 1) * 2 ^ (bp % 8) / 2 ^ (8 * i) % 256
    let o := m.getD (va + b) (0, 0)
    m.put (va + b) (Nat.lor (Nat.land o.1 (255 - k)) v, Nat.lor o.2 k)) m

/-- The runs of bytes with following addresses. -/
def byteRuns : SMap Byte → List (Nat × List Byte)
  | [] => []
  | (a, b) :: t =>
    match byteRuns t with
    | (a', l) :: r => if a' = a + 1 then (a, b :: l) :: r else (a, [b]) :: (a', l) :: r
    | [] => [(a, [b])]

/-- A held write added to the guard buffer, one record for each granule, newest first (R252, R312). -/
def heldRecords (ea : DWord) (b : List Byte) (fe poison : Bool) : List Held :=
  let o := ea.toNat % 16
  (List.range (granules o b.length)).map (fun g =>
    let here := fun i => 16 * g + i
    { ea := (ea - BitVec.ofNat 64 o) + BitVec.ofNat 64 (16 * g),
      bytes := (List.range 16).map (fun i => if o ≤ here i then b.getD (here i - o) 0 else 0),
      mask := BitVec.ofNat 16 (packNat 1 ((List.range 16).map (fun i => (decide (o ≤ here i ∧ here i < o + b.length)).toNat))),
      fe := fe, poison := poison })

/-- A write held back (R252). -/
def Ctx.hold (c : Ctx) (ea : DWord) (b : List Byte) (fe poison : Bool) : Ctx :=
  { c with guard := (heldRecords ea b fe poison).reverse ++ c.guard }

/-- Every page of n global bytes may be written now: it is translated, and its home column does not hold its requests; so no part
of a write is performed before another part of it faults or waits. -/
def readyWrite (k st va n : Nat) (acc : BitVec 4) : A Unit := do
  for i in List.range ((va % 65536 + n + 65535) / 65536) do
    let a := if i = 0 then va else (va / 65536 + i) * 65536
    let e ← translate k st a acc
    let s ← aGet
    if s.physKey e a < remoteKey ∧ s.homeHeld (s.physKey e a) then aWait

/-- A run of bytes of a tensor write performed, or held in guarded mode where the guard buffer has room (R252, R468). -/
def tWrite (k tok va : Nat) (b : List Byte) (poison guarded : Bool) : A Unit := do
  let ea : DWord := BitVec.ofNat 64 (va % 2 ^ 49)
  let s ← aGet
  let c := s.ctx k
  if guarded && c.guarded then
    let need := 32 * granules (va % 16) b.length
    if c.guardMax < c.guardUsed + need then aMod (fun s => s.modCtx k (fun c => { c with govf := true }))
    else aMod (fun s => s.modCtx k (fun c => { c.hold ea b false poison with guardUsed := c.guardUsed + need }))
  else
    readyWrite k c.stall (eaVa ea) b.length tensorWrite
    writeEa k tok ea b poison false 0

/-- A map's bytes written in runs; a byte covered in part is read and merged. Refused pages are discarded (R214). -/
def writeMap (k tok : Nat) (m : BitMap) (poison guarded : Bool) : A Unit := do
  let full ← m.mapM (fun e => do
    if e.2.2 = 255 then pure (e.1, BitVec.ofNat 8 e.2.1)
    else do
      let x ← tRead k e.1 1
      pure (e.1, BitVec.ofNat 8 (Nat.lor (Nat.land (leNat x.val) (255 - e.2.2)) e.2.1)))
  for r in byteRuns full do
    orNothing (tWrite k tok r.1 r.2 poison guarded)

/-- Lane j of a record's bytes at the lane width of a slot. -/
def recordLane (t : TSlot) (b : List Byte) (j : Nat) : Nat :=
  let n := fmtLane t.fmt / 8
  leNat ((b.drop (n * j)).take n) % 2 ^ fmtWidth t.fmt

/-- Elements of a record written at their places (lane, tile, element), and with SCALED the scales of its granules; tiles names the
tiles whose entries are read (R456). A lame record is written as poisoned granules with UE recorded (R448); a tile whose entry is
poisoned takes nothing, or, for a row of a scatter, nothing is written at all, with UE recorded (R457), which note asks for. -/
def writePlaced (k tok : Nat) (t : TSlot) (places : List (Nat × Nat × Nat)) (tiles : List Nat) (whole note : Bool) (b : List Byte)
    (lame : Lame) (guarded : Bool) : A Unit := do
  let entries ← tileEntries k t tensorWrite tiles
  let ue := entries.any (fun e => e.2.lame = 3)
  if ue && note then aMod (fun s => s.modCtx k Ctx.noteUe)
  if ue && whole then pure ()
  else do
    let s ← aGet
    if !(guarded && (s.ctx k).guarded) then
      for e in entries do
        if e.2.lame = 0 then orNothing (readyWrite k (s.ctx k).stall e.2.val 1 tensorWrite)
    let live := places.filter (fun p => (entryOf entries p.2.1).lame = 0)
    let m := live.foldl (fun m p => putBits m (entryOf entries p.2.1).val (p.2.2 * fmtWidth t.fmt) (fmtWidth t.fmt) (recordLane t b p.1)) ([] : BitMap)
    let ms := if t.scaled then
        (live.filter (fun p => p.1 % 32 = 0)).foldl (fun (m : BitMap) p =>
          m.put ((entryOf entries p.2.1).val + t.spoff + p.2.2 / 32) ((b.getD (256 + p.1 / 32) 0).toNat, 255)) ([] : BitMap)
      else ([] : BitMap)
    writeMap k tok m (lame ≠ 0) guarded
    writeMap k tok ms (lame ≠ 0) guarded
    if lame ≠ 0 && !live.isEmpty then aMod (fun s => s.modCtx k Ctx.noteUe)

/-- Record r of a box or row written: the elements inside the tensor (R456, R457). -/
def writeBoxRecord (k tok : Nat) (t : TSlot) (full : Bool) (org : List Nat) (r : Nat) (b : List Byte) (lame : Lame) (guarded : Bool) : A Unit :=
  let n := t.lanesOf
  let places := (List.range n).filterMap (fun j =>
    if r * n + j < t.count full then (t.place full org (r * n + j)).map (fun p => (j, p.1, p.2)) else none)
  writePlaced k tok t places (if full then (places.map (fun p => p.2.1)).eraseDups else t.tiles false org) (!full) (full || r == 0) b lame guarded

end Sys2Proof.Machine
end

