-- ==== Sys2Proof/Machine/XPerform.lean ====
section
/-! DEFINITION. Machine/XPerform.lean: the access unit performs X commands: loads, stores, full-empty words, tensors, atomics,
fences, flush and invalidate, guard commits, rein sends; the arrival of load data and the ends of waits (R207, R210, R237, R243,
R252 to R254, R444, R448, R452 to R469). -/

namespace Sys2Proof.Machine

/-! ## Order and scope (R233, R234, R443) -/

/-- The order of a word; words that carry none are relaxed. -/
def ordOf : Instr → Order
  | .ldb _ _ _ c | .ldh _ _ _ c | .ldw _ _ _ c | .ldd _ _ _ c => c.ord
  | .stb _ _ _ c | .sth _ _ _ c | .stw _ _ _ c | .std _ _ _ c => c.ord
  | .ldv _ _ _ c | .stv _ _ _ c => c.ord
  | .ldfe _ _ _ c => c.ord
  | .stfe _ _ _ c => c.ord
  | .rsend _ _ _ o _ | .rcast _ _ _ o _ _ => o
  | .aadd _ _ _ c | .amin _ _ _ c | .amax _ _ _ c | .aand _ _ _ c | .aor _ _ _ c | .axor _ _ _ c | .axchg _ _ _ c
  | .acas _ _ _ c | .afadd _ _ _ c | .flgset _ _ _ c => c.ord
  | .fence _ o _ => o
  | _ => .rlx

/-- The scope that a word carries, when it carries one. -/
def scopeOf : Instr → Option Scope
  | .ldb _ _ _ c | .ldh _ _ _ c | .ldw _ _ _ c | .ldd _ _ _ c => c.scope
  | .stb _ _ _ c | .sth _ _ _ c | .stw _ _ _ c | .std _ _ _ c => c.scope
  | .ldv _ _ _ c | .stv _ _ _ c => c.scope
  | .ldfe _ _ _ c => c.scope
  | .stfe _ _ _ c => c.scope
  | .rsend _ _ _ _ sc | .rcast _ _ _ _ sc _ => some sc
  | .aadd _ _ _ c | .amin _ _ _ c | .amax _ _ _ c | .aand _ _ _ c | .aor _ _ _ c | .axor _ _ _ c | .axchg _ _ _ c
  | .acas _ _ _ c | .afadd _ _ _ c | .flgset _ _ _ c => c.scope
  | .fence _ _ sc => some sc
  | .gcheck _ _ _ sc _ => some sc
  | _ => none

/-- An order that acquires, and one that releases (R234). -/
def acquires : Order → Bool
  | .acq | .acqrel | .sc => true
  | .rlx | .rel => false
def releases : Order → Bool
  | .rel | .acqrel | .sc => true
  | .rlx | .acq => false

/-- A scope wider than PADDOCK. -/
def scopeWide : Scope → Bool
  | .stall | .paddock => false
  | .die | .module | .domain | .system => true
/-- The scope code (R233). -/
def scopeCode : Scope → Nat
  | .stall => 0 | .paddock => 1 | .die => 2 | .module => 3 | .domain => 4 | .system => 5
/-- The order code (R234). -/
def orderCode : Order → Nat
  | .rlx => 0 | .acq => 1 | .rel => 2 | .acqrel => 3 | .sc => 4

/-- The scope of a command: omitted, STALL at tag 1 and MODULE elsewhere (R443). -/
def XCmd.scope (x : XCmd) : Scope := (scopeOf x.i).getD (if eaTag x.ea = 1 then .stall else .module)
/-- ATTR of a frame for a command (R49). -/
def XCmd.attr (x : XCmd) : Nat := scopeCode x.scope + 8 * orderCode (ordOf x.i)

/-- FENCE and GCHECK, behind which every later command waits. -/
def isBarrier : Instr → Bool
  | .fence _ _ _ | .gcheck _ _ _ _ _ => true
  | _ => false

/-- FENCE. -/
def isFence : Instr → Bool
  | .fence _ _ _ => true
  | _ => false

/-! ## What a command touches (R237) -/

/-- A piece of global memory as a key that names its bytes: the rider's own stash, the physical line, or the address itself when it
does not translate. -/
def State.pieceKey (s : State) (k va : Nat) : Nat :=
  let c := s.ctx k
  match c.stashVa va with
  | some (t, b) => 2 ^ 60 + ((c.stash[t]?).map (fun m => m.off + b)).getD 0
  | none =>
    match (translate k c.stall va 1) s with
    | (.ok e, t) => 2 ^ 61 + t.physKey e va
    | (.error _, _) => va

/-- The bytes of an access, in pieces of at most 4 KiB. -/
def State.pieces (s : State) (k : Nat) (ea : DWord) (n : Nat) : List (Nat × Nat) :=
  let c := s.ctx k
  match eaTag ea with
  | 0 => (List.range ((ea.toNat % 4096 + n + 4095) / 4096)).map (fun i =>
      let a := if i = 0 then eaVa ea else (eaVa ea / 4096 + i) * 4096
      let e := Nat.min (eaVa ea + n) ((eaVa ea / 4096 + i + 1) * 4096)
      (s.pieceKey k a, e - a))
  | 1 => [(2 ^ 60 + eaOff ea, n)]
  | 2 => if eaStall ea = c.stall ∧ eaSlot ea = c.slot then [(2 ^ 60 + eaOff ea, n)] else [(ea.toNat, n)]
  | _ => [(ea.toNat, n)]

/-- The slot of a tensor command, and whether its box is a whole tile. -/
def tensorSlot (x : XCmd) : Option (Nat × Bool) :=
  match x.i with
  | .tread _ _ _ sl | .twrite _ _ _ sl => some (sl.toNat, true)
  | .tgather _ _ _ _ | .tscatter _ _ _ _ | .tscadd _ _ _ _ => some (bits x.v1 47 44, false)
  | _ => none

/-- The origin x[0] to x[5] of a tensor command (R456). -/
def XCmd.origin (x : XCmd) : List Nat := x.org.flatMap (fun w => [bits w 31 0, bits w 63 32])

/-- LIST, the number of indices and GDIM of a control word (R457). -/
def XCmd.list (x : XCmd) : Nat := bits x.v1 20 0
def XCmd.rows (x : XCmd) : Nat := bits x.v1 43 32 + 1
def XCmd.gdim (x : XCmd) : Nat := bits x.v1 50 48

/-- The bytes that a tensor command touches: whole tile slots, the table entries, and the index list; none when they cannot be read
now, which then counts as touching everything. -/
def State.tensorPieces (s : State) (k : Nat) (x : XCmd) (t : TSlot) (full : Bool) : Option (List (Nat × Nat)) :=
  let boxes := if full then [x.origin] else
    (List.range x.rows).filterMap (fun i =>
      match (rowIndex k x.list i) s with
      | (.ok ix, _) => some (rowOrigin x.origin x.gdim ix.val)
      | (.error _, _) => none)
  let lists := if full then [] else [(2 ^ 60 + x.list, 4 * x.rows)]
  (boxes.foldl (fun r org =>
    (t.tiles full org).foldl (fun r tile =>
      match r with
      | none => none
      | some l =>
        match (tileEntry k t tile none tensorRead) s with
        | (.ok e, _) =>
          some (l ++ s.pieces k (BitVec.ofNat 64 ((t.ttbase + 8 * tile) % 2 ^ 49)) 8 ++
            (if e.lame = 0 then s.pieces k (BitVec.ofNat 64 e.val) t.slot else []))
        | (.error _, _) => none) r) (some lists))

/-- The bytes of a scalar or vector access of a command. -/
def XCmd.size (x : XCmd) : Nat :=
  match x.i with
  | .ldb _ _ _ _ | .stb _ _ _ _ => 1
  | .ldh _ _ _ _ | .sth _ _ _ _ => 2
  | .ldw _ _ _ _ | .stw _ _ _ _ | .flgset _ _ _ _ => 4
  | .ldd _ _ _ _ | .std _ _ _ _ | .ldfe _ _ _ _ | .stfe _ _ _ _ => 8
  | .ldv _ _ _ c | .stv _ _ _ c => vecBytes c
  | .feclr _ _ _ _ => x.v1.toNat
  | .tdesc _ _ _ _ => 64
  | .afadd _ _ _ _ => 4
  | .aadd _ _ _ _ | .amin _ _ _ _ | .amax _ _ _ _ | .aand _ _ _ _ | .aor _ _ _ _ | .axor _ _ _ _ | .axchg _ _ _ _
  | .acas _ _ _ _ => atomSize x.ea false
  | _ => 0

/-- The bytes that a command touches; none for a command that waits for every earlier one. -/
def State.touches (s : State) (k : Nat) (x : XCmd) : Option (List (Nat × Nat)) :=
  match x.i with
  | .flush _ _ _ | .inval _ _ _ | .sunmap _ _ | .fence _ _ _ | .gcheck _ _ _ _ _ => none
  | .rsend _ _ _ _ _ | .rcast _ _ _ _ _ _ | .pref _ _ _ _ => some []
  | _ =>
    match tensorSlot x with
    | some (n, full) =>
      match (s.ctx k).slots.get? n with
      | some t => if t.valid then s.tensorPieces k x t full else some []
      | none => some []
    | none => some (s.pieces k x.ea x.size)

/-- Two lists of pieces share a byte. -/
def piecesMeet (a b : List (Nat × Nat)) : Bool := a.any (fun p => b.any (fun q => overlaps p.1 p.2 q.1 q.2))

/-- TDESC of the slot that a tensor command reads, or a tensor command of the slot that a TDESC loads (R455). -/
def slotClash (e x : XCmd) : Bool :=
  match e.i, x.i with
  | .tdesc _ _ n _, _ => (tensorSlot x).any (fun t => t.1 == n.toNat)
  | _, .tdesc _ _ n _ => (tensorSlot e).any (fun t => t.1 == n.toNat)
  | _, _ => false

/-- A command that has not begun, or has halted: every later command of its rider waits for it (R210, R237). -/
def XCmd.holdsAll (x : XCmd) : Bool :=
  match x.st with
  | .queued | .halted _ _ _ | .empty => true
  | .moving | .performed => false

/-- An earlier command of the queue holds a later one back (R210, R237, R239, R243). -/
def State.holdsBack (s : State) (k : Nat) (e x : XCmd) : Bool :=
  match e.st with
  | .queued | .halted _ _ _ | .empty => true
  | .performed =>
    isFence x.i || ((isBarrier x.i || releases (ordOf x.i) || acquires (ordOf e.i)) && e.data.isNone)
  | .moving =>
    isBarrier e.i || isBarrier x.i || releases (ordOf x.i) || slotClash e x ||
    (match s.touches k e, s.touches k x with
     | some a, some b => piecesMeet a b
     | _, _ => true)

/-- An earlier X command that something else of the rider waits for, which touches some bytes: one that has not begun or has halted, or one
under way that touches them (R210, R237, R434, R444). -/
def State.holdsBytes (s : State) (k : Nat) (l : List (Nat × Nat)) (x : XCmd) : Bool :=
  x.holdsAll || (x.st == .moving && (match s.touches k x with
    | some t => piecesMeet t l
    | none => true))

/-- A store to another module, or a rein send, of a context is still on its way (R54, R243, R459). -/
def State.onTheWay (s : State) (k : Nat) : Bool :=
  s.outstanding.any (fun o => o.key == k && o.kind == .write) || s.reinWait.any (fun w => w.sender == some k)

/-- An NDRAIN or NFILL of the rider that an earlier group issued holds a command back: a barrier or release, or one that touches its
bytes (R237, R434). -/
def State.portHolds (s : State) (k : Nat) (x : XCmd) : Bool :=
  let n := (s.ctx k).nest
  (n.port ++ n.copy.toList.map (·.1)).any (fun w =>
    match w with
    | .move _ a cnt ord =>
      ord < x.tok && (isBarrier x.i || releases (ordOf x.i) ||
        (match s.touches k x with
         | some l => piecesMeet l [(2 ^ 60 + bits a 20 0, 128 * cnt)]
         | none => true))
    | .ngo _ _ | .freeze | .thaw | .aclr _ _ | .seek _ | .wfetch _ _ | .wswap _ | .epicfg _ _ | .cut _ => false)

/-- The commands of a queue before one. -/
def earlierThan (tok : Nat) : List XCmd → List XCmd
  | [] => []
  | e :: t => if e.tok = tok then [] else e :: earlierThan tok t

/-- A command may be performed now, or performed further. -/
def State.mayPerform (s : State) (k : Nat) (x : XCmd) : Bool :=
  (match x.st with
   | .queued | .moving | .empty => true
   | .halted _ _ _ | .performed => false) &&
  (earlierThan x.tok (s.ctx k).xq).all (fun e => !s.holdsBack k e x) &&
  !((isBarrier x.i || releases (ordOf x.i)) && s.onTheWay k) && !s.portHolds k x

/-! ## What performing comes to -/

/-- How far a command is: done; done with data for its destination; sent to another module, which will answer; one record further;
waiting for a channel or a credit; its granule empty. -/
inductive Done where
  | done
  | data (d : Lamed VReg) (more : DWord)
  | sent
  | more
  | stuck
  | empty

/-- The release of a word: what its scope's other agents must see is written back, and has been performed (R243). An SC load releases
too: every SC operation acts on what the homes hold (R241). -/
def releaseFor (k : Nat) (x : XCmd) : A Unit := do
  if releases (ordOf x.i) && scopeWide x.scope then
    aMod (fun s => s.writeBackPaddock (stallPaddock (s.ctx k).stall))
    let s ← aGet
    if s.unsettled k then aWait

/-- The acquire of a word: stale bytes are dropped (R243). -/
def acquireFor (k : Nat) (x : XCmd) : A Unit :=
  if acquires (ordOf x.i) then aMod (fun s => s.acquireAt (s.ctx k).stall (scopeCode x.scope)) else pure ()

/-- The status that a delivery leaves: UE or REFUSED (R254, R451). -/
def noteLame (k : Nat) (l : Lame) : A Unit :=
  if l = 3 then aMod (fun s => s.modCtx k Ctx.noteUe) else if l = 2 then aMod (fun s => s.modCtx k Ctx.noteRefused) else pure ()

/-! ## Loads (R452, R453) -/

/-- A plane of w-bit elements with its scales, as the register image (R263, R265, R453). -/
def vOfPlane (w : Nat) (scl : Bool) (l : List Byte) : VReg :=
  let x := leNat (l.take (32 * w))
  vMake (packNat 8 ((List.range 256).map (fun i => x / 2 ^ (w * i) % 2 ^ w)))
    (if scl then (List.range 8).map (fun g => (l.getD (32 * w + g) 0).toNat) else List.replicate 8 0x7F)
/-- The plane of a register image (R453). -/
def planeOf (w : Nat) (scl : Bool) (v : VReg) : List Byte :=
  leBytes (32 * w) (packNat w (lanes 8 v)) ++ (if scl then (vScales v).map (fun x => BitVec.ofNat 8 x) else [])

/-- A scalar load: the value, zero-extended; zero when it is lame (R298, R452). -/
def loadScalar (k : Nat) (x : XCmd) : A Done := do
  releaseFor k x
  acquireFor k x
  let g ← readEa k x.ea x.size 1 x.attr
  acquireFor k x
  noteLame k g.lame
  pure (.data ⟨if g.lame = 0 then BitVec.ofNat 2112 (leNat g.val) else 0, g.lame⟩ 0)

/-- LDV (R453). -/
def loadVector (k : Nat) (x : XCmd) (c : VecCtl) : A Done := do
  releaseFor k x
  acquireFor k x
  let g ← readEa k x.ea x.size 1 x.attr
  acquireFor k x
  noteLame k g.lame
  pure (.data ⟨if g.lame = 0 then vOfPlane (packBits (vecPack c)) (vecScl c) g.val else zeroV, g.lame⟩ 0)

/-- LDFE: the bytes, the test and, without KEEP, the clearing of the bit in one step (R454). -/
def loadFull (k : Nat) (x : XCmd) (keep : Bool) : A Done := do
  releaseFor k x
  let g ← readEa k x.ea 8 1
  acquireFor k x
  if g.lame = 2 then do
    noteLame k 2
    pure (.data ⟨0, 2⟩ 0)
  else do
    let s ← aGet
    let a := if eaTag x.ea = 1 then some ((s.ctx k).scratch (eaOff x.ea)) else (s.remoteTarget k x.ea 8).map (fun t => (s.ctx t).scratch (eaOff x.ea))
    match a with
    | none => pure (.data ⟨0, 2⟩ 0)
    | some a =>
      if !s.mem.isFull a then pure .empty
      else do
        noteLame k g.lame
        if !keep then aMod (fun s => { s with mem := s.mem.drain a 8 })
        pure (.data ⟨if g.lame = 0 then BitVec.ofNat 2112 (leNat g.val) else 0, g.lame⟩ 0)

/-! ## Stores (R252, R452 to R454, R464) -/

/-- Bytes stored at an address, or held in guarded mode (R252); an STFE sets its granule's bit (R454). -/
def store (k : Nat) (x : XCmd) (b : List Byte) (fe : Bool) : A Done := do
  releaseFor k x
  let s ← aGet
  if x.guarded && (s.ctx k).guarded then aMod (fun s => s.modCtx k (fun c => c.hold x.ea b fe false))
  else do
    if eaTag x.ea = 0 then readyWrite k (s.ctx k).stall (eaVa x.ea) b.length 2
    writeEa k x.tok x.ea b false fe x.attr
  pure .done

/-- FECLR (R454): the bits of the granules of a range of scratch cleared. -/
def clearFull (k : Nat) (x : XCmd) : A Done := do
  let n := x.v1.toNat
  if n = 0 then pure .done
  else if eaTag x.ea = 1 then do
    let _ ← readScratch k (eaOff x.ea) n 1
    aMod (fun s => { s with mem := s.mem.drain ((s.ctx k).scratch (eaOff x.ea)) n })
    pure .done
  else do
    let s ← aGet
    match s.remoteTarget k x.ea n with
    | some t => aMod (fun s => { s with mem := s.mem.drain ((s.ctx t).scratch (eaOff x.ea)) n })
    | none => noteLame k 2
    pure .done

/-! ## Atomics (R253, R254, R460) -/

/-- The code of an atomic: 0 AADD to 8 AFADD, in the order of R460. -/
def atomCode : Instr → Option Nat
  | .aadd _ _ _ _ => some 0 | .amin _ _ _ _ => some 1 | .amax _ _ _ _ => some 2 | .aand _ _ _ _ => some 3 | .aor _ _ _ _ => some 4
  | .axor _ _ _ _ => some 5 | .axchg _ _ _ _ => some 6 | .acas _ _ _ _ => some 7 | .afadd _ _ _ _ => some 8
  | _ => none

/-- The sum of two codes of a format as an atomic unit forms it: RNE, NONSAT, no flags (R457, R460). -/
def addCodes (f : Fmt) (a b : Nat) : Nat :=
  if f.isInt then (a + b) % 2 ^ f.bits else (roundTo f .rne false 0 (addVal .rne (decode f a) (decode f b)).1).1

/-- The new value of an atomic of n bytes, and whether ACAS stores (R460). Codes from 16 on are the element additions of TSCADD, by
FMT. -/
def atomNew (code n old v v2 : Nat) : Nat × Bool :=
  let w := 8 * n
  match code with
  | 0 => ((old + v) % 2 ^ w, true)
  | 1 => (if sextNat v w < sextNat old w then v else old, true)
  | 2 => (if sextNat old w < sextNat v w then v else old, true)
  | 3 => (Nat.land old v, true)
  | 4 => (Nat.lor old v, true)
  | 5 => (Nat.xor old v, true)
  | 6 => (v, true)
  | 7 => if old = v then (v2, true) else (old, false)
  | 8 => (addCodes .fp32 old v, true)
  | c =>
    match fmtOf (c - 16) with
    | some f => (addCodes f old v, true)
    | none => (old, false)

/-- An atomic done on bytes of this module: a poisoned target keeps its value (R254). Answers the old value. -/
def State.atomicAt (s : State) (a n code v v2 : Nat) : State × Lamed Nat :=
  if s.mem.poisoned a n then (s, ⟨0, 3⟩)
  else
    let old := leNat (s.mem.read a n)
    ({ s with mem := s.mem.store a (leBytes n (atomNew code n old v v2).1) }, ⟨old, 0⟩)

/-- The four bits of ATTR that name an atomic operation: the codes of R460, and after them the element additions of TSCADD; those of
integers are AADD (the model's numbering). -/
def wireCode (c : Nat) : Nat := if c < 16 then c else if c < 24 then c - 8 else 0
/-- The operation that they name. -/
def unwireCode (c : Nat) : Nat := if c ≤ 8 then c else c + 8

/-- An atomic on a global address: at the home column, in host memory, or in another module, of which the answer comes later
(R54, R57, R253). The requester's paddock first writes back and drops its copy of the line (R220). -/
def atomicGlobal (k tok va n code v v2 attr : Nat) (acc : BitVec 4) (kind : ReqKind) : A (Option (Lamed Nat)) := do
  let s ← aGet
  let st := (s.ctx k).stall
  let p := stallPaddock st
  let e ← translate k st va acc
  let s1 ← aGet
  let pk := s1.physKey e va
  let line := pk / 64 * 64
  if pk < remoteKey ∧ s1.homeHeld pk then aWait
  aMod (fun s =>
    let s1 := match s.stashOf p line with
      | some (k', i, b) => s.dropStash k' i b
      | none => s
    (s1.flushLine p line).snoopL0 p line none)
  let s2 ← aGet
  if pk < remoteKey then do
    let r := s2.atomicAt pk n code v v2
    aMod (fun _ => r.1)
    pure (some r.2)
  else if pk < hostKey then do
    let data := leBytes n v ++ (if code = 7 then leBytes n v2 else [])
    aMod (fun s => s.request (stallQuarter st) (pk - remoteKey) kind data.length (BitVec.ofNat 16 (attr + 64 * wireCode code)) data k tok)
    pure none
  else if s2.mem.hostRefuses (pk - hostKey) n || s2.mem.hostPoisoned (pk - hostKey) n then pure (some ⟨0, 3⟩)
  else do
    let old := leNat (s2.mem.hostRead (pk - hostKey) n)
    aMod (fun s => { s with mem := s.mem.hostWrite (pk - hostKey) (leBytes n (atomNew code n old v v2).1) })
    pure (some ⟨old, 0⟩)

/-- The destination values of an atomic from the old value. -/
def atomData (code n v : Nat) (r : Lamed Nat) : Done :=
  if r.lame = 0 then .data ⟨BitVec.ofNat 2112 r.val, 0⟩ (if code = 7 ∧ r.val = v % 2 ^ (8 * n) then 1 else 0)
  else .data ⟨0, r.lame⟩ 0

/-- An atomic (R253, R254, R460). -/
def atomic (k : Nat) (x : XCmd) (code : Nat) : A Done := do
  releaseFor k x
  let n := x.size
  let v := x.v1.toNat % 2 ^ (8 * n)
  let v2 := x.v2.toNat % 2 ^ (8 * n)
  let s ← aGet
  let here := fun (a : Nat) => do
    let s ← aGet
    let r := s.atomicAt a n code v v2
    aMod (fun _ => r.1)
    acquireFor k x
    noteLame k r.2.lame
    pure (atomData code n v r.2)
  match eaTag x.ea with
  | 0 =>
    match ← atomicGlobal k x.tok (eaVa x.ea) n code v v2 x.attr 3 .atomic with
    | none => pure .sent
    | some r => do
      acquireFor k x
      noteLame k r.lame
      pure (atomData code n v r)
  | 1 => do
    let _ ← readScratch k (eaOff x.ea) n 2
    let bad := s.mem.poisoned ((s.ctx k).scratch (eaOff x.ea)) n
    let r ← here ((s.ctx k).scratch (eaOff x.ea))
    if !bad then aMod (fun s => s.markStash k (eaOff x.ea) n false)
    pure r
  | 2 =>
    match s.remoteTarget k x.ea n with
    | some t => do
      let bad := s.mem.poisoned ((s.ctx t).scratch (eaOff x.ea)) n
      let r ← here ((s.ctx t).scratch (eaOff x.ea))
      if !bad then aMod (fun s => s.markStash t (eaOff x.ea) n false)
      pure r
    | none => do
      noteLame k 2
      pure (.data ⟨0, 2⟩ 0)
  | _ => here (eaFlag x.ea)

/-! ## Tensors (R455 to R458) -/

/-- TDESC (R227, R455). -/
def tdesc (k : Nat) (x : XCmd) (slot : Nat) (zue : Bool) : A Done := do
  let g ← orRefused 64 (readEa k x.ea 64 tensorRead)
  let t := parseDesc g.val zue
  let t1 : TSlot := if g.lame = 0 then t else { t with valid := false }
  if g.lame = 3 then noteLame k 3
  aMod (fun s => s.modCtx k (fun c => { c with slots := c.slots.put slot t1, baddesc := c.baddesc || (g.lame = 0 && !t.valid) }))
  pure .done

/-- The slot of a tensor command when its control operands and its origin are accepted (R456, R457). -/
def State.usable (s : State) (k : Nat) (x : XCmd) : Option TSlot :=
  match tensorSlot x with
  | none => none
  | some (n, full) =>
    match (s.ctx k).slots.get? n with
    | none => none
    | some t =>
      let c := s.ctx k
      let ctl := full || (x.list % 4 == 0 && bits x.v1 31 21 == 0 && bits x.v1 63 51 == 0 && c.inScratch x.list (4 * x.rows) &&
        1 ≤ x.gdim && x.gdim < t.ndim)
      let add := match x.i with
        | .tscadd _ _ _ _ => t.fmt ≤ 2 || 8 ≤ t.fmt
        | _ => true
      if t.valid && ctl && add && !(t.scaled && x.origin.getD 0 0 % 32 != 0) then some t else none

/-- Records that a command moves in all: a refused consumer still takes those of a valid slot (R456, R457). -/
def State.recordCount (s : State) (k : Nat) (x : XCmd) : Nat :=
  match tensorSlot x with
  | none => 1
  | some (n, full) =>
    match (s.ctx k).slots.get? n with
    | some t => if t.valid then (if full then 1 else x.rows) * t.records full else 1
    | none => 1

/-- A record written into the room that the command reserved at issue, or into the next room of its channel (R448). -/
def State.fillRecord (s : State) (k : Nat) (x : XCmd) (d : CIdx) (r : TRecord) : Option State :=
  let put := fun (s : State) (page rec : Nat) =>
    let c := s.ctx k
    match c.chans.get? d.toNat with
    | none => s
    | some ch =>
      let s1 := s.writeRecord k d page rec r.bytes (if r.lame = 2 then 2 else 0)
      let a := c.scratch (ch.recOff page rec)
      { s1 with mem := { s1.mem with poison := r.bad.foldl (fun p g => setAdd p (a / 16 + g)) s1.mem.poison } }
  match (s.ctx k).chans.get? d.toNat with
  | none => some s
  | some ch =>
    if x.prog = 0 then
      match x.room with
      | some (_, page, rec) => some (put s page rec)
      | none => some s
    else
      match ch.room with
      | none => none
      | some rec =>
        let c := s.ctx k
        some (put (s.setCtx k { c with chans := c.chans.put d.toNat (ch.reserve rec) }) ch.openIx rec)

/-- Room for the next record of a producing command. -/
def State.hasRoom (s : State) (k : Nat) (x : XCmd) (d : CIdx) : Bool :=
  x.prog == 0 || (match (s.ctx k).chans.get? d.toNat with
    | none => true
    | some ch => ch.room.isSome)

/-- ZUE: what would carry UE arrives as zeros, counted in ZCNT (R458). -/
def zeroUe (t : TSlot) (r : TRecord) : TRecord := if t.zue && r.lame = 3 then { bytes := zeroRecord } else r
/-- ZCNT of a channel one higher. -/
def State.countZero (s : State) (k : Nat) (d : CIdx) : State :=
  s.modCtx k (fun c => { c with chans := c.chans.upd d.toNat (fun ch => { ch with zcnt := holdAt 0xFFFF (ch.zcnt + 1) }) })

/-- The next record of TREAD or TGATHER (R456 to R458). -/
def produce (k : Nat) (x : XCmd) (d : CIdx) (full : Bool) : A Done := do
  let s ← aGet
  if x.mute || x.cut then pure .done
  else
    match s.usable k x with
    | none => do
      noteLame k 2
      aMod (fun s => (s.fillRecord k x d { bytes := zeroRecord, lame := 2 }).getD s)
      pure .done
    | some t =>
      if !s.hasRoom k x d then pure .stuck
      else do
        let per := t.records full
        let (r, zeros) ← (if full then do
            let r ← readBoxRecord k t true x.origin x.prog
            pure (zeroUe t r, t.zue && r.lame = 3)
          else do
            let row ← readRow k t x.origin x.gdim x.list (x.prog / per)
            let ue := t.zue && row.any (fun r => r.lame = 3)
            let r := row.getD (x.prog % per) { bytes := zeroRecord }
            pure (if ue then ({ bytes := zeroRecord } : TRecord) else r, ue && x.prog % per = 0))
        if zeros then aMod (fun s => s.countZero k d)
        let r := if x.ue then { r with bad := List.range 18, lame := 3 } else r
        if r.lame = 3 then noteLame k 3
        aMod (fun s => (s.fillRecord k x d r).getD s)
        pure (if x.prog + 1 < s.recordCount k x then .more else .done)

/-- The next record of a consuming command: the one taken at issue, or the next of its channel (R448). -/
def State.nextRecord (s : State) (k : Nat) (x : XCmd) (c : CIdx) : Option (Lamed (List Byte)) :=
  if x.prog = 0 && x.data2 = 1 then some ⟨vBytes x.vec, x.lame⟩
  else
    match (s.ctx k).chans.get? c.toNat with
    | none => some ⟨[], 0⟩
    | some ch => (ch.ready).map (fun r => s.recordAt k ch ch.head r)

/-- That record taken from its channel. -/
def State.takeNext (s : State) (k : Nat) (x : XCmd) (c : CIdx) : State :=
  if x.prog = 0 && x.data2 = 1 then s
  else
    match (s.ctx k).chans.get? c.toNat with
    | none => s
    | some ch =>
      match ch.ready with
      | some r => s.readRecord k c ch r false
      | none => s

/-- One element of a TSCADD row added at its home column; one whose addend is poisoned poisons its target instead (R457). -/
def addElem (k tok : Nat) (t : TSlot) (va code : Nat) (bad : Bool) : A Unit := do
  let n := fmtWidth t.fmt / 8
  if bad then do
    let s ← aGet
    let c := s.ctx k
    let old ← tRead k va n
    readyWrite k c.stall va n tensorWrite
    writeEa k tok (BitVec.ofNat 64 va) old.val true false 0
    noteLame k 3
  else do
    match ← atomicGlobal k tok va n (16 + t.fmt) code 0 0 11 .write with
    | none => pure ()
    | some r => noteLame k r.lame

/-- The addends that a TSCADD takes next: the bytes of its record as they stand, and the poisoned granules of it, a bit each (R457). -/
def State.nextAddends (s : State) (k : Nat) (x : XCmd) (c : CIdx) : List Byte × Nat :=
  if x.prog = 0 && x.data2 = 1 then (vBytes x.vec, x.v2.toNat)
  else
    match (s.ctx k).chans.get? c.toNat with
    | none => ([], 0)
    | some ch => ((ch.ready).map (fun r => s.rawRecord k ch ch.head r)).getD ([], 0)

/-- Record r of a row of TSCADD: bad names the poisoned granules of the record, of which no addend is taken (R457). -/
def addRecord (k tok : Nat) (t : TSlot) (org : List Nat) (r : Nat) (b : List Byte) (bad : Nat) : A Unit := do
  let n := t.lanesOf
  let places := (List.range n).filterMap (fun j =>
    if r * n + j < t.count false then (t.place false org (r * n + j)).map (fun p => (j, p.1, p.2)) else none)
  let entries ← tileEntries k t tensorWrite (t.tiles false org)
  let s ← aGet
  for e in entries do
    if e.2.lame = 0 then orNothing (readyWrite k (s.ctx k).stall e.2.val 1 tensorWrite)
  if entries.any (fun e => e.2.lame = 3) then (if r = 0 then noteLame k 3 else pure ())
  else
    for p in places do
      let e := entryOf entries p.2.1
      if e.lame = 0 then
        orNothing (addElem k tok t (e.val + p.2.2 * (fmtWidth t.fmt / 8)) (recordLane t b p.1) (bad.testBit (p.1 * fmtLane t.fmt / 128)))

/-- The next record of TWRITE, TSCATTER or TSCADD (R456, R457). -/
def consumeRecord (k : Nat) (x : XCmd) (c : CIdx) (full add : Bool) : A Done := do
  let s ← aGet
  if (((s.ctx k).chans.get? c.toNat).isNone && x.prog != 0) || (x.cut && (x.prog != 0 || x.data2 != 1)) then pure .done
  else
  match s.nextRecord k x c with
  | none => pure .stuck
  | some rec => do
    let last := x.prog + 1 == s.recordCount k x
    match s.usable k x with
    | none => do
      if x.prog = 0 then noteLame k 2
    | some t =>
      let per := t.records full
      if full then writeBoxRecord k x.tok t true x.origin x.prog rec.val rec.lame x.guarded
      else do
        let ix ← rowIndex k x.list (x.prog / per)
        let org := rowOrigin x.origin x.gdim ix.val
        if ix.lame ≠ 0 then (if x.prog % per = 0 then noteLame k 3 else pure ())
        else if add then (let r := s.nextAddends k x c; addRecord k x.tok t org (x.prog % per) r.1 r.2)
        else writeBoxRecord k x.tok t false org (x.prog % per) rec.val rec.lame x.guarded
    aMod (fun s => s.takeNext k x c)
    pure (if last || x.cut then .done else .more)

/-! ## Rein sends (R459) -/

/-- The next flit of RSEND or RCAST; the page is freed when its last flit has left, or when its span is refused. -/
def sendPage (k : Nat) (x : XCmd) (c : CIdx) (cast : Option Bool) : A Done := do
  releaseFor k x
  let s ← aGet
  match (if x.cut then none else (s.ctx k).chans.get? c.toNat) with
  | none => pure .done
  | some ch =>
    let page := ch.head
    let free := fun (s : State) => (s.freePage k c page).skipEmpty k c 64
    match sendTargets x.v1 cast with
    | none => do
      noteLame k 2
      aMod free
      pure .done
    | some dsts =>
      if s.sendHeld (s.ctx k).stall dsts then pure .stuck
      else do
        let mode := match cast with
          | none => 0
          | some col => if col then 2 else 1
        aMod (fun s => s.sendPart k ch page x.prog x.v1 mode dsts)
        if x.prog + 1 < ch.pageBytes / 32 then pure .more
        else do
          aMod free
          pure .done

/-! ## Fences, flush, prefetch, stash, guard (R243, R244, R461 to R469) -/

/-- FENCE when its turn has come (R243, R461). -/
def fenceEffect (k : Nat) (x : XCmd) : A Done := do
  releaseFor k x
  acquireFor k x
  pure .done

/-- The lines of a range written back from the caches and stashes of the rider's paddock; INVAL also drops them from the L0 and the
paddock cache. It is done when the bytes have been performed at their homes (R244). -/
def flushRange (k : Nat) (x : XCmd) (inval : Bool) : A Done := do
  let n := x.v1.toNat
  let va := eaVa x.ea / 64 * 64
  let len := (eaVa x.ea + n + 63) / 64 * 64 - va
  let s ← aGet
  let st := (s.ctx k).stall
  let p := stallPaddock st
  for i in List.range (if n = 0 then 0 else (va % 65536 + len + 65535) / 65536) do
    let a := if i = 0 then va else (va / 65536 + i) * 65536
    let hi := Nat.min (va + len) ((va / 65536 + i + 1) * 65536)
    let e ← translate k st (a % 2 ^ 49) 1
    aMod (fun s =>
      let lo := s.physKey e (a % 2 ^ 49)
      let top := lo + (hi - a)
      let inR := fun (q : Nat) => decide (lo ≤ q ∧ q < top)
      let s1 := ((s.slices.getD p []).filter (fun l => inR l.pa)).foldl (fun s l => if inval then s.flushLine p l.pa else s.cleanLine p l.pa) s
      let s2 := (s1.ctxs.filter (fun c => !isGroom c.1 && c.2.resident && stallPaddock c.2.stall == p)).foldl (fun s c =>
        c.2.stash.zipIdx.foldl (fun s t => (t.1.lines.zipIdx).foldl (fun s j =>
          if j.1.st = .dirty && inR j.1.pk then s.cleanStash c.1 t.2 (64 * j.2) else s) s) s) s1
      if inval then s2.modL0 st (fun ls => ls.filter (fun l => !inR l.pa)) else s2)
  let s1 ← aGet
  if s1.unsettled k then aWait
  pure .done

/-- PREF: lines requested into the paddock cache and, with L0, into the stall's L0; what would fault is dropped (R463). -/
def prefetch (k : Nat) (x : XCmd) (l0 : Bool) (lines : Nat) : A Done := do
  let s ← aGet
  let st := (s.ctx k).stall
  for i in List.range lines do
    fun s =>
      let va := (eaVa x.ea / 64 * 64 + 64 * i) % 2 ^ 49
      match (do
        let e ← translate k st va 1
        let s ← aGet
        let _ ← readLine k st (s.physKey e va / 64 * 64) e.nc l0 (BitVec.allOnes 64) 0 : A Unit) s with
      | (.ok _, t) => (.ok (), t)
      | (.error .wait, t) => (.error .wait, t)
      | (.error _, _) => (.ok (), s)
  pure .done

/-- SUNMAP: the dirty lines of the mapping that starts at a scratch offset are written back; when that is performed the mapping ends,
and its bytes stay (R223, R466). -/
def unmap (k : Nat) (x : XCmd) : A Done := do
  let s ← aGet
  let c := s.ctx k
  if 1 < eaTag x.ea then pure .done
  else
    match c.stash.findIdx? (fun t => t.off = bits x.ea 59 0) with
    | none => pure .done
    | some i => do
      aMod (fun s => (List.range ((s.ctx k).stash.getD i { off := 0, va := 0, len := 0, lines := [] }).lines.length).foldl
        (fun s j => s.cleanStash k i (64 * j)) s)
      let s1 ← aGet
      if s1.backsLeft (stallPaddock c.stall) then aWait
      aMod (fun s => s.modCtx k (fun c => { c with stash := c.stash.eraseIdx i }))
      pure .done

/-- The runs of bytes that a held record covers. -/
def Held.runs (h : Held) : List (Nat × Nat) := dirtyRuns (h.mask.setWidth 64)

/-- A held write may be performed now: its page is translated, its home column takes requests, and a stash line that holds it is
filled (R210, R223). -/
def readyHeld (k : Nat) (h : Held) : A Unit := do
  if eaTag h.ea = 0 then
    let s ← aGet
    readyWrite k (s.ctx k).stall (eaVa h.ea) 16 2
    match (s.ctx k).stashVa (eaVa h.ea) with
    | some (t, b) => touchStash k t b 2
    | none => pure ()

/-- A held write performed (R252). -/
def commitHeld (k tok : Nat) (h : Held) : A Unit := do
  for r in h.runs do
    writeEa k tok (h.ea + BitVec.ofNat 64 r.1) ((h.bytes.drop r.1).take r.2) h.poison h.fe 0

/-- Room of the guard buffer that the guarded writes behind a command have reserved at issue (R468). -/
def Ctx.guardAfter (c : Ctx) (tok : Nat) : Nat :=
  ((c.xq.filter (fun x => tok < x.tok && x.guarded && (tensorSlot x).isNone)).map
    (fun x => 32 * granules (x.ea.toNat % 16) x.size)).foldl (· + ·) 0

/-- GCHECK when every earlier command has been performed (R252, R469): a commit performs every held write, oldest first, in one step in
which none faults or waits, releases at its scope and ends guarded mode; a discard drops them and clears GOVF, what later writes have
reserved stays reserved (R468), and the tile falls back (R156). -/
def guardEnd (k : Nat) (x : XCmd) : A Done := do
  let s ← aGet
  let c := s.ctx k
  if x.commit then
    for h in c.guard.reverse do
      orNothing (readyHeld k h)
    for h in c.guard.reverse do
      orNothing (commitHeld k x.tok h)
    aMod (fun s => s.modCtx k (fun c => { c with guard := [] }))
    if scopeWide x.scope then
      aMod (fun s => s.writeBackPaddock (stallPaddock c.stall))
      let s ← aGet
      if s.unsettled k then aWait
    aMod (fun s => s.modCtx k (fun c => { c with guardUsed := 0, csr := { c.csr with status := setBit c.csr.status 5 false } }))
  else
    aMod (fun s => (s.modCtx k (fun c => { c with guard := [], govf := false, guardUsed := c.guardAfter x.tok })).push
      (if c.gchecked = some false then [.surrogateFallback c.launch c.index] else []))
  pure .done

/-! ## One command -/

/-- A command performed, or performed one record further. -/
def performOne (k : Nat) (x : XCmd) : A Done :=
  match x.i with
  | .ldb _ _ _ _ | .ldh _ _ _ _ | .ldw _ _ _ _ | .ldd _ _ _ _ => loadScalar k x
  | .stb _ _ _ _ => store k x (leBytes 1 x.v1.toNat) false
  | .sth _ _ _ _ => store k x (leBytes 2 x.v1.toNat) false
  | .stw _ _ _ _ | .flgset _ _ _ _ => store k x (leBytes 4 x.v1.toNat) false
  | .std _ _ _ _ => store k x (leBytes 8 x.v1.toNat) false
  | .ldv _ _ _ c => loadVector k x c
  | .stv _ _ _ c => store k x (planeOf (packBits (vecPack c)) (vecScl c) x.vec) false
  | .ldfe _ _ _ c => loadFull k x (match c.lit with
      | some (b, _) => b
      | none => false)
  | .stfe _ _ _ _ => store k x (leBytes 8 x.v1.toNat) true
  | .feclr _ _ _ _ => clearFull k x
  | .tdesc _ _ n z => tdesc k x n.toNat z
  | .tread _ d _ _ => produce k x d true
  | .tgather _ d _ _ => produce k x d false
  | .twrite _ _ a _ => consumeRecord k x a.c true false
  | .tscatter _ _ a _ => consumeRecord k x a.c false false
  | .tscadd _ _ a _ => consumeRecord k x a.c false true
  | .rsend _ _ a _ _ => sendPage k x a.c none
  | .rcast _ _ a _ _ col => sendPage k x a.c (some col)
  | .fence _ _ _ => fenceEffect k x
  | .flush _ _ _ => flushRange k x false
  | .inval _ _ _ => flushRange k x true
  | .pref _ _ l0 n => prefetch k x l0 (n.toNat + 1)
  | .sunmap _ _ => unmap k x
  | .gcheck _ _ _ _ _ => guardEnd k x
  | i =>
    match atomCode i with
    | some code => atomic k x code
    | none => pure .done

/-- A command that ends as not performed: its destination receives zero, lame with cause REFUSED (R214). -/
def XCmd.refusedEnd (x : XCmd) : Done :=
  match x.i with
  | .ldb _ _ _ _ | .ldh _ _ _ _ | .ldw _ _ _ _ | .ldd _ _ _ _ | .ldfe _ _ _ _ => .data ⟨0, 2⟩ 0
  | .ldv _ _ _ _ => .data ⟨zeroV, 2⟩ 0
  | i => if (atomCode i).isSome then .data ⟨0, 2⟩ 0 else .done

/-- The commands of a context tried again. -/
def State.retryCmds (s : State) (k : Nat) : State :=
  s.push (((s.ctx k).xq.filter (fun x => x.st = .queued || x.st = .moving)).map (fun x => .xPerform k x.tok))

/-- A command leaves the queue; what waited behind it is tried again. -/
def State.endCmd (s : State) (k tok : Nat) : State :=
  (s.modCtx k (fun c => { c with xq := c.xq.filter (fun x => x.tok != tok), rbuf := [] })).retryCmds k

/-- What performing a command came to, put into the queue. -/
def State.afterPerform (s : State) (k : Nat) (x : XCmd) (d : Done) : State :=
  match d with
  | .done => s.endCmd k x.tok
  | .data v m =>
    (s.modCtx k (fun c => { c.modCmd x.tok (fun x => { x with st := .performed, data := some v, data2 := m }) with rbuf := [] })).push
      [.loadArrive k x.tok]
  | .sent => s.modCtx k (fun c => { c.modCmd x.tok (fun x => { x with st := .performed }) with rbuf := [] })
  | .more =>
    (s.modCtx k (fun c => { c.modCmd x.tok (fun x => { x with st := .moving, prog := x.prog + 1, dead := [] }) with rbuf := [] })).push
      [.engineWrite k x.tok]
  | .stuck => s.modCtx k (fun c => c.modCmd x.tok (fun x => { x with st := if x.prog = 0 then x.st else .moving }))
  | .empty =>
    let s1 := s.modCtx k (fun c => c.modCmd x.tok (fun x => { x with st := .empty }))
    if (s.ctx k).waits.any (fun w => w.kind == .ldfe x.tok) then s1 else s1.blockFor k (.ldfe x.tok) x.v2.toNat

/-- A command that waits while a home column holds its requests keeps its place in their order of arrival (R27, R28, R158). -/
def State.noteHeld (s : State) (k tok : Nat) : State :=
  if (s.ratio.isEmpty && s.moves.all (fun m => !m.2.copying)) || s.homeWait.contains (k, tok) then s
  else { s with homeWait := s.homeWait ++ [(k, tok)] }

/-- X_COMMAND_PERFORM and ENGINE_RECORD_WRITE: a command whose turn has come is performed, as far as it goes; a translation fault
halts the access unit (R210, R237, R448). -/
def State.performCmd (s : State) (k tok : Nat) : State :=
  match (s.ctx k).xq.find? (fun x => x.tok == tok) with
  | none => s
  | some x =>
    if !s.mayPerform k x || s.colls.any (fun c => c.2.acks.contains (k, .xpipe)) then s
    else
      match (withDead k x.dead (performOne k x)) s with
      | (.ok d, t) => t.afterPerform k x d
      | (.error .wait, t) => t.noteHeld k tok
      | (.error .refused, t) => t.afterPerform k x x.refusedEnd
      | (.error (.fault va kind acc), t) =>
        (t.modCtx k (fun c => c.modCmd tok (fun x => { x with st := .halted va kind acc }))).reportFault (t.ctx k).asid va kind acc

/-! ## Arrival of data (R444) -/

/-- A landing entry that awaits a token takes its values. -/
def Landing.fill (e : Landing) (tok : Nat) (v : Lamed VReg) (m : DWord) : Landing :=
  if e.tok = some tok then
    { e with tok := none, writes := e.writes.zipIdx.map (fun w =>
        match w.1 with
        | .a r _ => if w.2 = 0 then .a r ⟨v.val.setWidth 64, v.lame⟩ else .a r ⟨m, v.lame⟩
        | .v o _ => .v o v
        | x => x) }
  else e

/-- The data of a load or an atomic arrive: they land in time, write nothing when their entry has landed already, or fill a channel
record (R178, R444). -/
def State.loadArrive (s : State) (k tok : Nat) : State :=
  match (s.ctx k).xq.find? (fun x => x.tok == tok) with
  | none => s
  | some x =>
    match x.data with
    | none => s
    | some v0 =>
      let v := if x.ue then { v0 with lame := 3 } else v0
      let s0 := if acquires (ordOf x.i) && (atomCode x.i).isSome then s.acquireAt (s.ctx k).stall (scopeCode x.scope) else s
      let s1 := s0.modCtx k (fun c =>
        { c with land := c.land.map (fun e => e.fill tok v x.data2),
                 frame := c.frame.map (fun f => { f with replay := f.replay.map (fun e => e.fill tok v x.data2) }) })
      let s2 := match x.room with
        | some (c, page, rec) =>
          if x.mute then s1.dropRecord k (BitVec.ofNat 4 c) page rec
          else
            match x.i with
            | .ldv _ _ _ _ => s1.writeRecord k (BitVec.ofNat 4 c) page rec (vBytes v.val ++ List.replicate 24 0) v.lame
            | _ => s1.writeRecord k (BitVec.ofNat 4 c) page rec (leBytes 16 v.val.toNat) v.lame
        | none => s1
      s2.endCmd k tok

/-! ## Waits (R180 to R183, R450, R454, R465) -/

/-- The waits of a context that have ended let a pending trap be taken (R361). -/
def State.waitOver (s : State) (k : Nat) (kind : WaitKind) (v : Bool) : State := (s.endWait k kind v).afterWait k

/-- CHANNEL_WAIT_SATISFIED: the waits of CHWAITF and CHWAITE whose condition holds end (R450). -/
def State.chanWaits (s : State) (k : Nat) : State :=
  (s.ctx k).waits.foldl (fun s w =>
    match w.kind with
    | .chf c => if ((s.ctx k).chans.get? c.toNat).any (fun ch => ch.condition true) then s.waitOver k w.kind true else s
    | .che c => if ((s.ctx k).chans.get? c.toNat).any (fun ch => ch.condition false) then s.waitOver k w.kind true else s
    | _ => s) s

/-- CMP of R108. -/
def cmpHolds : Cmp → Nat → Nat → Bool
  | .eq, f, v => f == v
  | .ne, f, v => f != v
  | .ltu, f, v => f < v
  | .geu, f, v => v ≤ f
  | .any, f, v => Nat.land f v != 0
  | .none, f, v => Nat.land f v == 0

/-- FLGWAIT_POLL: each polled word read afresh, unless an earlier command has not begun or has halted; a condition that holds ends its
wait and is an acquire at its scope (R239, R465). A poll that faults halts at the fault unit, and one that is refused is recorded
(R202, R210). -/
def State.flgPolls (s : State) (k : Nat) : State :=
  (s.ctx k).waits.foldl (fun s w =>
    match w.kind with
    | .flg ea cmp val scope =>
      let clear := fun (s : State) => s.modCtx k (fun c => { c with rbuf := [] })
      if w.halted.isSome || (s.ctx k).xq.any (fun x => acquires (ordOf x.i) || isBarrier x.i || x.holdsAll) then s
      else
        match (readEa k ea 4 1) s with
        | (.ok g, t0) =>
          let t := if g.lame = 2 then t0.modCtx k Ctx.noteRefused else t0
          if g.lame = 0 ∧ cmpHolds cmp (leNat g.val) val.toNat then
            ((clear t).acquireAt (t.ctx k).stall (scopeCode (scope.getD (if eaTag ea = 1 then .stall else .module)))).waitOver k w.kind true
          else clear t
        | (.error (.fault va kind _), t) =>
          (t.modCtx k (fun c => { c with waits := c.waits.map (fun x => if x.kind == w.kind then { x with halted := some (va, kind) } else x) })).reportFault
            (t.ctx k).asid va kind 1
        | (.error _, t) => t
    | _ => s) s

/-- BAYSPLIT_COMPLETE: the lines of a bay that leaves the cache are written back, and stay valid and clean; when that is performed they
are dropped, BAYMAP changes in one step, and every bay that changed role is wiped (R218). -/
def State.baysplits (s : State) (k : Nat) : State :=
  (s.ctx k).waits.foldl (fun s w =>
    match w.kind with
    | .baysplit cache =>
      let c := s.ctx k
      let old := bits c.csr.baymap 7 0
      let changed := (List.range 8).filter (fun b => old.testBit b != cache.toNat.testBit b)
      if c.xq.any (s.holdsBytes k (changed.map (fun b => (2 ^ 60 + b * 2 ^ 18, 2 ^ 18)))) then s
      else
        let back := changed.any (fun b => old.testBit b)
        let s1 := if back then s.cleanSlice c.stall else s
        if back && s1.backsLeft (stallPaddock c.stall) then s1
        else
          let s2 := if back then s1.flushSlice c.stall else s1
          let m := changed.foldl (fun (m : Mem) b => m.wipe (c.scratch (b * 2 ^ 18)) (2 ^ 18)) s2.mem
          ((({ s2 with mem := m } : State).modCtx k (fun c => { c with csr := { c.csr with baymap := setBits c.csr.baymap 7 0 cache.toNat } })).waitOver
            k w.kind true)
    | _ => s) s

/-- LDFE_RETRY: an LDFE that found its granule empty is tried again; when it is full the block ends (R454). -/
def State.ldfeRetry (s : State) (k : Nat) : State :=
  (s.ctx k).waits.foldl (fun s w =>
    match w.kind with
    | .ldfe tok =>
      let t := s.performCmd k tok
      match (t.ctx k).xq.find? (fun x => x.tok == tok) with
      | some x => if x.st = .empty then t else t.waitOver k w.kind false
      | none => t.waitOver k w.kind false
    | _ => s) s

/-- WAIT_TIMEOUT: explicit waits that have lasted their timeout end with predicate 0; a hitch arrival is withdrawn (R170, R181). The
conditions were tested first in this cycle, so one that holds has ended its wait already. -/
def State.waitTimeouts (s : State) (k : Nat) : State :=
  (s.ctx k).waits.foldl (fun s w =>
    if w.pred.isNone || s.clock < w.deadline then s
    else
      let s1 := match w.kind, s.hitchOf k with
        | .hbar, some h => { s with hitches := s.hitches.upd h (fun x => x.withdraw k) }
        | _, _ => s
      s1.waitOver k w.kind false) s

/-- IMPLICIT_WAIT_EXPIRY: an implicit wait that has blocked for LIMIT cycles ends with p7 set (R183): an LDFE lands lame with cause
LATE and leaves its granule; a held group issues; a code fetch makes its consuming use (R210); WAITBRK goes on (R491). -/
def State.implicitExpiries (s : State) (k : Nat) : State :=
  (s.ctx k).waits.foldl (fun s w =>
    if w.pred.isSome || s.clock < w.deadline then s
    else
      let drop := fun (s : State) => s.modCtx k (fun c => { c with waits := c.waits.erase w })
      match w.kind with
      | .ldfe tok =>
        let late := fun (e : Landing) => if e.tok = some tok then { e with tok := none } else e
        let c := s.ctx k
        let room := (c.xq.find? (fun x => x.tok == tok)).bind (fun x => x.room)
        let s1 := ((drop s).modCtx k (fun c =>
          { c with land := c.land.map late, xq := c.xq.filter (fun x => x.tok != tok) })).setP7 k 2
        let s2 := match room with
          | some (ch, page, rec) => s1.writeRecord k (BitVec.ofNat 4 ch) page rec (List.replicate 16 0) 1
          | none => s1
        (s2.retryCmds k).afterWait k
      | .held | .xfull => ((drop s).modCtx k (fun c => { c with forced := true })).setP7 k 3
      | .fetch _ _ _ =>
        let s1 := (drop s).setP7 k 3
        let (s2, ue) := s1.tick k
        let pc := (s2.ctx k).pc
        if ue && (s2.ctx k).contain then s2.unwind k pc 3 false else (s2.untick k).takeCause k (fetchLame 1) pc
      | .waitbrk => ((drop s).setP7 k 2).afterWait k
      | _ => s) s
where
  /-- UNCORRECTABLE of a code fetch that is lame with a cause (R210, R300). -/
  fetchLame (l : Lame) : Cause := { code := 7, info := BitVec.ofNat 64 (l.toNat + 0xFF00), lame := l }

/-- HBAR_PHASE_COMPLETE: every member has arrived: each blocked arriver's predicate is 1, the count becomes 0 and the phase advances
(R170); a saved arriver finds its predicate when it resumes (R171). -/
def State.phaseComplete (s : State) (h : Nat) : State :=
  match s.hitches.get? h with
  | none => s
  | some x =>
    if !x.live || x.members.isEmpty || x.arrived.length != x.members.length then s
    else
      let s1 := { s with hitches := s.hitches.put h { x with arrived := [], phase := x.phase + 1 } }
      x.arrived.foldl (fun s k => s.waitOver k .hbar true) s1

/-! ## Lines (R220) -/

/-- Cycles in which a dirty line is written back, and a clean one dropped, after its first write or its fill (R220). -/
def writebackAfter : Nat := 350
def dropAfter : Nat := 700

/-- CLEAN_LINE_DROP: a clean line leaves the L0 of a stall, or the slices and stashes of its paddock. -/
def State.lineDrop (s : State) (st line : Nat) (l0 : Bool) : State :=
  if l0 then s.modL0 st (fun ls => dropLine ls line)
  else
    let p := stallPaddock st
    let s1 := s.modSlice p (fun ls => ls.filter (fun l => !(l.pa == line && l.dirty == 0)))
    match s1.stashOf p line with
    | some (k, i, b) =>
      match (s1.ctx k).stash[i]? with
      | some t => if (t.lineAt b).st = .clean then s1.setStashLine k i b {} else s1
      | none => s1
    | none => s1

/-- A line that a paddock's slices, or a stash of it, has held since its fill for as long as a clean line may stay. -/
def State.lineOld (s : State) (p line : Nat) : Bool :=
  (findLine (s.slices.getD p []) line).any (fun l => l.filled + dropAfter ≤ s.clock) ||
  (match s.stashOf p line with
   | some (k, i, b) => ((s.ctx k).stash[i]?).any (fun t => (t.lineAt b).filled + dropAfter ≤ s.clock)
   | none => false)

/-- LINE_WRITEBACK: a dirty line of a paddock's slices, and of its riders' stashes, is written back; it stays clean for what is left of
its lifetime (R220, R223). -/
def State.lineWriteback (s : State) (p line : Nat) : State :=
  let s1 := s.cleanLine p line
  let s2 := match s1.stashOf p line with
    | some (k, i, b) => s1.cleanStash k i b
    | none => s1
  if s2.lineOld p line then s2.lineDrop ((paddockStalls p).headD 0) line false else s2

/-! ## The meanings -/

/-- X_COMMAND_PERFORM (R237). -/
def execXCommandPerform (key tok : Nat) (s : State) : Host.Outcome State Fault Refusal := .next (s.performCmd key tok)
/-- ENGINE_RECORD_WRITE (R448). -/
def execEngineRecordWrite (key tok : Nat) (s : State) : Host.Outcome State Fault Refusal := .next (s.performCmd key tok)
/-- LOAD_DATA_ARRIVAL (R444). -/
def execLoadDataArrival (key tok : Nat) (s : State) : Host.Outcome State Fault Refusal := .next (s.loadArrive key tok)
/-- LDFE_RETRY (R454). -/
def execLdfeRetry (key : Nat) (s : State) : Host.Outcome State Fault Refusal := .next (s.ldfeRetry key)
/-- CHANNEL_WAIT_SATISFIED (R450). -/
def execChannelWaitSatisfied (key : Nat) (s : State) : Host.Outcome State Fault Refusal := .next (s.chanWaits key)
/-- FLGWAIT_POLL (R465). -/
def execFlgwaitPoll (key : Nat) (s : State) : Host.Outcome State Fault Refusal := .next (s.flgPolls key)
/-- BAYSPLIT_COMPLETE (R218). -/
def execBaysplitComplete (key : Nat) (s : State) : Host.Outcome State Fault Refusal := .next (s.baysplits key)
/-- WAIT_TIMEOUT (R181). -/
def execWaitTimeout (key : Nat) (s : State) : Host.Outcome State Fault Refusal := .next (s.waitTimeouts key)
/-- IMPLICIT_WAIT_EXPIRY (R183). -/
def execImplicitWaitExpiry (key : Nat) (s : State) : Host.Outcome State Fault Refusal := .next (s.implicitExpiries key)
/-- HBAR_PHASE_COMPLETE (R170). -/
def execHbarPhaseComplete (hitch : Nat) (s : State) : Host.Outcome State Fault Refusal := .next (s.phaseComplete hitch)
/-- GUARD_COMMIT (R469): the GCHECK at the head of a context's commands is performed. -/
def execGuardCommit (key : Nat) (s : State) : Host.Outcome State Fault Refusal :=
  .next (match (s.ctx key).xq.find? (fun x => isBarrier x.i && !isFence x.i) with
    | some x => s.performCmd key x.tok
    | none => s)
/-- TRANSLATION_WALK (R205): a walk fills the TLBs, or reports its fault. -/
def execTranslationWalk (key va : Nat) (access : BitVec 4) (s : State) : Host.Outcome State Fault Refusal :=
  .next (match (translate key (s.ctx key).stall (va % 2 ^ 49) access) s with
    | (.error (.fault va kind acc), t) => t.reportFault (t.ctx key).asid va kind acc
    | (_, t) => t)
/-- LINE_WRITEBACK (R220). -/
def execLineWriteback (paddock line : Nat) (s : State) : Host.Outcome State Fault Refusal := .next (s.lineWriteback paddock line)
/-- CLEAN_LINE_DROP (R220). -/
def execCleanLineDrop (stall line : Nat) (l0 : Bool) (s : State) : Host.Outcome State Fault Refusal := .next (s.lineDrop stall line l0)
/-- REIN_FLIT_RECEIVE (R43, R459). -/
def execReinFlitReceive (stall : Nat) (link : Option Nat) (flit : BitVec 512) (sender : Option Nat) (s : State) : Host.Outcome State Fault Refusal :=
  .next (s.reinReceive [stall] link flit sender)

end Sys2Proof.Machine
end

