-- ==== Sys2Proof/Machine/Gang.lean ====
section
/-! DEFINITION. Machine/Gang.lean: the captured configuration of a nest, the gathering of gangs and their rejection, the
resources of a gang, and the ends of a nest (R309, R415 to R424, R433, R436). -/

namespace Sys2Proof.Machine

/-! ## The captured words (R418 to R420) -/

/-- Word i of a captured configuration. -/
def cfgW (c : List DWord) (i : Nat) : DWord := c.getD i 0
/-- C0, KLEV, FMTA, WSLOT, ICH. -/
def nestC0 (c : List DWord) : Nat := bits (cfgW c 0) 8 0 + 1
def nestKlev (c : List DWord) : Nat := bits (cfgW c 0) 18 16
def nestFmta (c : List DWord) : Nat := bits (cfgW c 0) 23 20
def nestWslot (c : List DWord) : Nat := bits (cfgW c 0) 31 28
def nestIch (c : List DWord) : Nat := bits (cfgW c 0) 35 32
/-- C1 to C5. -/
def nestCounts (c : List DWord) : List Nat :=
  [bits (cfgW c 1) 15 0 + 1, bits (cfgW c 1) 31 16 + 1, bits (cfgW c 1) 47 32 + 1, bits (cfgW c 1) 63 48 + 1, bits (cfgW c 2) 15 0 + 1]
/-- P and R of R418. -/
def nestP (c : List DWord) : Nat := extents (nestCounts c)
def nestR (c : List DWord) : Nat := extents ((nestCounts c).take (nestKlev c))
/-- HEAD, LEN, the tail, GANG. -/
def nestHead (c : List DWord) : Nat := bits (cfgW c 3) 11 0
def nestLen (c : List DWord) : Nat := bits (cfgW c 3) 17 12 + 1
def nestTail (c : List DWord) : Nat := nestHead c + nestLen c - 1
/-- What the arms of one gang agree in (R423). -/
def nestKey (c : List DWord) : Nat × Nat × Nat := (nestHead c, nestLen c, bits (cfgW c 2) 31 16)
/-- The chain contains module columns 31 and 32 (R415). -/
def nestCrosses (c : List DWord) : Bool := nestHead c % 64 ≤ 31 && 32 ≤ nestHead c % 64 + nestLen c - 1

/-- The mixed-radix digits of a pass number (R418). -/
def digits : List Nat → Nat → List Nat
  | [], _ => []
  | c :: t, p => p % c :: digits t (p / c)

/-- t(p) of R419. -/
def nestTile (c : List DWord) (p : Nat) : Nat :=
  let str := [bits (cfgW c 4) 63 32, bits (cfgW c 5) 31 0, bits (cfgW c 5) 63 32, bits (cfgW c 6) 31 0, bits (cfgW c 6) 63 32]
  let t : Int := ((digits (nestCounts c) p).zip str).foldl (fun t x => t + (x.1 : Int) * sextNat x.2 32) (bits (cfgW c 4) 31 0 : Nat)
  lowBits t 32

/-- OMODE, OFMT and the flags of E0 (R420). -/
def epiMode (e : List DWord) : Nat := bits (cfgW e 0) 1 0
def epiFmt (e : List DWord) : Nat := bits (cfgW e 0) 7 4

/-- The depth of a format's class, by FMT code (R279). -/
def classDepth (f : Nat) : Nat := if f = 7 then 8 else if f ≤ 2 then 2 else 4
/-- D of two formats (R279). -/
def depthOf (a w : Nat) : Nat := Nat.min (classDepth a) (classDepth w)

/-! ## Checks of an arm (R423) -/

/-- A captured epilogue word breaks R420. -/
def badEpi (e : List DWord) : Bool :=
  epiMode e == 3 || 8 < epiFmt e || bits (cfgW e 0) 63 14 != 0 || bits (cfgW e 0) 3 2 != 0 || bits (cfgW e 1) 63 32 != 0 ||
  bits (cfgW e 2) 63 49 != 0 || bits (cfgW e 2) 6 0 != 0 || bits (cfgW e 3) 19 17 != 0 || bits (cfgW e 3) 63 24 != 0 ||
  bits (cfgW e 5) 63 32 != 0 || cfgW e 7 != 0

/-- Code 1 CONFIG. -/
def badConfig (n : Nest) (stall : Nat) : Bool :=
  let c := n.cfg
  bits (cfgW c 0) 15 9 != 0 || bit (cfgW c 0) 19 || bits (cfgW c 0) 27 24 != 0 || bits (cfgW c 0) 63 36 != 0 || 5 < nestKlev c ||
  bits (cfgW c 2) 63 56 != 0 || bits (cfgW c 3) 63 18 != 0 || 2 ^ 32 ≤ nestP c || stall < nestHead c || nestTail c < stall ||
  64 < nestHead c % 64 + nestLen c || (stall == nestTail c && badEpi n.epi)

/-- Code 2 FORMAT, of an arming context. -/
def badFormatArm (x : Ctx) (c : List DWord) : Bool :=
  nestFmta c == 0 || 8 < nestFmta c ||
  (match x.slots.get? (nestWslot c) with
   | some t => !t.valid || !t.pinned || t.fmt == 0 || 8 < t.fmt || (t.fmt == 8 && !t.scaled)
   | none => true) ||
  (match x.chans.get? (nestIch c) with
   | some ch => !ch.array
   | none => true)

/-- D of an arming context. -/
def armDepth (x : Ctx) : Nat :=
  depthOf (nestFmta x.nest.cfg) (match x.slots.get? (nestWslot x.nest.cfg) with
    | some t => t.fmt
    | none => 0)

/-- What members of one gang agree in (code 3 MISMATCH): C0 to C5, KLEV, GANG, D and MANUAL. -/
def armShape (x : Ctx) : List Nat :=
  [nestC0 x.nest.cfg, nestKlev x.nest.cfg, armDepth x, (x.nest.mode.getLsbD 1).toNat] ++ nestCounts x.nest.cfg

/-- The trace module that a chain crosses is DOWN (code 5 LINK). -/
def State.crossingDown (s : State) (c : List DWord) : Bool := nestCrosses c && s.linkState (traceLink (stallRow (nestHead c))) == 3

/-- The rejection code of an arm beside the arms gathered with it, or 0. -/
def State.armCode (s : State) (x : Ctx) (mates : List (Nat × Ctx)) : Nat :=
  if badConfig x.nest x.stall then 1
  else if badFormatArm x x.nest.cfg then 2
  else if mates.any (fun m => armShape m.2 != armShape x) then 3
  else if s.crossingDown x.nest.cfg then 5
  else 0

/-! ## Gathering (R423) -/

/-- An item put into a list in rising order of a measure, after those of its own. -/
def insertBy {α : Type} (f : α → Nat) : List α → α → List α
  | [], x => [x]
  | h :: t, x => if f x < f h then x :: h :: t else h :: insertBy f t x
/-- A list in rising order of a measure. -/
def sortBy {α : Type} (f : α → Nat) (l : List α) : List α := l.foldl (insertBy f) []

/-- The contexts with an arm of a gang that has not started, in the order of their arms. -/
def State.arms (s : State) : List (Nat × Ctx) :=
  sortBy (fun c => c.2.nest.arm) (s.ctxs.filter (fun c => c.2.nest.st == .armed && c.2.nest.gang.isNone))

/-- The arms gathered under a key. -/
def State.gathering (s : State) (key : Nat × Nat × Nat) : List (Nat × Ctx) :=
  s.arms.filter (fun c => c.2.nest.gathered && nestKey c.2.nest.cfg == key)

/-- The contexts that one M word of an ARMED nest acts on: its gang as gathered, or itself (R433). -/
def State.mates (s : State) (k : Nat) : List Nat :=
  let x := s.ctx k
  if x.nest.gathered then (s.gathering (nestKey x.nest.cfg)).map (·.1) else [k]

/-- The nest of a context changed. -/
def State.modNest (s : State) (k : Nat) (f : Nest → Nest) : State := s.modCtx k (fun c => { c with nest := f c.nest })

/-- Arms rejected with a code: no resource is taken. -/
def State.rejectArms (s : State) (keys : List Nat) (code : Nat) : State :=
  keys.foldl (fun s k => s.modNest k (fun n => { n with st := .rejected, code := code, fpend := false, gathered := false })) s

/-- One arm gathers, unless the gang that gathers under its key has an arm of its stall already; its own check may reject the
gang. -/
def State.gatherOne (s : State) (k : Nat) : State :=
  let x := s.ctx k
  if x.nest.st != .armed || x.nest.gang.isSome || x.nest.gathered then s
  else
    let mates := s.gathering (nestKey x.nest.cfg)
    if mates.any (fun m => m.2.stall == x.stall) then s
    else
      let code := s.armCode x mates
      if code = 0 then
        s.modNest k (fun n => { n with gathered := true, fpend := n.fpend || mates.any (fun m => m.2.nest.fpend) })
      else s.rejectArms (k :: mates.map (·.1)) code

/-- Every arm that may gather does; a rejection may let others gather, so twice. -/
def State.gather (s : State) : State :=
  let once := fun (s : State) => s.arms.foldl (fun s c => s.gatherOne c.1) s
  once (once s)

/-! ## Resources (R415, R417) -/

/-- The links of a sum path: the module row, and the columns from the head to the east edge of the tail's die. -/
def chainSpan (head len : Nat) : Nat × Nat × Nat :=
  (stallRow head, stallCol head, if stallCol head + len - 1 < 32 then 31 else 63)
/-- Two sum paths share a resource. Paths that end at one whiffletree share its last link, so links alone decide. -/
def spansMeet (a b : Nat × Nat × Nat) : Bool := a.1 == b.1 && a.2.1 ≤ b.2.2 && b.2.1 ≤ a.2.2

/-- The sum path of a gang. -/
def Gang.span (g : Gang) : Nat × Nat × Nat := chainSpan (nestHead g.cfg) (nestLen g.cfg)
/-- A gang holds its resources: it has not ended, or a store that it began goes on; and the collector has not drained it. -/
def Gang.holds (g : Gang) : Bool := (!g.ended || !g.stores.isEmpty) && g.saved.isNone

/-- A gang that waits for its resources: its place in the order, its contexts from head to tail, its tail's configuration, and the
gang itself when it resumes. -/
structure Waiting where
  order : Nat
  keys : List Nat
  cfg : List DWord
  gang : Option Nat
  deriving DecidableEq, Repr

/-- A context that may take part in a start: on its stall, not stopped, not retiring. -/
def Ctx.onStall (c : Ctx) : Bool :=
  !c.retiring && (match c.loc with
    | .on _ _ => true
    | .stopped _ _ _ | .waiting _ | .saved => false)

/-- The gangs all of whose members have armed, and the drained gangs all of whose members have resumed, in the order of R417. -/
def State.waiting (s : State) : List Waiting :=
  let tails := s.arms.filter (fun c => c.2.nest.gathered && c.2.stall == nestTail c.2.nest.cfg)
  let fresh := tails.filterMap (fun t =>
    let all := s.gathering (nestKey t.2.nest.cfg)
    let mem := (List.range (nestLen t.2.nest.cfg)).filterMap (fun j => all.find? (fun m => m.2.stall == nestHead t.2.nest.cfg + j))
    if mem.length == nestLen t.2.nest.cfg && mem.all (fun m => m.2.onStall) then
      some { order := mem.foldl (fun n m => Nat.max n m.2.nest.arm) 0, keys := mem.map (·.1), cfg := t.2.nest.cfg, gang := none : Waiting }
    else none)
  let back := s.gangs.filterMap (fun g =>
    if g.2.saved.isSome && !g.2.ended && g.2.members.all (fun m => (s.ctx m.key).resident && ((s.ctx m.key).onStall || (s.ctx m.key).retiring)) then
      some { order := g.2.order, keys := g.2.members.map (·.key), cfg := g.2.cfg, gang := some g.1 : Waiting }
    else none)
  sortBy (fun w => w.order) (fresh ++ back)

/-- The sum path of a waiting gang. -/
def Waiting.span (w : Waiting) : Nat × Nat × Nat := chainSpan (nestHead w.cfg) (nestLen w.cfg)

/-- Every resource of a waiting gang is free, and no gang before it waits for one of them. -/
def State.mayStart (s : State) (w : Waiting) : Bool :=
  s.gangs.all (fun g => !g.2.holds || !spansMeet g.2.span w.span) &&
  s.waiting.all (fun v => w.order ≤ v.order || !spansMeet v.span w.span)

/-! ## Gangs -/

/-- A gang changed. -/
def State.modGang (s : State) (g : Nat) (f : Gang → Gang) : State := { s with gangs := s.gangs.upd g f }
/-- The nests of the members of a gang changed. -/
def State.modNests (s : State) (g : Nat) (f : Nest → Nest) : State :=
  { s with ctxs := s.ctxs.map (fun c => if c.2.nest.gang == some g then (c.1, { c.2 with nest := f c.2.nest }) else c) }

/-- The whiffletree of a gang, as its die row. -/
def Gang.whiff (g : Gang) : Nat := stallDieRow (nestTail g.cfg)
/-- The key of accumulator entry e of a whiffletree (R434). -/
def accKey (whiff e : Nat) : Nat := whiff * 1024 + e
/-- An entry set to +0, which clears its poison (R302). -/
def State.accClear (s : State) (whiff e : Nat) : State := { s with acc := s.acc.del (accKey whiff e) }
/-- The value of an accumulator entry: +0 where none is kept. -/
def State.accGet (s : State) (whiff e : Nat) : AccEntry := s.acc.getD (accKey whiff e) { vals := List.replicate 32 0 }
/-- An entry set. -/
def State.accPut (s : State) (whiff e : Nat) (v : AccEntry) : State := { s with acc := s.acc.put (accKey whiff e) v }

/-- Where the head stands: the pass that it starts, or is in. -/
def Gang.pass (g : Gang) : Nat := (g.members.head?.map (fun m => m.pass)).getD 0
/-- The key of the tail's context. -/
def Gang.tailKey (g : Gang) : Nat := (g.members.getLast?.map (fun m => m.key)).getD 0
/-- The nest is FROZEN, by a program or by the collector. -/
def Gang.still (g : Gang) : Bool := g.frozen || g.byCollector

/-! ## NWAIT (R251, R440) -/

/-- Every store of a context's nest has been performed. -/
def State.nestStored (s : State) (k : Nat) : Bool :=
  match (s.ctx k).nest.gang.bind s.gangs.get? with
  | some g => g.stores.isEmpty
  | none => true

/-- The NWAIT of a context resolves when its nest has ended, as the acquire of R251, or has no nest to wait for; words in the
port queue are applied first. -/
def State.nwaitTest (s : State) (k : Nat) : State :=
  let x := s.ctx k
  if !x.waits.any (fun w => w.kind == .nwait) || !x.nest.port.isEmpty then s
  else
    match x.nest.st with
    | .done | .cut => if s.nestStored k then (s.acquireAt x.stall 3).waitOver k .nwait true else s
    | .idle | .rejected | .check => s.waitOver k .nwait false
    | .armed | .running | .frozen => s

/-- The NWAITs of the members of a gang tested. -/
def State.nwaits (s : State) (g : Nat) : State :=
  (s.ctxs.filter (fun c => c.2.nest.gang == some g)).foldl (fun s c => s.nwaitTest c.1) s

/-! ## Ends (R309, R424, R433, R440) -/

/-- A gang that has ended and stored everything is forgotten; its members keep their status. -/
def State.forgetGang (s : State) (g : Nat) : State :=
  match s.gangs.get? g with
  | some x => if x.ended && x.stores.isEmpty then { s with gangs := s.gangs.del g } else s
  | none => s

/-- A nest ends in a state: it starts nothing further and holds no resource; stores already begun complete. -/
def State.endGang (s : State) (g : Nat) (st : NestSt) : State :=
  let s1 := s.modGang g (fun x => { x with ended := true, flight := [], fpend := false, cpend := none, ending := none, frozen := false,
                                           byCollector := false, stopping := false, saved := none })
  let s2 := s1.modNests g (fun n => { n with st := st })
  ((s2.nwaits g).forgetGang g).gather

/-- NEST_CHECK: the nest ends with no further step and no further store; each rider that armed it owes the trap (R309). -/
def State.nestCheck (s : State) (g step : Nat) : State :=
  match s.gangs.get? g with
  | none => s
  | some x =>
    let info : DWord := BitVec.ofNat 64 (step % 2 ^ 16 + x.row * 2 ^ 16)
    let s1 := s.modGang g (fun x => { x with stores := [] })
    let s2 := s1.modNests g (fun n => { n with owes := some info })
    s2.endGang g .check

/-- A cut at a pass boundary, or of a frozen nest: with END the partial group is stored first (R433). -/
def State.cutGang (s : State) (g : Nat) (abandon : Bool) : State :=
  match s.gangs.get? g with
  | none => s
  | some x =>
    let p := x.pass
    let part := p % nestR x.cfg != 0 && epiMode x.epi != 0 && p < nestP x.cfg
    if abandon || !part then s.endGang g .cut
    else
      (s.modGang g (fun x => { x with cpend := none, fpend := false, ending := some .cut, frozen := false,
                                      stores := x.stores ++ [{ group := p / nestR x.cfg, clear := false }] })).push [.epilogue g]

/-- Every member rider of a gang has retired (R436). -/
def State.gangOrphan (s : State) (x : Gang) : Bool := x.members.all (fun m => (s.ctx m.key).retiring)

/-- Members that have retired: an armed one withdraws its arm; one that ended through an error cuts the nest as ABANDON does; a nest
that a program froze and none of whose riders is left ends CUT (R436). -/
def State.nestRetire (s : State) : State :=
  let gone := s.ctxs.filter (fun c => c.2.retiring && c.2.nest.st == .armed && c.2.nest.gang.isNone)
  let s1 := gone.foldl (fun s c => if (s.ctx c.1).nest.st == .armed then s.rejectArms (s.mates c.1) 4 else s) s
  let s2 := if gone.isEmpty then s1 else s1.gather
  s2.gangs.foldl (fun s g =>
    if g.2.ended then s
    else
      let s1 := if g.2.cpend != some true && g.2.members.any (fun m => (s.ctx m.key).failed.isSome) then
          (if g.2.still && g.2.saved.isNone then s.endGang g.1 .cut else s.modGang g.1 (fun x => { x with cpend := some true }))
        else s
      match s1.gangs.get? g.1 with
      | some x => if !x.ended && x.frozen && !x.byCollector && s1.gangOrphan x then s1.endGang g.1 .cut else s1
      | none => s1) s2

end Sys2Proof.Machine
end

