-- ==== Sys2Proof/Machine/Array.lean ====
section
/-! DEFINITION. Machine/Array.lean: weight-latch fills, array steps, the sums that travel along a chain, and trace flits (R24, R31,
R42, R44 to R46, R279 to R281, R421, R425 to R428). -/

namespace Sys2Proof.Machine

/-! ## Fills (R24, R425 to R428) -/

/-- Cycles of a fill at the DRAM step in effect (R24). -/
def State.fillCycles (s : State) (st : Nat) : Nat :=
  match bits (s.reg (.dramclk (stallQuarter st))) 3 2 with
  | 0 => 23
  | 1 => 28
  | _ => 38

/-- A member of a gang. -/
def Gang.member (g : Gang) (m : Nat) : Option Member := g.members[m]?
/-- A member changed. -/
def State.modMember (s : State) (g m : Nat) (f : Member → Member) : State :=
  s.modGang g (fun x => { x with members := x.members.modify m f })

/-- MANUAL of a gang (R422). -/
def Gang.manual (g : Gang) : Bool := g.mode.getLsbD 1

/-- The weight latch of a stall: bank false is the first. -/
def State.latch (s : State) (st : Nat) (b : Bool) : Latch := if b then (s.stalls.getD st {}).latch1 else (s.stalls.getD st {}).latch0
/-- A weight-latch bank set. -/
def State.setLatch (s : State) (st : Nat) (b : Bool) (l : Latch) : State :=
  let x := s.stalls.getD st {}
  { s with stalls := s.stalls.put st (if b then { x with latch1 := l } else { x with latch0 := l }) }

/-- The cycle from which a bank of a member is free. -/
def Member.freeAt (m : Member) (b : Bool) : Nat := if b then m.free1 else m.free0
/-- A bank free from a cycle on. -/
def Member.setFree (m : Member) (b : Bool) (c : Nat) : Member := if b then { m with free1 := c } else { m with free0 := c }

/-- The bank of a pass in automatic mode. -/
def passBank (p : Nat) : Bool := p % 2 == 1

/-- What the next fill of a member reads, and its bank: the tile of its next pass, or the WFETCH that waits (R425, R427). -/
def State.nextFill (s : State) (g : Gang) (m : Member) : Option (Nat × Nat × Bool) :=
  let n := (s.ctx m.key).nest
  if g.manual then
    match n.wfetch with
    | some (tile, slot) => if n.granted == n.grants.length || (n.grants.drop n.granted).all id then some (tile, slot, !m.bank) else none
    | none => none
  else
    let c := n.cfg
    if m.fill < nestP g.cfg && (m.fill == g.base || m.fill ≤ m.pass || (m.fill == m.pass + 1 && 0 < m.step)) then
      some (nestTile c m.fill, nestWslot c, passBank m.fill)
    else none

/-- The origin of a tile (R228). -/
def tileOrigin : List Nat → List Nat → Nat → List Nat
  | c :: cs, te :: tes, n => n % c * te :: tileOrigin cs tes (n / c)
  | _, _, _ => []

/-- The window of a tile as a latch holds it: element (k, n) at 32 k + n (R426). Answers codes, scales, and whether a byte was
poisoned or not read. -/
def readWindow (k : Nat) (t : TSlot) (tile st win0 win1 depth : Nat) (xpose : Bool) : A (List Nat × List Nat × Bool) := do
  let zero := (List.replicate (1024 * depth) 0, List.replicate (1024 * depth) 0x7F)
  if extents t.counts ≤ tile then pure (zero.1, zero.2, false)
  else do
    let e ← tileEntry k t tile (some st) tensorRead
    if e.lame ≠ 0 then pure (zero.1, zero.2, true)
    else do
      let org := tileOrigin t.counts t.tile tile
      let got ← (List.range (1024 * depth)).mapM (fun i => do
        let a := if xpose then win0 + i / 32 else win0 + i % 32
        let b := if xpose then win1 + i % 32 else win1 + i / 32
        if t.tile.getD 0 1 ≤ a || t.tile.getD 1 1 ≤ b || t.outside (org.set 0 (org.getD 0 0 + a) |>.set 1 (org.getD 1 0 + b)) then
          pure ((⟨0, 0⟩ : Lamed Nat), (⟨0x7F, 0⟩ : Lamed Nat))
        else do
          let el := a + b * t.tile.getD 0 1
          let x ← elemRead k t e.val el
          if t.scaled then do
            let y ← tRead k (e.val + t.spoff + el / 32) 1
            pure (x, ⟨leNat y.val, y.lame⟩)
          else pure (x, ⟨0x7F, 0⟩))
      pure (got.map (·.1.val), got.map (·.2.val), got.any (fun x => x.1.lame ≠ 0 || x.2.lame ≠ 0))

/-- A fill of a member begins when its bank is free: its transfers are accepted, and it runs at the rate in effect; a quarter whose clock
changes, or a held column, lets none begin (R29, R158, R425, R427). Its bank is full when it completes, as poisoned when a byte was, or
when its read was aborted; a fault halts it (R426, R428). -/
def State.fillBegin (s : State) (gi mi : Nat) : State :=
  match s.gangs.get? gi with
  | none => s
  | some g =>
    match g.member mi with
    | none => s
    | some m =>
      if g.ended || g.saved.isSome || m.fillAt.isSome || m.halted.isSome || bit (s.reg (.dramclk (stallQuarter m.stall))) 4 then s
      else
        match s.nextFill g m with
        | none => s
        | some (tile, slot, b) =>
          if s.clock < m.freeAt b then s
          else
            let x := s.ctx m.key
            let c := x.nest.cfg
            let begin' := fun (s : State) (l : Latch) =>
              (s.setLatch m.stall b l).modMember gi mi (fun m => { m with fillAt := some (s.clock + s.fillCycles m.stall), dead := [] })
            match x.slots.get? slot with
            | none => begin' s { poison := true }
            | some t =>
              if !t.valid then begin' s { poison := true }
              else
                match (withDead m.key m.dead <| readWindow m.key t tile m.stall (bits (cfgW c 2) 43 32) (bits (cfgW c 2) 55 44) g.depth
                    (x.nest.mode.getLsbD 0)) s with
                | (.ok (codes, scales, bad), t1) => begin' t1 { poison := bad, fmt := t.fmt, elems := codes, scales := scales }
                | (.error .refused, t1) => begin' t1 { poison := true }
                | (.error .wait, t1) => t1
                | (.error (.fault va kind acc), t1) =>
                  (t1.modMember gi mi (fun m => { m with halted := some (va, kind, acc) })).reportFault x.asid va kind acc

/-- A fill completes: its bank is full (R425); a nest that has ended or been drained holds no bank any more (R417, R435). -/
def State.fillDone (s : State) (gi mi : Nat) : State :=
  match s.gangs.get? gi with
  | none => s
  | some g =>
    match g.member mi with
    | none => s
    | some m =>
      if g.ended || g.saved.isSome then s
      else
      match m.fillAt, s.nextFill g m with
      | none, _ => s
      | some _, none => s.modMember gi mi (fun m => { m with fillAt := none })
      | some t, some (_, _, b) =>
        if s.clock < t then s
        else
          let s1 := (s.setLatch m.stall b { s.latch m.stall b with full := true }).modMember gi mi (fun m =>
            { m with fillAt := none, fill := m.fill + 1 })
          if g.manual then s1.modNest m.key (fun n => { n with wfetch := none }) else s1

/-! ## The array (R279 to R281) -/

/-- An element with the scale of its block (R261); half-class elements carry none (R279). -/
def scaledVal (f : Nat) (code scale : Nat) : Val :=
  let fm := if f = 8 then .mxi8 else (fmtOf f).getD .e4m3
  if f ≤ 2 then decode fm code
  else if scale = 0xFF then .nan false
  else (decode fm code).scale ((scale : Int) - 127)

/-- pe_step of R280: the products added exactly to the incoming sum, and one rounding. -/
def peStep (sIn : Nat) (ab : List (Val × Val)) : Nat :=
  (roundTo .fp32 .rne false 0 (ab.foldl (fun t p => (addVal .rne t (mulVal p.1 p.2).1).1) (decode .fp32 sIn))).1

/-- Groups of n of a list. -/
def chunks {α : Type} (n : Nat) : Nat → List α → List (List α)
  | 0, _ => []
  | k + 1, l => l.take n :: chunks n k (l.drop n)

/-- The sum of one output column of a stall: PE rows 0 to 31 in ascending order (R281). -/
def columnSum (depth sIn : Nat) (ab : List (Val × Val)) : Nat := (chunks depth 32 ab).foldl peStep sIn

/-- The sums of a stall for one activation row: column c of the latch holds elements k at 32 k + c. -/
def stallSums (depth : Nat) (a w : List Val) (sIn : List Nat) : List Nat :=
  (List.range 32).map (fun c =>
    columnSum depth (sIn.getD c 0) ((List.range (32 * depth)).map (fun k => (a.getD k (.nan false), w.getD (32 * k + c) (.nan false)))))

/-! ## Activation rows (R421) -/

/-- Bytes of an element in a record. -/
def rowBytes (fmta : Nat) : Nat := if fmta ≤ 2 then 2 else 1
/-- Rows of a record. -/
def recRows (fmta depth : Nat) : Nat := 256 / (32 * depth * rowBytes fmta)

/-- Row r of a record's bytes, as values. -/
def rowVals (fmta depth : Nat) (b : List Byte) (r : Nat) : List Val :=
  let n := rowBytes fmta
  (List.range (32 * depth)).map (fun k =>
    let o := r * 32 * depth * n + k * n
    scaledVal fmta (leNat ((b.drop o).take n)) (b.getD (256 + o / 32) 0).toNat)

/-- The record that holds the next activation row of a member. -/
def State.rowReady (s : State) (m : Member) : Option (Chan × Nat) :=
  let x := s.ctx m.key
  match x.chans.get? (nestIch x.nest.cfg) with
  | some ch => ch.ready.map (fun r => (ch, r))
  | none => none

/-! ## Steps (R31, R425) -/

/-- The cap of a stall's row permits a step in this cycle of its row domain, whose cycle is not the second half of a stretched one (R31,
R307). -/
def State.capAllows (s : State) (st : Nat) : Bool :=
  let m := bits (s.reg (.rowpwr (stallDieRow st))) 22 16
  let c := s.cycle st % 64
  !s.stretched.contains (stallDieRow st) && c * m / 64 < (c + 1) * m / 64

/-- The bank that the next pass of a member uses, when its grant has come (R427). -/
def State.passBankOf (s : State) (g : Gang) (m : Member) : Option Bool :=
  if !g.manual then some (passBank m.pass)
  else if 0 < m.step then some m.bank
  else
    let n := (s.ctx m.key).nest
    (n.grants[n.granted]?).map (fun keep => if keep then m.bank else !m.bank)

/-- The cycles of the sums of a step from a member: to the next member, or into the whiffletree's accumulators (R416). -/
def sumLatency (st : Nat) (tail : Bool) : Nat :=
  if tail then 8 + 2 * (31 - stallCol st % 32) + 2 + 4 else if stallCol st = 31 then 16 else 10

/-- A group that is being stored, or whose sums are still on their way from the tail, holds back the group two later (R429). -/
def Gang.blocked (g : Gang) (pass : Nat) : Bool :=
  epiMode g.epi != 0 && (g.stores.any (fun x => x.clear && x.group + 2 ≤ pass / nestR g.cfg) ||
    g.flight.any (fun f => f.next == g.members.length && f.pass / nestR g.cfg + 2 ≤ pass / nestR g.cfg))

/-- A head that has reached a pass boundary starts no pass while a freeze, a cut or a stop is pending (R433). -/
def Gang.boundaryHeld (g : Gang) : Bool := g.fpend || g.cpend.isSome || g.stopping

/-- A crossing from a member's stall has credit and is up (R45). -/
def State.crossingOpen (s : State) (st : Nat) : Bool :=
  let l := traceLink (stallRow st)
  stallCol st != 31 || (s.linkState l == 1 && (s.linkDir l).credits != 0)

/-- The sums that a member takes: zeros at the head, else those that have reached it. -/
def State.incoming (s : State) (g : Gang) (mi : Nat) (m : Member) : Option Sums :=
  if mi = 0 then some { pass := m.pass, row := m.step, sums := List.replicate 32 0, poison := false, next := 0, ready := 0 }
  else g.flight.find? (fun f => f.next == mi && f.pass == m.pass && f.row == m.step && !f.wire && f.ready ≤ s.clock)

/-- A member may start its next step in this cycle; answers the bank, the record and the incoming sums (R425). -/
def State.stepReady (s : State) (g : Gang) (mi : Nat) (m : Member) : Option (Bool × Chan × Nat × Sums) :=
  let tail := mi + 1 == g.members.length
  if g.ended || g.still || g.saved.isSome || g.ending.isSome || nestP g.cfg ≤ m.pass || m.last == some s.clock ||
     (mi == 0 && m.step == 0 && g.boundaryHeld) || !s.capAllows m.stall || (tail && g.blocked m.pass) ||
     (!tail && (!s.crossingOpen m.stall || g.flight.any (fun f => f.next == mi + 1 && !f.wire && f.ready ≤ s.clock))) then none
  else
    match s.passBankOf g m, s.rowReady m, s.incoming g mi m with
    | some b, some (ch, r), some f => if (s.latch m.stall b).full then some (b, ch, r, f) else none
    | _, _, _ => none

/-- The code of a word's checksum lane: the sum of (c + 1) × u[c] modulo 2^32 − 1 (R432). -/
def cks (u : List Nat) : Nat := (u.zipIdx.foldl (fun t x => t + (x.2 + 1) * x.1) 0) % (2 ^ 32 - 1)

/-- A trace flit of sums (R42). -/
def traceFlit (f : Sums) (step seq : Nat) (last : Bool) : BitVec 1152 :=
  let x := packNat 32 f.sums + cks f.sums * 2 ^ 1024 + step % 65536 * 2 ^ 1056 + seq % 256 * 2 ^ 1072 + 2 ^ 1080 + last.toNat * 2 ^ 1081 +
    f.poison.toNat * 2 ^ 1082
  BitVec.ofNat 1152 (x + (crc32 (leBytes 140 x)).toNat * 2 ^ 1120)

/-- Sums sent across the die crossing of a module row (R42, R45). -/
def State.sendTrace (s : State) (row : Nat) (f : Sums) (step : Nat) (last : Bool) : State :=
  let l := traceLink row
  let d := s.linkDir l
  let flit := traceFlit f step d.txSeq.toNat last
  ((s.modLink l (fun d => { d with txSeq := d.txSeq + 1, credits := d.credits - 1,
                                   replay := (d.replay ++ [(d.txSeq.toNat, [row], flit.toNat)]).reverse.take 16 |>.reverse })).emit
    (.linkFlit l flit.toNat)).push [.traceFlit l flit]

/-- A member starts a step: its sums are formed, its record consumed after its last row, its bank freed after its last step, and the
context charged (R139, R281, R421, R425). -/
def State.arrayStep (s : State) (gi mi : Nat) : State :=
  match s.gangs.get? gi with
  | none => s
  | some g =>
    match g.member mi with
    | none => s
    | some m =>
      match s.stepReady g mi m with
      | none => s
      | some (b, ch, r, f) =>
        let x := s.ctx m.key
        let c := x.nest.cfg
        let rec' := s.recordAt m.key ch ch.head r
        let l := s.latch m.stall b
        let sums := stallSums g.depth (rowVals (nestFmta c) g.depth rec'.val m.row) ((l.elems.zip l.scales).map (fun p => scaledVal l.fmt p.1 p.2)) f.sums
        let lastRow := m.row + 1 == recRows (nestFmta c) g.depth
        let lastStep := m.step + 1 == nestC0 g.cfg
        let tail := mi + 1 == g.members.length
        let wire := !tail && stallCol m.stall == 31
        let out : Sums := { pass := m.pass, row := m.step, sums := sums, poison := f.poison || rec'.lame ≠ 0 || l.poison, next := mi + 1,
                            ready := s.clock + sumLatency m.stall tail, wire := wire }
        let s1 := s.readRecord m.key (BitVec.ofNat 4 (nestIch c)) ch r (!lastRow)
        let m1 : Member := { m with row := if lastRow then 0 else m.row + 1, last := some s.clock, bank := if g.manual then b else m.bank,
                                    pass := if lastStep then m.pass + 1 else m.pass, step := if lastStep then 0 else m.step + 1 }
        let m2 := if lastStep then m1.setFree b (s.clock + 8) else m1
        let s2 := s1.modGang gi (fun g =>
          { g with members := g.members.set mi m2, flight := g.flight.filter (fun y => y != f) ++ [out] })
        let s3 := s2.modCtx m.key (fun c =>
          { c with csr := { c.csr with wearcnt := c.csr.wearcnt + BitVec.ofNat 64 (8 * s.wearFactor m.stall) },
                   nest := if g.manual && m.step == 0 then { c.nest with granted := c.nest.granted + 1 } else c.nest })
        let s4 := if lastStep && !g.manual then s3.setLatch m.stall b { s3.latch m.stall b with full := false } else s3
        let s5 := if wire then s4.sendTrace (stallRow m.stall) out (m.pass * nestC0 g.cfg + m.step) lastStep else s4
        let s6 := if mi = 0 then s5.modNests gi (fun n => { n with pass := m1.pass, group := m1.pass / nestR g.cfg }) else s5
        s6.fillBegin gi mi

/-! ## Trace flits (R42, R45, R46, R432) -/

/-- TRACE_FLIT_RECEIVE: a bad CRC, or a flit after one, is discarded with a NAK of the failed SEQ; the sums of a good flit enter the
receiving array, with POISON when the flit carries it or its CKS does not agree. -/
def State.traceReceive (s : State) (l : Nat) (flit : BitVec 1152) : State :=
  let d := s.linkDir l
  let x := flit.toNat
  let seq : Byte := BitVec.ofNat 8 (x / 2 ^ 1072)
  if d.discarding && seq != d.rxSeq then s
  else if (crc32 (leBytes 140 x)).toNat != x / 2 ^ 1120 then
    (s.modLink l (fun d => { d with discarding := true, rxSeq := seq })).emit (.linkNak l seq)
  else
    let s1 := (s.modLink l (fun d => { d with discarding := false, rxSeq := seq + 1, credits := Nat.min 16 (d.credits + 1) })).emit (.linkCredit l)
    if x / 2 ^ 1080 % 2 = 0 then s1
    else
      let sums := (List.range 32).map (fun j => x / 2 ^ (32 * j) % 2 ^ 32)
      let bad := x / 2 ^ 1082 % 2 = 1 || cks sums != x / 2 ^ 1024 % 2 ^ 32
      match s1.gangs.find? (fun g => !g.2.ended && g.2.flight.any (fun f => f.wire) && traceLink g.2.row == l) with
      | none => s1
      | some (gi, g) =>
        match g.flight.findIdx? (fun f => f.wire) with
        | none => s1
        | some i => s1.modGang gi (fun g => { g with flight := g.flight.modify i (fun f => { f with wire := false, sums := sums, poison := bad }) })

/-! ## The meanings -/

/-- LATCH_FILL_COMPLETE (R425). -/
def execLatchFillComplete (gang member : Nat) (s : State) : Host.Outcome State Fault Refusal := .next ((s.fillDone gang member).fillBegin gang member)
/-- ARRAY_STEP (R425). -/
def execArrayStep (gang member : Nat) (s : State) : Host.Outcome State Fault Refusal := .next (s.arrayStep gang member)
/-- TRACE_FLIT_RECEIVE (R42). -/
def execTraceFlitReceive (link : Nat) (flit : BitVec 1152) (s : State) : Host.Outcome State Fault Refusal := .next (s.traceReceive link flit)

end Sys2Proof.Machine
end

