-- ==== Sys2Proof/Machine/Owner.lean ====
section
/-! DEFINITION. Machine/Owner.lean: interrupts and their delivery, the error counts, and the ownership of the module (R69 to R74,
R88 to R90). -/

namespace Sys2Proof.Machine

/-! ## Owner (R69) -/

/-- The number of a master (R64). -/
def masterNum : Master → Nat
  | .host => 0 | .host2 => 1 | .bmc => 2 | .peer _ => 3

/-- An owner exists, and its number. -/
def State.ownerValid (s : State) : Bool := bit (s.reg .owner) 2
def State.ownerId (s : State) : Nat := bits (s.reg .owner) 1 0

/-- A master owns the module. -/
def State.isOwner (s : State) (m : Master) : Bool :=
  s.ownerValid && s.ownerId == masterNum m &&
  (match m with
   | .peer src => bits (s.reg .owner) 21 16 == src.toNat
   | .host | .host2 | .bmc => true)

/-! ## Signals (R88, R89) -/

/-- A vector is masked in the MSI-X table; the table's mask bits are set at reset as PCIe has it (PRESUMED, log entry 22). -/
def State.msixMasked (s : State) (v : Nat) : Bool := !(s.mem.get (msixAddr (16 * v + 12))).getLsbD 0

/-- A vector is not delivered as an MSI-X: its own mask, the Function Mask, or MSI-X Enable, which is clear, holds it back with its bit of the
PBA set (R89; PRESUMED, log entry 22). -/
def State.msixBlocked (s : State) (v : Nat) : Bool := s.msixMasked v || !s.msixOn || s.msixHeld

/-- A vector signalled to the owner; with no owner it is held for the next one (R89). -/
def State.signal (s : State) (v : Nat) : State :=
  if !s.ownerValid then { s with heldSignals := s.heldSignals ++ [v] }
  else
    match s.ownerId with
    | 3 => s
    | 2 => s.emit (.irq 2 v)
    | m => if s.msixBlocked v then s.setReg .msixPba (setBit (s.reg .msixPba) v true) else s.emit (.irq m v)

/-- The vector of an MSI-X entry that is no longer masked and pends is delivered (R89). -/
def State.msixDeliver (s : State) (v : Nat) : State :=
  if !s.msixBlocked v && bit (s.reg .msixPba) v && s.ownerValid && s.ownerId < 2 then
    (s.setReg .msixPba (setBit (s.reg .msixPba) v false)).emit (.irq s.ownerId v)
  else s

/-- INTCAUSE AND INTEN. -/
def State.pendingInt (s : State) : DWord := s.reg .intcause &&& s.reg .inten

/-- Vector 0 is signalled when INTCAUSE AND INTEN has gone from zero to nonzero (R89). -/
def State.afterInt (s : State) (before : DWord) : State := if before = 0 ∧ s.pendingInt ≠ 0 then s.signal 0 else s

/-- A bit of INTCAUSE set (R88): 0 QERR, 1 OVERRUN, 2 THERM, 3 POWER, 4 FAULT, 5 OWNCHG, 6 BOOT, 7 LINK, 8 CKPT. -/
def State.raiseInt (s : State) (b : Nat) : State :=
  (s.setReg .intcause (setBit (s.reg .intcause) b true)).afterInt s.pendingInt

/-- The signals that waited for an owner are delivered (R89). -/
def State.deliverHeld (s : State) : State :=
  if s.ownerValid then s.heldSignals.foldl (fun s v => s.signal v) { s with heldSignals := [] } else s

/-! ## Error counts (R90) -/

/-- A count of HIFERR one higher; it holds at 0xFFFF. -/
def State.countErr (s : State) (h l : Nat) : State :=
  s.setField .hiferr h l (holdAt 0xFFFF (bits (s.reg .hiferr) h l + 1))
/-- NONOWN, BADACC and DBDROP. -/
def State.nonOwner (s : State) : State := s.countErr 15 0
def State.badAccess (s : State) : State := s.countErr 31 16
def State.dropDoorbell (s : State) : State := s.countErr 47 32

/-- A write that only the owner may make (R74). -/
def State.ownerWrite (s : State) (m : Master) (f : State → State) : State := if s.isOwner m then f s else s.nonOwner

/-- BOOTSTAT.STAGE (R92). -/
def State.stage (s : State) : Nat := bits (s.reg .bootstat) 3 0

/-- A write to a block that answers only from stage 4 on (R74, R92). -/
def State.blockWrite (s : State) (m : Master) (f : State → State) : State :=
  if s.stage = 4 then s.ownerWrite m f else s.badAccess

/-! ## OWNREQ (R71, R72) -/

/-- OWNER with a new value; a change sets INTCAUSE.OWNCHG, and a new owner takes the signals that waited (R72, R88, R89). -/
def State.setOwner (s : State) (v : DWord) : State :=
  if v = s.reg .owner then s else ((s.setReg .owner v).raiseInt 5).deliverHeld

/-- OWNER for a new owner: HANDING clear and EPOCH one higher. -/
def State.ownedBy (s : State) (m : Master) : DWord :=
  let r := s.reg .owner
  let r1 := setBits (setBit (setBit (setBits r 1 0 (masterNum m)) 2 true) 3 false) 15 8 (bits r 15 8 + 1)
  setBits r1 21 16 (match m with
    | .peer src => src.toNat
    | .host | .host2 | .bmc => 0)

/-- CLAIM. -/
def State.claim (s : State) (m : Master) : State :=
  if !s.ownerValid || masterNum m == 2 then s.setOwner (s.ownedBy m) else s
/-- OFFER. -/
def State.offer (s : State) (m : Master) (dest : Nat) : State :=
  let r := s.reg .owner
  if !s.isOwner m then s
  else if dest = masterNum m then s.setOwner (setBit r 3 false)
  else s.setOwner (setBits (setBit r 3 true) 5 4 dest)
/-- ACCEPT. -/
def State.accept (s : State) (m : Master) : State :=
  if bit (s.reg .owner) 3 && bits (s.reg .owner) 5 4 == masterNum m then s.setOwner (s.ownedBy m) else s
/-- RELEASE. -/
def State.release (s : State) (m : Master) : State :=
  if s.isOwner m then s.setOwner (setBit (setBit (s.reg .owner) 2 false) 3 false) else s

/-- A write of OWNREQ by a master (R70): OP in bits 3:2, TO in bits 1:0. -/
def State.ownreq (s : State) (m : Master) (v : DWord) : State :=
  match bits v 3 2 with
  | 0 => s.claim m
  | 1 => s.offer m (bits v 1 0)
  | 2 => s.accept m
  | _ => s.release m

/-- The owner's path is lost: VALID and HANDING clear (R73). -/
def State.losePath (s : State) : State := s.setOwner (setBit (setBit (s.reg .owner) 2 false) 3 false)

/-! ## Meanings -/

/-- CLAIM (R71). -/
def execClaim (m : Master) (s : State) : Host.Outcome State Fault Refusal := .next (s.claim m)
/-- OFFER (R71). -/
def execOffer (m : Master) (dest : BitVec 2) (s : State) : Host.Outcome State Fault Refusal := .next (s.offer m dest.toNat)
/-- ACCEPT (R71). -/
def execAccept (m : Master) (s : State) : Host.Outcome State Fault Refusal := .next (s.accept m)
/-- RELEASE (R71). -/
def execRelease (m : Master) (s : State) : Host.Outcome State Fault Refusal := .next (s.release m)
/-- HOST_LINK_LOSS (R73): the link of master 0 or 1 has been down for 10 ms; master 2 never loses its path. -/
def execHostLinkLoss (m : Master) (s : State) : Host.Outcome State Fault Refusal :=
  .next (if s.isOwner m && masterNum m < 2 then s.losePath else s)
/-- HIFERR_CLEAR (R90). -/
def execHiferrClear (m : Master) (s : State) : Host.Outcome State Fault Refusal :=
  .next (s.ownerWrite m (fun s => s.setReg .hiferr 0))

end Sys2Proof.Machine
end

