-- ==== Sys2Proof/Machine/Whiffle.lean ====
section
/-! DEFINITION. Machine/Whiffle.lean: the whiffletree and the row sequencer: gang start, accumulation, the epilogue and its store,
pass boundaries, the collector's drain and the resumption (R308, R310, R423, R429 to R435). -/

namespace Sys2Proof.Machine

/-! ## Gang start (R417, R423, R425, R430, R431) -/

/-- The bias row read through the tail's translation (R430): its codes, or failure; a fault halts it. -/
def State.readBias (s : State) (gi : Nat) : State :=
  match s.gangs.get? gi with
  | none => s
  | some g =>
    if g.bias.isSome || g.halted.isSome then s
    else
      let k := g.tailKey
      match (withDead k g.dead <| orRefused 128 (readEa k (BitVec.ofNat 64 (bits (cfgW g.epi 2) 48 0)) 128 1)) s with
      | (.ok x, t) =>
        t.modGang gi (fun g => { g with bias := some (if x.lame = 0 then some ((chunks 4 32 x.val).map leNat) else none), dead := [] })
      | (.error (.fault va kind acc), t) =>
        (t.modGang gi (fun g => { g with halted := some (va, kind, acc) })).reportFault (t.ctx k).asid va kind acc
      | (.error _, t) => t

/-- The tail's slot OSLOT as it stands at gang start, when the nest stores to a tensor (R423, R431). -/
def startSlot (tail : Ctx) : Option (Option TSlot) :=
  if epiMode tail.nest.epi != 2 then some none
  else
    match tail.slots.get? (bits (cfgW tail.nest.epi 3) 23 20) with
    | some t => if t.valid && t.fmt == epiFmt tail.nest.epi then some (some t) else none
    | none => none

/-- A nest that starts afresh. -/
def State.startFresh (s : State) (w : Waiting) : State :=
  let tail := s.ctx (w.keys.getLastD 0)
  match startSlot tail with
  | none => (s.rejectArms w.keys 2).gather
  | some o =>
    let whiff := stallDieRow (nestTail w.cfg)
    let s1 := if tail.nest.mode.getLsbD 2 then (List.range 1024).foldl (fun s e => s.accClear whiff e) s else s
    let g : Gang :=
      { row := stallRow (nestHead w.cfg), members := w.keys.map (fun k => { key := k, stall := (s.ctx k).stall }), cfg := w.cfg,
        epi := tail.nest.epi, mode := tail.nest.mode, depth := armDepth tail, oslot := o,
        bias := if bit (cfgW tail.nest.epi 0) 13 then none else some none,
        fpend := w.keys.any (fun k => (s.ctx k).nest.fpend) }
    let s2 : State := { s1 with gangs := s1.gangs.put w.order g }
    let s3 := w.keys.foldl (fun s k =>
      (s.modNest k (fun n => { n with st := .running, gang := some w.order, gathered := false, fpend := false })).setLatch (s.ctx k).stall false {}
        |>.setLatch (s.ctx k).stall true {}) s2
    (s3.readBias w.order).gather

/-- A drained nest goes on (R435): its entries refilled, its latches filled again, or in manual mode as they were (DEDUCED, log entry
65), and thawed unless a program had frozen it. -/
def State.startAgain (s : State) (gi : Nat) : State :=
  match s.gangs.get? gi with
  | none => s
  | some g =>
    let s1 := (g.saved.getD []).foldl (fun s e => s.accPut g.whiff e.1 e.2) s
    let s2 := s1.modGang gi (fun g =>
      { g with saved := none, byCollector := false, stopping := false, base := g.pass,
               members := g.members.map (fun m => if g.manual then m else { m with fill := m.pass, fillAt := none, free0 := 0, free1 := 0 }) })
    let s3 := s2.modNests gi (fun n => { n with st := if g.frozen then .frozen else .running })
    let s4 := g.members.foldl (fun s m =>
      if g.manual then (s.setLatch m.stall false m.kept0).setLatch m.stall true m.kept1
      else (s.setLatch m.stall false {}).setLatch m.stall true {}) s3
    s4.push (g.stores.map (fun _ => .epilogue gi))

/-- NEST_GANG_START: the gang with a place in the order of R417 starts when its resources are granted. -/
def State.gangStart (s : State) (order : Nat) : State :=
  match s.waiting.find? (fun w => w.order == order && w.gang.isNone) with
  | some w => if s.mayStart w then s.startFresh w else s
  | none => s

/-- NEST_RESUME: a drained gang whose members have all resumed gets its resources again. -/
def State.nestResume (s : State) (gi : Nat) : State :=
  match s.waiting.find? (fun w => w.gang == some gi) with
  | some w => if s.mayStart w then s.startAgain gi else s
  | none => s

/-! ## Accumulation (R282, R429) -/

/-- What the end of a pass brings at the whiffletree: the store of a finished group, or the end of a nest that stores nothing. -/
def State.passDone (s : State) (gi : Nat) (g : Gang) (p : Nat) : State :=
  if (p + 1) % nestR g.cfg != 0 then s
  else if epiMode g.epi != 0 then
    (s.modGang gi (fun g => { g with stores := g.stores ++ [{ group := p / nestR g.cfg }] })).push [.epilogue gi]
  else if p + 1 == nestP g.cfg then s.endGang gi .done
  else s

/-- WHIFFLETREE_ACCUMULATE: the oldest sums that have reached the whiffletree are added into their entry, each with one rounding. -/
def State.accumulate (s : State) (gi : Nat) : State :=
  match s.gangs.get? gi with
  | none => s
  | some g =>
    match g.flight.find? (fun f => f.next == g.members.length && f.ready ≤ s.clock) with
    | none => s
    | some f =>
      let e := f.pass / nestR g.cfg % 2 * 512 + f.row
      let old := s.accGet g.whiff e
      let vals := (old.vals.zip f.sums).map (fun p => addCodes .fp32 p.1 p.2)
      let s1 := s.accPut g.whiff e { vals := vals, poison := old.poison || f.poison }
      let s2 := s1.modGang gi (fun g => { g with flight := g.flight.erase f, touched := setAdd g.touched e })
      if f.row + 1 == nestC0 g.cfg then s2.passDone gi g f.pass else s2

/-! ## The epilogue (R430, R432) -/

/-- The FP32 code of a value. -/
def fp32Of (v : Val) : Nat := (roundTo .fp32 .rne false 0 v).1

/-- x[c] of an output row. -/
def epiValue (e : List DWord) (bias : Option (List Nat)) (v c : Nat) : Val :=
  let e0 := cfgW e 0
  let y1 := if bit e0 12 then fp32Of (mulVal (decode .fp32 v) (decode .fp32 (bits (cfgW e 1) 31 0))).1 else v
  let y2 := if bit e0 13 then fp32Of (addVal .rne (decode .fp32 y1) (match bias with
    | some b => decode .fp32 (b.getD c 0)
    | none => .nan false)).1 else y1
  let x := decode .fp32 y2
  match bits e0 11 10 with
  | 1 => if !x.isNan && x.sign then .fin false 0 0 else x
  | 2 => decode .fp32 (fp32Of (transVal .tanh x).1)
  | 3 => decode .fp32 (fp32Of (silu x))
  | _ => x

/-- The format of an OFMT code (R420): FMT codes, with 8 the MXINT8 element. -/
def outFmt (f : Nat) : Fmt := if f = 8 then .mxi8 else (fmtOf f).getD .fp32

/-- An output row: its codes, and for an MX row its scale (R430). -/
def epiRow (e : List DWord) (bias : Option (List Nat)) (stream : Nat) (v : List Nat) : List Nat × Option Nat :=
  let e0 := cfgW e 0
  let xs := (List.range 32).map (fun c => epiValue e bias (v.getD c 0) c)
  let rm := if bit e0 8 then Rm.sr else .rne
  let draw := fun c => srMix (srSeedState (cfgW e 6) (BitVec.ofNat 64 (stream % 2 ^ 32)) c + gold)
  let f := outFmt (epiFmt e)
  if epiFmt e ≤ 2 then (xs.zipIdx.map (fun x => (roundTo f rm (bit e0 9) (draw x.2) x.1).1), none)
  else
    let k := mxScale xs f
    if k = 0xFF then (List.replicate 32 0, some k)
    else (xs.zipIdx.map (fun x => (mxElement f k rm (bit e0 9) (draw x.2) x.1).1), some k)

/-- ck of a row: the lanes of a poisoned row count as 0, the scale of an MX row always (R432). -/
def rowCk (codes : List Nat) (scale : Option Nat) (poison : Bool) : Nat :=
  (cks (if poison then List.replicate 32 0 else codes) + 33 * scale.getD 0) % (2 ^ 32 - 1)

/-- Row m of a group as the epilogue gives it, with whether it is poisoned (R429, R430). -/
def State.outRow (s : State) (g : Gang) (group m : Nat) : List Nat × Option Nat × Bool :=
  let a := s.accGet g.whiff (group % 2 * 512 + m)
  let bias := g.bias.getD none
  let r := epiRow g.epi bias (group * nestC0 g.cfg + m) a.vals
  (r.1, r.2, a.poison || (bit (cfgW g.epi 0) 13 && bias.isNone))

/-- A row delivered and checked: NCK, the count of rows, and the nest's POISON (R424, R432). -/
def State.countRow (s : State) (gi ck : Nat) (poison : Bool) : State :=
  s.modNests gi (fun n => { n with nck := (n.nck + ck) % (2 ^ 32 - 1), rows := (n.rows + 1) % 2 ^ 32, poison := n.poison || poison })

/-! ## The store engine (R308, R429, R431) -/

/-- Lanes of an output code, and rows of a record (R431). -/
def outLane (ofmt : Nat) : Nat := if ofmt = 0 then 32 else if ofmt ≤ 2 then 16 else 8
def outRows (ofmt : Nat) : Nat := 2048 / (32 * outLane ofmt)

/-- The WHIFF channel that a nest stores to (R431): the context, the channel and its number. -/
def State.outChan (s : State) (e : List DWord) : Option (Nat × Chan × CIdx) :=
  let w := cfgW e 3
  match (s.residents (bits w 11 0)).find? (fun c => c.2.slot == bits w 12 12) with
  | some (k, x) =>
    match x.chans.get? (bits w 16 13) with
    | some ch => if ch.prod == .whiff then some (k, ch, BitVec.ofNat 4 (bits w 16 13)) else none
    | none => none
  | none => none

/-- Rows laid out in one record of a channel: 264 bytes, and the granules of poisoned rows. -/
def packRows (ofmt : Nat) (rows : List (List Nat × Option Nat × Bool)) : List Byte × List Nat :=
  let w := outLane ofmt
  let elems := leBytes 256 (packNat w (rows.flatMap (fun r => r.1)))
  let scales := (List.range 8).map (fun i => match rows[i]? with
    | some (_, some k, _) => BitVec.ofNat 8 k
    | _ => (0x7F : Byte))
  let per := 32 * w / 128
  (elems ++ scales ++ List.replicate 24 0,
   rows.zipIdx.flatMap (fun r => if r.1.2.2 then (List.range per).map (fun i => r.2 * per + i) else []))

/-- Records of a store step pushed into the open page of the channel, until the page closes or the group ends; answers the row that
comes next. -/
def State.pushRows (s : State) (gi : Nat) (g : Gang) (group : Nat) : Nat → Nat → Nat → State × Nat
  | 0, _, row => (s, row)
  | fuel + 1, page, row =>
    let c0 := nestC0 g.cfg
    if c0 ≤ row then (s, row)
    else
      match s.outChan g.epi with
      | none => (s, c0)
      | some (k, ch, c) =>
        match ch.room with
        | none => (s, row)
        | some rec =>
          if ch.openIx != page then (s, row)
          else
            let n := Nat.min (outRows (epiFmt g.epi)) (c0 - row)
            let rows := (List.range n).map (fun i => s.outRow g group (row + i))
            let (b, bad) := packRows (epiFmt g.epi) rows
            let x := s.ctx k
            let s1 := (s.setCtx k { x with chans := x.chans.put c.toNat (ch.reserve rec) }).writeRecord k c page rec b 0
            let a := x.scratch (ch.recOff page rec)
            let s2 : State := { s1 with mem := { s1.mem with poison := bad.foldl (fun p i => setAdd p (a / 16 + i)) s1.mem.poison } }
            let s3 := rows.foldl (fun s r => s.countRow gi (rowCk r.1 r.2.1 r.2.2) r.2.2) s2
            s3.pushRows gi g group fuel page (row + n)

/-- The open page of a channel closed after its last record; what comes after is absent (R185). -/
def State.closePage (s : State) (k : Nat) (c : CIdx) : State :=
  let x := s.ctx k
  match x.chans.get? c.toNat with
  | none => s
  | some ch =>
    let p := ch.page ch.openIx
    if p.st == .open && !p.closed then
      let ch1 : Chan := ch.setPage ch.openIx { p with closed := true }
      let ch2 : Chan := { ch1 with openIx := (ch.openIx + 1) % ch.pages.length }
      (s.setCtx k { x with chans := x.chans.put c.toNat ch2 }).settlePage k c ch.openIx
    else s

/-- A store step to a channel: the part of the group that fills the open page (R431); none when it waits for a FREE page. Data that no
channel takes are discarded and counted by record, neither delivered nor checked (R187). -/
def State.storeChan (s : State) (gi : Nat) (g : Gang) (x : Store) : Option (State × Nat) :=
  let c0 := nestC0 g.cfg
  match s.outChan g.epi with
  | none =>
    let n := outRows (epiFmt g.epi)
    some (s.discard1 (bits (cfgW g.epi 3) 11 0) (ceilDiv c0 n - x.at' / n), c0)
  | some (k, ch, c) =>
    if ch.room.isNone then none
    else
      let r := s.pushRows gi g x.group 1024 ch.openIx x.at'
      some (if c0 ≤ r.2 then r.1.closePage k c else r.1, r.2)

/-- A store step to a channel waits for a FREE page, with nothing to check yet (R308, R431). -/
def State.storeHeld (s : State) (g : Gang) : Bool :=
  match s.outChan g.epi with
  | some (_, ch, _) => ch.room.isNone
  | none => false

/-- One row written through the captured descriptor, as TWRITE writes it, into the guard buffer in guarded mode (R431). -/
def storeRow (gi : Nat) (g : Gang) (t : TSlot) (group m : Nat) : A Unit := do
  let s ← aGet
  let k := g.tailKey
  let (codes, scale, bad) := s.outRow g group m
  let e4 := cfgW g.epi 4
  let x1 := lowBits ((bits e4 63 32 : Nat) + (m : Int) + (group : Int) * sextNat (bits (cfgW g.epi 5) 31 0) 32) 32
  let org := [bits e4 31 0, x1, 0, 0, 0, 0]
  if t.scaled && org.getD 0 0 % 32 != 0 then aMod (fun s => s.modCtx k Ctx.noteRefused)
  else do
    let places := (List.range 32).filterMap (fun j => (t.place false org j).map (fun p => (j, p.1, p.2)))
    let b := leBytes 256 (packNat (fmtLane t.fmt) codes) ++ (BitVec.ofNat 8 (scale.getD 0x7F) : Byte) :: List.replicate 7 0x7F ++ List.replicate 24 0
    writePlaced k 0 t places ((places.map (fun p => p.2.1)).eraseDups) false true b (if bad then 3 else 0) true
    aMod (fun s => s.countRow gi (rowCk codes scale bad) bad)

/-- Rows of a tensor store from a row on, as far as they go. -/
def State.storeTensor (s : State) (gi : Nat) (g : Gang) (t : TSlot) (group : Nat) : Nat → Nat → State × Nat
  | 0, row => (s, row)
  | fuel + 1, row =>
    if nestC0 g.cfg ≤ row then (s, row)
    else
      let dead := ((s.gangs.get? gi).map (fun g => g.dead)).getD []
      let live := fun (s : State) => if dead.isEmpty then s else s.modGang gi (fun g => { g with dead := [] })
      match (withDead g.tailKey dead (storeRow gi g t group row)) s with
      | (.ok _, t1) => (live t1).storeTensor gi g t group fuel (row + 1)
      | (.error .refused, t1) => (live t1).storeTensor gi g t group fuel (row + 1)
      | (.error .wait, t1) => (t1, row)
      | (.error (.fault va kind acc), t1) =>
        ((t1.modGang gi (fun g => { g with halted := some (va, kind, acc) })).reportFault (t1.ctx g.tailKey).asid va kind acc, row)

/-- A field of CHKLOG one higher (R310). -/
def State.countChk (s : State) (row h l : Nat) : State :=
  s.setField (.chklog row) h l (holdAt 0xFFFF (bits (s.reg (.chklog row)) h l + 1))

/-- The bank of a group set to +0 after its store (R429); its entries stay among those that a group has touched (R435). -/
def State.clearBank (s : State) (g : Gang) (group : Nat) : State :=
  (List.range (nestC0 g.cfg)).foldl (fun s m => s.accClear g.whiff (group % 2 * 512 + m)) s

/-- A store that has reached a row: the group is done when that is its last and what it has written is performed; the nest ends with its
last store (R251, R433, R440). -/
def State.storeReached (s : State) (gi : Nat) (g : Gang) (x : Store) (row : Nat) : State :=
  let s := if epiMode g.epi = 2 ∧ nestC0 g.cfg ≤ row then s.writeBackPaddock (stallPaddock (s.ctx g.tailKey).stall) else s
  if row < nestC0 g.cfg ∨ (epiMode g.epi = 2 ∧ s.unsettled g.tailKey) then
    s.modGang gi (fun g => { g with stores := { x with at' := row } :: g.stores.drop 1 })
  else
    let s1 := if x.clear then s.clearBank g x.group else s
    let s2 := s1.modGang gi (fun g => { g with stores := g.stores.drop 1 })
    match s2.gangs.get? gi with
    | none => s2
    | some y =>
      if !y.stores.isEmpty then s2.push [.epilogue gi]
      else if y.ended then (s2.nwaits gi).forgetGang gi
      else
        match y.ending with
        | some st => s2.endGang gi st
        | none => if nestP y.cfg ≤ y.pass && y.flight.isEmpty then s2.endGang gi .done else s2

/-- EPILOGUE_STORE: one store step of the oldest group that waits, checked against its checksum vector: ok says whether the check of
the step, and of its one retry, agreed (R308). -/
def State.epilogue (s : State) (gi : Nat) (firstOk retryOk : Bool) : State :=
  let s := s.readBias gi
  match s.gangs.get? gi with
  | none => s
  | some g =>
    match g.stores with
    | [] => s
    | x :: _ =>
      if g.bias.isNone || g.halted.isSome || g.saved.isSome || (epiMode g.epi != 2 && s.storeHeld g) then s
      else if !firstOk && !retryOk then
        (s.countChk g.whiff 31 16).nestCheck gi (((x.group + 1) * nestR g.cfg - 1) * nestC0 g.cfg + x.at')
      else
        let s := if firstOk then s else (s.countChk g.whiff 15 0).modNests gi (fun n => { n with retried := true })
        if epiMode g.epi = 2 then
          match g.oslot with
          | some t =>
            let r := s.storeTensor gi g t x.group 513 x.at'
            if r.2 < nestC0 g.cfg then r.1.modGang gi (fun g => { g with stores := { x with at' := r.2 } :: g.stores.drop 1 })
            else r.1.storeReached gi g x r.2
          | none => s.storeReached gi g x (nestC0 g.cfg)
        else
          match s.storeChan gi g x with
          | some (t, row) =>
            let u := t.storeReached gi g x row
            if row < nestC0 g.cfg then u.push [.epilogue gi] else u
          | none => s

/-! ## Pass boundaries and the collector (R433, R435, R436) -/

/-- The tail's last sums of the head's last pass have been accumulated, and no member is within a pass. -/
def Gang.atBoundary (g : Gang) : Bool :=
  g.flight.isEmpty && g.members.all (fun m => m.pass == g.pass && m.step == 0) && g.pass < nestP g.cfg

/-- PASS_BOUNDARY: a pending cut ends the nest; else a stop or a freeze makes it FROZEN (R433, R435); a frozen nest none of whose riders
is left ends (R436). -/
def State.passBoundary (s : State) (gi : Nat) : State :=
  match s.gangs.get? gi with
  | none => s
  | some g =>
    if g.ended || g.still || g.saved.isSome || g.ending.isSome || !g.atBoundary then s
    else
      match g.cpend with
      | some abandon => s.cutGang gi abandon
      | none =>
        if g.stopping then
          ((s.modGang gi (fun g => { g with byCollector := true, stopping := false, frozen := g.fpend, fpend := false })).modNests gi
            (fun n => { n with st := .frozen })).push [.nestDrain gi]
        else if g.fpend then
          if s.gangOrphan g then s.endGang gi .cut
          else (s.modGang gi (fun g => { g with frozen := true, fpend := false })).modNests gi (fun n => { n with st := .frozen })
        else s

/-- A stop of the collector reaches a context's nest (R149, R435). -/
def State.stopNest (s : State) (k : Nat) : State :=
  match (s.ctx k).nest.gang with
  | none => s
  | some gi =>
    match s.gangs.get? gi with
    | none => s
    | some g =>
      if g.ended || g.byCollector || g.saved.isSome then s
      else if g.frozen then (s.modGang gi (fun g => { g with byCollector := true })).push [.nestDrain gi]
      else s.modGang gi (fun g => { g with stopping := true })

/-- A stop is withdrawn: a nest that the stop itself froze goes on (R149, R435). -/
def State.unstopNest (s : State) (k : Nat) : State :=
  match (s.ctx k).nest.gang with
  | none => s
  | some gi =>
    match s.gangs.get? gi with
    | none => s
    | some g =>
      if g.ended then s
      else if g.saved.isSome then { s.modGang gi (fun g => { g with order := s.ids }) with ids := s.ids + 1 }
      else
        (s.modGang gi (fun g => { g with byCollector := false, stopping := false })).modNests gi (fun n =>
          { n with st := if g.still && !g.frozen then .running else n.st })

/-- The nest of a context holds back its acknowledgement no longer (R149). -/
def State.nestStopped (s : State) (k : Nat) : Bool :=
  match (s.ctx k).nest.gang.bind s.gangs.get? with
  | some g => g.ended || g.saved.isSome
  | none => true

/-- NEST_COLLECT_DRAIN: the entries that a group has touched are drained for the tail's save image, and every resource is released; the
copies of the members' own words come first. -/
def State.nestDrain (s : State) (gi : Nat) : State :=
  match s.gangs.get? gi with
  | none => s
  | some g =>
    if g.ended || !g.byCollector || g.saved.isSome || g.members.any (fun m => (s.ctx m.key).nest.copy.isSome) then s
    else
      (s.modGang gi (fun g =>
        { g with saved := some (g.touched.map (fun e => (e, s.accGet g.whiff e))),
                 members := g.members.map (fun m =>
                   if g.manual then { m with fillAt := none, kept0 := s.latch m.stall false, kept1 := s.latch m.stall true }
                   else { m with fillAt := none }) })).gather

/-- ARRAY_SELF_TEST_COMPLETE: each member that failed is charged with NEST_CHECK, which drains it (R137); when none did, CHKLOG.UNLOC
counts the event (R309). -/
def State.selfTest (s : State) (row : Nat) (failed : List Nat) : State :=
  let ps := failed.filterMap s.physStall
  if ps.isEmpty then s.countChk row 47 32
  else ps.foldl (fun s p =>
    if s.physState p < 2 then (s.setReg (.stallwear p) (setBits (s.reg (.stallwear p)) 33 32 2)).stateChanged p 2 else s) s

/-! ## The meanings -/

/-- NEST_GANG_START (R423). -/
def execNestGangStart (gang : Nat) (s : State) : Host.Outcome State Fault Refusal := .next (s.gangStart gang)
/-- WHIFFLETREE_ACCUMULATE (R429). -/
def execWhiffletreeAccumulate (gang : Nat) (s : State) : Host.Outcome State Fault Refusal := .next (s.accumulate gang)
/-- PASS_BOUNDARY (R433). -/
def execPassBoundary (gang : Nat) (s : State) : Host.Outcome State Fault Refusal := .next (s.passBoundary gang)
/-- EPILOGUE_STORE (R431). -/
def execEpilogueStore (gang : Nat) (firstOk retryOk : Bool) (s : State) : Host.Outcome State Fault Refusal :=
  .next (s.epilogue gang firstOk retryOk)
/-- NEST_COLLECT_DRAIN (R435). -/
def execNestCollectDrain (gang : Nat) (s : State) : Host.Outcome State Fault Refusal := .next (s.nestDrain gang)
/-- NEST_RESUME (R435). -/
def execNestResume (gang : Nat) (s : State) : Host.Outcome State Fault Refusal := .next (s.nestResume gang)
/-- ARRAY_SELF_TEST_COMPLETE (R309): gang is the die row of the whiffletree, failed the members that failed. -/
def execArraySelfTestComplete (gang : Nat) (failed : List Nat) (s : State) : Host.Outcome State Fault Refusal := .next (s.selfTest gang failed)

end Sys2Proof.Machine
end

