-- ==== Sys2Proof/Machine/Mmu.lean ====
section
/-! DEFINITION. Machine/Mmu.lean: invalidation, splinters, the fault unit's batches, and the responses to faults (R199 to R216). -/

namespace Sys2Proof.Machine

/-- A write of the fields of a register that a mask selects: the rest keeps its value (R10, R68). -/
def State.writeFields (s : State) (r : Reg) (v mask fields : DWord) : State := s.setReg r (mergeMask (s.reg r) v (mask &&& fields))

/-! ## Invalidation (R209) -/

/-- The TLBs without the entries that a test picks. -/
def State.dropTlb (s : State) (f : TlbEntry → Bool) : State :=
  { s with stallTlb := s.stallTlb.map (fun t => (t.1, t.2.filter (fun e => !f e))),
           paddockTlb := s.paddockTlb.map (fun t => (t.1, t.2.filter (fun e => !f e))) }

/-- A write of TLBINV: with GO every entry that overlaps the range leaves every TLB, at once (R209). -/
def State.writeTlbinv (s : State) (v mask : DWord) : State :=
  let s1 := s.writeFields .tlbinv v mask (fmask 12 0 ||| fmask 63 16)
  if !bit v 13 then s1
  else
    let r := s1.reg .tlbinv
    let whole := bits r 63 49 == 0x7FFF
    s1.dropTlb (fun e => bit r 12 || (e.asid == bits r 11 0 &&
      (whole || overlaps e.va e.size (bits r 48 16 * 65536) ((bits r 63 49 + 1) * 65536))))

/-! ## Splinters (R215, R216) -/

/-- The module offset and the value of the leaf of a level for an address, by a walk, when there is one; nothing yet while the home column of
a table holds its requests (R232). -/
def State.leafAt (s : State) (va level : Nat) : List Nat → Nat → Option (Option (Nat × DWord))
  | [], _ => some none
  | l :: ls, table =>
    if s.reservedRange table (tableBytes l) then some none
    else
      let a := table + 8 * (va / 2 ^ levelShift l % levelEntries l)
      let e := BitVec.ofNat 64 (leNat (s.mem.read a 8))
      if s.homeHeld a then none
      else if s.mem.poisoned a 8 || !bit e 0 || badFormat l e then some none
      else if bit e 1 then some (if l = level then some (a, e) else none)
      else s.leafAt va level ls (bits e 56 8 * 256)

/-- The root of an address space: that of the first queue whose ASROOT is VALID with its ASID (DEDUCED, log entry 23). -/
def State.rootOf (s : State) (asid : Nat) : Option Nat :=
  ((List.range 256).find? (fun q => bit (s.reg (.asroot q)) 12 && bits (s.reg (.asroot q)) 11 0 == asid)).map
    (fun q => bits (s.reg (.asroot q)) 38 13)

/-- The entries of the new table: the leaf's bits, and a frame k pages above its frame. -/
def splinterTable (e : DWord) (small : Nat) (n : Nat) : List Byte :=
  (List.range n).flatMap (fun k => leBytes 8 (e.toNat % 64 + (bits e 56 8 * 256 + k * 2 ^ levelShift small)))

/-- A splinter ends with ERR; BUSY clears. -/
def State.splErr (s : State) (n : Nat) : State :=
  { (s.setField .splctl 3 2 n).setField .splctl 1 1 0 with spl := none }

/-- A stage of the splinter meets a column that holds its requests, and waits there (R232). -/
def State.splWait (s : State) : State := s.holdDev (.step .splinter)

/-- The splinter goes on to its next stage in the next cycle. -/
def State.splNext (s : State) (x : Splinter) : State := ({ s with spl := some x } : State).later 1 .splinter

/-- The first byte and the length of the large page of a splinter. -/
def Splinter.page (x : Splinter) : Nat × Nat := (x.va / 2 ^ levelShift (x.small + 1) * 2 ^ levelShift (x.small + 1), 2 ^ levelShift (x.small + 1))

/-- Step 1 of R216: the leaf is read; without a large leaf of the level, or with a misaligned or reserved TABLE, ERR is 1. -/
def State.splRead (s : State) (x : Splinter) : State :=
  match (s.rootOf x.asid).map (fun r => s.leafAt x.va (x.small + 1) [3, 2, 1, 0] (r * 8192)) with
  | none | some (some none) => s.splErr 1
  | some none => s.splWait
  | some (some (some l)) =>
    if x.table % tableBytes x.small != 0 || s.reservedRange x.table (tableBytes x.small) then s.splErr 1
    else s.splNext { x with leaf := some l }

/-- Step 2: the new table is written; ERR is 3 when the write fails, which is a free value (DESIGN CHOICE, log entry 113). -/
def State.splWrite (s : State) (x : Splinter) (e : DWord) : State :=
  if s.homeHeld x.table then s.splWait
  else if Config.splinterFails s.fresh then ({ s with fresh := s.fresh + 1 } : State).splErr 3
  else ({ s with mem := s.mem.write x.table (splinterTable e x.small (levelEntries x.small)), fresh := s.fresh + 1 } : State).splNext
    { x with written := true }

/-- Steps 3 and 4: the parent entry is replaced when it still is what step 1 read, and the large page leaves every TLB; else ERR is 2. -/
def State.splSwap (s : State) (x : Splinter) (a : Nat) (e : DWord) : State :=
  if s.homeHeld a then s.splWait
  else if BitVec.ofNat 64 (leNat (s.mem.read a 8)) != e then s.splErr 2
  else
    (({ s with mem := s.mem.write a (leBytes 8 (1 + x.table)) } : State).dropTlb (fun t =>
      t.asid == x.asid && overlaps t.va t.size x.page.1 x.page.2)).splErr 0

/-- A stage of the splinter in progress (R216). -/
def State.splStep (s : State) : State :=
  match s.spl with
  | none => s
  | some x =>
    match x.leaf with
    | none => s.splRead x
    | some (a, e) => if x.written then s.splSwap x a e else s.splWrite x e

/-- GO of SPLCTL: ignored while BUSY is 1 (R216). -/
def State.splinter (s : State) : State :=
  if bit (s.reg .splctl) 1 then s
  else ({ s.setField .splctl 1 1 1 with spl := some {
      asid := bits (s.reg .splva) 11 0, va := bits (s.reg .splva) 48 16 * 65536, small := bits (s.reg .splctl) 4 4,
      table := bits (s.reg .splctl) 38 8 * 256 } } : State).push [.splinter]

/-- A write of SPLCTL (R215). -/
def State.writeSplctl (s : State) (v mask : DWord) : State :=
  let s1 := s.writeFields .splctl v mask (fmask 4 4 ||| fmask 38 8)
  if bit v 0 then s1.splinter else s1

/-! ## Halted accesses (R210) -/

/-- A halted access: its space, page, kind and type. -/
abbrev HaltedAt := Nat × Nat × Nat × BitVec 4

/-- The halted accesses of a context: X commands, the poll of a FLGWAIT, a code fetch, a copy of accumulators. -/
def Ctx.haltedList (c : Ctx) : List HaltedAt :=
  c.xq.filterMap (fun x => match x.st with
    | .halted va kind acc => some (c.asid, va / 65536, kind, acc)
    | .queued | .moving | .performed | .empty => none) ++
  c.waits.filterMap (fun w => match w.kind with
    | .fetch va kind again => if again then none else some (c.asid, va / 65536, kind, (4 : BitVec 4))
    | _ => w.halted.map (fun h => (c.asid, h.1 / 65536, h.2, (1 : BitVec 4)))) ++
  (c.nest.copyHalt.map (fun h => (c.asid, h.1 / 65536, h.2.1, h.2.2))).toList

/-- Every halted access of the module, those of nests among them (R428). -/
def State.haltedList (s : State) : List HaltedAt :=
  s.ctxs.flatMap (fun c => c.2.haltedList) ++
  s.gangs.flatMap (fun g =>
    if g.2.ended && g.2.stores.isEmpty then []
    else
      g.2.members.filterMap (fun m => m.halted.map (fun h => ((s.ctx m.key).asid, h.1 / 65536, h.2.1, h.2.2))) ++
      (g.2.halted.map (fun h => ((s.ctx g.2.tailKey).asid, h.1 / 65536, h.2.1, h.2.2))).toList)

/-- A page is known to the fault unit. -/
def State.faultKnown (s : State) (asid page kind : Nat) : Bool :=
  s.reported.any (fun r => r.1 == asid && r.2.1 == page) || s.faults.any (fun f => f.asid == asid && f.page == page && f.kind == kind) ||
  s.faultBatch.any (fun f => f.asid == asid && f.page == page && f.kind == kind)

/-- Halted accesses that found no room in the fault unit are taken when an entry frees (R211). -/
def State.takeFaults (s : State) : State :=
  s.haltedList.foldl (fun s h => if s.faultKnown h.1 h.2.1 h.2.2.1 then s else s.reportFault h.1 (h.2.1 * 65536) h.2.2.1 h.2.2.2) s

/-! ## Batches (R211 to R213) -/

/-- Cycles after which a batch closes: 20 µs. -/
def faultClosing : Nat := 14000

/-- A batch of the oldest 256 closes when so many are pending, or 20 µs after the oldest arrived; the batch before it must have been
written. -/
def State.faultClose (s : State) : State :=
  let oldest := s.faults.foldl (fun m f => Nat.min m f.arrived) s.clock
  if s.faults.isEmpty || !s.faultBatch.isEmpty || (s.faults.length < 256 && s.clock < oldest + faultClosing) then s
  else ({ s with faultBatch := s.faults.take 256, faults := s.faults.drop 256 } : State).push [.faultWrite]

/-- The order of a batch: by space, page and kind. -/
def faultOrder (f : PFault) : Nat := (f.asid * 2 ^ 33 + f.page) * 16 + f.kind

/-- A fault record before it is written: space, first page, pages, kind, access, count. -/
structure FaultRec where
  asid : Nat
  page : Nat
  pages : Nat
  kind : Nat
  access : BitVec 4
  count : Nat
  deriving DecidableEq, Repr

/-- A fault put into the range that it continues, or as a range of its own. -/
def addFault (l : List FaultRec) (f : PFault) : List FaultRec :=
  match l.findIdx? (fun r => r.asid == f.asid && r.kind == f.kind && r.page + r.pages == f.page) with
  | some i => l.modify i (fun r => { r with pages := r.pages + 1, access := r.access ||| f.access, count := r.count + f.count })
  | none => l ++ [{ asid := f.asid, page := f.page, pages := 1, kind := f.kind, access := f.access, count := f.count }]

/-- The records of a batch, sorted and merged. -/
def faultRecords (l : List PFault) : List FaultRec := (sortBy faultOrder l).foldl addFault []

/-- The 32 bytes of a record (R213). -/
def FaultRec.bytes (r : FaultRec) (batch : Nat) : List Byte :=
  leBytes 8 (r.page * 65536) ++ leBytes 4 r.pages ++ leBytes 2 r.asid ++ [BitVec.ofNat 8 r.kind, r.access.setWidth 8] ++
  leBytes 4 r.count ++ leBytes 4 batch ++ leBytes 8 0

/-- A closed batch is written when ENABLE is 1 and the ring has room for all of it; then INTCAUSE.FAULT is set once. A page with no
access left halted awaits no response (R211, R212, R214). -/
def State.faultWrite (s : State) : State :=
  let recs := faultRecords s.faultBatch
  let n := 2 ^ bits (s.reg .fltbase) 5 1
  let prod := bits (s.reg .fltptr) 31 0
  let used := (prod + 2 ^ 32 - bits (s.reg .fltptr) 63 32) % 2 ^ 32
  if s.faultBatch.isEmpty || !bit (s.reg .fltbase) 0 || n < used + recs.length then s
  else
    let ring := bits (s.reg .fltbase) 63 12 * 4096
    let m := recs.zipIdx.foldl (fun (m : Mem) r => m.hostPut (ring + 32 * ((prod + r.2) % n)) (r.1.bytes s.faultSerial) false) s.mem
    let open' := s.haltedList
    let waiting := (s.faultBatch.map (fun f => (f.asid, f.page, f.kind))).filter (fun t => open'.any (fun h => h.1 == t.1 && h.2.1 == t.2.1 && h.2.2.1 == t.2.2))
    let s1 : State := { s with mem := m, faultBatch := [], reported := s.reported ++ waiting, faultSerial := (s.faultSerial + 1) % 2 ^ 32 }
    (s1.setField .fltptr 31 0 (prod + recs.length)).raiseInt 4

/-- A write of FLTBASE (R212). -/
def State.writeFltbase (s : State) (v mask : DWord) : State :=
  let r := mergeMask (s.reg .fltbase) v (mask &&& (fmask 5 0 ||| fmask 63 12))
  (s.setReg .fltbase (setBits r 5 1 (Nat.min 16 (Nat.max 8 (bits r 5 1))))).push [.faultWrite]

/-- A write of FLTPTR: CONS (R212). -/
def State.writeFltptr (s : State) (v mask : DWord) : State := (s.writeFields .fltptr v mask (fmask 63 32)).push [.faultWrite]

/-! ## Responses (R214) -/

/-- A response names a page of a space. -/
def respNames (v : DWord) (asid page : Nat) : Bool :=
  bits v 11 0 == asid && bits v 48 16 ≤ page && page ≤ bits v 48 16 + bits v 63 49

/-- The X commands, polls and copies of a context that a response reaches go on: they translate again, or complete as not performed
where they halted. -/
def Ctx.respond (c : Ctx) (v : DWord) (abort : Bool) : Ctx :=
  let mine := fun (h : HaltedAt) => h.2.2.2 != 4 && respNames v h.1 h.2.1
  let hit := c.haltedList.any mine
  let page := fun (va : Nat) => if abort then [va / 65536] else []
  let n := match c.nest.copyHalt with
    | some h => if respNames v c.asid (h.1 / 65536) then { c.nest with copyHalt := none, copyDead := c.nest.copyDead ++ page h.1 } else c.nest
    | none => c.nest
  let c1 : Ctx := { c with
    nest := n,
    xq := c.xq.map (fun x => match x.st with
      | .halted va _ _ =>
        if respNames v c.asid (va / 65536) then { x with st := if 0 < x.prog then .moving else .queued, dead := x.dead ++ page va } else x
      | .queued | .moving | .performed | .empty => x),
    waits := c.waits.map (fun w => match w.halted with
      | some h => if respNames v c.asid (h.1 / 65536) then { w with halted := none } else w
      | none => w) }
  if abort && hit then c1.noteRefused else c1

/-- A code fetch that a RETRY has reached translates again: the block ends when that succeeds, and it halts at the fault it finds
(R210, R214). -/
def State.fetchAgain (s : State) (k : Nat) (w : Wait) : State :=
  match w.kind with
  | .fetch va _ true =>
    match (translate k (s.ctx k).stall va 4) s with
    | (.ok _, t) => t.modCtx k (fun c => { c with waits := c.waits.erase w })
    | (.error (.fault va' kind _), t) =>
      (t.modCtx k (fun c => { c with waits := c.waits.map (fun x => if x == w then { x with kind := .fetch va' kind false } else x) })).reportFault
        (t.ctx k).asid va' kind 4
    | (.error _, t) => t
  | _ => s

/-- The code fetches that a RETRY has reached and that a held column still delays (R232). -/
def State.fetchesAgain (s : State) : State :=
  s.ctxs.foldl (fun s c => c.2.waits.foldl (fun s w => s.fetchAgain c.1 w) s) s

/-- A code fetch that a response reaches: RETRY translates again; ABORT makes the group's consuming use, with cause REFUSED, which the
status records (R210). -/
def State.respondFetch (s : State) (k : Nat) (v : DWord) (abort : Bool) : State :=
  match (s.ctx k).waits.find? (fun w => match w.kind with
      | .fetch va _ false => respNames v (s.ctx k).asid (va / 65536)
      | _ => false) with
  | none => s
  | some w =>
    if abort then
      let (s2, ue) := (s.modCtx k (fun c => { c.noteRefused with waits := c.waits.erase w })).tick k
      let pc := (s2.ctx k).pc
      if ue && (s2.ctx k).contain then s2.unwind k pc 3 false
      else (s2.untick k).takeCause k { code := 7, info := 0xFF02, lame := 2 } pc
    else
      match w.kind with
      | .fetch va kind _ =>
        let w' : Wait := { w with kind := .fetch va kind true }
        (s.modCtx k (fun c => { c with waits := c.waits.map (fun x => if x == w then w' else x) })).fetchAgain k w'
      | _ => s

/-- The halted fills and stores of a gang that a response reaches go on; an ABORT is recorded in the context's status (R214, R428). -/
def State.respondGang (s : State) (gi : Nat) (v : DWord) (abort : Bool) : State :=
  match s.gangs.get? gi with
  | none => s
  | some g =>
    let hits := fun (k : Nat) (h : Option (Nat × Nat × BitVec 4)) => h.any (fun h => respNames v (s.ctx k).asid (h.1 / 65536))
    let page := fun (h : Option (Nat × Nat × BitVec 4)) => if abort then h.toList.map (fun h => h.1 / 65536) else []
    let note := fun (s : State) (k : Nat) (h : Option (Nat × Nat × BitVec 4)) =>
      if abort && hits k h then s.modCtx k Ctx.noteRefused else s
    let s1 := g.members.foldl (fun s m => note s m.key m.halted) s
    (note s1 g.tailKey g.halted).modGang gi (fun g => { g with
      members := g.members.map (fun m => if hits m.key m.halted then { m with halted := none, dead := m.dead ++ page m.halted } else m),
      halted := if hits g.tailKey g.halted then none else g.halted,
      dead := if hits g.tailKey g.halted then g.dead ++ page g.halted else g.dead })

/-- A write of FLTRESP: every halted access of the space whose page lies in the range goes on (R214). -/
def State.faultRespond (s : State) (v : DWord) : State :=
  let abort := bit v 12
  let keys := (s.ctxs.filter (fun c => c.2.haltedList.any (fun h => respNames v h.1 h.2.1))).map (·.1)
  let s1 : State := { s with reported := s.reported.filter (fun t => !respNames v t.1 t.2.1) }
  let s2 := keys.foldl (fun s k => ((s.modCtx k (fun c => c.respond v abort)).respondFetch k v abort).retryCmds k) s1
  s2.gangs.foldl (fun s g => s.respondGang g.1 v abort) s2

/-! ## Meanings -/

/-- FAULT_BATCH_CLOSE (R211). -/
def execFaultBatchClose (s : State) : Host.Outcome State Fault Refusal := .next s.faultClose
/-- FAULT_BATCH_WRITE (R212). -/
def execFaultBatchWrite (s : State) : Host.Outcome State Fault Refusal := .next s.faultWrite
/-- FAULT_RETRY (R214). -/
def execFaultRetry (m : Master) (v : DWord) (s : State) : Host.Outcome State Fault Refusal :=
  .next (s.blockWrite m (fun s => s.faultRespond (setBit v 12 false)))
/-- FAULT_ABORT (R214). -/
def execFaultAbort (m : Master) (v : DWord) (s : State) : Host.Outcome State Fault Refusal :=
  .next (s.blockWrite m (fun s => s.faultRespond (setBit v 12 true)))
/-- TLB_INVALIDATE (R209): a write of TLBINV with GO. -/
def execTlbInvalidate (m : Master) (v : DWord) (s : State) : Host.Outcome State Fault Refusal :=
  .next (s.blockWrite m (fun s => s.writeTlbinv (setBit v 13 true) (BitVec.allOnes 64)))
/-- SPLINTER (R216): a write of SPLCTL with GO. -/
def execSplinter (m : Master) (v : DWord) (s : State) : Host.Outcome State Fault Refusal :=
  .next (s.blockWrite m (fun s => s.writeSplctl (setBit v 0 true) (BitVec.allOnes 64)))

end Sys2Proof.Machine
end

