-- ==== Sys2Proof/Machine/Clocks.lean ====
section
/-! DEFINITION. Machine/Clocks.lean: DRAM steps, caps, temperature, power, refresh, shadow latches, and the wear samples (R25 to R38,
R124, R136 to R138, R307). -/

namespace Sys2Proof.Machine

/-! ## DRAM clock (R26, R27) -/

/-- The target step of a quarter: the larger of STEP and THERMSTEP. -/
def State.targetStep (s : State) (q : Nat) : Nat := Nat.max (bits (s.reg (.dramclk q)) 1 0) (bits (s.reg (.dramclk q)) 9 8)

/-- A ratio change begins when the target differs from CUR and none is in progress (R27, R29). -/
def State.ratioStart (s : State) (q : Nat) : State :=
  let r := s.reg (.dramclk q)
  if bit r 4 || s.targetStep q == bits r 3 2 then s
  else { s.setReg (.dramclk q) (setBit r 4 true) with ratio := s.ratio.put q (s.clock, s.targetStep q) }

/-- The requests that home columns held are tried again in their order of arrival, before any that arrives later (R28). -/
def State.releaseHeld (s : State) : State :=
  { s with homeWait := [], agenda := s.homeWait.map (fun h => .xPerform h.1 h.2) ++ s.agenda }

/-- A ratio change ends: CUR takes the target it began with, and the target as it stands now is compared with CUR (R27, R29). -/
def State.ratioEnd (s : State) (q : Nat) : State :=
  match s.ratio.get? q with
  | none => s
  | some (_, target) =>
    let r := setBit (setBits (s.reg (.dramclk q)) 3 2 target) 4 false
    (({ s.setReg (.dramclk q) r with ratio := s.ratio.del q } : State).releaseHeld).ratioStart q

/-- A write of DRAMCLK (R26): STEP 0b11 is refused and sets STEPERR. -/
def State.writeDramclk (s : State) (q : Nat) (v mask : DWord) : State :=
  let r := s.reg (.dramclk q)
  if mask &&& 0xFF = 0 then s
  else
    let r1 := if bit v 6 then setBit r 6 false else r
    if bits v 1 0 = 3 then s.setReg (.dramclk q) (setBit r1 6 true)
    else (s.setReg (.dramclk q) (setBits r1 1 0 (bits v 1 0))).ratioStart q

/-! ## Caps (R30, R31) -/

/-- At least one stall of a die row is DERATED (R30). -/
def State.derated (s : State) (row : Nat) : Bool := (List.range 34).any (fun p => s.physState (row * 34 + p) == 1)

/-- CAPEFF takes the least of its four terms (R31). -/
def State.capeff (s : State) (row : Nat) : State :=
  let r := s.reg (.rowpwr row)
  let m := Nat.min (Nat.min (bits r 6 0) (bits r 14 8)) (Nat.min (bits (s.reg .pwrctl) 38 32) (if s.derated row then 48 else 64))
  if bits r 22 16 = m then s else s.setReg (.rowpwr row) (setBits r 22 16 m)

/-- A write of ROWPWR: CAPFW between 1 and 64 (R30). -/
def State.writeRowpwr (s : State) (row : Nat) (v mask : DWord) : State :=
  let r := mergeMask (s.reg (.rowpwr row)) v (mask &&& fmask 6 0)
  s.setReg (.rowpwr row) (setBits r 6 0 (Nat.min 64 (Nat.max 1 (bits r 6 0))))

/-- A write of PWRCTL: LIMIT between 1,000 and 3,600 W; OVER (R33). -/
def State.writePwrctl (s : State) (v mask : DWord) : State :=
  let r := mergeMask (s.reg .pwrctl) v (mask &&& fmask 11 0)
  let r1 := setBits r 11 0 (Nat.min 3600 (Nat.max 1000 (bits r 11 0)))
  s.setReg .pwrctl (if bit v 39 then setBit r1 39 false else r1)

/-- CREDIT of a groom context is SHARE again (R124). -/
def State.refillCredit (s : State) (st : Nat) : State :=
  let r := s.reg (.groomshare st)
  if bits r 12 5 = bits r 4 0 then s else s.setReg (.groomshare st) (setBits r 12 5 (bits r 4 0))

/-- The end of a 50 µs interval of the power controller (R34). -/
def State.powerTick (s : State) (watts : Nat) : State :=
  let r := setBits (s.reg .pwrctl) 27 16 watts
  let limit := bits r 11 0
  let cap := bits r 38 32
  if limit < watts then (s.setReg .pwrctl (setBit (setBits r 38 32 (Nat.max 8 (cap - 4))) 39 true)).raiseInt 3
  else if watts + 100 < limit then s.setReg .pwrctl (setBits r 38 32 (Nat.min 64 (cap + 1)))
  else s.setReg .pwrctl r

/-! ## Temperature (R35) -/

/-- The code of a temperature in °C: (T + 64) × 8. -/
def tempCode (c : Nat) : Nat := (c + 64) * 8

/-- A sensor by quarter, paddock in the die, and kind. -/
def sensorIx (q pd kind : Nat) : Nat := (q * 64 + pd) * 6 + kind

/-- The reading of a sensor once it has converted. -/
def State.sensor (s : State) (i : Nat) : Option Nat :=
  if bit (s.reg (.tsense i)) 16 then some (bits (s.reg (.tsense i)) 11 0) else none

/-- The greatest reading of sensors. -/
def State.hottest (s : State) (l : List Nat) : Option Nat :=
  l.foldl (fun m i => match s.sensor i, m with
    | some t, some x => some (Nat.max t x)
    | some t, none => some t
    | none, m => m) none

/-- A thermal shutdown: the board removes power (R35). -/
def State.shutdown (s : State) : State := { s.emit .powerOff with powered := false, agenda := [] }

/-- A reading that shuts the module down: 120 °C of logic or SRAM, 105 °C of DRAM. -/
def tooHot (kind t : Nat) : Bool := if kind < 2 then tempCode 120 ≤ t else tempCode 105 ≤ t

/-- The four die rows that a paddock spans, as quarter × 32 + die row. -/
def paddockRows (q pd : Nat) : List Nat := (List.range 4).map (fun i => q * 32 + pd / 8 * 4 + i)

/-- A conversion of a sensor (R35). -/
def State.convert (s : State) (i code : Nat) : State :=
  let kind := i % 6
  let r := setBit (setBits (s.reg (.tsense i)) 11 0 code) 16 true
  let alarm := kind == 0 && tempCode 110 ≤ code
  let s1 := s.setReg (.tsense i) (if alarm then setBit r 17 true else r)
  let s2 := if alarm then
      ((paddockRows (i / 384) (i / 6 % 64)).foldl (fun s row => s.setField (.rowpwr row) 14 8 8) s1).raiseInt 2
    else s1
  if tooHot kind code then s2.shutdown else s2

/-- CAPTH of a row after its governing sensor's reading: down by 4 from 90 °C, up by 1 below 87 °C (R35). -/
def State.rowThermal (s : State) (row : Nat) : State :=
  let sensors := (List.range 8).map (fun c => sensorIx (row / 32) (row % 32 / 4 * 8 + c) 0)
  let cap := bits (s.reg (.rowpwr row)) 14 8
  match s.hottest sensors with
  | none => s
  | some t =>
    if tempCode 90 ≤ t then s.setField (.rowpwr row) 14 8 (Nat.max 8 (cap - 4))
    else if t < tempCode 87 then s.setField (.rowpwr row) 14 8 (Nat.min 64 (cap + 1))
    else s

/-- Doubled refresh of a DRAM layer of a quarter: from 85 °C until below 80 °C. -/
def State.layerThermal (s : State) (q layer : Nat) : State :=
  match s.hottest ((List.range 64).map (fun pd => sensorIx q pd (2 + layer))) with
  | none => s
  | some t =>
    if tempCode 85 ≤ t then { s with hot2x := setAdd s.hot2x (q * 4 + layer) }
    else if t < tempCode 80 then { s with hot2x := s.hot2x.filter (· ≠ q * 4 + layer) }
    else s

/-- THERMSTEP for the greatest DRAM reading: 0b10 from 100 °C until below 95 °C, at least 0b01 from 95 °C until below 90 °C. -/
def thermStep (cur t : Nat) : Nat :=
  if tempCode 100 ≤ t then 2
  else if tempCode 95 ≤ t then (if cur = 2 then 2 else 1)
  else if tempCode 90 ≤ t then Nat.min cur 1
  else 0

/-- The DRAM rules of a quarter: refresh, HOT2X and THERMSTEP (R35). -/
def State.dramThermal (s : State) (q : Nat) : State :=
  let s1 := (List.range 4).foldl (fun s l => s.layerThermal q l) s
  let r := setBit (s1.reg (.dramclk q)) 5 (s1.hot2x.any (fun x => x / 4 == q))
  match s1.hottest ((List.range 64).flatMap (fun pd => (List.range 4).map (fun l => sensorIx q pd (2 + l)))) with
  | none => s1
  | some t => (s1.setReg (.dramclk q) (setBits r 9 8 (thermStep (bits r 9 8) t))).ratioStart q

/-- The thermal controller of a row, every 100 µs; a reading past the shutdown threshold removes power (R35). -/
def State.thermalTick (s : State) (row : Nat) : State :=
  let q := row / 32
  let hot := (List.range 8).any (fun c => (List.range 6).any (fun kind =>
    (s.sensor (sensorIx q (row % 32 / 4 * 8 + c) kind)).any (tooHot kind)))
  if hot then s.shutdown else (s.rowThermal row).dramThermal q

/-! ## Shadow latches (R37, R38, R307) -/

/-- The bit of PIPES for a point of R37. -/
def pointBit : ShadowPoint → Nat
  | .s => 0 | .v => 1 | .array => 2 | .link => 2 | .x => 3

/-- A result with its value lame, cause UE. -/
def RegWrite.ue : RegWrite → RegWrite
  | .s r x => .s r { x with lame := 3 }
  | .a r x => .a r { x with lame := 3 }
  | .n r x => .n r { x with lame := 3 }
  | .p r x => .p r { x with lame := 3 }
  | .k r x => .k r { x with lame := 3 }
  | .v o x => .v o { x with lame := 3 }
  | .push ch page rec x => .push ch page rec { x with lame := 3 }
  | .j r x => .j r { x with lame := 3 }
  | .vclr o => .vclr o
  | .hitch i => .hitch i

/-- A landing-queue entry with every result lame, cause UE; what a command would bring comes too late for it. -/
def Landing.ue (e : Landing) : Landing := { e with tok := none, writes := e.writes.map RegWrite.ue }

/-- The results of the latest group of a context on a pipe land lame, cause UE; in the X pipe those too that its commands deliver to a
channel (R307). -/
def State.spoilPipe (s : State) (key pipe : Nat) : State :=
  s.modCtx key (fun c =>
    { c with land := c.land.map (fun e => if e.seq / 4 == c.seq && (e.word.extractLsb' 28 2).toNat == pipe then e.ue else e),
             xq := c.xq.map (fun x => if pipe == 3 && x.seq / 4 == c.seq then { x with ue := true } else x) })

/-- The sums that a stall's array, or its link, made in its latest step carry POISON (R307). -/
def State.spoilSums (s : State) (st : Nat) : State :=
  { s with gangs := s.gangs.map (fun g =>
      match g.2.members.findIdx? (fun m => m.stall == st) with
      | none => g
      | some i =>
        match (g.2.flight.filter (fun f => f.next == i + 1)).getLast? with
        | none => g
        | some f => (g.1, { g.2 with flight := g.2.flight.map (fun x => if x = f then { x with poison := true } else x) })) }

/-- A detection of a pipe as SHADOWCNT holds it (R38). -/
def countShadow (r : DWord) (bit : Nat) : DWord := setBit (setBits r 23 0 (holdAt 0xFFFFFF (bits r 23 0 + 1))) (24 + bit) true

/-- A detection: it counts in SHADOWCNT and stretches the next cycle of the row domain, in which the pipe's cycle is replayed; a third in
a row ends the replays and spoils the result of the pipe's cycle. A retired position's count does not change (R37, R38, R134, R307). -/
def State.shadowDetect (s : State) (st : Nat) (point : ShadowPoint) (key : Nat) (third : Bool) : State :=
  match s.physStall st with
  | none => s
  | some p =>
    let s1 : State := { s.setReg (.shadowcnt p) (countShadow (s.reg (.shadowcnt p)) (pointBit point)) with
      shadowSeen := s.shadowSeen.put p (s.shadowSeen.getD p 0 + 1), shadowNow := s.shadowNow ++ [(p, pointBit point)] }
    if !third then { s1 with stretchNext := setAdd s1.stretchNext (stallDieRow st) }
    else
      match point with
      | .s => s1.spoilPipe key 0
      | .v => s1.spoilPipe key 1
      | .x => s1.spoilPipe key 3
      | .array | .link => s1.spoilSums st

/-- A write of SHADOWCNT with CLEAR: what has been detected in this cycle stays counted (R38). -/
def State.clearShadow (s : State) (st : Nat) (v : DWord) : State :=
  match s.physStall st with
  | some p =>
    if bit v 31 then s.setReg (.shadowcnt p) ((s.shadowNow.filter (fun d => d.1 == p)).foldl (fun r d => countShadow r d.2) 0) else s
  | none => s

/-! ## Wear samples (R136 to R138) -/

/-- A position serves a logical column. -/
def State.serves (s : State) (p : Nat) : Bool := (s.stallOfPhys p).isSome

/-- WEAR for relative changes in parts per million of pairs A and B and of the EM line (R136; DESIGN CHOICE, log entry 24). -/
def wearOf (fa fb em : Nat) : Nat :=
  Nat.min 65535 (Nat.max (65535 * Nat.max fa fb / 50000) (65535 * em / 100000))

/-- A sample of a stall in service: WEAR, and the moves of its state that R137 names. -/
def State.wearSample (s : State) (p fa fb em : Nat) : State :=
  if !s.serves p then s
  else
    let seen := s.shadowSeen.getD p 0
    let s0 : State := { s with shadowSeen := s.shadowSeen.del p }
    let r := s0.reg (.stallwear p)
    let cur := s0.physState p
    let wear := Nat.max (bits r 15 0) (wearOf fa fb em)
    let state := if 61440 ≤ wear then Nat.max 2 cur else if 49152 ≤ wear ∨ 64 < seen then Nat.max 1 cur else cur
    s0.writeWear p (setBits (setBits r 15 0 wear) 33 32 state &&& ~~~(fmask 63 63))

/-- Cycles of an hour. -/
def hourCycles : Nat := 700000000 * 3600

/-- The module's powered-on hours (R138). -/
def State.hours (s : State) : Nat := s.nv.hours + s.clock / hourCycles

/-- THRESH of every stall (R138). -/
def State.threshUpdate (s : State) : State :=
  let t := Nat.min 65535 (65535 * s.hours / 61320 + 2048)
  (List.range 4352).foldl (fun s p => s.setField (.stallwear p) 31 16 t) s

/-! ## Errors of stored bits (R23, R137, R298, R302; DESIGN CHOICE, log entry 60) -/

/-- An uncorrectable SRAM or latch error in a stall; the second within 24 hours drains it (R137). -/
def State.sramError (s : State) (st : Nat) : State :=
  match s.physStall st with
  | none => s
  | some p =>
    let again := (s.sramErrAt.get? p).any (fun t => s.clock < t + 24 * hourCycles)
    let s1 : State := { s with sramErrAt := s.sramErrAt.put p s.clock }
    if again && s1.physState p < 2 then (s1.setReg (.stallwear p) (setBits (s1.reg (.stallwear p)) 33 32 2)).stateChanged p 2 else s1

/-- The stall whose scratch holds a granule. -/
def granuleStall (g : Nat) : Option Nat :=
  if 2 ^ 44 ≤ 16 * g ∧ 16 * g < 2 ^ 44 + 4096 * 2 ^ 21 then some ((16 * g - 2 ^ 44) / 2 ^ 21) else none

/-- Bits that a register file or the landing queue delivers for what it cannot correct are as read: free, by the fresh counter, with the
value lame, cause UE (R298; log entry 11). -/
def upsetWord (fresh : Nat) : Lamed DWord := ⟨(Config.uncorrectedBits fresh).setWidth 64, 3⟩

/-- A register of a context, by its index in the lame map of R311 and after it the vector allocation, read as it cannot be corrected. -/
def Files.upset (f : Files) (ix fresh : Nat) : Files :=
  let r : RIdx := BitVec.ofNat 5 ix
  let b : BitVec 3 := BitVec.ofNat 3 (ix - 100)
  let u := Config.uncorrectedBits fresh
  if ix < 32 then { f with s := rset f.s r (upsetWord fresh) }
  else if ix < 64 then { f with a := rset f.a r (upsetWord fresh) }
  else if ix < 96 then { f with n := rset f.n r (upsetWord fresh) }
  else if ix < 100 then { f with j := jset f.j (BitVec.ofNat 2 ix) (upsetWord fresh) }
  else if ix < 108 then { f with k := pset f.k b ⟨u.setWidth 256, 3⟩ }
  else if ix < 116 then { f with p := pset f.p (BitVec.ofNat 3 (ix - 108)) ⟨u.getLsbD 0, 3⟩ }
  else { f with v := f.v.put (ix - 116) ⟨u, 3⟩ }

/-- An error that strikes stored bits: one bit of a granule is corrected; two poison it; a latch bank becomes poisoned, so that the sums of
its passes carry POISON; a register or a queued result reads lame, cause UE (R23, R302). -/
def State.upset (s : State) (u : Upset) : State :=
  match u with
  | .granule _ false => s
  | .granule g true =>
    let s1 : State := { s with mem := s.mem.taint (16 * g) 16 }
    match granuleStall g with
    | some st => s1.sramError st
    | none => s1
  | .latch st b =>
    let l := s.latch st b
    (s.setLatch st b { l with poison := true }).sramError st
  | .register k ix => ({ s with fresh := s.fresh + 1 } : State).modCtx k (fun c => { c with f := c.f.upset ix s.fresh })
  | .landing k seq => s.modCtx k (fun c => { c with land := c.land.map (fun e => if e.seq = seq then e.ue else e) })

/-! ## Meanings -/

/-- DRAMCLK_STEP_WRITE (R26). -/
def execDramclkStepWrite (m : Master) (q : Nat) (v : Word) (s : State) : Host.Outcome State Fault Refusal :=
  .next (s.blockWrite m (fun s => s.writeDramclk q (v.setWidth 64) 0xFFFFFFFF))
/-- RATIO_CHANGE_START (R27). -/
def execRatioChangeStart (q : Nat) (s : State) : Host.Outcome State Fault Refusal := .next (s.ratioStart q)
/-- RATIO_CHANGE_END (R27). -/
def execRatioChangeEnd (q : Nat) (s : State) : Host.Outcome State Fault Refusal := .next (s.ratioEnd q)
/-- DRAM_REFRESH (R25): it changes nothing that a program, a master or firmware sees. -/
def execDramRefresh (_stall : Nat) (s : State) : Host.Outcome State Fault Refusal := .next s
/-- CAPEFF_UPDATE (R31). -/
def execCapeffUpdate (row : Nat) (s : State) : Host.Outcome State Fault Refusal := .next (s.capeff row)
/-- GROOM_CREDIT_REFILL (R124). -/
def execGroomCreditRefill (stall : Nat) (s : State) : Host.Outcome State Fault Refusal := .next (s.refillCredit stall)
/-- POWER_CONTROL_TICK (R34). -/
def execPowerControlTick (watts : BitVec 12) (s : State) : Host.Outcome State Fault Refusal := .next (s.powerTick watts.toNat)
/-- TEMP_CONVERSION (R35). -/
def execTempConversion (sensor : Nat) (code : BitVec 12) (s : State) : Host.Outcome State Fault Refusal :=
  .next (s.convert sensor code.toNat)
/-- THERMAL_CONTROL_TICK (R35). -/
def execThermalControlTick (row : Nat) (s : State) : Host.Outcome State Fault Refusal := .next (s.thermalTick row)
/-- SHADOW_LATCH_DETECT (R307). -/
def execShadowLatchDetect (stall : Nat) (point : ShadowPoint) (key : Nat) (third : Bool) (s : State) : Host.Outcome State Fault Refusal :=
  .next (s.shadowDetect stall point key third)
/-- SHADOWCNT_CLEAR (R38). -/
def execShadowcntClear (m : Master) (stall : Nat) (s : State) : Host.Outcome State Fault Refusal :=
  .next (s.blockWrite m (fun s => s.clearShadow stall 0x80000000))
/-- WEAR_SAMPLE (R136). -/
def execWearSample (pos fa fb em : Nat) (s : State) : Host.Outcome State Fault Refusal := .next (s.wearSample pos fa fb em)
/-- THRESH_UPDATE (R138). -/
def execThreshUpdate (s : State) : Host.Outcome State Fault Refusal := .next s.threshUpdate
/-- LIFE_RECORD_WRITE (R136). -/
def execLifeRecordWrite (s : State) : Host.Outcome State Fault Refusal := .next s.lifeRecord

end Sys2Proof.Machine
end

