-- ==== Sys2Proof/Machine/MPipe.lean ====
section
/-! DEFINITION. Machine/MPipe.lean: the M pipe words and the port queue (R422, R424, R427, R433, R434, R438 to R440). -/

namespace Sys2Proof.Machine

/-! ## The port queue (R438) -/

/-- MISUSE (R424). -/
def Nest.misused (n : Nest) : Nest := { n with misuse := true }

/-- The gang of a context's nest. -/
def State.gangOf (s : State) (k : Nat) : Option (Nat × Gang) :=
  (s.ctx k).nest.gang.bind (fun gi => (s.gangs.get? gi).map (fun g => (gi, g)))

/-- A context armed the tail of its nest (R424). -/
def Ctx.tailArmed (x : Ctx) : Bool := !x.nest.cfg.isEmpty && nestTail x.nest.cfg == x.stall

/-- A nest state is one of the ends (R424). -/
def NestSt.isEnd : NestSt → Bool
  | .done | .cut | .rejected | .check => true
  | .idle | .armed | .running | .frozen => false
/-- A nest state is ARMED, RUNNING or FROZEN. -/
def NestSt.live : NestSt → Bool
  | .armed | .running | .frozen => true
  | .idle | .done | .cut | .rejected | .check => false

/-- NGO at the head of the queue (R422). -/
def State.portNgo (s : State) (k : Nat) (cfg : List DWord) (mode : BitVec 3) : State :=
  let n := (s.ctx k).nest
  if n.st.live then s.modNest k Nest.misused
  else
    (({ s with ids := s.ids + 1 } : State).modNest k (fun n =>
      { st := .armed, cfg := cfg, epi := n.staged, staged := n.staged, mode := mode, arm := s.ids, port := n.port, copy := n.copy,
        owes := n.owes })).gather

/-- A word on every arm of an ARMED gang (R433). -/
def State.armMates (s : State) (k : Nat) (f : Nest → Nest) : State := (s.mates k).foldl (fun s m => s.modNest m f) s

/-- NFREEZE (R433). -/
def State.portFreeze (s : State) (k : Nat) : State :=
  match (s.ctx k).nest.st with
  | .running =>
    match s.gangOf k with
    | some (gi, _) => s.modGang gi (fun g => { g with fpend := true })
    | none => s
  | .frozen => s
  | .armed => s.armMates k (fun n => { n with fpend := true })
  | .idle | .done | .cut | .rejected | .check => s.modNest k Nest.misused

/-- A copy of a member of a gang is under way or queued (R433). -/
def State.copying (s : State) (g : Gang) : Bool :=
  g.members.any (fun m =>
    let n := (s.ctx m.key).nest
    n.copy.isSome || (match n.port with
      | .move _ _ _ _ :: _ => true
      | _ => false))

/-- NTHAW: none while it waits for the copies of its gang (R433). -/
def State.portThaw (s : State) (k : Nat) : Option State :=
  match (s.ctx k).nest.st with
  | .running =>
    match s.gangOf k with
    | some (gi, _) => some (s.modGang gi (fun g => { g with fpend := false }))
    | none => some s
  | .frozen =>
    match s.gangOf k with
    | some (gi, g) =>
      if s.copying g then none
      else if g.byCollector || g.saved.isSome then some (s.modGang gi (fun g => { g with frozen := false }))
      else some ((s.modGang gi (fun g => { g with frozen := false })).modNests gi (fun n => { n with st := .running }))
    | none => some s
  | .armed => some (s.armMates k (fun n => { n with fpend := false }))
  | .idle | .done | .cut | .rejected | .check => some (s.modNest k Nest.misused)

/-- NCUT (R433). -/
def State.portCut (s : State) (k : Nat) (abandon : Bool) : State :=
  match (s.ctx k).nest.st with
  | .running =>
    match s.gangOf k with
    | some (gi, _) => s.modGang gi (fun g => { g with cpend := some abandon })
    | none => s
  | .frozen =>
    match s.gangOf k with
    | some (gi, _) => s.cutGang gi abandon
    | none => s
  | .armed => (s.rejectArms (s.mates k) 4).gather
  | .idle | .done | .cut | .rejected | .check => s.modNest k Nest.misused

/-- First entry of an operand of R434. -/
def moveFirst (a : DWord) : Nat := bits a 41 32

/-- An NDRAIN or NFILL may begin: its state, its ranges and its scratch are allowed (R434). -/
def moveAllowed (x : Ctx) (out : Bool) (a : DWord) (n : Nat) : Bool :=
  x.tailArmed && moveFirst a + n ≤ 1024 && bits a 20 0 % 128 == 0 && x.inScratch (bits a 20 0) (128 * n) &&
  (x.nest.st == .frozen || (out && x.nest.st.isEnd && epiMode x.nest.epi == 0))

/-- NDRAIN or NFILL at the head of the queue: MISUSE, or a copy of one entry every 4 cycles, after the rider's earlier X words that have not
begun or touch its bytes, and after the entries of a drained nest are back (R434, R435). -/
def State.portMove (s : State) (k : Nat) (out : Bool) (a : DWord) (n ord : Nat) : Option State :=
  let x := s.ctx k
  if !moveAllowed x out a n then some (s.modNest k Nest.misused)
  else if (s.gangOf k).any (fun g => g.2.saved.isSome) ||
      x.xq.any (fun c => c.tok < ord && s.holdsBytes k [(2 ^ 60 + bits a 20 0, 128 * n)] c) then none
  else some (s.modNest k (fun y => { y with copy := some (.move out a n ord, s.clock + 4 * n) }))

/-- ACLR at the head of the queue (R434). -/
def State.portAclr (s : State) (k : Nat) (a : DWord) (n : Nat) : Option State :=
  let x := s.ctx k
  if !(x.tailArmed && moveFirst a + n ≤ 1024 && x.nest.st != .running) then some (s.modNest k Nest.misused)
  else if (s.gangOf k).any (fun g => g.2.saved.isSome) then none
  else some (s.modNest k (fun y => { y with copy := some (.aclr a n, s.clock + 4 * n) }))

/-- NSEEK: the position moves, and the fills start again at t(p') (R434). -/
def State.portSeek (s : State) (k : Nat) (a : DWord) : Option State :=
  let p := bits a 31 0
  match (s.ctx k).nest.st, s.gangOf k with
  | .frozen, some (gi, g) =>
    if nestP g.cfg ≤ p then some (s.modNest k Nest.misused)
    else if g.saved.isSome then none
    else
      let s1 := s.modGang gi (fun g =>
        { g with base := p, members := g.members.map (fun m => { m with pass := p, step := 0, fill := p, fillAt := none, halted := none }) })
      let s2 := if g.manual then s1 else g.members.foldl (fun s m => (s.setLatch m.stall false {}).setLatch m.stall true {}) s1
      some (s2.modNests gi (fun n => { n with pass := p, group := p / nestR g.cfg }))
  | _, _ => some (s.modNest k Nest.misused)

/-- WFETCH: none while an earlier one has not filled (R427). -/
def State.portWfetch (s : State) (k tile slot : Nat) : Option State :=
  let n := (s.ctx k).nest
  if !n.st.live || !n.mode.getLsbD 1 then some (s.modNest k Nest.misused)
  else if n.wfetch.isSome then none
  else some (s.modNest k (fun n => { n with wfetch := some (tile, slot), fetched := true }))

/-- WSWAP: a grant; one without KEEP that follows no WFETCH since the previous swap keeps the active bank, with MISUSE (R427). -/
def State.portWswap (s : State) (k : Nat) (keep : Bool) : State :=
  let n := (s.ctx k).nest
  if !n.st.live || !n.mode.getLsbD 1 then s.modNest k Nest.misused
  else if keep then s.modNest k (fun n => { n with grants := n.grants ++ [true] })
  else if n.fetched then s.modNest k (fun n => { n with grants := n.grants ++ [false], fetched := false })
  else s.modNest k (fun n => { n with grants := n.grants ++ [true], misuse := true })

/-- A word at the head of the queue; none while it waits. -/
def State.portApply (s : State) (k : Nat) (w : PortWord) : Option State :=
  match w with
  | .ngo cfg mode => some (s.portNgo k cfg mode)
  | .freeze => some (s.portFreeze k)
  | .thaw => s.portThaw k
  | .move out a n ord => s.portMove k out a n ord
  | .aclr a n => s.portAclr k a n
  | .seek a => s.portSeek k a
  | .wfetch tile slot => s.portWfetch k tile slot
  | .wswap keep => some (s.portWswap k keep)
  | .epicfg e v => some (s.modNest k (fun n => { n with staged := n.staged.set e v }))
  | .cut abandon => some (s.portCut k abandon)

/-- The queue of a context run as far as it goes: in issue order, none beside a copy that is under way. -/
def State.runPort (s : State) (k : Nat) : Nat → State
  | 0 => s
  | fuel + 1 =>
    let n := (s.ctx k).nest
    if n.copy.isSome then s
    else
      match n.port with
      | [] => s
      | w :: t =>
        match (s.modNest k (fun n => { n with port := t })).portApply k w with
        | some u => (u.nwaitTest k).runPort k fuel
        | none => s

/-- Words of a context's queue (R438). -/
def Nest.queued (n : Nest) : Nat := n.port.length + n.copy.toList.length

/-- One accumulator entry copied to scratch with its poison, or back. -/
def moveEntry (k whiff : Nat) (out : Bool) (o e : Nat) : A Unit := do
  let s ← aGet
  if out then do
    let v := s.accGet whiff e
    orNothing (writeScratch k o (v.vals.flatMap (fun x => leBytes 4 x)) v.poison true)
  else do
    let b ← orRefused 128 (readScratch k o 128 1)
    aMod (fun s => s.accPut whiff e { vals := (chunks 4 32 b.val).map leNat, poison := b.lame ≠ 0 })

/-- The entries of a copy moved once every stash line that it touches is filled (R223, R434). -/
def moveAll (k whiff : Nat) (out : Bool) (o e n : Nat) : A Unit := do
  for i in List.range (2 * n) do
    orNothing (touchScratch k (o + 64 * i) 64 (if out then 2 else 1))
  for i in List.range n do
    moveEntry k whiff out (o + 128 * i) (e + i)

/-- ACCUMULATOR_COPY_COMPLETE: the copy of a context has moved its entries, bit for bit (R283, R434); its queue goes on, and that of
every member of its gang, in which an NTHAW may wait. A stash fill that faults halts it (R210, R223). -/
def State.copyDone (s : State) (k : Nat) : State :=
  let x := s.ctx k
  let whiff := stallDieRow (nestTail x.nest.cfg)
  let free := fun (s : State) =>
    let s1 := s.modNest k (fun n => { n with copy := none, copyDead := [] })
    let ks : List Nat := match s1.gangOf k with
      | some (_, g) => g.members.map Member.key
      | none => []
    ((k :: ks.filter (· != k)).foldl (fun s k => s.runPort k 5) s1).retryCmds k
  match x.nest.copy with
  | some (.move out a n _, _) =>
    if x.nest.copyHalt.isSome then s
    else match (withDead k x.nest.copyDead (moveAll k whiff out (bits a 20 0) (moveFirst a) n)) s with
    | (.ok _, t) =>
      free (match t.gangOf k with
        | some (gi, _) => if out then t else t.modGang gi (fun g =>
            { g with touched := (List.range n).foldl (fun l i => setAdd l (moveFirst a + i)) g.touched })
        | none => t)
    | (.error (.fault va kind acc), t) => (t.modNest k (fun n => { n with copyHalt := some (va, kind, acc) })).reportFault x.asid va kind acc
    | (.error _, t) => t
  | some (.aclr a n, _) => free ((List.range n).foldl (fun s i => s.accClear whiff (moveFirst a + i)) s)
  | _ => s

/-! ## M words -/

/-- An M word: NEST_CHECK is raised by the first group that holds one while it is owed, whatever its guard (R309). -/
def runM (g : PIdx) (body : W Unit) (s : State) : Host.Outcome State Fault Refusal :=
  match lowest [guarded g body, nestCheckOwed] s with
  | .ok _ => runWord g body s
  | .error e => .next (settle s (.error e))

/-- Features that a word needs together; the missing ones are named (R146). -/
def needMask (m : DWord) : W Unit := do
  let miss := m &&& ~~~(← getMe).csr.declfeat
  if miss = 0 then pure () else raise 4 miss.toNat

/-- A word put into the port queue; its group is held while the queue is full, and a group whose wait has expired discards it with
MISUSE (R438). -/
def toPort (w : PortWord) : W Unit := do
  let s ← getS
  if 4 ≤ s.me.nest.queued then
    (if s.pos.forced then modS (fun s => s.modNest s.cur Nest.misused) else hold)
  else modS (fun s => (s.modNest s.cur (fun n => { n with port := n.port ++ [w] })).runPort s.cur 5)

/-- A word that reads the nest after every earlier queued word has been applied (R438). -/
def portApplied : W Unit := do
  let s ← getS
  if !s.me.nest.port.isEmpty && !s.pos.forced then hold else pure ()

/-- NFROMS: the lame bit travels; latency 2 (R439). -/
def nfromsWord (d a : RIdx) : W Unit := do
  needMask 1
  let x ← sSrc a
  land 2 [.n d x]
/-- NFROMS (R439). -/
def execNfroms (h : WHead) (d a : RIdx) (s : State) : Host.Outcome State Fault Refusal := runM h.g (nfromsWord d a) s

/-- NSETI (R439). -/
def nsetiWord (d : RIdx) (i : Imm 10) : W Unit := do
  needMask 1
  land 2 [.n d ⟨immS i, 0⟩]
/-- NSETI (R439). -/
def execNseti (h : WHead) (d : RIdx) (i : Imm 10) (s : State) : Host.Outcome State Fault Refusal := runM h.g (nsetiWord d i) s

/-- The features of an NGO (R422). -/
def ngoNeeds (c : Ctx) (mode : BitVec 3) : DWord :=
  let cfg := [(c.nreg 0).val, 0, 0, (c.nreg 3).val]
  let fp4 := nestFmta cfg == 7 || (c.slots.get? (nestWslot cfg)).any (fun t => t.fmt == 7)
  BitVec.ofNat 64 (1 + (mode.getLsbD 0).toNat * 2 + (nestCrosses cfg).toNat * 4 + fp4.toNat * 128)

/-- NGO: n0 to n6 as read, and the arm through the queue (R422). -/
def ngoWord (mode : BitVec 3) : W Unit := do
  needMask (ngoNeeds (← getMe) mode)
  let n0 ← nUse 0
  let n1 ← nUse 1
  let n2 ← nUse 2
  let n3 ← nUse 3
  let n4 ← nUse 4
  let n5 ← nUse 5
  let n6 ← nUse 6
  toPort (.ngo [n0, n1, n2, n3, n4, n5, n6] mode)
/-- NGO (R422). -/
def execNgo (h : WHead) (mode : BitVec 3) (s : State) : Host.Outcome State Fault Refusal := runM h.g (ngoWord mode) s

/-- NWAIT: an explicit wait for the end of the nest, which ends at once when there is none to wait for (R440). -/
def nwaitWord (p : PIdx) (t : Imm 10) : W Unit := do
  needMask 1
  modS (fun s =>
    let t := s.explicitWait .nwait p (immU t).toNat
    match s.me.nest.st with
    | .done | .cut => t
    | .idle | .armed | .running | .frozen | .check | .rejected => t.nwaitTest s.cur)
/-- NWAIT (R440). -/
def execNwait (h : WHead) (p : PIdx) (t : Imm 10) (s : State) : Host.Outcome State Fault Refusal := runM h.g (nwaitWord p t) s

/-- The code of a nest state (R424). -/
def NestSt.code : NestSt → Nat
  | .idle => 0 | .armed => 1 | .running => 2 | .frozen => 3 | .done => 4 | .cut => 5 | .check => 6 | .rejected => 7

/-- The status that NSTAT writes (R424). -/
def State.nestWord (s : State) (k : Nat) : DWord :=
  let x := s.ctx k
  let n := x.nest
  let g := s.gangOf k
  let fp := n.fpend || g.any (fun g => g.2.fpend)
  let cp := g.any (fun g => g.2.cpend.isSome)
  BitVec.ofNat 64 (n.st.code + n.code % 16 * 8 + n.misuse.toNat * 128 + fp.toNat * 256 + cp.toNat * 512 + x.tailArmed.toNat * 1024 +
    n.poison.toNat * 2048 + n.retried.toNat * 4096)

/-- NSTAT, latency 4 (R424). -/
def nstatWord (d : RIdx) : W Unit := do
  needMask 1
  portApplied
  let s ← getS
  land 4 [.n d ⟨s.nestWord s.cur, 0⟩]
/-- NSTAT (R424). -/
def execNstat (h : WHead) (d : RIdx) (s : State) : Host.Outcome State Fault Refusal := runM h.g (nstatWord d) s

/-- NFREEZE (R433). -/
def execNfreeze (h : WHead) (s : State) : Host.Outcome State Fault Refusal := runM h.g (do needMask 1; toPort .freeze) s
/-- NTHAW (R433). -/
def execNthaw (h : WHead) (s : State) : Host.Outcome State Fault Refusal := runM h.g (do needMask 1; toPort .thaw) s

/-- NDRAIN and NFILL: their place among the rider's X words is taken at issue (R434). -/
def moveWord (out : Bool) (a : RIdx) (cnt : BitVec 10) : W Unit := do
  needMask 1
  let v ← nUse a
  let s ← getS
  modS (fun s => { s with ids := s.ids + 1 })
  toPort (.move out v (cnt.toNat + 1) s.ids)
/-- NDRAIN (R434). -/
def execNdrain (h : WHead) (a : RIdx) (cnt : BitVec 10) (s : State) : Host.Outcome State Fault Refusal := runM h.g (moveWord true a cnt) s
/-- NFILL (R434). -/
def execNfill (h : WHead) (a : RIdx) (cnt : BitVec 10) (s : State) : Host.Outcome State Fault Refusal := runM h.g (moveWord false a cnt) s

/-- NPOS: pass and group, latency 4 (R439). -/
def nposWord (d : RIdx) : W Unit := do
  needMask 1
  portApplied
  let n := (← getMe).nest
  land 4 [.n d ⟨BitVec.ofNat 64 (n.pass % 2 ^ 32 + n.group % 2 ^ 32 * 2 ^ 32), 0⟩]
/-- NPOS (R439). -/
def execNpos (h : WHead) (d : RIdx) (s : State) : Host.Outcome State Fault Refusal := runM h.g (nposWord d) s

/-- NSEEK (R434). -/
def execNseek (h : WHead) (a : RIdx) (s : State) : Host.Outcome State Fault Refusal :=
  runM h.g (do needMask 1; toPort (.seek (← nUse a))) s

/-- WFETCH (R427). -/
def execWfetch (h : WHead) (a : RIdx) (slot : BitVec 4) (s : State) : Host.Outcome State Fault Refusal :=
  runM h.g (do needMask 1; toPort (.wfetch (bits (← nUse a) 31 0) slot.toNat)) s

/-- WSWAP (R427). -/
def execWswap (h : WHead) (keep : Bool) (s : State) : Host.Outcome State Fault Refusal := runM h.g (do needMask 1; toPort (.wswap keep)) s

/-- ACLR (R434). -/
def execAclr (h : WHead) (a : RIdx) (cnt : BitVec 10) (s : State) : Host.Outcome State Fault Refusal :=
  runM h.g (do needMask 1; toPort (.aclr (← nUse a) (cnt.toNat + 1))) s

/-- EPICFG (R439). -/
def execEpicfg (h : WHead) (a : RIdx) (e : BitVec 3) (s : State) : Host.Outcome State Fault Refusal :=
  runM h.g (do needMask 1; toPort (.epicfg e.toNat (← nUse a))) s

/-- CKSUM: NCK and the rows checked, then, on nA[0], both set to zero for the whole nest; latency 4 (R439). -/
def cksumWord (d a : RIdx) : W Unit := do
  needMask 1
  let v ← nUse a
  portApplied
  let n := (← getMe).nest
  land 4 [.n d ⟨BitVec.ofNat 64 (n.nck % 2 ^ 32 + n.rows % 2 ^ 32 * 2 ^ 32), 0⟩]
  if bit v 0 then
    let zero := fun (n : Nest) => { n with nck := 0, rows := 0 }
    modS (fun s => match n.gang with
      | some g => s.modNests g zero
      | none => s.modNest s.cur zero)
/-- CKSUM (R439). -/
def execCksum (h : WHead) (d a : RIdx) (s : State) : Host.Outcome State Fault Refusal := runM h.g (cksumWord d a) s

/-- NCUT END (R433). -/
def execNcutEnd (h : WHead) (s : State) : Host.Outcome State Fault Refusal := runM h.g (do needMask 1; toPort (.cut false)) s
/-- NCUT ABANDON (R433). -/
def execNcutAbandon (h : WHead) (s : State) : Host.Outcome State Fault Refusal := runM h.g (do needMask 1; toPort (.cut true)) s

/-- ACCUMULATOR_COPY_COMPLETE (R434). -/
def execAccumulatorCopyComplete (key : Nat) (s : State) : Host.Outcome State Fault Refusal := .next (s.copyDone key)

end Sys2Proof.Machine
end

