-- ==== Sys2Proof/Machine/Image.lean ====
section
/-! DEFINITION. Machine/Image.lean: the save image of a context (R311, R312, R437), the space that it takes, and what a resumption reads
back from it (R150, R313). -/

namespace Sys2Proof.Machine

/-! ## Size (R150, R312) -/

/-- A length rounded up to a boundary. -/
def roundUp (n b : Nat) : Nat := (n + b - 1) / b * b

/-- The scratch bays of a context, as bay numbers of its allocation. -/
def Ctx.scratchBays (c : Ctx) : List Nat := (List.range c.nbays).filter (fun b => !(bits c.csr.baymap 7 0).testBit b)

/-- Bytes of a bay in an image: its data, its full-empty bits and its poison bits. -/
def bayImage : Nat := 262144 + 2048 + 2048

/-- Where the accumulators, the bays and the guard buffer begin, and where the image ends. -/
def Ctx.accAt (c : Ctx) : Nat := 65536 + roundUp (c.vregs * 264) 256
def Ctx.baysAt (c : Ctx) (accn : Nat) : Nat := c.accAt + roundUp (accn * 128) 256
def Ctx.guardAt (c : Ctx) (accn : Nat) : Nat := c.baysAt accn + c.scratchBays.length * bayImage
def Ctx.imageEnd (c : Ctx) (accn : Nat) : Nat := c.guardAt accn + 32 * c.guard.length

/-- SIZE of an image in units of 64 KiB. -/
def Ctx.imageUnits (c : Ctx) (accn : Nat) : Nat := roundUp (c.imageEnd accn) 65536 / 65536

/-- Accumulator entries for which a victim is reserved room: all 1,024 when its context armed the tail of a live nest (R149). -/
def Ctx.accRoom (c : Ctx) : Nat := if c.tailArmed && c.nest.st.live then 1024 else 0

/-- BASE and SIZE of a die's SAVEPOOL. -/
def State.poolBase (s : State) (die : Nat) : Nat := bits (s.reg (.savepool die)) 38 16 * 65536
def State.poolUnits (s : State) (die : Nat) : Nat := bits (s.reg (.savepool die)) 63 40

/-- A run of units of a die's pool meets an image that is kept, or space that a collection holds. -/
def State.unitsTaken (s : State) (die first n : Nat) : Bool :=
  (s.saves ++ s.colls.flatMap (fun c => c.2.space)).any (fun x => x.2.1 == die && overlaps first n x.2.2.1 x.2.2.2)

/-- The lowest free run of n units of a die's pool (DESIGN CHOICE, log entry 25). -/
def State.findUnits (s : State) (die n : Nat) : Option Nat :=
  (List.range (s.poolUnits die + 1 - n)).find? (fun f => n ≤ s.poolUnits die && !s.unitsTaken die f n)

/-! ## The fixed part (R311) -/

/-- 8-byte words. -/
def words (l : List DWord) : List Byte := l.flatMap (fun w => leBytes 8 w.toNat)
/-- Bits packed into bytes, a number of bits each. -/
def packed (w : Nat) (l : List Nat) : List Byte := leBytes (roundUp (w * l.length) 8 / 8) (packNat w l)

/-- The loop stack from the outermost entry, and the link stack oldest first. -/
def loopImage (l : List LoopEntry) : List Byte := l.reverse.flatMap (fun e => words [e.count, e.head, e.exit, e.init])
def linkImage (l : List DWord) : List Byte := words l.reverse

/-- Bytes whose layout the spec does not give: free values (DESIGN CHOICE, log entry 9). -/
def freeImage (fresh o n : Nat) : List Byte := (List.range n).map (fun i => Config.imageByte (fresh * 2 ^ 40 + o + i))

/-- The lame map of R311. -/
def Ctx.lameMap (c : Ctx) : List Byte :=
  let idx := List.range 32
  packed 2 (idx.map (fun i => (c.sreg (BitVec.ofNat 5 i)).lame.toNat) ++ idx.map (fun i => (c.areg (BitVec.ofNat 5 i)).lame.toNat) ++
    idx.map (fun i => (c.nreg (BitVec.ofNat 5 i)).lame.toNat) ++ (List.range 4).map (fun i => (c.jlame (BitVec.ofNat 2 i)).toNat) ++
    (List.range 8).map (fun i => (c.kreg (BitVec.ofNat 3 i)).lame.toNat) ++ (List.range 8).map (fun i => (c.preg (BitVec.ofNat 3 i)).lame.toNat))

/-- The landing entries that the image carries: those of the context, and in handler mode those set aside with the frame (R179, R292). -/
def Ctx.replayList (c : Ctx) : List Landing := (c.land ++ ((c.frame.map (fun f => f.replay)).getD [])).take 24

/-- The register number of a result and its finished value with its width in bytes. -/
def RegWrite.image (vbase : Nat) : RegWrite → Nat × List Byte × Lame
  | .s r x => (r.toNat, words [x.val], x.lame)
  | .a r x => (r.toNat, words [x.val], x.lame)
  | .n r x => (r.toNat, words [x.val], x.lame)
  | .j r x => (r.toNat, words [x.val], x.lame)
  | .p r x => (r.toNat, words [BitVec.ofNat 64 x.val.toNat], x.lame)
  | .k r x => (r.toNat, leBytes 32 x.val.toNat, x.lame)
  | .v o x => (vbase + o, vBytes x.val, x.lame)
  | .vclr o => (vbase + o, [], 0)
  | .hitch i => (0, words [i], 0)
  | .push ch _ _ x => (ch.toNat, vBytes x.val, x.lame)

/-- A result as a value with its lame cause takes it from the bytes of its place; only a result on its way has a value there. -/
def RegWrite.ofImage (l : List Byte) (lame : Lame) : RegWrite → RegWrite
  | .s r _ => .s r ⟨BitVec.ofNat 64 (leNat (l.take 8)), lame⟩
  | .a r _ => .a r ⟨BitVec.ofNat 64 (leNat (l.take 8)), lame⟩
  | .n r _ => .n r ⟨BitVec.ofNat 64 (leNat (l.take 8)), lame⟩
  | .j r _ => .j r ⟨BitVec.ofNat 64 (leNat (l.take 8)), lame⟩
  | .p r _ => .p r ⟨(leNat (l.take 1)).testBit 0, lame⟩
  | .k r _ => .k r ⟨BitVec.ofNat 256 (leNat (l.take 32)), lame⟩
  | .v o _ => .v o ⟨vOfBytes (l.take 264), lame⟩
  | .vclr o => .vclr o
  | .hitch i => .hitch i
  | .push ch pg rc _ => .push ch pg rc ⟨vOfBytes (l.take 264), lame⟩

/-- The pipe of an entry's word is V (R318). -/
def Landing.ofV (e : Landing) : Bool := e.word.extractLsb' 28 2 == 1

/-- Where the first and the second value of an entry stand in it (R311). -/
def Landing.place (e : Landing) (i : Nat) : Nat := if e.ofV then (if i = 0 then 64 else 856) else 16 + 8 * i

/-- An entry of the replay queue, as the places and bytes of its fields. The draws of a V entry are free (log entry 9). -/
def Landing.image (e : Landing) (vbase fresh o : Nat) : List (Nat × List Byte) :=
  let w := e.writes.map (RegWrite.image vbase)
  let first := (w.head?).getD (0, [], 0)
  let second := (w.drop 1).head?.getD (0, [], 0)
  [(o, leBytes 4 e.word.toNat ++ leBytes 4 e.lit.toNat ++
      [BitVec.ofNat 8 e.remain, BitVec.ofNat 8 (e.tok.isNone.toNat + first.2.2.toNat * 2)] ++ leBytes 2 first.1 ++
      leBytes 2 second.1),
   (o + e.place 0, first.2.1), (o + e.place 1, second.2.1)] ++
  (if e.ofV then [(o + 16, leBytes 8 e.vtype.toNat ++ leBytes 32 e.mask.toNat), (o + 1024, freeImage fresh (o + 1024) 1024)] else [])

/-- An entry as a resumption finds it in the 2,048 bytes of its image: its REMAIN, and its values when it has finished (R179, R313). -/
def Landing.ofImage (e : Landing) (l : List Byte) : Landing :=
  let lame := BitVec.ofNat 2 (leNat ((l.drop 9).take 1) / 2)
  { e with
    remain := leNat ((l.drop 8).take 1),
    writes := if e.tok.isSome then e.writes
      else e.writes.zipIdx.map (fun w => w.1.ofImage (l.drop (e.place w.2)) (if w.2 = 0 then lame else (RegWrite.lameOf w.1))) }

/-- The nest state of R437. -/
def State.nestImage (s : State) (k : Nat) : List Byte :=
  let c := s.ctx k
  let n := c.nest
  let g := (s.gangOf k).map (·.2)
  let status := n.st.code + n.mode.toNat * 8 + (n.fpend || g.any (fun g => g.fpend)).toNat * 2 ^ 13 + (g.any (fun g => g.cpend.isSome)).toNat * 2 ^ 14 +
    c.tailArmed.toNat * 2 ^ 15 + n.poison.toNat * 2 ^ 16 + n.misuse.toNat * 2 ^ 17 + n.retried.toNat * 2 ^ 18 + n.code % 16 * 2 ^ 19
  let wf := match n.wfetch with
    | some (tile, slot) => 2 ^ 8 + tile % 2 ^ 32 * 2 ^ 9 + slot % 16 * 2 ^ 41
    | none => 0
  words ((List.range 7).map (cfgW n.cfg)) ++ words ((List.range 8).map (cfgW n.epi)) ++ words [BitVec.ofNat 64 status] ++
  leBytes 4 n.pass ++ leBytes 4 n.group ++ leBytes 4 n.nck ++ leBytes 4 n.rows ++
  words [BitVec.ofNat 64 ((n.grants.length - n.granted) % 256 + wf)] ++ ((g.bind (fun g => g.oslot)).map (fun t => t.raw)).getD []

/-- The parts of the fixed part of an image with their offsets. -/
def State.imageFixed (s : State) (k units accn : Nat) : List (Nat × List Byte) :=
  let c := s.ctx k
  let scratch := packNat 1 ((List.range 8).map (fun b => (c.scratchBays.contains b).toNat))
  let cache := bits c.csr.baymap 7 0
  let flags := c.handler.toNat + c.snap.isSome.toNat * 2 + ((s.gangOf k).any (fun g => g.2.frozen)).toNat * 4 + (0 < accn : Bool).toNat * 8
  let fs := c.frame
  let free := freeImage s.fresh
  [(0, leBytes 4 0x47564153 ++ [1, BitVec.ofNat 8 flags] ++ leBytes 2 c.replayList.length ++ words [c.csr.riderid] ++ leBytes 4 units ++
      leBytes 2 c.vregs ++ [BitVec.ofNat 8 scratch, BitVec.ofNat 8 cache] ++ leBytes 2 accn),
   (0x40, words [c.pc, c.statusWord, c.csr.wearcnt, c.csr.vtype, c.csr.vwb, c.csr.vrot, c.csr.waitlim, c.csr.deferq, c.csr.vflags, c.csr.baymap,
      c.csr.hitchid, c.csr.declfeat, c.csr.trapvec, c.csr.contstat]),
   (0xC0, words [c.csr.trappc, c.csr.trapcause, c.csr.trapinfo, c.csr.ssw]),
   (0x100, loopImage c.loops), (0x200, linkImage c.links),
   (0x240, words ((List.range 32).map (fun i => (c.sreg (BitVec.ofNat 5 i)).val))),
   (0x340, words ((List.range 32).map (fun i => (c.areg (BitVec.ofNat 5 i)).val))),
   (0x440, words ((List.range 32).map (fun i => (c.nreg (BitVec.ofNat 5 i)).val))),
   (0x540, words ((List.range 4).map (fun i => c.jreg (BitVec.ofNat 2 i)))),
   (0x560, (List.range 8).flatMap (fun i => leBytes 32 (c.kreg (BitVec.ofNat 3 i)).val.toNat)),
   (0x660, BitVec.ofNat 8 (packNat 1 ((List.range 8).map (fun i => (c.preg (BitVec.ofNat 3 i)).val.toNat))) :: c.lameMap),
   (0x680, match fs with
      | some f => loopImage f.loops
      | none => []),
   (0x780, match fs with
      | some f => linkImage f.links
      | none => []),
   (0x7C0, match fs with
      | some f => words [f.vwb, f.vrot]
      | none => []),
   (0x800, if c.snap.isSome then free 0x800 1024 else []),
   (0xC00, if c.chans.isEmpty then [] else free 0xC00 1024),
   (0x1000, words ((List.range 256).map c.srState)),
   (0x1800, if c.slots.isEmpty then [] else free 0x1800 1024),
   (0x1C00, free 0x1C00 (64 * c.xq.length)),
   (0x2400, free 0x2400 (32 * c.stash.length)),
   (0x2500, packed 2 ((List.range c.vregs).map (fun o => (c.vreg o).lame.toNat))),
   (0x2700, s.nestImage k), (0x2800, words c.nest.staged), (0x2840, words [s.ctxStatus k, c.csr.tolr]),
   (0x2850, words [BitVec.ofNat 64 (32 * c.guard.length % 2 ^ 32 + c.govf.toNat * 2 ^ 32 + (c.guardMax / 1024 - 1) % 256 * 2 ^ 33)])] ++
  c.replayList.zipIdx.flatMap (fun e => e.1.image c.vbase s.fresh (0x4000 + 2048 * e.2))

/-! ## The variable parts (R312) -/

/-- A held write as a record of 32 bytes. -/
def Held.image (h : Held) : List Byte :=
  words [h.ea] ++ h.bytes ++ leBytes 2 h.mask.toNat ++ [BitVec.ofNat 8 (h.fe.toNat + h.poison.toNat * 2)] ++ leBytes 5 0

/-- Full-empty bits, or poison bits, of the granules of a bay as bytes. -/
def bitMapOf (l : List Nat) (a : Nat) : List Byte :=
  packed 1 ((List.range 16384).map (fun g => (l.contains (a / 16 + g)).toNat))

/-- The accumulator entries of a tail's nest that the collector has drained, in the order of the drain. -/
def State.accList (s : State) (k : Nat) : List (Nat × AccEntry) :=
  match s.gangOf k with
  | some (_, g) => if g.tailKey = k then g.saved.getD [] else []
  | none => []

/-- The parts of an image with their offsets. -/
def State.imageParts (s : State) (k units : Nat) : List (Nat × List Byte) :=
  let c := s.ctx k
  let acc := s.accList k
  s.imageFixed k units acc.length ++
  (List.range c.vregs).map (fun o => (65536 + 264 * o, vBytes (c.vreg o).val)) ++
  acc.zipIdx.map (fun e => (c.accAt + 128 * e.2, e.1.2.vals.flatMap (leBytes 4))) ++
  c.scratchBays.zipIdx.flatMap (fun b =>
    let o := c.baysAt acc.length + b.2 * bayImage
    let a := c.scratch (b.1 * 2 ^ 18)
    [(o, s.mem.read a (2 ^ 18)), (o + 2 ^ 18, bitMapOf s.mem.full a), (o + 2 ^ 18 + 2048, bitMapOf s.mem.poison a)]) ++
  c.guard.reverse.zipIdx.map (fun h => (c.guardAt acc.length + 32 * h.2, h.1.image))

/-- A save image written to its units; its words of the header name the units that it keeps (R149, R311). -/
def State.writeImage (s : State) (k die first : Nat) : State :=
  let units := (s.ctx k).imageUnits (s.accList k).length
  let base := s.poolBase die + first * 65536
  let m := (s.imageParts k units).foldl (fun (m : Mem) p => m.store (base + p.1) p.2) (s.mem.wipe base (units * 65536))
  { s with mem := m, saves := s.saves.put k (die, first, units), fresh := s.fresh + 1 }

/-! ## Resumption (R313) -/

/-- The granules of a bit map that are set. -/
def granulesOf (a : Nat) (l : List Byte) : List Nat :=
  l.zipIdx.flatMap (fun b => (List.range 8).filterMap (fun i => if b.1.getLsbD i then some (a / 16 + 8 * b.2 + i) else none))

/-- A scratch bay taken back from an image: its bytes, full-empty bits and poison. -/
def Mem.restoreBay (m : Mem) (src dst : Nat) : Mem :=
  let data := m.read src (2 ^ 18)
  let full := granulesOf dst (m.read (src + 2 ^ 18) 2048)
  let bad := granulesOf dst (m.read (src + 2 ^ 18 + 2048) 2048)
  let m1 := (m.wipe dst (2 ^ 18)).store dst data
  { m1 with full := full.foldl setAdd m1.full, poison := bad.foldl setAdd m1.poison }

/-! What an image holds of a context goes back into it. The parts whose bytes the spec does not lay out (channels, tensor slots, X commands,
stash mappings, the containment snapshot) stay as they were saved (DESIGN CHOICE, log entry 9). -/

/-- An 8-byte word of an image. -/
def Mem.word (m : Mem) (a : Nat) : DWord := BitVec.ofNat 64 (leNat (m.read a 8))

/-- Loop entries and links from an image, as many as were saved. -/
def Mem.loopsAt (m : Mem) (a n : Nat) : List LoopEntry :=
  ((List.range n).map (fun e => ({ count := m.word (a + 32 * e), head := m.word (a + 32 * e + 8), exit := m.word (a + 32 * e + 16),
                                   init := m.word (a + 32 * e + 24) } : LoopEntry))).reverse
def Mem.linksAt (m : Mem) (a n : Nat) : List DWord := ((List.range n).map (fun e => m.word (a + 8 * e))).reverse

/-- Bits [2i+1:2i] of a packed map. -/
def Mem.lameAt (m : Mem) (a i : Nat) : Lame := BitVec.ofNat 2 ((m.get (a + i / 4)).toNat / 4 ^ (i % 4))

/-- A file of n registers from an image, each a value and its lame cause. -/
def fileAt {α : Type} {n : Nat} (old : Vector (Lamed α) n) (val : Nat → α) (lame : Nat → Lame) (keep : Nat → Bool) : Vector (Lamed α) n :=
  Vector.ofFn (fun (i : Fin n) => if keep i then old[i] else ⟨val i, lame i⟩)

/-- The register files of a context from its image; s0, s26 to s31 and a0, which hold nothing, stay. -/
def Ctx.filesAt (c : Ctx) (m : Mem) (b : Nat) : Files :=
  let lame := m.lameAt (b + 0x661)
  { s := fileAt c.f.s (fun i => m.word (b + 0x240 + 8 * i)) lame (fun i => i = 0 || 26 ≤ i),
    a := fileAt c.f.a (fun i => m.word (b + 0x340 + 8 * i)) (fun i => lame (32 + i)) (· = 0),
    n := fileAt c.f.n (fun i => m.word (b + 0x440 + 8 * i)) (fun i => lame (64 + i)) (fun _ => false),
    j := fileAt c.f.j (fun i => m.word (b + 0x540 + 8 * i)) (fun i => lame (96 + i)) (fun _ => false),
    k := fileAt c.f.k (fun i => BitVec.ofNat 256 (leNat (m.read (b + 0x560 + 32 * i) 32))) (fun i => lame (100 + i)) (fun _ => false),
    p := fileAt c.f.p (fun i => (m.get (b + 0x660)).getLsbD i) (fun i => lame (108 + i)) (· = 0),
    v := (List.range c.vregs).foldl (fun v o =>
      let x : Lamed VReg := ⟨vOfBytes (m.read (b + 65536 + 264 * o) 264), m.lameAt (b + 0x2500) o⟩
      if c.vreg o = x then v else v.put o x) c.f.v }

/-- The control and status registers of a context from its image. -/
def Ctx.csrsAt (c : Ctx) (m : Mem) (b : Nat) : Csrs :=
  let w := fun (o : Nat) => m.word (b + o)
  { c.csr with
    status := w 0x48, wearcnt := w 0x50, vtype := w 0x58, vwb := w 0x60, vrot := w 0x68, waitlim := w 0x70, deferq := w 0x78,
    vflags := w 0x80, baymap := w 0x88, hitchid := w 0x90, declfeat := w 0x98, trapvec := w 0xA0, contstat := w 0xA8,
    trappc := w 0xC0, trapcause := w 0xC8, trapinfo := w 0xD0, ssw := w 0xD8, tolr := w 0x2848 }

/-- What a trap has set aside, from the image. -/
def Frame'.atImage (f : Frame') (m : Mem) (b : Nat) : Frame' :=
  { f with loops := m.loopsAt (b + 0x680) f.loops.length, links := m.linksAt (b + 0x780) f.links.length,
           vwb := m.word (b + 0x7C0), vrot := m.word (b + 0x7C8) }

/-- A held write from its record. -/
def Held.ofImage (l : List Byte) : Held :=
  { ea := BitVec.ofNat 64 (leNat (l.take 8)), bytes := (l.drop 8).take 16, mask := BitVec.ofNat 16 (leNat ((l.drop 24).take 2)),
    fe := (l.getD 26 0).getLsbD 0, poison := (l.getD 26 0).getLsbD 1 }

/-- The replay queue from an image: the context's entries, then those set aside. -/
def replayAt (m : Mem) (b first : Nat) (l : List Landing) : List Landing :=
  l.zipIdx.map (fun e => if first + e.2 < 24 then e.1.ofImage (m.read (b + 0x4000 + 2048 * (first + e.2)) 2048) else e.1)

/-- A context as its image holds it (R151, R313). -/
def Ctx.atImage (c : Ctx) (m : Mem) (b accn : Nat) : Ctx :=
  let st := m.word (b + 0x2840)
  { c with
    pc := m.word (b + 0x40), csr := c.csrsAt m b, f := c.filesAt m b,
    loops := m.loopsAt (b + 0x100) c.loops.length, links := m.linksAt (b + 0x200) c.links.length,
    frame := c.frame.map (fun f => { f.atImage m b with replay := replayAt m b c.land.length f.replay }),
    land := replayAt m b 0 c.land,
    sr := (List.range 256).foldl (fun r j => if c.srState j = m.word (b + 0x1000 + 8 * j) then r else r.put j (m.word (b + 0x1000 + 8 * j))) c.sr,
    refused := bit st 0, ue := bit st 1, baddesc := bit st 2, nref := bits st 23 8, nue := bits st 39 24,
    govf := bit (m.word (b + 0x2850)) 32,
    guard := (c.guard.reverse.zipIdx.map (fun h => Held.ofImage (m.read (b + c.guardAt accn + 32 * h.2) 32))).reverse,
    nest := { c.nest with staged := (List.range 8).map (fun i => m.word (b + 0x2800 + 8 * i)) } }

/-- The accumulator entries of a tail's nest from its image. -/
def State.accAtImage (s : State) (k b : Nat) : State :=
  match s.gangOf k with
  | none => s
  | some (g, _) => s.modGang g (fun x => if x.tailKey = k then { x with saved := x.saved.map (fun l => l.zipIdx.map (fun e =>
      (e.1.1, { e.1.2 with vals := (List.range e.1.2.vals.length).map (fun i =>
        leNat (s.mem.read (b + (s.ctx k).accAt + 128 * e.2 + 4 * i) 4)) }))) } else x)

/-- An image is read back: what it holds of the context goes back into it, its bays return to scratch, and its space is released; or it is
poisoned, and none of it is used. -/
def State.readImage (s : State) (k : Nat) : Option State :=
  match s.saves.get? k with
  | none => some s
  | some (die, first, units) =>
    let base := s.poolBase die + first * 65536
    if s.mem.poisoned base (units * 65536) then none
    else
      let c := s.ctx k
      let accn := (s.accList k).length
      let m := c.scratchBays.zipIdx.foldl (fun (m : Mem) b =>
        m.restoreBay (base + c.baysAt accn + b.2 * bayImage) (c.scratch (b.1 * 2 ^ 18))) s.mem
      let s1 := (s.accAtImage k base).setCtx k (c.atImage s.mem base accn)
      some { s1 with mem := m, saves := s1.saves.del k }

end Sys2Proof.Machine
end

