-- ==== Sys2Proof/Machine/Dispatcher.lean ====
section
/-! DEFINITION. Machine/Dispatcher.lean: launches take rider records, and the dispatcher places riders and chooses victims
(R117, R140 to R148, R151, R156, R162, R167). -/

namespace Sys2Proof.Machine

/-- Cycles of a microsecond. -/
def usCycles : Nat := 700

/-! ## Records (R117, R141, R162, R167) -/

/-- The stall of rider i of a BOUND launch (R141). -/
def boundStall (b : List Byte) (i : Nat) : Nat :=
  let w := bankWidth b
  stallAt (bankOrigin b / 64 + i % (bankHeight b * w) / w) (bankOrigin b % 64 + i % w)

/-- A stall to which no BOUND rider comes: its logical column is RETIRED, or its row has SPARES = 0, whatever its STATE (R141; DEDUCED,
log entry 51). -/
def State.neverBound (s : State) (st : Nat) : Bool :=
  (s.physStall st).isNone || sparesOf (bits (s.reg (.colmap (stallDieRow st))) 33 0) == 0

/-- The rider of index i of a launch, or the exact rider of tile i, in a free record (R117, R156, R162). -/
def Launch.rider (l : Launch) (li i slot gen order clock : Nat) (exact : Bool) : Ctx :=
  let b := l.bank
  let guarded := l.kind == .surrogate && !exact
  let prio := if exact then Nat.max 6 l.prio else l.prio
  let pc := if exact then bankXentry b else bankEntry b
  let c := newRider l.die slot gen prio (bankFeat l.kind b) pc order clock (BitVec.ofNat 64 (bankArgs l.kind b)) (BitVec.ofNat 64 i)
    (BitVec.ofNat 64 l.total)
  { c with
    launch := li, index := i, asid := l.asid, root := l.root, aspace := l.aspace,
    vregs := bankVregs l.kind b, nbays := bankBays l.kind b,
    tileX := if l.kind = .kernel then i else i % bankTilesX b, tileY := if l.kind = .kernel then 0 else i / bankTilesX b,
    bound := if bankBound l.kind b then some (boundStall b i) else none,
    guardMax := if guarded then (bankGuard b + 1) * 1024 else 0,
    csr := { c.csr with
      status := setBit c.csr.status 5 guarded,
      tolr := if l.kind == .surrogate then BitVec.ofNat 64 (bankTolr b) else 0,
      baymap := BitVec.ofNat 64 (bankBays l.kind b * 256) } }

/-- A launch's rider is created in the lowest free record; a BOUND rider that could never be placed is not created, and its node ends
with a fault (R141). -/
def State.createRider (s : State) (li i : Nat) (exact : Bool) : State :=
  match s.launches.get? li with
  | none => s
  | some l =>
    if bankBound l.kind l.bank && s.neverBound (boundStall l.bank i) then
      { s with launches := s.launches.put li { l with fault := true } }
    else
      match s.freeRecord l.die with
      | none => s
      | some slot => s.putRider l.die slot (l.rider li i slot (s.gens.getD (riderKey l.die slot) 0) s.ids s.clock exact)

/-- The next riders of a launch without HITCH are created while records last: exact riders first when they rank above the rest. -/
def State.grantFree (s : State) (li : Nat) : Nat → State
  | 0 => s
  | n + 1 =>
    match s.launches.get? li with
    | none => s
    | some l =>
      if (s.freeRecord l.die).isNone then s
      else
        match l.exact with
        | t :: rest =>
          if l.prio < 6 || l.created = l.total then
            (({ s with launches := s.launches.put li { l with exact := rest } } : State).createRider li t true).grantFree li n
          else
            (({ s with launches := s.launches.put li { l with created := l.created + 1 } } : State).createRider li l.created false).grantFree li n
        | [] =>
          if l.created = l.total then s
          else (({ s with launches := s.launches.put li { l with created := l.created + 1 } } : State).createRider li l.created false).grantFree li n

/-- Every rider of a launch with HITCH is created at once, as members of its hitch (R117, R167). -/
def State.grantHitch (s : State) (li key : Nat) : State :=
  match s.launches.get? li with
  | none => s
  | some l =>
    let s1 := (List.range l.total).foldl (fun s i => s.createRider li i false) s
    let mine := (s1.ctxs.filter (fun c => !isGroom c.1 && c.2.launch == li)).map (·.1)
    let s3 : State := { s1 with hitches := s1.hitches.upd key (fun h => { h with members := mine, live := !mine.isEmpty }) }
    let s4 := mine.foldl (fun s k => s.modCtx k (fun c => { c with csr := { c.csr with hitchid := hitchId key (s3.hitchGen key) } })) s3
    { s4 with launches := s4.launches.upd li (fun l => { l with created := l.total }) }

/-- The priority of the next rider of a launch. -/
def Launch.nextPrio (l : Launch) : Nat := if l.exact.isEmpty then l.prio else Nat.max 6 l.prio

/-- The launches of a die that wait for records, in the order in which the dispatcher considers their next riders (R143, R167). From the
oldest one with HITCH on, those that began later take none until it has its records (DEDUCED, log entry 16). -/
def State.recordOrder (s : State) (die : Nat) : List Nat :=
  let mine := s.recordWait.filter (fun l => (s.launches.get? l).any (fun x => x.die == die))
  let older := match s.holder die with
    | some h => mine.takeWhile (· != h) ++ [h]
    | none => mine
  sortBy (fun l => 7 - ((s.launches.get? l).map Launch.nextPrio).getD 0) older

/-- One waiting launch takes what it can; a launch with HITCH takes its entry, and then every record at once or none. The second
component says that it holds the records that free, while it waits for its entry as while it waits for records. -/
def State.grantOne (s : State) (li : Nat) : State × Bool :=
  match s.launches.get? li with
  | none => (s, false)
  | some l =>
    if bankHitch l.kind l.bank then
      let s1 : State := match l.hitch with
        | some _ => s
        | none =>
          match s.freeHitch l.die with
          | some e => ({ s with launches := s.launches.put li { l with hitch := some (e * 4 + l.die) } } : State).makeHitch (e * 4 + l.die) []
          | none => s
      match (s1.launches.get? li).bind (·.hitch) with
      | none => (s1, true)
      | some key =>
        if (s1.recordsOf l.die).length + l.total ≤ poolSize then (s1.grantHitch li key, false) else (s1, true)
    else (s.grantFree li (l.total + l.exact.length), false)

/-- The records of a die are offered once to its waiting launches in their order (R167). -/
def State.grantPass (s : State) (die : Nat) : State :=
  let r := (s.recordOrder die).foldl (fun (r : State × Bool) li => if r.2 then r else r.1.grantOne li) (s, false)
  { r.1 with recordWait := r.1.recordWait.filter (fun li =>
      (r.1.launches.get? li).any (fun l => l.created != l.total || !l.exact.isEmpty)) }

/-- RIDER_RECORD_GRANT: the records of a die are offered to its waiting launches, and again to those behind a launch with HITCH that has
taken all of its own (R167). -/
def State.grantRounds (s : State) (die : Nat) : Nat → State
  | 0 => s
  | n + 1 => let t := s.grantPass die; if t.holder die = s.holder die then t else t.grantRounds die n
def State.grantAll (s : State) (die : Nat) : State := s.grantRounds die (s.recordWait.length + 1)

/-- A launch begins: it takes ASID and ROOT from the ASROOT of its queue, and waits for records (R117, R167, R204). -/
def State.newLaunch (s : State) (kind : LaunchKind) (die cmd q : Nat) (node : Option (Nat × Nat)) (bank : List Byte) (prio : Nat)
    (restart : Bool) : State :=
  let a := s.reg (.asroot q)
  let l : Launch := { kind := kind, die := die, cmd := cmd, node := node, bank := bank, prio := prio, asid := bits a 11 0,
                      root := bits a 38 13, aspace := bit a 12, total := bankRiders kind bank, restart := restart }
  ({ s with launches := s.launches.put s.ids l, recordWait := s.recordWait ++ [s.ids], ids := s.ids + 1 } : State).grantAll die

/-- A tile falls back: its exact rider waits for a record (R156). -/
def State.fallTile (s : State) (li tile : Nat) : State :=
  match s.launches.get? li with
  | none => s
  | some l =>
    if l.kind != .surrogate || l.total ≤ tile || l.fell.contains tile then s
    else
      ({ s with launches := s.launches.put li { l with fell := setAdd l.fell tile, exact := l.exact ++ [tile] },
                recordWait := if s.recordWait.contains li then s.recordWait else s.recordWait ++ [li] } : State).grantAll l.die

/-- The surrogate rider of a tile. -/
def State.tileRider (s : State) (li tile : Nat) : Option (Nat × Ctx) :=
  s.ctxs.find? (fun c => !isGroom c.1 && c.2.launch == li && c.2.index == tile && c.2.guardMax != 0)

/-- SURROGATE_FALLBACK: a tile whose GCHECK discarded, or whose rider has ended without one that commits (R156). -/
def State.fallback (s : State) (li tile : Nat) : State :=
  match s.tileRider li tile with
  | some (_, c) => if c.gchecked = some false || (c.retiring && c.gchecked != some true) then s.fallTile li tile else s
  | none => s

/-! ## Placement (R140 to R143) -/

/-- A stall is eligible for a rider (R140): with the residents that a test leaves on it. -/
def State.eligibleWith (s : State) (st : Nat) (c : Ctx) (stay : Nat → Bool) : Bool :=
  let l := (s.residents st).filter (fun x => stay x.1)
  s.stallState st < 2 && covers (s.featOf st) (c.csr.declfeat.extractLsb' 0 8) && l.length < 2 &&
  (l.map (fun x => x.2.vregs)).sum + c.vregs ≤ 2048 && (l.map (fun x => x.2.nbays)).sum + c.nbays ≤ 8 &&
  (s.moves.get? (stallDieRow st)).isNone
/-- A stall is eligible for a rider as it stands. -/
def State.eligible (s : State) (st : Nat) (c : Ctx) : Bool := s.eligibleWith st c (fun _ => true)

/-- WEAR of a stall, and whether it is under its threshold (R138). -/
def State.wearNow (s : State) (st : Nat) : Nat := bits (s.wearReg st) 15 0
def State.underThresh (s : State) (st : Nat) : Bool := s.wearNow st < bits (s.wearReg st) 31 16

/-- The home paddock of a salt and tile coordinates (R142). -/
def homePaddock (salt x y : Nat) : Nat :=
  let w := 2 ^ 32
  let h0 := salt % w ^^^ ((y * 65536 + x) % w)
  let h1 := h0 * 0x85EBCA6B % w
  let h2 := h1 ^^^ (h1 / 2 ^ 13)
  let h3 := h2 * 0xC2B2AE35 % w
  (h3 ^^^ (h3 / 2 ^ 16)) % 256

/-- The home paddock of a rider. -/
def State.homeOf (s : State) (c : Ctx) : Nat :=
  let salt := match s.launches.get? c.launch with
    | some l => bankArgs l.kind l.bank % 2 ^ 32
    | none => 0
  homePaddock salt c.tileX c.tileY

/-- The stalls of the die of a paddock. -/
def dieStalls (p : Nat) : List Nat :=
  let q := stallQuarter ((paddockStalls p).headD 0)
  (List.range 1024).map (fun i => stallAt (i / 32 + (if 2 ≤ q then 32 else 0)) (i % 32 + (if q % 2 = 1 then 32 else 0)))

/-- The least-worn stall of a list; ties go to the lower number. -/
def State.leastWorn (s : State) (l : List Nat) : Option Nat :=
  l.foldl (fun m st => match m with
    | none => some st
    | some x => if s.wearNow st * 4096 + st < s.wearNow x * 4096 + x then some st else m) none

/-- The stalls on which an error of a launch occurred, to which its free riders never go again (R154). -/
def State.shunned (s : State) (c : Ctx) : List Nat :=
  match s.launches.get? c.launch with
  | some l => if l.reexec then l.badStalls else []
  | none => []

/-- SPILL has passed since a rider reached the dispatcher (R143). -/
def State.spilled (s : State) (c : Ctx) : Bool :=
  let n := bits (s.reg .dispctl) 23 16
  n != 0 && c.since + n * usCycles ≤ s.clock

/-- The stall to which a waiting rider can go now (R141, R143). -/
def State.choose (s : State) (c : Ctx) : Option Nat :=
  match c.bound with
  | some st => if s.eligible st c then some st else none
  | none =>
    let bad := s.shunned c
    let ok := fun (l : List Nat) => l.filter (fun st => s.eligible st c && !bad.contains st)
    let home := s.homeOf c
    if c.prio < 6 then
      s.leastWorn ((ok (if s.spilled c then dieStalls home else paddockStalls home)).filter s.underThresh)
    else
      match s.leastWorn (ok (paddockStalls home)) with
      | some st => some st
      | none =>
        match s.leastWorn (ok (dieStalls home)) with
        | some st => some st
        | none => s.leastWorn (ok (List.range 4096))

/-- The dispatcher places riders: it is not paused, and the life-cycle state allows user launches (R103, R144). -/
def State.dispatches (s : State) : Bool := !bit (s.reg .dispctl) 0 && s.lifeCycle != 3

/-- Riders that wait for a place, in the order of R143. -/
def State.waiters (s : State) : List (Nat × Ctx) :=
  let order := fun (c : Ctx) => match c.loc with
    | .waiting n => n
    | .on _ _ | .stopped _ _ _ | .saved => 0
  sortBy (fun c => 7 - c.2.prio) (sortBy (fun c => order c.2) (s.ctxs.filter (fun c =>
    !isGroom c.1 && !c.2.retiring && (match c.2.loc with
      | .waiting _ => true
      | .on _ _ | .stopped _ _ _ | .saved => false))))

/-- A context as it takes its place on a stall: its user context, its vector registers and bays there; its waits begin again with
their whole length (R140, R192). -/
def Ctx.takePlace (c : Ctx) (st slot clock : Nat) : Ctx :=
  { c with
    loc := .on st slot, vbase := if slot = 0 then 0 else 2048 - c.vregs,
    bays := (List.range c.nbays).map (fun i => if slot = 0 then i else 8 - c.nbays + i),
    waits := c.waits.map (fun w => { w with deadline := clock + w.limit }), rbuf := [], contested := none }

/-- A rider placed on a stall: an acquire; a saved one takes its image back, and ends when the image is poisoned (R151, R255, R313). -/
def State.placeOn (s : State) (k st : Nat) : State :=
  let slot := if (s.residents st).any (fun c => c.2.slot == 0) then 1 else 0
  let s1 := (s.acquireAt st 5).modCtx k (fun c => c.takePlace st slot s.clock)
  match s1.readImage k with
  | none => ({ s1 with saves := s1.saves.del k } : State).failRider k { code := 7, info := 3, lame := 3 }
  | some s2 =>
    match (s2.ctx k).nest.gang with
    | some g => { s2.modGang g (fun g => if g.saved.isSome then { g with order := s2.ids } else g) with ids := s2.ids + 1 }
    | none => s2

/-- RIDER_PLACE: the first waiting rider that can be placed is the given one, and it is placed (R143). -/
def State.placeRider (s : State) (k : Nat) : State :=
  if !s.dispatches then s
  else
    match s.waiters.find? (fun c => (s.choose c.2).isSome) with
    | some (k', c) => if k' = k then (match s.choose c with
        | some st => s.placeOn k st
        | none => s) else s
    | none => s

/-- Waiting riders are placed while any can be. -/
def State.placeAll (s : State) : Nat → State
  | 0 => s
  | n + 1 =>
    if !s.dispatches then s
    else
      match s.waiters.find? (fun c => (s.choose c.2).isSome) with
      | some (k, _) => (s.placeRider k).placeAll n
      | none => s

/-- SPILL_EXPIRY: from now on the whole die counts for the rider (R143). -/
def State.spill (s : State) (k : Nat) : State := if s.spilled (s.ctx k) then s.placeRider k else s

/-! ## Collections (R148, R149) -/

/-- Units reserved for a victim: its guard buffer at its greatest, and every accumulator entry of a tail's live nest (R149). -/
def Ctx.reserveUnits (c : Ctx) : Nat :=
  roundUp (c.guardAt c.accRoom + Nat.max c.guardMax (32 * c.guard.length)) 65536 / 65536

/-- Space reserved for the victims of a collection, all of it or none. -/
def State.reserve (s : State) (ci : Nat) : List Nat → Option State
  | [] => some s
  | k :: t =>
    let c := s.ctx k
    let die := stallQuarter c.stall
    match s.findUnits die c.reserveUnits with
    | none => none
    | some first =>
      ({ s with colls := s.colls.upd ci (fun x => { x with space := x.space.put k (die, first, c.reserveUnits) }) } : State).reserve ci t

/-- The collector sends its stops when the space is reserved; a collection without images needs none (R149, R154). A stop for a context
under another collection waits until that one ends (R152). -/
def State.sendStops (s : State) (ci : Nat) : State :=
  match s.colls.get? ci with
  | none => s
  | some x =>
    if x.sent || s.colls.any (fun y => y.1 != ci && y.2.sent && y.2.victims.any x.victims.contains) then s
    else
      match (if x.discard then some s else s.reserve ci x.victims) with
      | none => s
      | some s1 =>
        x.victims.foldl (fun s k => s.stopNest k)
          ({ s1 with colls := s1.colls.upd ci (fun x => { x with sent := true, start := s.clock }) } : State)

/-- A context is under a collection. -/
def State.underCollection (s : State) (k : Nat) : Bool := s.colls.any (fun x => x.2.victims.contains k)

/-- A context can be stopped: it runs on its stall and has not ended. -/
def Ctx.stoppable (c : Ctx) : Bool := c.resident && !c.retiring

/-- The fewest residents of a stall whose removal gives a rider room, lowest priority first, then context 0 (R148). -/
def State.victimsOn (s : State) (st : Nat) (c : Ctx) : Option (List Nat) :=
  let all := sortBy (fun x => x.2.prio * 2 + x.2.slot) ((s.residents st).filter (fun x => x.2.stoppable && x.2.prio < c.prio))
  let keys := all.map (·.1)
  (keys.map (fun k => [k]) ++ (if keys.length = 2 then [keys] else [])).find? (fun v => s.eligibleWith st c (fun k => !v.contains k))

/-- The victims widened by the members of their gangs (R148). -/
def State.widen (s : State) (v : List Nat) : List Nat :=
  v ++ (s.gangs.flatMap (fun g =>
    if !g.2.ended && g.2.members.any (fun m => v.contains m.key) then (g.2.members.map (·.key)).filter (fun k => !v.contains k) else []))

/-- PREEMPTWAIT has passed once more (R143, R148); or a collection that had a chosen victim has ended (R152). -/
def State.preemptDue (s : State) (c : Ctx) : Bool :=
  match c.contested with
  | some ci => (s.colls.get? ci).isNone
  | none =>
    let n := bits (s.reg .dispctl) 15 8 * usCycles
    let t := s.clock - c.since
    n ≤ t && (n == 0 || t % n == 0)

/-- PREEMPTWAIT_EXPIRY: a waiting rider at priority 6 or 7 chooses victims and starts a collection; when no stall qualifies or the pool
lacks room it keeps waiting, and when a victim is under a collection it chooses again as soon as that one ends (R148, R149, R152). -/
def State.preempt (s0 : State) (k : Nat) : State :=
  let c := s0.ctx k
  let s := if c.contested.isSome && s0.preemptDue c then s0.setCtx k { c with contested := none } else s0
  let isWaiting := match c.loc with
    | .waiting _ => !c.retiring && !isGroom k
    | .on _ _ | .stopped _ _ _ | .saved => false
  if !isWaiting || c.prio < 6 || !s.dispatches || !s.preemptDue c || (s.choose c).isSome ||
      s.colls.any (fun x => x.2.waiter == some k) then s
  else
    let stalls := match c.bound with
      | some st => [st]
      | none => (paddockStalls (s.homeOf c)).filter (fun st => !(s.shunned c).contains st)
    match s.leastWorn (stalls.filter (fun st => (s.victimsOn st c).isSome)) with
    | none => s
    | some st =>
      let v := s.widen ((s.victimsOn st c).getD [])
      match s.colls.find? (fun x => v.any x.2.victims.contains) with
      | some x => s.setCtx k { c with contested := some x.1 }
      | none =>
      if v.any (fun k => !(s.ctx k).stoppable) then s
      else
        let s1 := (s.collect v true (some k) false).sendStops s.ids
        if (s1.colls.get? s.ids).any (fun x => x.sent) then s1 else s

/-! ## Meanings -/

/-- RIDER_RECORD_GRANT (R167). -/
def execRiderRecordGrant (launch : Nat) (s : State) : Host.Outcome State Fault Refusal :=
  .next (match s.launches.get? launch with
    | some l => s.grantAll l.die
    | none => s)
/-- SURROGATE_FALLBACK (R156). -/
def execSurrogateFallback (launch tile : Nat) (s : State) : Host.Outcome State Fault Refusal := .next (s.fallback launch tile)
/-- RIDER_PLACE (R143). -/
def execRiderPlace (key : Nat) (s : State) : Host.Outcome State Fault Refusal := .next (s.placeRider key)
/-- SPILL_EXPIRY (R143). -/
def execSpillExpiry (key : Nat) (s : State) : Host.Outcome State Fault Refusal := .next (s.spill key)
/-- PREEMPTWAIT_EXPIRY (R148). -/
def execPreemptwaitExpiry (key : Nat) (s : State) : Host.Outcome State Fault Refusal := .next (s.preempt key)

end Sys2Proof.Machine
end

