-- ==== Sys2Proof/Machine/Collector.lean ====
section
/-! DEFINITION. Machine/Collector.lean: the collector, the end of a context, re-execution, and the maintenance move (R149 to R158, R165,
R296). -/

namespace Sys2Proof.Machine

/-! ## Acknowledgements (R149) -/

/-- The engine classes. -/
def engineClasses : List EngineClass := [.scu, .vpipe, .xpipe, .nest, .rein, .whiff]

/-- A command of the X queue that the stop waits for: its data, its reply or its page is on the way, or it could go on. -/
def State.xGoesOn (s : State) (k : Nat) (x : XCmd) : Bool :=
  x.st == .performed || (x.st == .moving && isSend x.i) ||
  (s.mayPerform k x && (match ((performOne k x) s).1 with
    | .ok .stuck | .ok .empty => false
    | .ok .done | .ok (.data _ _) | .ok .sent | .ok .more => true
    | .error _ => true))
where
  /-- RSEND and RCAST. -/
  isSend : Instr → Bool
    | .rsend _ _ _ _ _ | .rcast _ _ _ _ _ _ => true
    | _ => false

/-- A REIN channel of a context has part of a page. -/
def Ctx.reinPart (c : Ctx) : Bool :=
  c.chans.any (fun x => x.2.prod == .rein && x.2.pages.any (fun p => p.st == .open && !p.flits.isEmpty))

/-- A class of a victim has stopped at its unit (R149, R152, R191). -/
def State.stopsAt (s : State) (x : Coll) (k : Nat) (cls : EngineClass) : Bool :=
  let c := s.ctx k
  match cls with
  | .scu => c.groups == 0 || !c.waits.isEmpty || (match c.loc with
      | .stopped _ _ _ => true
      | .on _ _ | .waiting _ | .saved => false)
  | .vpipe => x.acks.contains (k, .scu)
  | .xpipe => x.acks.contains (k, .scu) && c.xq.all (fun y => !s.xGoesOn k y) && !s.outstanding.any (fun o => o.key == k) &&
      !s.homeWait.any (fun h => h.1 == k)
  | .nest => s.nestStopped k && c.nest.copy.isNone
  | .rein => !c.reinPart && !s.reinWait.any (fun w => w.sender == some k) && !c.xq.any (fun y => y.st == .moving && State.xGoesOn.isSend y.i)
  | .whiff => true

/-- STOP_ACKNOWLEDGE: a class that has stopped acknowledges; the SCU issues no further group of the context (R149). -/
def State.stopAck (s : State) (ci k : Nat) (cls : EngineClass) : State :=
  match s.colls.get? ci with
  | none => s
  | some x =>
    if !x.sent || !x.victims.contains k || x.acks.contains (k, cls) || !s.stopsAt x k cls then s
    else
      let s1 : State := { s with colls := s.colls.put ci { x with acks := x.acks ++ [(k, cls)] } }
      if cls = .scu then s1.modCtx k (fun c => { c with loc := .stopped c.stall c.slot ci }) else s1

/-- Every class of every victim has acknowledged. -/
def Coll.complete (x : Coll) : Bool := x.victims.all (fun k => engineClasses.all (fun c => x.acks.contains (k, c)))

/-! ## Withdrawal and completion (R149, R154) -/

/-- A stop withdrawn from one victim: it carries on; a context that FEATURE_ABSENT stopped waits for a collection of its own (R146). -/
def State.withdrawFrom (s : State) (k : Nat) : State :=
  let s1 := s.unstopNest k
  let c := s1.ctx k
  match c.loc with
  | .stopped st slot _ =>
    if covers (s1.featOf st) (c.csr.declfeat.extractLsb' 0 8) then s1.setCtx k { c with loc := .on st slot }
    else { s1.setCtx k { c with loc := .stopped st slot s1.ids } with
           colls := s1.colls.put s1.ids { victims := [k], limited := false, start := s1.clock }, ids := s1.ids + 1 }
  | .on _ _ | .waiting _ | .saved => s1

/-- COLLECTLIM_EXPIRY: COLLECTLIM has passed before every acknowledgement is in: the stop is withdrawn (R149). -/
def State.collectLim (s : State) (ci : Nat) : State :=
  match s.colls.get? ci with
  | none => s
  | some x =>
    if !x.sent || !x.limited || x.complete || s.clock < x.start + bits (s.reg .dispctl) 47 32 * usCycles then s
    else x.victims.foldl (fun s k => s.withdrawFrom k) { s with colls := s.colls.del ci }

/-- A context leaves its stall: its stash mappings and, with cache bays, its slice are dropped, and its paddock is written back, so that it
finds its own stores wherever it goes on (R237). -/
def State.leaveStall (s : State) (k : Nat) : State :=
  let c := s.ctx k
  if !c.resident then s
  else
    let s1 := s.dropStashes k
    let s2 := if bits c.csr.baymap 7 0 = 0 then s1 else s1.flushSlice c.stall
    s2.writeBackPaddock (stallPaddock c.stall)

/-- A victim saved: its image is written, its context on the stall is freed, and it is queued again at its own priority (R149, R151); a
BOUND one whose stall no longer covers its mask ends its node with a fault (R146, R147). -/
def State.saveVictim (s : State) (x : Coll) (k : Nat) : State :=
  match x.space.get? k with
  | none => s
  | some (die, first, _) =>
    let s1 := (s.leaveStall k).writeImage k die first
    let s2 : State := { s1.modCtx k (fun c => { c with loc := .waiting s1.ids, since := s1.clock, bays := [], rbuf := [] }) with
      ids := s1.ids + 1 }
    let c := s2.ctx k
    if c.bound.any (fun st => !covers (s2.featOf st) (c.csr.declfeat.extractLsb' 0 8)) then s2.failRider k { code := 4 } else s2

/-- A context of a launch to be run again is discarded without an image (R154); its wear counts (R111). -/
def State.discardCtx (s : State) (k : Nat) : State :=
  let s1 := (s.leaveStall k).leaveHitch k
  let c := s1.ctx k
  let s2 := match s1.gangOf k with
    | some (g, _) => s1.endGang g .cut
    | none => s1
  { s2 with ctxs := s2.ctxs.del k, saves := s2.saves.del k,
            launches := s2.launches.upd c.launch (fun l => { l with wear := l.wear + c.csr.wearcnt.toNat }) }

/-- Victims that have ended, or that an earlier collection has saved, leave the collection, and their space is released (R152); what a
re-execution finds saved is discarded (R154). -/
def State.dropVictims (s : State) (ci : Nat) : State :=
  match s.colls.get? ci with
  | none => s
  | some x =>
    let away := x.victims.filter (fun k => (s.ctxs.get? k).any (fun c => !c.retiring && !c.resident))
    let s1 := if x.discard then away.foldl (fun s k => s.discardCtx k) s else s
    let stays := fun (k : Nat) => (s1.ctxs.get? k).any (fun c => !c.retiring && c.resident)
    let v := x.victims.filter stays
    if v.isEmpty then { s1 with colls := s1.colls.del ci }
    else { s1 with colls := s1.colls.put ci { x with victims := v, space := x.space.filter (fun e => stays e.1) } }

/-- SAVE_IMAGE_COMPLETE: every acknowledgement is in: the images are written, the contexts freed, and the victims queued again (R149). -/
def State.saveDone (s : State) (ci : Nat) : State :=
  match s.colls.get? ci with
  | none => s
  | some x =>
    if !x.sent || !x.complete then s
    else
      let s1 := x.victims.foldl (fun s k => if x.discard then s.discardCtx k else s.saveVictim x k) s
      { s1 with colls := s1.colls.del ci }

/-- One cycle of a collection: its victims, its stops, and what is due. -/
def State.collTick (s : State) (ci : Nat) : State :=
  let s1 := (s.dropVictims ci).sendStops ci
  match s1.colls.get? ci with
  | none => s1
  | some x =>
    let due := x.victims.flatMap (fun k => (engineClasses.filter (fun c => !x.acks.contains (k, c))).map (fun c => Due.stopAck ci k c))
    s1.push ((if x.sent then due else []) ++ [.saveDone ci, .collectLim ci])

/-! ## Re-execution (R153, R154) -/

/-- The first error of a restartable launch: every rider of it is stopped and discarded (R154). -/
def State.beginReexec (s : State) (li st : Nat) : State :=
  match s.launches.get? li with
  | none => s
  | some l =>
    let s1 : State := { s with launches := s.launches.put li { l with stopping := true, badStalls := setAdd l.badStalls st, exact := [] },
                               recordWait := s.recordWait.filter (· != li) }
    let mine := s1.ctxs.filter (fun c => !isGroom c.1 && c.2.launch == li && !c.2.retiring)
    let off := (mine.filter (fun c => !c.2.resident)).map (·.1)
    let on := (mine.filter (fun c => c.2.resident)).map (·.1)
    let s2 := off.foldl (fun s k => s.discardCtx k) s1
    s2.collect on false none true

/-- What the check of the inputs finds at an address: so many sound bytes; a fault, an absent page or poison; a line of another module
that it needs, by its address; or a home column that holds it. -/
inductive Piece where
  | sound (n : Nat)
  | bad
  | away (pa : Nat)
  | held
  deriving DecidableEq, Repr

/-- The n bytes of a line from byte o touch poison. -/
def Line.poisonedAt (l : Line) (o n : Nat) : Bool := (List.range 4).any (fun g => l.poison.getLsbD g && overlaps o n (16 * g) 16)

/-- The check of the bytes from an address: up to the end of their 64 KiB, or of their line in another module (R154). -/
def State.checkPiece (s : State) (l : Launch) (va n : Nat) : Piece :=
  if 2 ^ 49 ≤ va then .bad
  else match s.walk l.asid l.root va with
  | .error kind => if kind = 0 then .held else .bad
  | .ok e =>
    let a := e.pa + va % e.size
    let m := Nat.min n (65536 - va % 65536)
    if e.host then (if s.mem.hostRefuses a m || s.mem.hostPoisoned a m then .bad else .sound m)
    else if a / 2 ^ 39 % 64 = s.myMod then
      (if s.homeHeld (a % 2 ^ 39) then .held else if s.mem.poisoned (a % 2 ^ 39) m then .bad else .sound m)
    else
      let k := Nat.min n (64 - va % 64)
      match findLine l.input (remoteKey + a / 64 * 64) with
      | some x => if x.poisonedAt (va % 64) k then .bad else .sound k
      | none => .away (a / 64 * 64)

/-- Bytes of the address space of a launch as its check found them. -/
def State.launchBytes (s : State) (l : Launch) (va : Nat) : Nat → List Byte
  | 0 => []
  | n + 1 =>
    (match s.walk l.asid l.root va with
     | .ok e =>
       let a := e.pa + va % e.size
       if e.host then s.mem.hostGet a
       else if a / 2 ^ 39 % 64 = s.myMod then s.mem.get (a % 2 ^ 39)
       else ((findLine l.input (remoteKey + a / 64 * 64)).map (fun x => x.bytes.getD (a % 64) 0)).getD 0
     | .error _ => 0) :: s.launchBytes l (va + 1) n

/-- COUNT of the list named by RODATA, and the ADDR and LEN of an entry (R153). -/
def State.roCount (s : State) (l : Launch) : Nat := leNat (s.launchBytes l (bankRodata l.bank) 8)
def State.roEntry (s : State) (l : Launch) (i : Nat) : Nat × Nat :=
  let a := bankRodata l.bank + 8 + 16 * i
  (leNat (s.launchBytes l a 8), leNat (s.launchBytes l (a + 8) 8))

/-- The parts of the check in their order, by address and length: COUNT, the entries, and the range of each; none after the last. A list
that is malformed has a part of no length (R153, R154). -/
def State.roPart (s : State) (l : Launch) (i : Nat) : Option (Option (Nat × Nat)) :=
  let ro := bankRodata l.bank
  if i = 0 then some (if l.aspace then some (ro, 8) else none)
  else
    let count := s.roCount l
    if i = 1 then some (if 1 ≤ count && count ≤ 256 then some (ro + 8, 16 * count) else none)
    else if i < 2 + count then some (if (s.roEntry l (i - 2)).2 ≤ 2 ^ 40 then some (s.roEntry l (i - 2)) else none)
    else none

/-- The node of a launch that is not run again ends with a fault (R154). -/
def State.endReexec (s : State) (li : Nat) (l : Launch) : State :=
  { s with launches := s.launches.put li { l with stopping := false, reexec := true, created := l.total, fault := true, input := [] } }

/-- Every rider of a launch is created again from its logged bank (R154). -/
def State.runAgain (s : State) (li : Nat) (l : Launch) : State :=
  ({ s with launches := s.launches.put li { l with stopping := false, reexec := true, created := 0, hitch := none, input := [] },
            recordWait := s.recordWait ++ [li] } : State).grantAll l.die

/-- One piece of the check of the inputs of a launch (R154). -/
def State.checkInputs (s : State) (li : Nat) (l : Launch) : State :=
  if bankRodata l.bank = 0 then s.runAgain li l
  else
    match s.roPart l l.scan.1 with
    | none => s.runAgain li l
    | some none => s.endReexec li l
    | some (some (va, len)) =>
      if len ≤ l.scan.2 then { s with launches := s.launches.put li { l with scan := (l.scan.1 + 1, 0) } }
      else match s.checkPiece l (va + l.scan.2) (len - l.scan.2) with
        | .sound n => { s with launches := s.launches.put li { l with scan := (l.scan.1, l.scan.2 + n) } }
        | .bad => s.endReexec li l
        | .away pa =>
          if s.outstanding.any (fun o => o.key == launchKey li) then s
          else s.request l.die pa .read 64 0 [] (launchKey li) 0
        | .held => s

/-- RESTARTABLE_REEXECUTION: once no rider of the first run is left and its writes are performed, the input list is checked and every rider
is created again; or the node ends with a fault (R154). -/
def State.reexec (s : State) (li : Nat) : State :=
  match s.launches.get? li with
  | none => s
  | some l =>
    if !l.stopping || s.ctxs.any (fun c => !isGroom c.1 && c.2.launch == li) || s.unsettled devKey then s
    else if l.fault || (bankBound l.kind l.bank && (List.range l.total).any (fun i => 2 ≤ s.stallState (boundStall l.bank i))) then
      s.endReexec li l
    else s.checkInputs li l

/-! ## The end of a context (R165, R296) -/

/-- What a rider that ended through an unrecovered error brings to its launch (R154, R156, R296): the second error of a launch ends its node
with a fault, and so does a BOUND rider whose stall does not cover its mask (R146). -/
def State.errorEnd (s : State) (c : Ctx) : State :=
  match s.launches.get? c.launch with
  | none => s
  | some l =>
    if l.kind = .surrogate && c.guardMax != 0 then s.fallTile c.launch c.index
    else if l.kind = .kernel && l.restart && !l.reexec && !l.stopping && c.failed.all (fun t => t.code != 4) then
      s.beginReexec c.launch c.stall
    else { s with launches := s.launches.put c.launch { l with fault := true } }

/-- A retired or failed rider has nothing left to do: its commands are complete, its writes performed, its nest over (R165, R436). -/
def State.mayFree (s : State) (k : Nat) : Bool :=
  let c := s.ctx k
  c.retiring && c.xq.isEmpty && !s.outstanding.any (fun o => o.key == k) && !s.onTheWay k && c.nest.copy.isNone &&
  c.nest.st != .armed && (match s.gangOf k with
    | some (_, g) => g.ended && g.stores.isEmpty
    | none => true)

/-- A retired rider begins no group any more: its landing-queue entries whose data are there land, so that commands that wait for
a record among them go on (R165). -/
def State.landRest (s : State) (k : Nat) : State :=
  let c := s.ctx k
  if !c.retiring || c.failed.isSome then s
  else (c.land.filter (fun e => e.tok.isNone)).foldl (fun s e => s.landOne k e)
    (s.setCtx k { c with land := c.land.filter (fun e => e.tok.isSome) })

/-- The wear of a rider counts for its launch, and for the command when the launch has been reported before (R111, R139). -/
def State.countWear (s : State) (c : Ctx) : State :=
  let n := c.csr.wearcnt.toNat
  match s.launches.get? c.launch with
  | none => s
  | some l =>
    { s with launches := s.launches.put c.launch { l with wear := l.wear + n },
             cmds := if l.finished then s.cmds.upd l.cmd (fun x => { x with wear := x.wear + n }) else s.cmds }

/-- A rider with nothing left to do leaves: its context and record are free, its wear is counted, and an error, or a tile without a commit,
has its consequence (R111, R139, R156, R165, R296). -/
def State.freeRider (s : State) (k : Nat) : State :=
  let c := s.ctx k
  let s1 : State := { s with
    ctxs := s.ctxs.del k, saves := s.saves.del k, homeWait := s.homeWait.filter (fun h => h.1 != k) }
  let s2 := s1.countWear c
  let s3 := if c.failed.isSome then s2.errorEnd c
    else if c.guardMax != 0 && c.gchecked != some true then s2.fallTile c.launch c.index
    else s2
  (s3.grantAll (keyDie k)).reinRetry

/-- RIDER_CONTEXT_FREE: what is unlanded lands, its writes are written back from the caches, and once every one is performed its context is
free (R116, R165, R255). -/
def State.contextFree (s : State) (k : Nat) : State :=
  if (s.ctxs.get? k).isNone || isGroom k then s
  else if !s.mayFree k then s.landRest k
  else
    let s1 := if (s.ctx k).failed.isSome then s
      else (s.ctx k).land.foldl (fun s e => s.landOne k e) (s.modCtx k (fun c => { c with land := [] }))
    let s2 := s1.leaveStall k
    if s2.unsettled k then s2 else s2.freeRider k
/-- A rider that a committed tile no longer waits for: its GCHECK has committed and its buffer is empty (R116). -/
def Ctx.tileDone (c : Ctx) : Bool :=
  c.guardMax != 0 && c.gchecked == some true && c.guard.isEmpty &&
  c.xq.all (fun x => match x.i with
    | .gcheck _ _ _ _ _ => false
    | _ => true)

/-- Every rider of a launch has retired, or its tile is committed (R116). -/
def State.launchOver (s : State) (li : Nat) (l : Launch) : Bool :=
  !l.stopping && l.created == l.total && l.exact.isEmpty &&
  s.ctxs.all (fun c => isGroom c.1 || c.2.launch != li || c.2.tileDone)

/-- A launch that is over is reported to its node or command, with its wear; its record goes with its last rider. -/
def State.launchTick (s : State) (li : Nat) : State :=
  match s.launches.get? li with
  | none => s
  | some l =>
    if l.stopping then s.push [.reexec li]
    else if l.finished then
      if s.ctxs.any (fun c => !isGroom c.1 && c.2.launch == li) then s else { s with launches := s.launches.del li }
    else if s.launchOver li l then
      ({ s with launches := s.launches.put li { l with finished := true },
                cmds := s.cmds.upd l.cmd (fun c =>
                  if l.node.isSome then { c with wear := c.wear + l.wear }
                  else { c with wear := c.wear + l.wear, done := true, status := l.fault.toNat }) } : State).push
        [match l.node with
         | some (r, n) => .nodeComplete r n
         | none => .commandComplete l.cmd]
    else s

/-! ## Stalls that leave service (R135, R141, R147, R157, R158) -/

/-- A context that must leave its stall: the stall is drained, no longer offers its features, or lies in a row held for a move. -/
def State.mustLeave (s : State) (c : Ctx) : Bool :=
  2 ≤ s.stallState c.stall || !covers (s.featOf c.stall) (c.csr.declfeat.extractLsb' 0 8) || (s.moves.get? (stallDieRow c.stall)).isSome

/-- Contexts whose stall has left service are stopped without limit, each as soon as there is room for its image, and a BOUND one that can
never run again ends (R135, R141, R147). -/
def State.evictTick (s : State) : State :=
  let lost := s.ctxs.filter (fun c => !isGroom c.1 && !c.2.retiring && c.2.bound.any s.neverBound)
  let s1 := lost.foldl (fun s c => s.failRider c.1 { code := 0 }) s
  ((s1.ctxs.filter (fun c => !isGroom c.1 && c.2.stoppable && s1.mustLeave c.2)).map (·.1)).foldl (fun s k => s.evict [k]) s1

/-- MAINTENANCE_MOVE: a drained stall's row with a spare is held, and its contexts are stopped (R157). -/
def State.beginMove (s : State) (st : Nat) : State :=
  let row := stallDieRow st
  match s.physOf st with
  | none => s
  | some pos =>
    if s.stallState st != 2 || (s.moves.get? row).isSome then s
    else if sparesOf (bits (s.reg (.colmap row)) 33 0) = 0 then s.evictTick
    else ({ s with moves := s.moves.put row { col := stallCol st % 32, pos := pos } } : State).evictTick

/-- Cycles of the copy of a column: 96 MiB at 32 bytes a cycle. -/
def copyCycles : Nat := 3145728

/-- The copy begins when the row is empty: the caches of the row's paddocks are written back and invalidated (R157). -/
def State.moveTick (s : State) (row : Nat) : State :=
  match s.moves.get? row with
  | none => s
  | some m =>
    if m.copying then s.push [.moveCopyDone row]
    else if s.rowBusy row then s
    else
      let ps := ((rowStalls row).map stallPaddock).eraseDups
      let s1 := ps.foldl (fun s p => (s.slices.getD p []).foldl (fun s l => s.flushLine p l.pa) s) s
      { s1 with moves := s1.moves.put row { m with copying := true, since := s.clock } }

/-- MOVE_COPY_COMPLETE: RETIRED is written, STATE reads 3, the numbering shifts, the hold ends, and what the columns held is served (R136, R157,
R158). -/
def State.endMove (s : State) (row : Nat) : State :=
  match s.moves.get? row with
  | none => s
  | some m =>
    if !m.copying || s.clock < m.since + copyCycles then s
    else
      let old := bits (s.reg (.colmap row)) 33 0
      let new := old ||| 2 ^ m.pos
      let s1 := s.setReg (.colmap row) (setBits (setBits (s.reg (.colmap row)) 33 0 new) 35 34 (sparesOf new))
      let east := (List.range 32).filter (fun c => m.col ≤ c)
      let s2 : State := { s1 with
        nv := { s1.nv with retired := s1.nv.retired.put row new }, moves := s1.moves.del row, mem := s1.mem.remapRow row old new false,
        l0 := east.foldl (fun l c => l.del (rowStall row c)) s1.l0,
        stallTlb := east.foldl (fun l c => l.del (rowStall row c)) s1.stallTlb }
      s2.lifeRecord.releaseHeld.push (((rowStalls row).filter (fun st => s2.stallState st == 2)).map Due.maintenanceMove)

/-! ## Meanings -/

/-- STOP_ACKNOWLEDGE (R149). -/
def execStopAcknowledge (col key : Nat) (cls : EngineClass) (s : State) : Host.Outcome State Fault Refusal := .next (s.stopAck col key cls)
/-- COLLECTLIM_EXPIRY (R149). -/
def execCollectlimExpiry (col : Nat) (s : State) : Host.Outcome State Fault Refusal := .next (s.collectLim col)
/-- SAVE_IMAGE_COMPLETE (R149). -/
def execSaveImageComplete (col : Nat) (s : State) : Host.Outcome State Fault Refusal := .next (s.saveDone col)
/-- RESTARTABLE_REEXECUTION (R154). -/
def execRestartableReexecution (launch : Nat) (s : State) : Host.Outcome State Fault Refusal := .next (s.reexec launch)
/-- MAINTENANCE_MOVE (R157). -/
def execMaintenanceMove (stall : Nat) (s : State) : Host.Outcome State Fault Refusal := .next (s.beginMove stall)
/-- MOVE_COPY_COMPLETE (R157). -/
def execMoveCopyComplete (row : Nat) (s : State) : Host.Outcome State Fault Refusal := .next (s.endMove row)
/-- RIDER_CONTEXT_FREE (R165). -/
def execRiderContextFree (key : Nat) (s : State) : Host.Outcome State Fault Refusal := .next (s.contextFree key)

end Sys2Proof.Machine
end

