-- ==== Sys2Proof/Machine/Graph.lean ====
section
/-! DEFINITION. Machine/Graph.lean: descriptors and banks, command completion, the launch node table, replays, and the meanings of the
commands (R105 to R122). -/

namespace Sys2Proof.Machine

/-! ## Memory as the front end sees it (R78, R109, R121) -/

/-- n bytes of a space can be read, poisoned or not: they lie in module DRAM, or the host answers for them. -/
def Mem.reaches (m : Mem) (dram : Bool) (a n : Nat) : Bool := if dram then a + n ≤ dramBytes else !m.hostRefuses a n
/-- n bytes of a space hold poison. -/
def Mem.spoiled (m : Mem) (dram : Bool) (a n : Nat) : Bool := if dram then m.poisoned a n else m.hostPoisoned a n
/-- n bytes of a space. -/
def Mem.space (m : Mem) (dram : Bool) (a n : Nat) : List Byte := if dram then m.read a n else m.hostRead a n

/-- n bytes of a space, when they can be read and hold no poison (R82). -/
def State.feRead (s : State) (dram : Bool) (a n : Nat) : Option (List Byte) :=
  if s.mem.reaches dram a n && !s.mem.spoiled dram a n then some (s.mem.space dram a n) else none

/-- Bytes written by the front end as a release at SYSTEM scope; a DRAM range past the last byte is refused, as the host refuses its own
(R111, R120). -/
def State.feWrite (s : State) (dram : Bool) (a : Nat) (l : List Byte) : State :=
  if dram then (if dramBytes < a + l.length then s else { s with mem := s.mem.write a l })
  else { s with mem := s.mem.hostPut a l false }

/-- Some column of n bytes of a space holds its requests (R27, R28, R158). -/
def State.feHeld (s : State) (dram : Bool) (a n : Nat) : Bool :=
  dram && n != 0 && (List.range (Nat.min (a % 65536 + n - 1) (4095 * 65536) / 65536 + 1)).any (fun i => s.homeHeld (a + 65536 * i))

/-- The state in which a step of the front end that meets a held column waits there in its turn. -/
def State.feWait (s : State) (d : Due) : State := s.holdDev (.step d)

/-! ## Checks of banks and nodes (R106, R107, R110) -/

/-- Bytes lo to hi of a list are zero. -/
def zeroes (b : List Byte) (hi lo : Nat) : Bool := fieldOf b hi lo == 0

/-- The causes of a code address: a tag, or bits above its 49, are code 3; misalignment is code 6. -/
def entryCodes (v : Nat) : List Nat := (if 2 ^ 49 ≤ v then [3] else []) ++ (if v % 16 = 0 then [] else [6])

/-- A condition that code 3 refuses. -/
def code3 (b : Bool) : List Nat := if b then [3] else []

/-- The causes of a KERNEL bank. -/
def kernelCodes (b : List Byte) : List Nat :=
  let flags := fieldOf b 23 23
  let riders := fieldOf b 19 16
  let rect := fieldOf b 39 32
  entryCodes (bankEntry b) ++
  code3 (riders == 0 || 65536 < riders || 2048 < fieldOf b 21 20 || 8 < fieldOf b 22 22 || 4 ≤ flags || !zeroes b 31 25 ||
    (flags.testBit 1 && 4096 < riders) ||
    (if flags.testBit 0 then 2 ^ 24 ≤ rect || 64 < bankOrigin b / 64 + bankHeight b || 64 < bankOrigin b % 64 + bankWidth b else rect != 0))

/-- The causes of a SURROGATE bank. -/
def surrogateCodes (b : List Byte) : List Nat :=
  entryCodes (bankEntry b) ++ entryCodes (bankXentry b) ++
  code3 (bankTilesX b == 0 || 256 < bankTilesX b || bankTilesY b == 0 || 256 < bankTilesY b || !zeroes b 39 33 || 2048 < fieldOf b 41 40 ||
    8 < fieldOf b 42 42 || !zeroes b 47 44)

/-- The causes of a CONDITIONAL or LOOP bank: the flag word and CMP. -/
def flagCodes (b : List Byte) (loop : Bool) : List Nat :=
  let f := fieldOf b 3 0
  code3 (f / 2 ^ 14 % 4 != 0 || 2 ^ 19 ≤ f || 6 ≤ f / 2 ^ 16 % 8 || !zeroes b 47 (if loop then 12 else 8))

/-- The causes of a SIGNAL bank. -/
def signalCodes (b : List Byte) : List Nat :=
  let m := fieldOf b 0 0
  code3 (4 ≤ m || (m.testBit 0 && (fieldOf b 1 1 == 0 || 64 ≤ fieldOf b 1 1)) || (m.testBit 1 && fieldOf b 15 8 % 8 != 0) ||
    !zeroes b 7 2 || !zeroes b 47 24)

/-- The causes of a COPY bank of a node: the fields of R107. A range that reaches 384 GiB is a fault of the node when it runs (R120; DEDUCED,
log entry 105). -/
def copyFields (b : List Byte) : List Nat := code3 (2 ^ 40 < fieldOf b 23 16 || 4 ≤ fieldOf b 24 24 || !zeroes b 47 25)

/-- The causes of the COPY command: also a module range that reaches 384 GiB, and ranges that overlap in one space (R110). -/
def copyCodes (b : List Byte) : List Nat :=
  let src := fieldOf b 7 0
  let dst := fieldOf b 15 8
  let n := fieldOf b 23 16
  let sp := fieldOf b 24 24
  copyFields b ++ code3 ((sp.testBit 0 && dramBytes < src + n) || (sp.testBit 1 && dramBytes < dst + n) ||
    (sp.testBit 0 == sp.testBit 1 && overlaps src n dst n))

/-- The causes of a bank of a KIND. -/
def bankCodes (kind : Nat) (b : List Byte) : List Nat :=
  match kind with
  | 0 => kernelCodes b
  | 1 => flagCodes b false
  | 2 => flagCodes b true
  | 3 => surrogateCodes b
  | 4 => signalCodes b
  | 5 => copyFields b
  | _ => [3]

/-! ## Nodes (R105, R106) -/

/-- The 128 bytes of a node. -/
def State.node (s : State) (die n : Nat) : List Byte := s.mem.read (nodeAddr die n) 128
/-- The fields of a header. -/
def nodeKind (h : List Byte) : Nat := fieldOf h 0 0 % 16
def nodeUsePrio (h : List Byte) : Bool := (fieldOf h 0 0).testBit 4
def nodePrio (h : List Byte) : Nat := fieldOf h 0 0 / 32
def nodeRestart (h : List Byte) : Bool := (fieldOf h 1 1).testBit 0
def nodeActb (h : List Byte) : Nat := fieldOf h 1 1 / 2 % 2
def nodePend (h : List Byte) : Bool := (fieldOf h 1 1).testBit 2
def nodeValid (h : List Byte) : Bool := (fieldOf h 1 1).testBit 3
def nodeNpred (h : List Byte) : Nat := fieldOf h 3 2 % 2 ^ 14
/-- First edge and count of successor set A (false) or B (true). -/
def nodeSet (h : List Byte) (b : Bool) : Nat × Nat :=
  let w := if b then fieldOf h 11 8 else fieldOf h 7 4
  (w % 65536, w / 65536 % 2 ^ 13)
/-- BODYLO and BODYHI. -/
def nodeBody (h : List Byte) : Nat × Nat := (fieldOf h 13 12 % 2 ^ 14, fieldOf h 15 14 % 2 ^ 14)
/-- A bank of a node. -/
def nodeBank (h : List Byte) (b : Nat) : List Byte := (h.drop (32 + 48 * b)).take 48
/-- The active bank. -/
def nodeActive (h : List Byte) : List Byte := nodeBank h (nodeActb h)

/-- A node with ACTB, PEND and VALID of its header set. -/
def State.setNodeBits (s : State) (die n actb : Nat) (pend : Bool) : State :=
  let v := fieldOf (s.node die n) 1 1
  { s with mem := s.mem.store (nodeAddr die n + 1) [BitVec.ofNat 8 (v % 2 + 2 * actb + 4 * pend.toNat + 8)] }

/-- The causes of the header of an image (R106, R110). -/
def headerCodes (h : List Byte) : List Nat :=
  let w0 := fieldOf h 3 0
  let w1 := fieldOf h 7 4
  let w2 := fieldOf h 11 8
  let w3 := fieldOf h 15 12
  let badSet := fun (w : Nat) => 2 ^ 29 ≤ w || 4096 < w / 65536 % 2 ^ 13
  code3 (5 < w0 % 16 || w0 / 2 ^ 9 % 2 ^ 7 != 0 || 2 ^ 30 ≤ w0 || badSet w1 || (w2 != 0 && (w0 % 16 != 1 || badSet w2)) ||
    (w3 != 0 && (w0 % 16 != 2 || w3 / 2 ^ 14 % 4 != 0 || 2 ^ 30 ≤ w3)) || !zeroes h 31 16)

/-- The image of node i of an INSTALL. -/
def imageNode (nodes : List Byte) (i : Nat) : List Byte := (nodes.drop (80 * i)).take 80
/-- Edge i of a list. -/
def imageEdge (edges : List Byte) (i : Nat) : Nat := fieldOf edges (2 * i + 1) (2 * i)

/-- The LOOP nodes of a range, as node and body. -/
def loopsOf (first : Nat) (images : List (List Byte)) : List (Nat × Nat × Nat) :=
  (images.zipIdx.filter (fun x => nodeKind x.1 == 2)).map (fun x => (first + x.2, nodeBody x.1))

/-- The edges of the sets of a node, as numbers of the edge array. -/
def setEdges (h : List Byte) : List Nat :=
  [false, true].flatMap (fun b => (List.range (nodeSet h b).2).map (fun i => (nodeSet h b).1 + i))

/-- A number lies between two others. -/
def inside (n lo hi : Nat) : Bool := lo ≤ n && n ≤ hi

/-- The conditions of R112 on the edges by themselves, with their bits [15:14]. -/
def edgesBad (first count ec : Nat) (edges : List Byte) : Bool :=
  (List.range ec).any (fun i => 2 ^ 14 ≤ imageEdge edges i || !inside (imageEdge edges i) first (first + count - 1))

/-- The conditions of R112 on the images by themselves. -/
def imagesBad (first count : Nat) (images : List (List Byte)) (ef ec : Nat) : Bool :=
  let loops := loopsOf first images
  let last := first + count - 1
  images.any (fun h => (setEdges h).any (fun e => e < ef || ef + ec ≤ e)) ||
  loops.any (fun l => l.2.2 < l.2.1 || l.2.1 < first || last < l.2.2 || inside l.1 l.2.1 l.2.2) ||
  loops.any (fun l => loops.any (fun m => l.1 != m.1 && l.2.1 ≤ m.2.2 && m.2.1 ≤ l.2.2 &&
    !(l.2.1 ≤ m.2.1 && m.2.2 ≤ l.2.2) && !(m.2.1 ≤ l.2.1 && l.2.2 ≤ m.2.2)))

/-- The condition of R112 on images and edges together: an edge that crosses the bound of a loop body. -/
def crossBad (first : Nat) (images : List (List Byte)) (ef : Nat) (edges : List Byte) : Bool :=
  let loops := loopsOf first images
  images.zipIdx.any (fun h => (setEdges h.1).any (fun e =>
    loops.any (fun l => inside (first + h.2) l.2.1 l.2.2 != inside (imageEdge edges (e - ef)) l.2.1 l.2.2)))

/-- The causes of the images of an INSTALL by themselves. -/
def imageCodes (count : Nat) (nodes : List Byte) : List Nat :=
  ((List.range count).map (imageNode nodes)).flatMap (fun h => headerCodes h ++ bankCodes (nodeKind h) (h.drop 32))

/-- The causes of those images and edges of an INSTALL that can be read (R82, R110, R112). -/
def installCodes (first count : Nat) (nodes : Option (List Byte)) (ef ec : Nat) (edges : Option (List Byte)) : List Nat :=
  let images := fun (l : List Byte) => (List.range count).map (imageNode l)
  (match nodes with
   | some l => imageCodes count l ++ code3 (imagesBad first count (images l) ef ec)
   | none => []) ++
  (match edges with
   | some e => code3 (edgesBad first count ec e)
   | none => []) ++
  (match nodes, edges with
   | some l, some e => code3 (crossBad first (images l) ef e)
   | _, _ => [])

/-! ## Completion of commands (R111) -/

/-- A command changed. -/
def State.modCmd (s : State) (c : Nat) (f : Cmd → Cmd) : State := { s with cmds := s.cmds.upd c f }

/-- The lowest nonzero of two status codes. -/
def lowStatus (a b : Nat) : Nat := if a = 0 then b else if b = 0 then a else Nat.min a b

/-- A command's completion is due. -/
def State.cmdDone (s : State) (c : Nat) (status : Nat := 0) : State :=
  (s.modCmd c (fun x => { x with done := true, waiting := false, status := lowStatus x.status status })).push [.commandComplete c]

/-- An INDIRECT whose list has been started to its end, or cut short, completes with the last of its commands. -/
def State.indirectCheck (s : State) (c : Nat) : State :=
  match s.cmds.get? c with
  | none => s
  | some x => if x.opc == 7 && x.listed && !x.waiting && !x.done && !s.cmds.any (fun y => y.2.parent == some c) then s.cmdDone c else s

/-- The completion record of a command. -/
def Cmd.record (x : Cmd) : List Byte :=
  leBytes 4 x.tag.toNat ++ [BitVec.ofNat 8 x.status, BitVec.ofNat 8 x.queue] ++ leBytes 2 x.node ++ leBytes 4 x.skipped ++ leBytes 4 x.wear

/-- COMMAND_COMPLETE: the record is written, then the IRQ is signalled; an INDIRECT that listed it may complete (R89, R111). -/
def State.commandComplete (s : State) (c : Nat) : State :=
  match s.cmds.get? c with
  | none => s
  | some x =>
    if !x.done then s
    else if x.cpl != 0 && s.feHeld x.space x.cpl 16 then s.feWait (.commandComplete c)
    else
      let s1 := if x.cpl = 0 then s else s.feWrite x.space x.cpl x.record
      let s2 := if x.irq then s1.signal (bits (s.reg (.qctl x.queue)) 21 16) else s1
      let s3 : State := { s2 with cmds := s2.cmds.del c,
                                  engines := s2.engines.upd x.queue (fun e => if e.flagwait = some c then { e with flagwait := none } else e) }
      match x.parent with
      | some p => s3.indirectCheck p
      | none => s3

/-! ## Flag words, copies (R108, R121, R225) -/

/-- A flag word. -/
def State.flag (s : State) (die w : Nat) : Nat := leNat (s.mem.read (flagAddr die w) 4)
/-- CMP of R108. -/
def cmpCode (c f v : Nat) : Bool :=
  match c with
  | 0 => f == v
  | 1 => f != v
  | 2 => f < v
  | 3 => v ≤ f
  | 4 => Nat.land f v != 0
  | 5 => Nat.land f v == 0
  | _ => false

/-- One 64-byte piece of a copy, with its poison: a host destination takes it as a poisoned write (R121). -/
def copyPiece (m : Mem) (srcDram dstDram : Bool) (src dst n : Nat) : Mem :=
  let bytes := m.space srcDram src n
  if !dstDram then m.hostPut dst bytes (m.spoiled srcDram src n)
  else
    (List.range n).foldl (fun (m1 : Mem) i => if m.spoiled srcDram (src + i) 1 then m1.taint (dst + i) 1 else m1) (m.write dst bytes)

/-- What a copy comes to: memory, whether it has carried poison, and whether a piece could not be read or written (R120, R121). -/
structure Copied where
  mem : Mem
  poison : Bool := false
  fault : Bool := false
  deriving DecidableEq, Repr

/-- The pieces of a copy in turn, up to the first that cannot be read or is refused (R120). -/
def copyPieces (srcDram dstDram : Bool) (src dst : Nat) : Nat → Nat → Copied → Copied
  | 0, _, x => x
  | fuel + 1, n, x =>
    let k := Nat.min n 64
    if n = 0 then x
    else if !x.mem.reaches srcDram src k || !x.mem.reaches dstDram dst k then { x with fault := true }
    else copyPieces srcDram dstDram (src + 64) (dst + 64) fuel (n - 64)
      { x with mem := copyPiece x.mem srcDram dstDram src dst k, poison := x.poison || x.mem.spoiled srcDram src k }

/-- The copy of a bank. -/
def State.copyBank (s : State) (b : List Byte) : Copied :=
  let n := fieldOf b 23 16
  let sp := fieldOf b 24 24
  copyPieces (sp.testBit 0) (sp.testBit 1) (fieldOf b 7 0) (fieldOf b 15 8) (n / 64 + 1) n { mem := s.mem }

/-- A copy meets a home column that holds its requests (R27, R158). -/
def State.copyHeld (s : State) (b : List Byte) : Bool :=
  s.feHeld ((fieldOf b 24 24).testBit 0) (fieldOf b 7 0) (fieldOf b 23 16) ||
  s.feHeld ((fieldOf b 24 24).testBit 1) (fieldOf b 15 8) (fieldOf b 23 16)

/-! ## Replays (R113 to R120) -/

/-- A replay changed. -/
def State.modReplay (s : State) (r : Nat) (f : Replay → Replay) : State := { s with replays := s.replays.upd r f }

/-- The LOOP nodes of a replay's range. -/
def State.replayLoops (s : State) (x : Replay) : List (Nat × Nat × Nat) :=
  loopsOf x.first ((List.range x.count).map (fun i => s.node x.die (x.first + i)))

/-- A node lies in a loop body. -/
def inBody (n : Nat) (l : Nat × Nat × Nat) : Bool := l.2.1 ≤ n && n ≤ l.2.2

/-- The LOOP node whose body holds a node most closely. -/
def innerLoop (loops : List (Nat × Nat × Nat)) (n : Nat) : Option Nat :=
  ((loops.filter (inBody n)).foldl (fun (m : Option (Nat × Nat × Nat)) l =>
    match m with
    | none => some l
    | some x => if l.2.2 - l.2.1 < x.2.2 - x.2.1 then some l else m) none).map (·.1)

/-- The step that launches a node. -/
def launchDue (kind r n : Nat) : Due :=
  match kind with
  | 0 => .kernelNode r n
  | 1 => .condNode r n
  | 2 => .loopNode r n
  | 3 => .surrogateNode r n
  | 4 => .signalNode r n
  | _ => .copyNode r n

/-- Nodes become due to launch. -/
def State.makeDue (s : State) (r : Nat) (l : List Nat) : State :=
  match s.replays.get? r with
  | none => s
  | some x => (s.modReplay r (fun x => { x with due := x.due ++ l })).push (l.map (fun n => launchDue (nodeKind (s.node x.die n)) r n))

/-- A successor's LIVE one lower; from 1 to 0 it is due (R115). -/
def State.decLive (s : State) (r n : Nat) : State :=
  match s.replays.get? r with
  | none => s
  | some x =>
    match x.live.getD n 0 with
    | 0 => s
    | v + 1 =>
      let s1 := s.modReplay r (fun x => { x with live := x.live.put n v })
      if v = 0 then s1.makeDue r [n] else s1

/-- What may follow when a node of a replay is no longer running: the end of an iteration of its loop, or of the replay (R118, R120). -/
def State.replayCheck (s : State) (r n : Nat) : State :=
  match s.replays.get? r with
  | none => s
  | some x =>
    match innerLoop (s.replayLoops x) n with
    | some l => s.push [.loopEnd r l]
    | none => if x.running.isEmpty && x.due.isEmpty then s.push [.replayComplete r] else s

/-- The status of a replay with a node that faulted (1) or stopped at ITERMAX (2) (R111). -/
def State.noteStatus (s : State) (c n code : Nat) : State :=
  s.modCmd c (fun x => { x with status := lowStatus x.status code, node := if code < 3 && x.node == 0xFFFF then n else x.node })

/-- A node that runs completes: without fault it decrements the successors of its set; a fault is noted, and ends the loop that holds it
at the end of the iteration (R115, R118, R120). -/
def State.finishNode (s : State) (r n : Nat) (fault : Bool) (setB : Bool) : State :=
  match s.replays.get? r with
  | none => s
  | some x =>
    let s1 := s.modReplay r (fun x => { x with running := x.running.erase n, loops := x.loops.del n })
    let h := s.node x.die n
    let s2 :=
      if fault then
        (s1.noteStatus x.cmd n 1).modReplay r (fun y =>
          { y with loopFault := match innerLoop (s.replayLoops x) n with
              | some l => setAdd y.loopFault l
              | none => y.loopFault })
      else
        let e := nodeSet h setB
        (List.range e.2).foldl (fun s i => s.decLive r (leNat (s.mem.read (edgeAddr x.die (e.1 + i)) 2) % 2 ^ 14)) s1
    s2.replayCheck r n

/-- A node that is due is launched: it runs. -/
def State.startNode (s : State) (r n : Nat) : State :=
  s.modReplay r (fun x => { x with due := x.due.erase n, running := x.running ++ [n], launched := setAdd x.launched n })

/-- A replay with a node of a kind that is due. -/
def State.dueNode (s : State) (r n kind : Nat) : Option (Replay × List Byte) :=
  match s.replays.get? r with
  | none => none
  | some x => if x.due.contains n && nodeKind (s.node x.die n) == kind then some (x, s.node x.die n) else none

/-- REPLAY_START: banks change, every top-level LIVE is armed, and the nodes without predecessors are due; without one the replay is complete
(R114, R120). -/
def State.replayStart (s : State) (r : Nat) : State :=
  match s.replays.get? r with
  | none => s
  | some x =>
    if !x.live.isEmpty then s
    else
      let range := (List.range x.count).map (fun i => x.first + i)
      let s1 := range.foldl (fun s n =>
        let h := s.node x.die n
        if nodePend h then s.setNodeBits x.die n (1 - nodeActb h) false else s) s
      let loops := s1.replayLoops x
      let top := range.filter (fun n => (innerLoop loops n).isNone)
      let live := top.foldl (fun (m : SMap Nat) n => m.put n (nodeNpred (s1.node x.die n))) []
      let ready := top.filter (fun n => nodeNpred (s1.node x.die n) == 0)
      let s2 := (s1.modReplay r (fun x => { x with live := live })).makeDue r ready
      if ready.isEmpty then s2.push [.replayComplete r] else s2

/-- KERNEL and SURROGATE nodes: their riders go to the dispatcher at the node's priority (R116, R156). -/
def State.launchNode (s : State) (r n : Nat) (kind : LaunchKind) : State :=
  match s.dueNode r n (if kind = .kernel then 0 else 3) with
  | none => s
  | some (x, h) =>
    match s.cmds.get? x.cmd with
    | none => s
    | some c =>
      ((s.startNode r n).modReplay r (fun y => { y with runs := y.runs.put n s.ids })).newLaunch kind x.die x.cmd c.queue (some (r, n)) (nodeActive h) (if nodeUsePrio h then nodePrio h else c.prio)
        (kind == .kernel && nodeRestart h)

/-- The test of a CONDITIONAL or LOOP bank: an acquire at MODULE scope (R108, R119). -/
def State.flagTest (s : State) (die : Nat) (b : List Byte) : Bool :=
  let f := fieldOf b 3 0
  cmpCode (f / 2 ^ 16 % 8) (s.flag die (f % 2 ^ 14)) (fieldOf b 7 4)

/-- CONDITIONAL_NODE: the flag word chooses the set, and the node completes (R116). -/
def State.condNode (s : State) (r n : Nat) : State :=
  match s.dueNode r n 1 with
  | none => s
  | some (x, h) => (s.startNode r n).finishNode r n false (!s.flagTest x.die (nodeActive h))

/-- Steps 1 to 3 of R118 for iteration it of a LOOP node that runs. -/
def State.loopStep (s : State) (r n it : Nat) : State :=
  match s.replays.get? r with
  | none => s
  | some x =>
    let h := s.node x.die n
    let b := nodeActive h
    let cap := fieldOf b 11 8
    if cap != 0 && it == cap then (s.noteStatus x.cmd n 2).finishNode r n false false
    else if !s.flagTest x.die b then s.finishNode r n false false
    else
      let loops := s.replayLoops x
      let mine := ((List.range x.count).map (fun i => x.first + i)).filter (fun m => innerLoop loops m == some n)
      let live := mine.foldl (fun (l : SMap Nat) m => l.put m (nodeNpred (s.node x.die m))) x.live
      let ready := mine.filter (fun m => nodeNpred (s.node x.die m) == 0)
      let s1 := (s.modReplay r (fun x => { x with live := live, loops := x.loops.put n it })).makeDue r ready
      if ready.isEmpty then s1.push [.loopEnd r n] else s1

/-- LOOP_NODE (R118). -/
def State.loopNode (s : State) (r n : Nat) : State :=
  match s.dueNode r n 2 with
  | none => s
  | some _ => ((s.startNode r n).modReplay r (fun x => { x with loopFault := x.loopFault.erase n })).loopStep r n 0

/-- LOOP_ITERATION_END: no node of the body is running or waits to launch: the next iteration, or the end after a fault (R118, R120). A LOOP node
that a fault in its body ends is itself a faulted node: it decrements no successor, and the loop around it ends too (DEDUCED, log entry 107). -/
def State.loopEnd (s : State) (r n : Nat) : State :=
  match s.replays.get? r with
  | none => s
  | some x =>
    match x.loops.get? n with
    | none => s
    | some it =>
      let body := nodeBody (s.node x.die n)
      if (x.running ++ x.due).any (fun m => body.1 ≤ m && m ≤ body.2) then s
      else if x.loopFault.contains n then s.finishNode r n true false
      else s.loopStep r n (it + 1)

/-- SIGNAL_NODE: DATA is written at ADDR, then VEC is signalled (R116); a write that the host refuses is a fault, and VEC is not signalled
(R120; DEDUCED, log entry 106). -/
def State.signalNode (s : State) (r n : Nat) : State :=
  match s.dueNode r n 4 with
  | none => s
  | some (_, h) =>
    let b := nodeActive h
    let m := fieldOf b 0 0
    let s1 := s.startNode r n
    if m.testBit 1 && !s.mem.reaches false (fieldOf b 15 8) 8 then s1.finishNode r n true false
    else
      let s2 := if m.testBit 1 then s1.feWrite false (fieldOf b 15 8) ((b.drop 16).take 8) else s1
      let s3 := if m.testBit 0 then s2.signal (fieldOf b 1 1) else s2
      s3.finishNode r n false false

/-- COPY_NODE: a source that cannot be read, or a write that is refused, is a fault (R116, R120, R121). -/
def State.copyNode (s : State) (r n : Nat) : State :=
  match s.dueNode r n 5 with
  | none => s
  | some (x, h) =>
    if s.copyHeld (nodeActive h) then s.feWait (.copyNode r n)
    else
      let c := s.copyBank (nodeActive h)
      let s1 : State := { s.startNode r n with mem := c.mem }
      (if c.poison then s1.noteStatus x.cmd n 3 else s1).finishNode r n c.fault false

/-- NODE_COMPLETE: the latest launch of a KERNEL or SURROGATE node that runs is over (R115, R116). -/
def State.nodeComplete (s : State) (r n : Nat) : State :=
  match (s.replays.get? r).bind (fun x => if x.running.contains n then (x.runs.get? n).bind s.launches.get? else none) with
  | none => s
  | some l => if l.finished && l.node == some (r, n) then s.finishNode r n l.fault false else s

/-- REPLAY_COMPLETE: no node is running or waits to launch (R120). -/
def State.replayComplete (s : State) (r : Nat) : State :=
  match s.replays.get? r with
  | none => s
  | some x =>
    if x.live.isEmpty || !x.running.isEmpty || !x.due.isEmpty then s
    else
      let loops := s.replayLoops x
      let never := ((List.range x.count).map (fun i => x.first + i)).countP (fun n => (innerLoop loops n).isNone && !x.launched.contains n)
      (({ s with replays := s.replays.del r } : State).modCmd x.cmd (fun c => { c with skipped := never })).cmdDone x.cmd

/-! ## GRAPH, PATCH (R112, R113, R122) -/

/-- FIRST and COUNT of a GRAPH descriptor, and whether it installs. -/
def graphFirst (d : List Byte) : Nat := fieldOf d 17 16
def graphCount (d : List Byte) : Nat := fieldOf d 19 18
def graphInstalls (d : List Byte) : Bool := fieldOf d 20 20 == 1
/-- EDGEFIRST and EDGECOUNT. -/
def graphEdges (d : List Byte) : Nat × Nat := (fieldOf d 35 32, fieldOf d 39 36)

/-- A GRAPH command waits behind a running replay, or an earlier GRAPH command that waits, on a range that overlaps its own (R113). -/
def State.graphTurn (s : State) (c : Nat) (x : Cmd) : Bool :=
  let meets := fun (f n : Nat) => overlaps f n (graphFirst x.desc) (graphCount x.desc)
  s.replays.all (fun r => r.2.die != x.die || !meets r.2.first r.2.count) &&
  s.cmds.all (fun y => c ≤ y.1 || y.2.opc != 1 || y.2.die != x.die || !y.2.waiting || !meets (graphFirst y.2.desc) (graphCount y.2.desc))

/-- A replay that has not begun, or a GRAPH command that waits, started before a PATCH and covers its node: the PATCH is not for it (R113,
R122). Commands are numbered in the order of their starts. -/
def State.patchWaits (s : State) (c die n : Nat) : Bool :=
  s.replays.any (fun r => r.2.cmd < c && r.2.die == die && r.2.live.isEmpty && r.2.first ≤ n && n < r.2.first + r.2.count) ||
  s.cmds.any (fun y => y.1 < c && y.2.opc == 1 && y.2.die == die && y.2.waiting && graphFirst y.2.desc ≤ n &&
    n < graphFirst y.2.desc + graphCount y.2.desc)

/-- A bank written into bank NOT ACTB of a node, with PEND (R122). -/
def State.writePatch (s : State) (die n : Nat) (bank : List Byte) : State :=
  let h := s.node die n
  let o := 1 - nodeActb h
  ({ s with mem := s.mem.store (nodeAddr die n + 32 + 48 * o) bank } : State).setNodeBits die n (nodeActb h) true

/-- The banks that nothing before them holds back any longer are written, and their commands are complete (R111). -/
def State.releasePatches (s : State) : State :=
  s.patches.foldl (fun s p =>
    if s.patchWaits p.cmd p.die p.node then s
    else ({ s.writePatch p.die p.node p.bank with patches := s.patches.erase p } : State).cmdDone p.cmd) s

/-- GRAPH_RUN: in its turn the replay begins (R113). -/
def State.graphRun (s : State) (c : Nat) : State :=
  match s.cmds.get? c with
  | none => s
  | some x =>
    if x.opc != 1 || graphInstalls x.desc || !x.waiting || !s.graphTurn c x then s
    else
      ({ s.modCmd c (fun x => { x with waiting := false }) with
         replays := s.replays.put s.ids { cmd := c, die := x.die, first := graphFirst x.desc, count := graphCount x.desc },
         ids := s.ids + 1 } : State).push [.replayStart s.ids]

/-- GRAPH_INSTALL: in its turn every node and edge is written (R112, R113). The command's descriptor carries the images and edges. -/
def State.graphInstall (s : State) (c : Nat) : State :=
  match s.cmds.get? c with
  | none => s
  | some x =>
    if x.opc != 1 || !graphInstalls x.desc || !x.waiting || !s.graphTurn c x then s
    else
      let d := x.desc
      let nodes := d.drop 48
      let edges := nodes.drop (80 * graphCount d)
      let m := (List.range (graphCount d)).foldl (fun (m : Mem) i =>
        let h := imageNode nodes i
        let valid := [h.getD 0 0, BitVec.ofNat 8 ((h.getD 1 0).toNat % 2 + 8)] ++ h.drop 2
        m.store (nodeAddr x.die (graphFirst d + i)) (valid ++ h.drop 32)) s.mem
      let m1 := (List.range (graphEdges d).2).foldl (fun (m : Mem) i =>
        m.store (edgeAddr x.die ((graphEdges d).1 + i)) (leBytes 2 (imageEdge edges i))) m
      (({ s with mem := m1 } : State).cmdDone c).releasePatches

/-- PATCH (R122): its node and bank; it is complete once they are written (R111). -/
def State.patch (s : State) (c : Nat) : State :=
  match s.cmds.get? c with
  | none => s
  | some x =>
    if x.opc != 2 || !x.waiting then s
    else
      let n := fieldOf x.desc 17 16
      let bank := (x.desc.drop 32).take 48
      if s.patchWaits c x.die n then
        { s.modCmd c (fun x => { x with waiting := false }) with patches := s.patches ++ [{ die := x.die, node := n, bank := bank, cmd := c }] }
      else (s.writePatch x.die n bank).cmdDone c

/-- KERNEL: its riders go to the dispatcher (R111). -/
def State.kernel (s : State) (c : Nat) : State :=
  match s.cmds.get? c with
  | none => s
  | some x =>
    if x.opc != 3 || !x.waiting then s
    else (s.modCmd c (fun x => { x with waiting := false })).newLaunch .kernel x.die c x.queue none ((x.desc.drop 16).take 48) x.prio false

/-- COPY (R121): one whose source cannot be read or whose write is refused completes with STATUS 1 (DEDUCED, log entry 106). -/
def State.copy (s : State) (c : Nat) : State :=
  match s.cmds.get? c with
  | none => s
  | some x =>
    if x.opc != 4 || !x.waiting then s
    else
      let b := (x.desc.drop 16).take 48
      if s.copyHeld b then s.feWait (.copy c)
      else
        let y := s.copyBank b
        ({ s with mem := y.mem } : State).cmdDone c (if y.fault then 1 else if y.poison then 3 else 0)

/-! ## NOP, FLAGSET, FLAGWAIT, INDIRECT (R78, R79) -/

/-- FLAG, DIE and VALUE of an immediate. -/
def immFlag (p : DWord) : Nat := flagAddr (bits p 15 14) (bits p 13 0)
def immValue (p : DWord) : Nat := bits p 47 16

/-- NOP: complete when it starts. -/
def State.commandNop (s : State) (c : Nat) : State :=
  match s.cmds.get? c with
  | none => s
  | some x => if x.opc != 0 || !x.waiting then s else s.cmdDone c

/-- FLAGSET: the flag word is written as a release at SYSTEM scope. -/
def State.flagset (s : State) (c : Nat) : State :=
  match s.cmds.get? c with
  | none => s
  | some x =>
    if x.opc != 5 || !x.waiting then s
    else ({ s with mem := s.mem.store (immFlag x.ptr) (leBytes 4 (immValue x.ptr)) } : State).cmdDone c

/-- FLAGWAIT_SATISFIED: the flag word equals VALUE. -/
def State.flagwaitOk (s : State) (c : Nat) : State :=
  match s.cmds.get? c with
  | none => s
  | some x =>
    if x.opc != 6 || x.waiting || x.done then s
    else if leNat (s.mem.read (immFlag x.ptr) 4) == immValue x.ptr then s.cmdDone c
    else s

/-- FLAGWAIT: later commands of the queue wait for it. -/
def State.flagwait (s : State) (c : Nat) : State :=
  match s.cmds.get? c with
  | none => s
  | some x =>
    if x.opc != 6 || !x.waiting then s
    else
      ({ s.modCmd c (fun x => { x with waiting := false }) with
         engines := s.engines.put x.queue { s.engines.getD x.queue {} with flagwait := some c } } : State).flagwaitOk c

/-- INDIRECT: its list is expanded in place (R79, R80). -/
def State.indirect (s : State) (c : Nat) : State :=
  match s.cmds.get? c with
  | none => s
  | some x =>
    if x.opc != 7 || !x.waiting then s
    else
      let e := s.engines.getD x.queue {}
      { s.modCmd c (fun x => { x with waiting := false, listed := false }) with
        engines := s.engines.put x.queue { e with stack :=
          { cmd := c, level := x.level, space := x.space, addr := fieldOf x.desc 15 8, count := fieldOf x.desc 3 0, next := 0 } :: e.stack } }

/-! ## Meanings -/

/-- COMMAND_NOP (R78). -/
def execCommandNop (cmd : Nat) (s : State) : Host.Outcome State Fault Refusal := .next (s.commandNop cmd)
/-- GRAPH_RUN (R113). -/
def execGraphRun (cmd : Nat) (s : State) : Host.Outcome State Fault Refusal := .next (s.graphRun cmd)
/-- GRAPH_INSTALL (R112). -/
def execGraphInstall (cmd : Nat) (s : State) : Host.Outcome State Fault Refusal := .next (s.graphInstall cmd)
/-- PATCH (R122). -/
def execPatch (cmd : Nat) (s : State) : Host.Outcome State Fault Refusal := .next (s.patch cmd)
/-- KERNEL (R109). -/
def execKernel (cmd : Nat) (s : State) : Host.Outcome State Fault Refusal := .next (s.kernel cmd)
/-- COPY (R121). -/
def execCopy (cmd : Nat) (s : State) : Host.Outcome State Fault Refusal := .next (s.copy cmd)
/-- FLAGSET (R78). -/
def execFlagset (cmd : Nat) (s : State) : Host.Outcome State Fault Refusal := .next (s.flagset cmd)
/-- FLAGWAIT (R78). -/
def execFlagwait (cmd : Nat) (s : State) : Host.Outcome State Fault Refusal := .next (s.flagwait cmd)
/-- FLAGWAIT_SATISFIED (R78). -/
def execFlagwaitSatisfied (cmd : Nat) (s : State) : Host.Outcome State Fault Refusal := .next (s.flagwaitOk cmd)
/-- INDIRECT (R79). -/
def execIndirect (cmd : Nat) (s : State) : Host.Outcome State Fault Refusal := .next (s.indirect cmd)
/-- COMMAND_COMPLETE (R111). -/
def execCommandComplete (cmd : Nat) (s : State) : Host.Outcome State Fault Refusal := .next (s.commandComplete cmd)
/-- REPLAY_START (R114). -/
def execReplayStart (replay : Nat) (s : State) : Host.Outcome State Fault Refusal := .next (s.replayStart replay).releasePatches
/-- KERNEL_NODE_LAUNCH (R116). -/
def execKernelNodeLaunch (replay node : Nat) (s : State) : Host.Outcome State Fault Refusal := .next (s.launchNode replay node .kernel)
/-- CONDITIONAL_NODE (R116). -/
def execConditionalNode (replay node : Nat) (s : State) : Host.Outcome State Fault Refusal := .next (s.condNode replay node)
/-- LOOP_NODE (R118). -/
def execLoopNode (replay node : Nat) (s : State) : Host.Outcome State Fault Refusal := .next (s.loopNode replay node)
/-- LOOP_ITERATION_END (R118). -/
def execLoopIterationEnd (replay node : Nat) (s : State) : Host.Outcome State Fault Refusal := .next (s.loopEnd replay node)
/-- SURROGATE_NODE (R156). -/
def execSurrogateNode (replay node : Nat) (s : State) : Host.Outcome State Fault Refusal := .next (s.launchNode replay node .surrogate)
/-- SIGNAL_NODE (R116). -/
def execSignalNode (replay node : Nat) (s : State) : Host.Outcome State Fault Refusal := .next (s.signalNode replay node)
/-- COPY_NODE (R121). -/
def execCopyNode (replay node : Nat) (s : State) : Host.Outcome State Fault Refusal := .next (s.copyNode replay node)
/-- NODE_COMPLETE (R115). -/
def execNodeComplete (replay node : Nat) (s : State) : Host.Outcome State Fault Refusal := .next (s.nodeComplete replay node)
/-- REPLAY_COMPLETE (R120). -/
def execReplayComplete (replay : Nat) (s : State) : Host.Outcome State Fault Refusal := .next (s.replayComplete replay)

end Sys2Proof.Machine
end

