-- ==== Sys2Proof/Machine/FrontEnd.lean ====
section
/-! DEFINITION. Machine/FrontEnd.lean: the chaining engine, queue control, doorbells and their logs (R75 to R87, R109, R110, R126). -/

namespace Sys2Proof.Machine

/-! ## Packets (R77, R78, R82) -/

/-- The fields of a packet. -/
def pkOpc (p : List Byte) : Nat := fieldOf p 0 0
def pkQueue (p : List Byte) : Nat := fieldOf p 1 1
def pkIrq (p : List Byte) : Bool := (fieldOf p 2 2).testBit 0
def pkWaitPrev (p : List Byte) : Bool := (fieldOf p 2 2).testBit 1
def pkPrioV (p : List Byte) : Bool := (fieldOf p 2 2).testBit 2
def pkPrio (p : List Byte) : Nat := fieldOf p 2 2 / 8 % 8
def pkSpace (p : List Byte) : Bool := (fieldOf p 2 2).testBit 6
def pkTag (p : List Byte) : Nat := fieldOf p 7 4
def pkPtr (p : List Byte) : Nat := fieldOf p 15 8

/-- Bytes of the descriptor of an operation: none for an immediate. -/
def descBytes (opc : Nat) : Nat :=
  match opc with
  | 1 => 48
  | 2 => 80
  | 3 => 64
  | 4 => 64
  | 7 => 16
  | _ => 0

/-- The causes that the packet itself meets. -/
def packetCodes (q : Nat) (p : List Byte) (level : Nat) : List Nat :=
  let opc := pkOpc p
  (if 7 < opc then [1] else []) ++ (if pkQueue p = q then [] else [2]) ++
  code3 (2 ^ 23 ≤ fieldOf p 3 0 || ((opc == 5 || opc == 6) && 2 ^ 48 ≤ pkPtr p)) ++
  (if opc = 7 ∧ 4 ≤ level then [4] else []) ++
  (if descBytes opc ≠ 0 ∧ pkPtr p % 16 ≠ 0 then [6] else [])

/-- The causes of the preamble of a descriptor (R109). -/
def preambleCodes (d : List Byte) : List Nat := code3 (!zeroes d 15 8) ++ (if fieldOf d 7 0 % 16 = 0 then [] else [6])

/-- The causes of a GRAPH descriptor, and the images and edges that an INSTALL brings. -/
def State.graphCodes (s : State) (die : Nat) (space : Bool) (d : List Byte) : List Nat × List Byte :=
  let n := graphCount d
  let range := n == 0 || 16384 < graphFirst d + n
  let e := graphEdges d
  if graphInstalls d then
    let bad := range || !zeroes d 23 21 || 65536 < e.1 + e.2
    if bad then ([3], [])
    else
      let nodes := s.feRead space (fieldOf d 31 24) (80 * n)
      let edges := s.feRead space (fieldOf d 47 40) (2 * e.2)
      ((if nodes.isSome && edges.isSome then [] else [5]) ++ installCodes (graphFirst d) n nodes e.1 e.2 edges,
       nodes.getD [] ++ edges.getD [])
  else
    (code3 (fieldOf d 20 20 != 0 || range || !zeroes d 23 21 || !zeroes d 47 24 ||
      (!range && (List.range n).any (fun i => !nodeValid (s.node die (graphFirst d + i))))), [])

/-- The causes of a descriptor of an operation, and what comes with it. -/
def State.descCodes (s : State) (die opc : Nat) (space : Bool) (d : List Byte) : List Nat × List Byte :=
  let n := fieldOf d 17 16
  match opc with
  | 1 => let r := s.graphCodes die space d; (preambleCodes d ++ r.1, r.2)
  | 2 =>
    (preambleCodes d ++ code3 (!zeroes d 31 18 || 16384 ≤ n || !nodeValid (s.node die n)) ++
      (if n < 16384 then bankCodes (nodeKind (s.node die n)) (d.drop 32) else []), [])
  | 3 => (preambleCodes d ++ kernelCodes (d.drop 16), [])
  | 4 => (preambleCodes d ++ copyCodes (d.drop 16), [])
  | 7 => (code3 (!zeroes d 7 4) ++ (if fieldOf d 15 8 % 16 = 0 then [] else [6]) ++
      (if fieldOf d 3 0 = 0 ∨ 65536 < fieldOf d 3 0 then [8] else []), [])
  | _ => ([], [])

/-- The lowest of some codes. -/
def leastCode (l : List Nat) : Option Nat := l.foldl (fun m c => match m with
  | none => some c
  | some x => some (Nat.min x c)) none

/-! ## The chaining engine (R79 to R82, R126) -/

/-- Where the next packet of a queue lies: its address, space, level, and the INDIRECT that lists it. -/
def State.nextPacket (s : State) (q : Nat) : Option (Nat × Bool × Nat × Option Nat) :=
  match (s.engines.getD q {}).stack with
  | x :: _ => some (x.addr + 16 * x.next, x.space, x.level + 1, some x.cmd)
  | [] =>
    if s.qStart q = s.qAdmit q then none
    else
      let c := s.reg (.qctl q)
      some (bits (s.reg (.qbase q)) 63 12 * 4096 + 16 * (s.qStart q % 2 ^ bits c 6 2), bit c 1, 0, none)

/-- The engine of a queue is past a packet: START, or the innermost list, which is left when it is at its end. -/
def State.passPacket (s : State) (q level : Nat) : State :=
  if level = 0 then s.setField (.feq q) 63 32 (s.qStart q + 1)
  else
    let e := s.engines.getD q {}
    match e.stack with
    | [] => s
    | x :: t =>
      if x.next + 1 = x.count then
        ({ s with engines := s.engines.put q { e with stack := t } } : State).modCmd x.cmd (fun c => { c with listed := true })
      else { s with engines := s.engines.put q { e with stack := { x with next := x.next + 1 } :: t } }

/-- Every expansion of a queue is dropped: its INDIRECTs complete with what they have started (R76, R82). -/
def State.dropLists (s : State) (q : Nat) : State :=
  let e := s.engines.getD q {}
  e.stack.foldl (fun s x => (s.modCmd x.cmd (fun c => { c with listed := true })).indirectCheck x.cmd)
    { s with engines := s.engines.put q { e with stack := [] } }

/-- The INDIRECTs and FLAGWAITs of a queue that have started and not been carried out: an INDIRECT lists nothing, and the wait of a FLAGWAIT
is abandoned (R76, R78). -/
def State.abandon (s : State) (q : Nat) : State :=
  (s.cmds.filter (fun c => c.2.queue == q && c.2.waiting)).foldl (fun s c =>
    if c.2.opc = 7 then (s.modCmd c.1 (fun x => { x with waiting := false })).indirectCheck c.1
    else if c.2.opc = 6 then s.cmdDone c.1 else s) s

/-- A packet refused with a code: QERR, HALTED and INTCAUSE.QERR; the rest of its expansion never runs (R82). -/
def State.refusePacket (s : State) (q code level : Nat) : State :=
  let index := if level = 0 then s.qStart q else (s.qStart q + 2 ^ 32 - 1) % 2 ^ 32
  let s1 := s.setReg (.qerr q) (setBits (setBits (setBits (s.reg (.qerr q)) 7 0 code) 9 8 level) 47 16 index)
  let s2 := (s1.setReg (.qctl q) (setBit (s1.reg (.qctl q)) 31 true)).dropLists q
  ({ s2 with engines := s2.engines.put q { s2.engines.getD q {} with refused0 := level == 0 } } : State).raiseInt 0

/-- The INDIRECTs that enclose a listed packet. -/
def State.enclosing (s : State) : Nat → Option Nat → List Nat
  | 0, _ => []
  | _ + 1, none => []
  | n + 1, some c => c :: s.enclosing n ((s.cmds.get? c).bind (·.parent))

/-- The step that carries out a command. -/
def commandDue (opc c : Nat) (install : Bool) : Due :=
  match opc with
  | 0 => .commandNop c
  | 1 => if install then .graphInstall c else .graphRun c
  | 2 => .patch c
  | 3 => .kernel c
  | 4 => .copy c
  | 5 => .flagset c
  | 6 => .flagwait c
  | _ => .indirect c

/-- A packet that passes every check starts its command. -/
def State.startCommand (s : State) (q level : Nat) (parent : Option Nat) (p d : List Byte) : State :=
  let opc := pkOpc p
  let c : Cmd :=
    { queue := q, die := s.qDie q, opc := opc, irq := pkIrq p, prio := if pkPrioV p then pkPrio p else bits (s.reg (.qctl q)) 12 10,
      space := pkSpace p, tag := BitVec.ofNat 32 (pkTag p), ptr := BitVec.ofNat 64 (pkPtr p), level := level, parent := parent,
      cpl := if 1 ≤ opc ∧ opc ≤ 4 then fieldOf d 7 0 else 0, desc := d, node := 0xFFFF }
  (({ s with cmds := s.cmds.put s.ids c, ids := s.ids + 1 } : State).passPacket q level).push [commandDue opc s.ids (graphInstalls d && opc == 1)]

/-- A queue may start its next packet: enabled, not halted, no FLAGWAIT holds it, and the command before it has started (R76, R78, R80). -/
def State.queueRuns (s : State) (q : Nat) : Bool :=
  let c := s.reg (.qctl q)
  bit c 0 && !bit c 31 && (s.engines.getD q {}).flagwait.isNone &&
  !s.cmds.any (fun x => x.2.queue == q && x.2.waiting && x.2.opc != 1)

/-- What the check of a packet reads besides the packet lies in a column that is held: its descriptor, or the images and edges of an
INSTALL (R27, R158). -/
def State.packetHeld (s : State) (p d : List Byte) : Bool :=
  s.feHeld (pkSpace p) (pkPtr p) (descBytes (pkOpc p)) ||
  (pkOpc p == 1 && graphInstalls d && (s.feHeld (pkSpace p) (fieldOf d 31 24) (80 * graphCount d) ||
    s.feHeld (pkSpace p) (fieldOf d 47 40) (2 * (graphEdges d).2)))

/-- PACKET_START: the chaining engine takes the next packet of a queue: it is refused, waits, or starts its command (R77 to R82, R110,
R126). It runs what it finds in the slot when it takes it (R81; DESIGN CHOICE, log entry 104). -/
def State.packetStart (s : State) (q : Nat) : State :=
  if !s.queueRuns q then s
  else
    match s.nextPacket q with
    | none => s
    | some (addr, space, level, parent) =>
      if s.feHeld space addr 16 then s
      else match s.feRead space addr 16 with
      | none => s.refusePacket q 5 level
      | some p =>
        let opc := pkOpc p
        let own := packetCodes q p level
        let wait := (pkWaitPrev p || opc == 5) && s.cmds.any (fun x => x.2.queue == q && !(s.enclosing 6 parent).contains x.1)
        let desc := if descBytes opc = 0 ∨ own.contains 6 then some [] else s.feRead (pkSpace p) (pkPtr p) (descBytes opc)
        let codes := fun (_ : Unit) => match desc with
          | none => ([5], [])
          | some d => if d.isEmpty then ([], []) else s.descCodes (s.qDie q) opc (pkSpace p) d
        if own.isEmpty && wait then s
        else if s.packetHeld p (desc.getD []) then s
        else
          match leastCode (own ++ (codes ()).1) with
          | some code => s.refusePacket q code level
          | none => s.startCommand q level parent p (desc.getD [] ++ (codes ()).2)

/-! ## Queue control (R75, R76, R82, R126) -/

/-- A write of QCTL. -/
def State.writeQctl (s : State) (q : Nat) (v mask : DWord) : State :=
  let r := s.reg (.qctl q)
  let on := bit r 0
  let n := mergeMask r v (mask &&& (fmask 0 0 ||| fmask 12 10 ||| fmask 21 16 ||| (if on then 0 else fmask 6 1 ||| fmask 9 8)))
  let n1 := setBits n 6 2 (Nat.min 16 (Nat.max 4 (bits n 6 2)))
  let n2 := setBits n1 21 16 (Nat.max 1 (bits n1 21 16))
  let clear := bit (v &&& mask) 31 && bit r 31
  let n3 := if clear then setBit n2 31 false else n2
  let e := s.engines.getD q {}
  let s1 := s.setReg (.qctl q) n3
  let s2 := if clear && e.refused0 then
      ({ s1 with engines := s1.engines.put q { e with refused0 := false } } : State).setField (.feq q) 63 32 (s1.qStart q + 1)
    else s1
  if !on && bit n3 0 then
    { ((s2.setReg (.qptr q) 0).setReg (.feq q) 0) with headWas := s2.headWas.del q, engines := s2.engines.put q { s2.engines.getD q {} with refused0 := false } }
  else if on && !bit n3 0 then
    let s3 := (s2.dropLists q).abandon q
    match e.flagwait with
    | some c => s3.cmdDone c
    | none => s3
  else s2

/-! ## Doorbells (R83 to R87) -/

/-- A doorbell refused or dropped. -/
def State.refuseDoorbell (s : State) (q v : Nat) : State :=
  (s.setReg (.qerr q) (setBits (setBits (s.reg (.qerr q)) 7 0 7) 47 16 v)).dropDoorbell

/-- The log entry of an accepted doorbell, or OVERRUN when the log is full (R85, R87); the watchdog runs from the first entry not yet
consumed (R128). -/
def State.logDoorbell (s : State) (q v : Nat) : State :=
  let die := s.qDie q
  let r := s.reg (.dblstat die)
  let prod := bits r 12 0
  if (prod + 8192 - bits r 28 16) % 8192 = 4096 then (s.setReg (.dblstat die) (setBit r 29 true)).raiseInt 1
  else
    let ser := bits r 63 32
    let entry := leBytes 4 ser ++ [BitVec.ofNat 8 q, 0, 0, 0] ++ leBytes 4 v ++ leBytes 4 s.clock
    ({ s with mem := s.mem.store (logAddr die (prod % 4096)) entry,
              consAt := if prod = bits r 28 16 then s.consAt.put die s.clock else s.consAt } : State).setReg (.dblstat die)
      (setBits (setBits r 12 0 (prod + 1)) 63 32 (ser + 1))

/-- The distance of a ring index from HEAD as it stood at the start of the cycle (R84). -/
def State.bellDist (s : State) (q x : Nat) : Nat := (x + 2 ^ 32 - s.headWas.getD q (s.qHead q)) % 2 ^ 32

/-- A doorbell of value V on a queue (R84). -/
def State.ring (s : State) (q v : Nat) : State :=
  if !bit (s.reg (.qctl q)) 0 then s.dropDoorbell
  else if s.bellDist q v ≤ 2 ^ bits (s.reg (.qctl q)) 6 2 && s.bellDist q (s.qTail q) ≤ s.bellDist q v then
    (s.setField (.qptr q) 31 0 v).logDoorbell q v
  else s.refuseDoorbell q v

/-- A write of a doorbell page by a master: a doorbell is one of 4 bytes at offset 0, and any other is refused (R68, R83); peers have no
path to BAR2 (R64, R65, R74, R92). -/
def State.doorbell (s : State) (m : Master) (q off size v : Nat) : State :=
  match m with
  | .peer _ => s
  | .host | .host2 | .bmc => if off = 0 ∧ size = 4 then s.blockWrite m (fun s => s.ring (q % 256) v) else s.badAccess

/-! ## Meanings -/

/-- PACKET_START (R126). -/
def execPacketStart (q : Nat) (s : State) : Host.Outcome State Fault Refusal := .next (s.packetStart q)
/-- DOORBELL (R84). -/
def execDoorbell (m : Master) (q off size : Nat) (v : Word) (s : State) : Host.Outcome State Fault Refusal :=
  .next (s.doorbell m q off size v.toNat)
/-- QUEUE_ENABLE (R76): a write of QCTL with ENABLE set. -/
def execQueueEnable (m : Master) (q : Nat) (v : DWord) (s : State) : Host.Outcome State Fault Refusal :=
  .next (s.blockWrite m (fun s => s.writeQctl q (setBit v 0 true) (BitVec.allOnes 64)))
/-- QUEUE_DISABLE (R76): a write of QCTL with ENABLE clear. -/
def execQueueDisable (m : Master) (q : Nat) (v : DWord) (s : State) : Host.Outcome State Fault Refusal :=
  .next (s.blockWrite m (fun s => s.writeQctl q (setBit v 0 false) (BitVec.allOnes 64)))
/-- QUEUE_RESUME (R82): a write of 1 to HALTED, the other fields as they stand. -/
def execQueueResume (m : Master) (q : Nat) (s : State) : Host.Outcome State Fault Refusal :=
  .next (s.blockWrite m (fun s => s.writeQctl q (setBit (s.reg (.qctl q)) 31 true) (BitVec.allOnes 64)))

end Sys2Proof.Machine
end

