-- ==== Sys2Proof/Machine/Boot.lean ====
section
/-! DEFINITION. Machine/Boot.lean: the resets, the wipe, the boot ROM, the firmware's start and restart, training, and the life cycle
(R63, R91 to R96, R101 to R103, R128, R492). -/

namespace Sys2Proof.Machine

/-! ## Resets (R16, R39, R63, R91, R131) -/

/-- A register keeps its value across a module reset: those of the module, the links and the scale-out ports (R16, R39). SOETYPE, which R67
lays out, is a register of the host interface and takes its Reset value (R63). -/
def keptKey (k : Nat) : Bool := (0x400000 ≤ k && k < 0x40E000 && k != Reg.soetype.key) || (0x8700000 ≤ k && k < 0x8800000)

/-- What no reset of the module touches in memory: the host's own. -/
def Mem.hostOnly (m : Mem) : Mem := { host := m.host, hostPoison := m.hostPoison, hostGone := m.hostGone }

/-- The registers with what the life record and the fuses hold: WEAR, STATE, FEATMASK, the serial number, the life-cycle state (R101,
R131, R145). -/
def State.loadLife (s : State) : State :=
  let s1 := s.nv.wear.foldl (fun s e => s.setField (.stallwear e.1) 15 0 e.2) s
  let s2 := s.nv.state.foldl (fun s e => s.setField (.stallwear e.1) 33 32 e.2) s1
  let s3 := s.nv.featmask.foldl (fun s e => s.setField (.featmask e.1) 7 0 e.2) s2
  ((s3.setField .hifid 63 32 s.nv.serial.toNat).setField .lcstate 2 0 s.nv.lcs).setField .lcstate 15 8 s.nv.svnmin

/-- COLMAP of every row from the life record (R19). -/
def State.loadColmap (s : State) : State :=
  s.nv.retired.foldl (fun s e => s.setReg (.colmap e.1) (setBits (setBits (s.reg (.colmap e.1)) 33 0 e.2) 35 34 (sparesOf e.2))) s

/-- A new LCNONCE from on-die entropy (R101). -/
def State.newNonce (s : State) : State := { s.setReg .lcnonce (Config.entropy s.fresh) with fresh := s.fresh + 1 }

/-- Events from outside that are due stay due across a reset. -/
def State.outside (s : State) : List Due := s.agenda.filter (fun d => match d with
  | .ext _ => true
  | _ => false)

/-- POWER_ON_RESET: every memory and register at its reset value, with what the life record, the fuses and module flash hold; training
and the boot ROM begin (R16, R39, R63, R91, R492). -/
def State.powerOn (s : State) : State :=
  let nv := { s.nv with hours := s.hours }
  (({ State.reset with nv := nv, fresh := s.fresh, ids := s.ids, out := s.out, mem := s.mem.hostOnly,
                       agenda := s.outside ++ [.romVerify] } : State).loadLife.loadColmap).newNonce

/-- A flit on its way over a module, with the rider that sent it forgotten. -/
def flitOnWay (t : Nat × Due) : Option (Nat × Due) :=
  match t.2 with
  | .reinFlit dsts (some l) f _ => some (t.1, .reinFlit dsts (some l) f none)
  | _ => none

/-- MODULE_RESET: the wipe, with every register at its reset value but those that are kept; links and streams go on (R39, R63, R91,
R492). -/
def State.moduleReset (s : State) : State :=
  let result := bits (s.reg .lcstate) 7 4
  (({ State.reset with
      powered := s.powered, clock := s.clock, rowLag := s.rowLag, stretched := s.stretched, stretchNext := s.stretchNext, nv := s.nv,
      fresh := s.fresh, ids := s.ids, out := s.out, mem := s.mem.hostOnly, sramErrAt := s.sramErrAt,
      regs := s.regs.filter (fun r => keptKey r.1), links := s.links, timed := s.timed.filterMap flitOnWay,
      reinWait := (s.reinWait.filter (fun u => u.link.isSome)).map (fun u => { u with sender := none }), streams := s.streams, ckpt := s.ckpt, hot2x := s.hot2x, ratio := s.ratio,
      shadowSeen := s.shadowSeen, req0 := s.req0, agenda := s.outside ++ [.romVerify] } : State).loadLife.setField .lcstate 7 4 result).newNonce

/-- A Function Level Reset on the host port: by the owner, or by any master while there is none (R63, R74). -/
def State.flr (s : State) (m : Master) : State :=
  match m with
  | .bmc | .peer _ => s
  | .host | .host2 => if s.isOwner m || !s.ownerValid then s.moduleReset else s.nonOwner

/-- The master that a requester ID names; the first configuration write after power-on reset identifies master 0 (R64). -/
def State.requester (s : State) (req : BitVec 16) : Master :=
  match s.req0 with
  | none => .host
  | some r => if r = req then .host else .host2

/-- MSI-X Enable and Function Mask written: what they held back is delivered (R89). -/
def State.writeMsixControl (s : State) (on held : Bool) : State :=
  (List.range 64).foldl (fun s v => s.msixDeliver v) { s with msixOn := on, msixHeld := held }

/-- CONFIGURATION_WRITE: a write by the owner, or while there is none; a Function Level Reset among them, or one of MSI-X Enable and Function
Mask (R64, R74, R89). -/
def State.configWrite (s : State) (req : BitVec 16) (w : ConfigWrite) : State :=
  let m := s.requester req
  let s1 : State := { s with req0 := some (s.req0.getD req) }
  match w with
  | .flr => s1.flr m
  | .msix on held => if s1.isOwner m || !s1.ownerValid then s1.writeMsixControl on held else s1.nonOwner
  | .other => if s1.isOwner m || !s1.ownerValid then s1 else s1.nonOwner

/-! ## Images (R93, R94) -/

/-- Fields of a firmware header. -/
def imgMagic (b : List Byte) : Nat := fieldOf b 3 0
def imgVer (b : List Byte) : Nat := fieldOf b 5 4
def imgKeyset (b : List Byte) : Nat := fieldOf b 6 6
def imgSvn (b : List Byte) : Nat := fieldOf b 7 7
def imgLen (b : List Byte) : Nat := fieldOf b 11 8
def imgBody (b : List Byte) : List Byte := (b.drop 4096).take (imgLen b)

/-- KEYSET is allowed in a life-cycle state (R103). -/
def keysetOk (lcs keyset : Nat) : Bool := keyset == 1 || (keyset == 0 && (lcs == 0 || lcs == 3))

/-- The keys of a KEYSET: Ed25519 and ML-DSA-65; the return keys are 4 and 5. -/
def keySlot (keyset : Nat) (ml : Bool) : Nat := 2 * keyset + ml.toNat

/-- The first check of R94 that an image fails, or 0. -/
def State.imageCheck (s : State) (b : List Byte) : Nat :=
  let head := b.take 80
  let k := imgKeyset b
  if b.length < 4096 || imgMagic b != 0x4D4C4153 || imgVer b != 1 then 1
  else if imgLen b % 16 != 0 || 2 ^ 26 < imgLen b || !zeroes b 15 12 || !zeroes b 4095 3453 then 2
  else if !keysetOk s.nv.lcs k then 3
  else if imgSvn b < s.nv.svnmin then 4
  else if Config.digest512 (imgBody b) != (b.drop 16).take 64 then 5
  else if !Config.verifies (keySlot k false) head ((b.drop 80).take 64) then 6
  else if !Config.verifies (keySlot k true) head ((b.drop 144).take 3309) then 7
  else if 2 ^ 23 < imgLen b then 8
  else 0

/-! ## Firmware (R93, R94, R103, R128) -/

/-- BOOTSTAT.STAGE changed; reaching 4 or 15 sets INTCAUSE.BOOT (R88, R92). -/
def State.setStage (s : State) (n : Nat) : State :=
  let s1 := s.setField .bootstat 3 0 n
  if (n = 4 ∨ n = 15) ∧ s.stage ≠ n then s1.raiseInt 6 else s1

/-- A groom context as it enters the image's entry point (R93, R128). -/
def groomEntry (stall : Nat) (entry : DWord) (root : Nat) : Ctx :=
  { Ctx.reset with loc := .on stall 2, asid := 0xFFF, root := root, aspace := true, pc := entry }

/-- FIRMWARE_START: stage 3 in every groom context, SAVEPOOL, and the groom translation root (R93, R150, R204). -/
def State.firmwareStart (s : State) : State :=
  let s1 := (List.range 4).foldl (fun s d => s.writeSavepool d (Config.firmwarePool d)) (s.setStage 3)
  let s2 := (List.range 4096).foldl (fun s st => s.setCtx (groomKey + st) (groomEntry st s.entry Config.firmwareRoot)) s1
  s2.push [.bootReady]

/-- Training of every UCIe module has ended (R492). -/
def State.trained (s : State) : Bool := (List.range 384).all (fun i => s.linkState i != 0)

/-- Stage 2 ends when the image is loaded and training has ended (R492). -/
def State.leaveLoad (s : State) : State := if s.stage = 2 ∧ s.trained then s.firmwareStart else s

/-- An accepted image: SVNMIN fused in DEPLOYED, then the body in the groom code store of every die at stage 2 (R94). -/
def State.loadImage (s : State) (b : List Byte) (slot : Nat) (recov : Bool) : State :=
  let s1 : State := if s.nv.lcs = 2 ∧ s.nv.svnmin < imgSvn b then
      ({ s with nv := { s.nv with svnmin := imgSvn b } } : State).setField .lcstate 15 8 (imgSvn b)
    else s
  let m := (List.range 4).foldl (fun (m : Mem) d => m.store (groomAddr d 0) (imgBody b)) s1.mem
  let r := setBits (setBits (setBit (setBits (setBits (s1.reg .bootstat) 7 4 0) 8 8 slot) 9 recov) 23 16 (imgSvn b)) 3 0 2
  ({ s1.setReg .bootstat r with mem := m, image := b.take (4096 + imgLen b), entry := Config.firmwareEntry s1.fresh,
                                fresh := s1.fresh + 1 } : State).leaveLoad

/-- The order in which the flash slots are tried: the higher SVN first, A on a tie or an unreadable header (R93). -/
def State.slotOrder (s : State) : List (Nat × List Byte) :=
  let a := (0, s.nv.slotA)
  let b := (1, s.nv.slotB)
  if 4096 ≤ s.nv.slotA.length ∧ 4096 ≤ s.nv.slotB.length ∧ imgSvn s.nv.slotA < imgSvn s.nv.slotB then [b, a] else [a, b]

/-- ROM_VERIFY: in MANUFACTURING the identity keys are there from the first boot on (R103); COLMAP is loaded, and the flash slots are tried;
with neither accepted, the recovery wait (R93 to R95). -/
def State.romVerify (s : State) : State :=
  if s.stage != 0 then s
  else
    let s0 : State := if s.nv.lcs = 0 then { s with nv := { s.nv with idKeys := true } } else s
    let s1 := s0.loadColmap.setStage 1
    match s1.slotOrder.find? (fun x => s1.imageCheck x.2 == 0) with
    | some x => s1.loadImage x.2 x.1 false
    | none =>
      let last := ((s1.slotOrder.getLast?).map (fun x => s1.imageCheck x.2)).getD 1
      (s1.setField .bootstat 7 4 last).setStage 15

/-- BOOT_READY: the firmware's dispatcher accepts work: stage 4 (R93). -/
def State.bootReady (s : State) : State := if s.stage = 3 then s.setStage 4 else s

/-- BOOT_RETRY: in stage 15 the ROM verifies the recovery buffer, whoever asks (R74, R96). BOOTSTAT.SLOT then reads 0 (R93 names the two
slots of the flash alone; DESIGN CHOICE, log entry 109). -/
def State.bootRetry (s : State) (m : Master) : State :=
  if s.stage = 15 then
    let head := s.mem.read 0 4096
    let img := head ++ s.mem.read 4096 (Nat.min (2 ^ 26) (imgLen head))
    match s.imageCheck img with
    | 0 => s.loadImage img 0 true
    | n => s.setField .bootstat 7 4 n
  else s.ownerWrite m id

/-- UCIE_TRAINING_COMPLETE: a module that trains is up or DOWN, with its repaired lanes (R47, R88, R492). -/
def State.trainingDone (s : State) (link : Nat) (up : Bool) (repaired : Nat) : State :=
  if s.linkState link != 0 || 384 ≤ link then s
  else
    let r := setBits (setBits (s.reg (.xlink link)) 1 0 (if up then 1 else 3)) 6 4 repaired
    ((s.setReg (.xlink link) r).raiseInt 7).leaveLoad

/-- FIRMWARE_RESTART of a die: every groom context of it loses its registers and what has not landed, and enters the image again; the
restart is counted (R128). -/
def State.firmwareRestart (s : State) (die : Nat) : State :=
  let r := s.reg (.festat die)
  let s1 := s.setReg (.festat die) (setBits (setBit r 1 true) 31 16 (holdAt 0xFFFF (bits r 31 16 + 1)))
  { s1 with
    ctxs := s1.ctxs.map (fun c =>
      if isGroom c.1 && stallQuarter (c.1 - groomKey) == die then (c.1, groomEntry (c.1 - groomKey) s.entry c.2.root) else c),
    consAt := s1.consAt.put die s.clock }

/-- WATCHDOG_EXPIRY: CONS has not advanced for WDOG µs while entries wait (R128). -/
def State.watchdog (s : State) (die : Nat) : State :=
  let d := s.reg (.dblstat die)
  if bits d 12 0 ≠ bits d 28 16 ∧ s.consAt.getD die 0 + bits (s.reg (.festat die)) 55 32 * usCycles ≤ s.clock then s.firmwareRestart die else s

/-! ## Life cycle (R101, R102) -/

/-- A transition that exists, with the keys that its authorisation needs: none, or the first of a pair. -/
def transition (from' target : Nat) : Option (Option Nat) :=
  match from', target with
  | 0, 1 => some (some 0)
  | 1, 2 => some none
  | 1, 3 => some (some 4)
  | 2, 3 => some (some 4)
  | _, _ => none

/-- The authorisation object in LCAUTH is for this change, and both signatures verify. -/
def State.lcauthOk (s : State) (target key : Nat) : Bool :=
  let b := s.lcauth
  let head := b.take 24
  fieldOf b 3 0 == 0x434C5645 && fieldOf b 4 4 == s.nv.lcs && fieldOf b 5 5 == target && zeroes b 7 6 &&
  fieldOf b 11 8 == bits (s.reg .hifid) 63 32 && zeroes b 15 12 && fieldOf b 23 16 == (s.reg .lcnonce).toNat && zeroes b 4095 3397 &&
  Config.verifies key head ((b.drop 24).take 64) && Config.verifies (key + 1) head ((b.drop 88).take 3309)

/-- The module is quiescent: the dispatcher is paused and no user rider is resident (R102). -/
def State.quiescent (s : State) : Bool := bit (s.reg .dispctl) 1 && !s.ctxs.any (fun c => !isGroom c.1 && c.2.resident)

/-- RESULT of LCSTATE. -/
def State.lcResult (s : State) (n : Nat) : State := s.setField .lcstate 7 4 n

/-- LIFE_CYCLE_CHANGE: a write of LCREQ with GO by the owner (R102); LCNONCE is drawn again (R101), and in RMA the private keys are erased
(R103). R102 names no code for an owner that is not master 2, which gets 3, and does not say that a failed fuse write is followed by the module
reset, which it is not (DESIGN CHOICE, log entry 110). -/
def State.lifeChange (s : State) (m : Master) (target : Nat) : State :=
  if bit (s.reg .lcstate) 3 then s
  else
    match transition s.nv.lcs target with
    | none => (s.lcResult 2).newNonce
    | some auth =>
      let ok := match auth with
        | none => true
        | some key => s.lcauthOk target key && (key != 0 || masterNum m == 2)
      if !ok then (s.lcResult 3).newNonce
      else if !s.quiescent then (s.lcResult 4).newNonce
      else if Config.fuseFails s.fresh then (s.lcResult 5).newNonce
      else (({ s with nv := { s.nv with lcs := target, idKeys := s.nv.idKeys && target != 3 } } : State).lcResult 1).moduleReset

/-! ## Meanings -/

/-- POWER_ON_RESET (R91). -/
def execPowerOnReset (s : State) : Host.Outcome State Fault Refusal := .next s.powerOn
/-- MODULE_RESET (R63). -/
def execModuleReset (m : Master) (s : State) : Host.Outcome State Fault Refusal := .next (s.flr m)
/-- CONFIGURATION_WRITE (R64): the requester ID names the master. -/
def execConfigurationWrite (_m : Master) (req : BitVec 16) (w : ConfigWrite) (s : State) : Host.Outcome State Fault Refusal :=
  .next (s.configWrite req w)
/-- ROM_VERIFY (R94). -/
def execRomVerify (s : State) : Host.Outcome State Fault Refusal := .next s.romVerify
/-- BOOT_READY (R93). -/
def execBootReady (s : State) : Host.Outcome State Fault Refusal := .next s.bootReady
/-- BOOT_RETRY (R96). -/
def execBootRetry (m : Master) (s : State) : Host.Outcome State Fault Refusal := .next (s.bootRetry m)
/-- UCIE_TRAINING_COMPLETE (R492). -/
def execUcieTrainingComplete (link : Nat) (up : Bool) (repaired : BitVec 3) (s : State) : Host.Outcome State Fault Refusal :=
  .next (s.trainingDone link up repaired.toNat)
/-- WATCHDOG_EXPIRY (R128). -/
def execWatchdogExpiry (die : Nat) (s : State) : Host.Outcome State Fault Refusal := .next (s.watchdog die)
/-- FIRMWARE_RESTART (R128). -/
def execFirmwareRestart (die : Nat) (s : State) : Host.Outcome State Fault Refusal := .next (s.firmwareRestart die)
/-- LIFE_CYCLE_CHANGE (R102). -/
def execLifeCycleChange (m : Master) (target : BitVec 3) (s : State) : Host.Outcome State Fault Refusal :=
  .next (s.ownerWrite m (fun s => s.lifeChange m target.toNat))

end Sys2Proof.Machine
end

