-- ==== Sys2Proof/Machine/Domain.lean ====
section
/-! DEFINITION. Machine/Domain.lean: the scale-out ports, the load-store domain, what a declaration of unreachability does, and the
checkpoint registers (R39, R50 to R53, R58 to R62). -/

namespace Sys2Proof.Machine

/-! ## Reachability (R50, R52, R53, R73) -/

/-- DOMREACH as it reads: nothing while the domain is disabled; the own bit while it is enabled (R53). -/
def State.reach (s : State) : DWord := if s.domainOn then setBit (s.reg .domreach) s.myMod true else 0

/-- The owner is the peer of a module. -/
def State.ownedByPeer (s : State) (d : Nat) : Bool := s.ownerValid && s.ownerId == 3 && bits (s.reg .owner) 21 16 == d

/-- Bit d of DOMREACH clears; a peer that owns the module loses its path with it (R53, R73). -/
def State.loseReach (s : State) (d : Nat) : State :=
  let s1 := s.setReg .domreach (setBit (s.reg .domreach) d false)
  if bit (s.reg .domreach) d && s.ownedByPeer d then s1.losePath else s1

/-- Bit d of DOMREACH is set by a frame from module d (R53). -/
def State.gainReach (s : State) (d : Nat) : State := if d = s.myMod then s else s.setReg .domreach (setBit (s.reg .domreach) d true)

/-! ## Checkpoint state (R58 to R62) -/

/-- CKPTSTAT.STATE. -/
def State.ckState (s : State) : Nat := bits (s.reg .ckptstat) 2 0
/-- A checkpoint is under way. -/
def State.ckBusy (s : State) : Bool := s.ckState == 1 || s.ckState == 2
/-- The destination of CKPTDST: module and base offset. -/
def State.ckMod (s : State) : Nat := bits (s.reg .ckptdst) 44 39
def State.ckBase (s : State) : Nat := bits (s.reg .ckptdst) 38 0
/-- The ports that CKPTCTL names and that are up. -/
def State.ckPorts (s : State) : List Nat := (List.range 16).filter (fun p => bit (s.reg .ckptctl) (16 + p) && s.portUp p)

/-- CKPTSTAT.STATE changed; leaving 1 or 2 sets INTCAUSE.CKPT (R88). -/
def State.setCk (s : State) (n : Nat) : State :=
  let s1 := s.setField .ckptstat 2 0 n
  if s.ckBusy && n != 1 && n != 2 then s1.raiseInt 8 else s1

/-- The engine stops with STATE 5 (R62). -/
def State.ckFail (s : State) : State := if s.ckBusy then { s.setCk 5 with ckpt := {} } else s

/-- 64 KiB pages of the module, in the order of R60: ascending logical stall, then ascending offset. -/
def ckPages : Nat := 6291456
/-- The DRAM offset of the i-th page of that order (R60, R203). -/
def ckOffset (i : Nat) : Nat := (i % 1536 * 4096 + i / 1536) * 65536
/-- The place in that order of the page of a DRAM offset. -/
def ckPlace (o : Nat) : Nat := o / 65536 % 4096 * 1536 + o / 65536 / 4096

/-- A write from outside reaches a page: one already sent in the save is dirty, unless it is still to be sent again (R60). -/
def Ckpt.touch (c : Ckpt) (i : Nat) : Ckpt :=
  if (c.pass ≠ 0 ∨ i < c.next) ∧ ¬ c.todo.contains i then { c with dirty := setAdd c.dirty i } else c

/-- Writing is not performed during a restore; it is counted (R60). -/
def State.ckRefuse (s : State) : State :=
  s.setField .ckptstat 63 48 (holdAt 0xFFFF (bits (s.reg .ckptstat) 63 48 + 1))

/-- What a host write or remote store of n bytes at a DRAM offset means to the checkpoint under way: none when it is refused. -/
def State.ckWrite (s : State) (o n : Nat) : Option State :=
  if !s.ckBusy || n = 0 then some s
  else if s.ckpt.restore then none
  else
    let first := o / 65536
    let last := (o + n - 1) / 65536
    some { s with ckpt := (List.range (last - first + 1)).foldl (fun c i => c.touch (ckPlace ((first + i) * 65536))) s.ckpt }

/-- A host write or a remote store at the home column (R54, R57, R60, R68). -/
def State.deviceWrite (s : State) (o : Nat) (data : List Byte) (poison : Bool) : State :=
  match s.ckWrite o data.length with
  | none => s.ckRefuse
  | some t => t.homeWrite 0 o data poison 0 groomKey 0

/-- GO is accepted (R59). -/
def State.ckAccepts (s : State) : Bool :=
  s.quiescent && s.ckBase % 65536 == 0 && s.reach.getLsbD s.ckMod && !s.ckPorts.isEmpty

/-- A write of GO (R59): ignored while a checkpoint is under way. -/
def State.ckGo (s : State) : State :=
  if s.ckBusy then s
  else if !s.ckAccepts then s.setCk 6
  else { s.setReg .ckptstat 1 with ckpt := { restore := bit (s.reg .ckptctl) 1 } }

/-- A write of CKPTCTL (R58). -/
def State.writeCkptctl (s : State) (v mask : DWord) : State :=
  let s1 := s.writeFields .ckptctl v mask (fmask 1 1 ||| fmask 31 16)
  if bit (v &&& mask) 0 then s1.ckGo else s1

/-! ## Streams (R50) -/

/-- The unacknowledged frames of a stream sent again on its port, from the oldest. -/
def State.resend (s : State) (k : Nat) : State :=
  match s.streams.get? k with
  | none => s
  | some st =>
    match s.streamPort (st.port.getD (homePort 0 (k / 4))) with
    | none => s
    | some p =>
      let s1 := st.unacked.foldl (fun s f => s.sendOut p { f with ackn := st.rxSeq }) s
      { s1 with streams := s1.streams.put k { st with sentAt := s.clock } }

/-- The end of every request to a module that will not answer (R50). -/
def State.loseAll (s : State) (d : Nat) : State := (s.outstanding.filter (fun o => o.dst == d)).foldl (fun s o => s.lost o) s

/-- A module is declared unreachable: its bit clears, what awaits its answer ends, what it has not acknowledged is given up, and a
checkpoint to it fails (R50, R62). The next frame of a stream takes the sequence number of the oldest given up. -/
def State.unreachable (s : State) (d : Nat) : State :=
  let quit := fun (k : Nat) (st : Stream) =>
    if k / 4 == d then
      match st.unacked with
      | [] => st
      | f :: _ => { st with txSeq := f.seq, unacked := [], firsts := [], tries := 0 }
    else st
  let s1 : State := { s with streams := s.streams.map (fun x => (x.1, quit x.1 x.2)) }
  let s2 := (s1.loseReach d).loseAll d
  if s2.ckBusy && s2.ckMod == d then s2.ckFail else s2

/-- A port goes up or down: INTCAUSE.LINK, and the streams whose port changes with it send what is unacknowledged again (R50, R51,
R88). -/
def State.portChange (s : State) (p : Nat) (up : Bool) : State :=
  if s.portUp p == up || 16 ≤ p then s
  else
    let s1 := (s.setField (.soport p) 0 0 up.toNat).raiseInt 7
    s1.streams.foldl (fun t x =>
      let pin := x.2.port.getD (homePort 0 (x.1 / 4))
      if s.streamPort pin ≠ s1.streamPort pin && !x.2.unacked.isEmpty then t.resend x.1 else t) s1

/-! ## Registers (R47, R51, R52) -/

/-- A write of SOPORT: ENABLE and CLEAR; a port that may not train goes down (R51). -/
def State.writeSoport (s : State) (p : Nat) (v mask : DWord) : State :=
  if mask &&& 0xFFFFFFFF = 0 then s
  else
    let r := s.reg (.soport p)
    let r1 := setBit r 1 (bit v 1)
    let s1 := s.setReg (.soport p) (if bit v 31 then setBits r1 23 8 0 else r1)
    if bit v 1 then s1 else s1.portChange p false

/-- A frame dropped at a port (R49, R51, R61). -/
def State.dropFrame (s : State) (p : Nat) : State :=
  s.setField (.soport p) 23 8 (holdAt 0xFFFF (bits (s.reg (.soport p)) 23 8 + 1))

/-- A write of XLINK with CLEAR (R47). -/
def State.writeXlink (s : State) (i : Nat) (v mask : DWord) : State :=
  if mask &&& 0xFFFFFFFF = 0 || !bit v 31 then s else s.setField (.xlink i) 23 8 0

/-- A write of DOMCFG (R52): MYMOD only while ENABLE is 0; clearing ENABLE clears every bit of DOMREACH, and every access to another
module ends as one to an unreachable module does. -/
def State.writeDomcfg (s : State) (v mask : DWord) : State :=
  let on := s.domainOn
  let s1 := s.writeFields .domcfg v mask (if on then fmask 6 6 else fmask 6 0)
  if on && !s1.domainOn then
    let s2 := (List.range 64).foldl (fun s d => s.loseReach d) s1
    let s3 := s2.outstanding.foldl (fun s o => s.lost o) s2
    if s3.ckBusy then s3.ckFail else s3
  else s1

end Sys2Proof.Machine
end

