-- ==== Sys2Proof/Machine/Bar.lean ====
section
/-! DEFINITION. Machine/Bar.lean: the registers as masters and groom contexts reach them through BAR0, the accesses of BAR4 and CXL,
and the registers of a groom context (R10, R38, R47, R51, R52, R57, R64 to R68, R74, R92, R96, R125, R360). -/

namespace Sys2Proof.Machine

/-! ## The layout of BAR0 (R66, R67, R199, R310) -/

/-- The register at an offset of the module control block, but SHADOWCNT and FLTRESP. -/
def mcbReg (o : Nat) : Option Reg :=
  if o < 0x400 then some (.colmap (o / 8))
  else if o < 0x420 then some (.dramclk ((o - 0x400) / 8))
  else if o = 0x440 then some .pwrctl
  else if 0x800 ≤ o ∧ o < 0xC00 then some (.rowpwr ((o - 0x800) / 8))
  else if 0x1000 ≤ o ∧ o < 0x4000 then some (.tsense ((o - 0x1000) / 8))
  else if 0xC000 ≤ o ∧ o < 0xCC00 then some (.xlink ((o - 0xC000) / 8))
  else if 0xD000 ≤ o ∧ o < 0xD080 then some (.soport ((o - 0xD000) / 8))
  else if o = 0xD100 then some .domcfg
  else if o = 0xD108 then some .domreach
  else if o = 0xD110 then some .soetype
  else if o = 0xD200 then some .ckptctl
  else if o = 0xD208 then some .ckptdst
  else if o = 0xD210 then some .ckptstat
  else if 0xE000 ≤ o ∧ o < 0xE800 then some (.asroot ((o - 0xE000) / 8))
  else if o = 0xE800 then some .tlbinv
  else if o = 0xE808 then some .splva
  else if o = 0xE810 then some .splctl
  else if o = 0xE820 then some .fltbase
  else if o = 0xE828 then some .fltptr
  else if 0xF000 ≤ o ∧ o < 0xF400 then some (.chklog ((o - 0xF000) / 8))
  else none

/-- What lies at the 8-byte slot of a BAR0 offset. -/
inductive Slot where
  | hifid | lcnonce | owner | ownreq | lcstate | lcreq | bootstat | intcause | inten | hiferr
  | lcauth (o : Nat)
  | msix (o : Nat)
  | pba
  | qbase (q : Nat) | qctl (q : Nat) | qptr (q : Nat) | qerr (q : Nat)
  | log (die o : Nat)
  | dblstat (die : Nat)
  | flags (die o : Nat)
  | shadow (stall : Nat)
  | fltresp
  | mcb (r : Reg)
  | none
  deriving DecidableEq, Repr

/-- The slot of an offset that is a multiple of 8. -/
def slotOf (o : Nat) : Slot :=
  if o < 0x2000 then
    if 0x1000 ≤ o then .lcauth (o - 0x1000)
    else match o with
      | 0x00 => .hifid | 0x08 => .lcnonce | 0x10 => .owner | 0x18 => .ownreq | 0x20 => .lcstate | 0x28 => .lcreq | 0x30 => .bootstat
      | 0x38 => .intcause | 0x40 => .inten | 0x48 => .hiferr
      | _ => .none
  else if 0x8000 ≤ o ∧ o < 0x8400 then .msix (o - 0x8000)
  else if o = 0x9000 then .pba
  else if 0x10000 ≤ o ∧ o < 0x14000 then
    let q := (o - 0x10000) / 64
    match o % 64 with
    | 0x00 => .qbase q | 0x08 => .qctl q | 0x10 => .qptr q | 0x18 => .qerr q
    | _ => .none
  else if 0x20000 ≤ o ∧ o < 0x60000 then .log ((o - 0x20000) / 0x10000) ((o - 0x20000) % 0x10000)
  else if 0x60000 ≤ o ∧ o < 0x60020 then .dblstat ((o - 0x60000) / 8)
  else if 0x80000 ≤ o ∧ o < 0xC0000 then .flags ((o - 0x80000) / 0x10000) ((o - 0x80000) % 0x10000)
  else if 0x400000 ≤ o ∧ o < 0x410000 then
    let c := o - 0x400000
    if 0x4000 ≤ c ∧ c < 0xC000 then .shadow ((c - 0x4000) / 8)
    else if c = 0xE830 then .fltresp
    else match mcbReg c with
      | some r => .mcb r
      | none => .none
  else .none

/-! ## Reads (R66 to R69, R92) -/

/-- Eight bytes of a byte memory as a value. -/
def State.memWord (s : State) (a : Nat) : DWord := BitVec.ofNat 64 (leNat (s.mem.read a 8))

/-- The authorisation object, all 4,096 bytes of it (R101). -/
def State.lcBytes (s : State) : List Byte := s.lcauth ++ List.replicate (4096 - s.lcauth.length) 0

/-- The Vector Control dword of an MSI-X entry, in the upper half of its second slot, is kept with its mask bit inverted (PRESUMED, log entry 22). -/
def msixFlip (o : Nat) : DWord := if o % 16 = 8 then 0x100000000 else 0

/-- The value of a slot as a master reads it, whatever the stage; write-only fields read zero. -/
def State.slotValue (s : State) (m : Master) : Slot → DWord
  | .hifid => s.reg .hifid
  | .lcnonce => s.reg .lcnonce
  | .owner => setBits (s.reg .owner) 7 6 (masterNum m)
  | .ownreq => 0
  | .lcstate => s.reg .lcstate
  | .lcreq => 0
  | .bootstat => s.reg .bootstat
  | .intcause => s.reg .intcause
  | .inten => s.reg .inten
  | .hiferr => s.reg .hiferr
  | .lcauth o => BitVec.ofNat 64 (leNat ((s.lcBytes.drop o).take 8))
  | .msix o => s.memWord (msixAddr o) ^^^ msixFlip o
  | .pba => s.reg .msixPba
  | .qbase q => s.reg (.qbase q)
  | .qctl q => s.reg (.qctl q)
  | .qptr q => s.reg (.qptr q)
  | .qerr q => s.reg (.qerr q)
  | .log die o => s.memWord (logAddr die 0 + o)
  | .dblstat die => s.reg (.dblstat die)
  | .flags die o => s.memWord (flagAddr die 0 + o)
  | .shadow st => match s.physStall st with
    | some p => s.reg (.shadowcnt p)
    | none => 0
  | .fltresp => 0
  | .mcb .domreach => s.reach
  | .mcb (.rowpwr r) => setBit (s.reg (.rowpwr r)) 23 (s.derated r)
  | .mcb r => s.reg r
  | .none => 0

/-- A slot of the host interface registers, which answer at every stage (R92). -/
def isHif (o : Nat) : Bool := o < 0x2000

/-- An 8-byte read of BAR0 by a master: the other blocks read zero until stage 4 (R92). -/
def State.bar0Read (s : State) (m : Master) (o : Nat) : DWord :=
  if isHif o || s.stage == 4 then s.slotValue m (slotOf o) else 0

/-! ## Writes (R10, R66 to R70, R75, R88 to R90, R101) -/

/-- Bytes of a mask, lowest first. -/
def maskBytes (mask : DWord) : List Bool := (List.range 8).map (fun i => (mask.extractLsb' (8 * i) 8) != 0)

/-- Eight bytes with those that a mask selects replaced. -/
def mergeBytes (old : List Byte) (v mask : DWord) : List Byte :=
  old.zipIdx.map (fun b => if (maskBytes mask).getD b.2 false then v.extractLsb' (8 * b.2) 8 else b.1)

/-- A write of the MSI-X table. -/
def State.writeMsix (s : State) (o : Nat) (v mask : DWord) : State :=
  let bytes := mergeBytes (s.mem.read (msixAddr o) 8) (v ^^^ msixFlip o) mask
  ({ s with mem := s.mem.store (msixAddr o) bytes } : State).msixDeliver (o / 16)

/-- A write of ASROOT: ASID 0xFFF stores 0 (R204). -/
def State.writeAsroot (s : State) (q : Nat) (v mask : DWord) : State :=
  let r := mergeMask (s.reg (.asroot q)) v (mask &&& fmask 38 0)
  s.setReg (.asroot q) (if bits r 11 0 = 0xFFF then setBits r 11 0 0 else r)

/-- A write of a register of the module control block (R10). -/
def State.writeMcb (s : State) (r : Reg) (v mask : DWord) : State :=
  let low := mask &&& 0xFFFFFFFF ≠ 0
  match r with
  | .dramclk q => s.writeDramclk q v mask
  | .pwrctl => s.writePwrctl (v &&& mask) mask
  | .rowpwr row => if low then s.writeRowpwr row v mask else s
  | .tsense i => if low && bit v 17 then s.setReg r (setBit (s.reg (.tsense i)) 17 false) else s
  | .xlink i => s.writeXlink i v mask
  | .soport p => s.writeSoport p v mask
  | .domcfg => s.writeDomcfg v mask
  | .soetype => s.writeFields .soetype v mask (fmask 15 0)
  | .ckptctl => s.writeCkptctl v mask
  | .ckptdst => s.writeFields .ckptdst v mask (fmask 44 0)
  | .asroot q => s.writeAsroot q v mask
  | .tlbinv => s.writeTlbinv (v &&& mask) mask
  | .splva => s.writeFields .splva v mask (fmask 11 0 ||| fmask 48 16)
  | .splctl => s.writeSplctl (v &&& mask) mask
  | .fltbase => s.writeFltbase v mask
  | .fltptr => s.writeFltptr v mask
  | .chklog row => if bit (v &&& mask) 63 then s.setReg (.chklog row) 0 else s
  | _ => s

/-- A write of a slot, with the rights to make it: value and mask of the bits written. m is the master in whose name it is made. A write of
the doorbell logs has no effect (R66 gives the block no access code; DESIGN CHOICE, log entry 108). -/
def State.slotWrite (s : State) (m : Master) (v mask : DWord) : Slot → State
  | .ownreq => if mask &&& 0xF = 0 then s else s.ownreq m v
  | .lcreq => if bit (v &&& mask) 3 then s.lifeChange m (bits v 2 0) else s
  | .bootstat => if bit (v &&& mask) 31 && s.stage == 15 then s.bootRetry m else s
  | .intcause => (s.setReg .intcause (s.reg .intcause &&& ~~~(v &&& mask &&& fmask 8 0)))
  | .inten => (s.writeFields .inten v mask (fmask 8 0)).afterInt s.pendingInt
  | .hiferr => if bit (v &&& mask) 63 then s.setReg .hiferr 0 else s
  | .lcauth o => { s with lcauth := s.lcBytes.take o ++ mergeBytes ((s.lcBytes.drop o).take 8) v mask ++ s.lcBytes.drop (o + 8) }
  | .msix o => s.writeMsix o v mask
  | .qbase q => s.writeFields (.qbase q) v mask (fmask 63 12)
  | .qctl q => s.writeQctl q v mask
  | .dblstat die => if bit (v &&& mask) 29 then s.setReg (.dblstat die) (setBit (s.reg (.dblstat die)) 29 false) else s
  | .flags die o => { s with mem := s.mem.store (flagAddr die 0 + o) (mergeBytes (s.mem.read (flagAddr die 0 + o) 8) v mask) }
  | .shadow st => if mask &&& 0xFFFFFFFF = 0 then s else s.clearShadow st v
  | .fltresp => s.faultRespond (v &&& mask)
  | .mcb r => s.writeMcb r v mask
  | .hifid | .lcnonce | .owner | .lcstate | .pba | .qptr _ | .qerr _ | .log _ _ | .none => s

/-- The rights that a write of a slot needs (R70, R74, R92, R96): any master for OWNREQ, and for BOOTSTAT in stage 15; the owner for the
rest, from stage 4 on outside the host interface registers. -/
def State.slotRights (s : State) (m : Master) (o : Nat) (f : State → State) : State :=
  if o = 0x18 then f s
  else if o = 0x30 ∧ s.stage = 15 then f s
  else if isHif o then s.ownerWrite m f
  else s.blockWrite m f

/-- The mask of an access of 4 or 8 bytes in its 8-byte slot. -/
def sizeMask (off size : Nat) : DWord := if size = 8 then BitVec.allOnes 64 else if off % 8 = 0 then 0xFFFFFFFF else 0xFFFFFFFF00000000

/-- An access of BAR0 has a size and an alignment that it takes (R68). -/
def bar0Ok (off size : Nat) : Bool := (size == 4 || size == 8) && off % size == 0 && off + size ≤ 2 ^ 26

/-- REGISTER_WRITE: a write of BAR0 by a master (R10, R68, R74). -/
def State.registerWrite (s : State) (m : Master) (off size : Nat) (v : DWord) : State :=
  if !bar0Ok off size then s.badAccess
  else
    let v' : DWord := if off % 8 = 0 then v else v <<< 32
    s.slotRights m (off / 8 * 8) (fun s => s.slotWrite m v' (sizeMask off size) (slotOf (off / 8 * 8)))

/-- A read of n bytes of BAR0 or BAR2 by a master: the register's value, or TAIL at offset 0 of a doorbell page; one that is malformed
completes with Unsupported Request (R68, R83). -/
def State.registerRead (s : State) (m : Master) (bar2 : Bool) (off n : Nat) : State :=
  if !bar0Ok off n || (bar2 && 2 ^ 20 < off + n) then (s.emit (.unsupported m)).badAccess
  else
    let v := if !bar2 then s.bar0Read m (off / 8 * 8)
      else if off % 4096 < 8 ∧ s.stage = 4 then BitVec.ofNat 64 (s.qTail (off / 4096)) else 0
    s.emit (.readData m (((leBytes 8 v.toNat).drop (off % 8)).take n) false)

/-! ## The access path of the groom contexts (R360) -/

/-- The owner as a master. -/
def State.ownerMaster (s : State) : Option Master :=
  if !s.ownerValid then none
  else match s.ownerId with
    | 0 => some .host
    | 1 => some .host2
    | 2 => some .bmc
    | _ => some (.peer (BitVec.ofNat 6 (bits (s.reg .owner) 21 16)))

/-- A read that MCBSEL.READ started: MCBDATA holds its result, and READY returns to 1. -/
def State.mcbRead (s : State) (k off : Nat) : State :=
  let v := s.slotValue (s.ownerMaster.getD .host) (slotOf off)
  s.modCtx k (fun c => { c with csr := { c.csr with mcbdata := v, mcbsel := setBit c.csr.mcbsel 27 true } })

/-- A write that MCBDATA started, with the owner's rights and exempt from R74; OWNREQ takes no effect without an owner. -/
def State.mcbWrite (s : State) (off : Nat) (v : DWord) : State :=
  match slotOf off, s.ownerMaster with
  | .ownreq, none => s
  | sl, m => s.slotWrite (m.getD .host) v (BitVec.allOnes 64) sl

/-! ## BAR4 and CXL (R57, R65, R68, R74, R92, R96) -/

/-- n bytes at a DRAM offset meet a home column that holds its requests, or an earlier request that is held (R255). -/
def State.devHeld (s : State) (o n : Nat) : Bool :=
  s.homeHeld o || s.homeHeld (o + n - 1) ||
  s.devReqs.any (fun r => match r.2 with
    | .mem _ off m data => overlaps o n off ((data.map List.length).getD m)
    | .back _ off data _ => overlaps o n off data.length
    | .frame _ | .step _ => false)

/-- The rights of a write by a master through BAR4 or CXL.mem, as they stand when it arrives: the owner's from stage 4 on; in stage 15
one of any master into the recovery buffer (R72, R74, R92, R96). -/
def State.memWrite (s : State) (m : Master) (off n : Nat) (recovery : Bool) (f : State → State) : State :=
  if recovery && s.stage == 15 && off + n ≤ 0x4001000 then f s else s.blockWrite m f

/-- A read by a master through BAR4 or CXL.mem; poisoned data complete as a poisoned TLP. -/
def State.memRead (s : State) (m : Master) (off n : Nat) : State := s.emit (.readData m (s.mem.read off n) (s.mem.poisoned off n))

/-- An access of n bytes, or a write of data, at a DRAM offset: refused past 384 GiB; a write that the rights of the moment discard, and
a read before stage 4, which answers zero, end at once; else performed, or held at its home column (R68, R72, R74). -/
def State.memAccess (s : State) (m : Master) (off n : Nat) (data : Option (List Byte)) (recovery : Bool) : State :=
  let len := (data.map List.length).getD n
  if dramBytes < off + len then
    match data with
    | none => (s.emit (.unsupported m)).badAccess
    | some _ => s.badAccess
  else
    let held := len ≠ 0 ∧ s.devHeld off len
    match data with
    | none =>
      if s.stage ≠ 4 then s.emit (.readData m (List.replicate n 0) false)
      else if held then s.holdDev (.mem m off n data)
      else s.memRead m off n
    | some b =>
      s.memWrite m off b.length recovery (fun s => if held then s.holdDev (.mem m off n data) else s.deviceWrite off b false)

/-- A peer reaches BAR0 alone, through its window (R64). -/
def hasBars : Master → Bool
  | .host | .host2 | .bmc => true
  | .peer _ => false

/-- A host snoop of a line of host memory reaches every paddock cache and stash that holds it: dirty bytes go to host memory, and the
line stays clean or goes (R57). -/
def State.snoop (s : State) (addr : Nat) (inval : Bool) : State :=
  let pk := hostKey + addr / 64 * 64
  let ps := List.range 256
  let dirty := s.slices.any (fun p => (findLine p.2 pk).any (fun l => l.dirty != 0)) ||
    s.ctxs.any (fun c => c.2.resident && c.2.stash.any (fun t => t.lines.any (fun l => l.st == .dirty && l.pk == pk)))
  let s1 := ps.foldl (fun s p =>
    let t := if inval then s.flushLine p pk else s.cleanLine p pk
    match t.stashOf p pk with
    | some (k, i, b) => if inval then t.dropStash k i b else t.cleanStash k i b
    | none => t) s
  s1.emit (.snoop (addr / 64 * 64) (if dirty then some (s1.mem.hostRead (addr / 64 * 64) 64) else none))

/-! ## Meanings -/

/-- REGISTER_WRITE (R10). -/
def execRegisterWrite (m : Master) (off size : Nat) (v : DWord) (s : State) : Host.Outcome State Fault Refusal :=
  .next (s.registerWrite m off size v)
/-- XLINK_CLEAR (R47). -/
def execXlinkClear (m : Master) (link : Nat) (s : State) : Host.Outcome State Fault Refusal :=
  .next (s.blockWrite m (fun s => s.writeXlink link 0x80000000 0xFFFFFFFF))
/-- SOPORT_CLEAR (R51): CLEAR, with ENABLE as it stands. -/
def execSoportClear (m : Master) (port : Nat) (s : State) : Host.Outcome State Fault Refusal :=
  .next (s.blockWrite m (fun s => s.setField (.soport port) 23 8 0))
/-- DOMCFG_WRITE (R52). -/
def execDomcfgWrite (m : Master) (v : DWord) (s : State) : Host.Outcome State Fault Refusal :=
  .next (s.blockWrite m (fun s => s.writeDomcfg v (BitVec.allOnes 64)))
/-- CHECKPOINT_SAVE (R60): a write of CKPTCTL with GO and DIR 0. -/
def execCheckpointSave (m : Master) (v : DWord) (s : State) : Host.Outcome State Fault Refusal :=
  .next (s.blockWrite m (fun s => s.writeCkptctl (setBit (setBit v 0 true) 1 false) (BitVec.allOnes 64)))
/-- CHECKPOINT_RESTORE (R61): a write of CKPTCTL with GO and DIR 1. -/
def execCheckpointRestore (m : Master) (v : DWord) (s : State) : Host.Outcome State Fault Refusal :=
  .next (s.blockWrite m (fun s => s.writeCkptctl (setBit (setBit v 0 true) 1 true) (BitVec.allOnes 64)))
/-- BAR4_READ (R68), and the read of a register through BAR0 or BAR2. -/
def execBar4Read (m : Master) (bar : BitVec 3) (off n : Nat) (s : State) : Host.Outcome State Fault Refusal :=
  .next (if bar = 0 then s.registerRead m false off n
    else if !hasBars m then s
    else if bar = 2 then s.registerRead m true off n
    else s.memAccess m off n none true)
/-- BAR4_WRITE (R68); in the recovery wait any master has a path to the recovery buffer (R96). -/
def execBar4Write (m : Master) (off : Nat) (data : List Byte) (s : State) : Host.Outcome State Fault Refusal :=
  .next (if hasBars m || s.stage == 15 then s.memAccess m off data.length (some data) true else s)
/-- CXL_MEM_ACCESS (R57): a read of n bytes, or a write of data. -/
def execCxlMemAccess (m : Master) (off n : Nat) (data : Option (List Byte)) (s : State) : Host.Outcome State Fault Refusal :=
  .next (if hasBars m then s.memAccess m off n data false else s)
/-- CXL_SNOOP (R57). -/
def execCxlSnoop (addr : Nat) (inval : Bool) (s : State) : Host.Outcome State Fault Refusal := .next (s.snoop addr inval)
/-- COLMAP_WRITE (R20): by the groom context of a stall, of the row that its GSEL names. -/
def execColmapWrite (stall : Nat) (v : DWord) (s : State) : Host.Outcome State Fault Refusal :=
  .next (s.writeColmap (s.gselRow (groomKey + stall)) v)
/-- ADMIT_WRITE (R125). -/
def execAdmitWrite (die q : Nat) (v : DWord) (s : State) : Host.Outcome State Fault Refusal := .next (s.writeAdmit die q v)
/-- HEAD_COMMIT (R125). -/
def execHeadCommit (die q : Nat) (v : DWord) (s : State) : Host.Outcome State Fault Refusal := .next (s.writeHead die q v)
/-- CONS_COMMIT (R87). -/
def execConsCommit (die : Nat) (v : DWord) (s : State) : Host.Outcome State Fault Refusal := .next (s.writeDblstat die v)
/-- MCBSEL_READ (R360): a write of MCBSEL with READ by the groom context of a stall. -/
def execMcbselRead (stall : Nat) (v : DWord) (s : State) : Host.Outcome State Fault Refusal :=
  .next (s.writeMcbsel (groomKey + stall) (setBit v 26 true))
/-- MCBDATA_WRITE (R360). -/
def execMcbdataWrite (stall : Nat) (v : DWord) (s : State) : Host.Outcome State Fault Refusal :=
  .next (s.writeMcbdata (groomKey + stall) v)
/-- BRKEND (R491). -/
def execBrkend (stall : Nat) (v : DWord) (s : State) : Host.Outcome State Fault Refusal := .next (s.writeBrkend (stallQuarter stall) v)
/-- STALLWEAR_WRITE (R133). -/
def execStallwearWrite (pos : Nat) (v : DWord) (s : State) : Host.Outcome State Fault Refusal := .next (s.writeWear pos v)
/-- FEATMASK_WRITE (R147). -/
def execFeatmaskWrite (pos : Nat) (v : DWord) (s : State) : Host.Outcome State Fault Refusal := .next (s.writeFeat pos v)
/-- DEFERQ_WRITE (R195). -/
def execDeferqWrite (key : Nat) (v : DWord) (s : State) : Host.Outcome State Fault Refusal :=
  .next (s.modCtx key (fun c => { c with csr := { c.csr with deferq := deferqValue v } }))

end Sys2Proof.Machine
end

