-- ==== Sys2Proof/Machine/Vector.lean ====
section
/-! DEFINITION. Machine/Vector.lean: the V pipe words of chapter "Vector pipe instructions". -/

namespace Sys2Proof.Machine

/-! ## The common frame (R379) -/

/-- What a lane computes from VTYPE, its draw, its lanes of A and B, and lane of D. -/
abbrev LaneFn := VType → Nat → Nat → Nat → Nat → Nat × VFl

/-- The lane results of a merged word from lane j on (R377, R379). -/
def mergedFrom (t : VType) (m : Mask) (dr : Nat → Nat) (f : LaneFn) : Nat → List Nat → List Nat → List Nat → List (Nat × VFl)
  | j, a :: la, b :: lb, d :: ld =>
    (if maskBit m j then f t (dr j) a b d else (d, 0)) :: mergedFrom t m dr f (j + 1) la lb ld
  | _, [], _, _ => []
  | _, _ :: _, [], _ => []
  | _, _ :: _, _ :: _, [] => []

/-- The lanes that draw: under SR, the lanes of a floating type inside the mask (R275, R382, R383). -/
def drawLanes (t : VType) (m : Mask) : List Nat :=
  if t.rm == .sr && !t.etype.isInt then (List.range t.etype.lanes).filter (maskBit m) else []

/-- The lame cause of a source that the word may read before it is served (R186). -/
def vSrcLame : VSrc → W Lame
  | .win w => do
    let c ← getMe
    let o := c.window w
    pure (if o < c.vregs then (c.vreg o).lame else 0)
  | .pop ch | .peek ch => do
    let s ← getS
    match s.me.chans.get? ch.toNat with
    | none => pure 0
    | some x =>
      match x.ready with
      | none => pure 0
      | some r => pure (s.recordAt s.cur x x.head r).lame

/-- A push of a result whose sources are lame is a consuming use (R381). -/
def checkPush (d : VDst) (l : List VSrc) (extra : Lame) : W Unit :=
  match d with
  | .win _ => pure ()
  | .push _ => do
    let ls ← l.mapM vSrcLame
    consume 0xFF (lameOf (extra :: ls))

/-- The checks of a V word before it waits, the lowest code first (R290). -/
def checkV (d : VDst) (l : List VSrc) (extra : Lame) : W Unit :=
  lowest (checkPush d l extra :: (l.map checkVSrc ++ [checkVDst d]))

/-- The old value of a destination: a window register, or zero for a channel record (R377). -/
def oldD : VDst → W (Lamed VReg)
  | .win w => wSrc w
  | .push _ => pure ⟨zeroV, 0⟩

/-- A second source, or lanes of zero where the word has none. -/
def optSrc : Option VSrc → W (Lamed VReg)
  | some b => vSrc b
  | none => pure ⟨zeroV, 0⟩

/-- A merged word: lanes inside the mask take the lane result, the others keep D (R377, R379, R381). readD: D is a source of
every lane. draws: the word rounds. -/
def vMerged (lat : Nat) (d : VDst) (a : VSrc) (b : Option VSrc) (readD draws : Bool) (f : LaneFn) : W Unit := do
  let c ← getMe
  let t := c.vt
  let m := c.kreg t.mask
  checkV d (a :: b.toList) m.lame
  let va ← vSrc a
  let vb ← optSrc b
  let vd ← oldD d
  let dLame := if readD || !maskFull m.val t.etype.lanes then vd.lame else 0
  let w := t.etype.width
  let rs := mergedFrom t m.val (fun j => c.draw j 0) f 0 (lanes w va.val) (lanes w vb.val) (lanes w vd.val)
  modMe (fun c => c.advance (if draws then drawLanes t m.val else []))
  landV d lat (unionFl (rs.map (·.2))) ⟨ofLanes w (rs.map (·.1)), lameOf [va.lame, vb.lame, m.lame, dLame]⟩

/-- A floating lane result: an exact operation, rounded once to the element type (R382). -/
def floatLane (op : Rm → Val → Val → Val → Val × VFl) : LaneFn := fun t dr a b d =>
  let e := t.etype.fmt
  let (x, f0) := op t.rm (decode e a) (decode e b) (decode e d)
  let (y, f1) := roundTo e t.rm t.sat dr x
  (y, f0 ||| f1)

/-- An integer lane result: an exact operation on signed values, under R383. -/
def intLane (op : Int → Int → Int → Int) : LaneFn := fun t _ a b d =>
  let w := t.etype.width
  intResult (op (sextNat a w) (sextNat b w) (sextNat d w)) w t.sat

/-- A lane that computes as a floating or as an integer type. -/
def numLane (fl : Rm → Val → Val → Val → Val × VFl) (int : Int → Int → Int → Int) : LaneFn := fun t dr a b d =>
  if t.etype.isInt then intLane int t dr a b d else floatLane fl t dr a b d

/-- A lane that acts on codes, with no flag (R388). -/
def codeLane (op : Nat → Nat → Nat → Nat) : LaneFn := fun t _ a b _ => (op t.etype.width a b, 0)

/-! ## Floating and integer arithmetic (R384 to R387) -/

/-- VADD (R384). -/
def execVadd (h : WHead) (d : VDst) (a b : VSrc) (s : State) : Host.Outcome State Fault Refusal :=
  runWord h.g (vMerged 4 d a (some b) false true (numLane (fun rm x y _ => addVal rm x y) (fun x y _ => x + y))) s
/-- VSUB (R384). -/
def execVsub (h : WHead) (d : VDst) (a b : VSrc) (s : State) : Host.Outcome State Fault Refusal :=
  runWord h.g (vMerged 4 d a (some b) false true (numLane (fun rm x y _ => addVal rm x y.neg) (fun x y _ => x - y))) s
/-- VMUL (R384). -/
def execVmul (h : WHead) (d : VDst) (a b : VSrc) (s : State) : Host.Outcome State Fault Refusal :=
  runWord h.g (vMerged 4 d a (some b) false true (numLane (fun _ x y _ => mulVal x y) (fun x y _ => x * y))) s
/-- VFMA: a × b + d (R385). -/
def execVfma (h : WHead) (d : RIdx) (a b : VSrc) (s : State) : Host.Outcome State Fault Refusal :=
  runWord h.g (vMerged 4 (.win d) a (some b) true true (numLane (fun rm x y z => fmaVal rm x y z) (fun x y z => x * y + z))) s
/-- VFMS: a × b − d (R385). -/
def execVfms (h : WHead) (d : RIdx) (a b : VSrc) (s : State) : Host.Outcome State Fault Refusal :=
  runWord h.g (vMerged 4 (.win d) a (some b) true true
    (numLane (fun rm x y z => fmaVal rm x y z.neg) (fun x y z => x * y - z))) s
/-- VFNMA: d − a × b (R385). -/
def execVfnma (h : WHead) (d : RIdx) (a b : VSrc) (s : State) : Host.Outcome State Fault Refusal :=
  runWord h.g (vMerged 4 (.win d) a (some b) true true
    (numLane (fun rm x y z => fmaVal rm x.neg y z) (fun x y z => z - x * y))) s

/-- The lesser or greater of two floating lanes; a NaN gives the canonical NaN (R386). -/
def minMaxFloat (max : Bool) (e : Fmt) (a b : Nat) : Nat × VFl :=
  let x := decode e a
  let y := decode e b
  if x.isNan || y.isNan then (e.nan, flagIf (x.isSig || y.isSig) fNV)
  else (if belowVal x y == max then b else a, 0)

/-- The lesser or greater of two lanes (R386). -/
def minMaxLane (max : Bool) : LaneFn := fun t _ a b _ =>
  if t.etype.isInt then
    (if (sextNat a t.etype.width < sextNat b t.etype.width) == max then b else a, 0)
  else minMaxFloat max t.etype.fmt a b

/-- VMIN (R386). -/
def execVmin (h : WHead) (d : VDst) (a b : VSrc) (s : State) : Host.Outcome State Fault Refusal :=
  runWord h.g (vMerged 4 d a (some b) false false (minMaxLane false)) s
/-- VMAX (R386). -/
def execVmax (h : WHead) (d : VDst) (a b : VSrc) (s : State) : Host.Outcome State Fault Refusal :=
  runWord h.g (vMerged 4 d a (some b) false false (minMaxLane true)) s

/-- A lane with its sign bit changed; integers are negated under R383 (R386). -/
def signLane (neg : Bool) : LaneFn := fun t _ a _ _ =>
  let w := t.etype.width
  if t.etype.isInt then
    let x := sextNat a w
    intResult (if neg then -x else (x.natAbs : Int)) w t.sat
  else
    let x := decode t.etype.fmt a
    if x.isNan then (t.etype.fmt.nan, flagIf x.isSig fNV)
    else (if neg then Nat.xor a (2 ^ (w - 1)) else a % 2 ^ (w - 1), 0)

/-- VABS (R386). -/
def execVabs (h : WHead) (d : VDst) (a : VSrc) (s : State) : Host.Outcome State Fault Refusal :=
  runWord h.g (vMerged 4 d a none false false (signLane false)) s
/-- VNEG (R386). -/
def execVneg (h : WHead) (d : VDst) (a : VSrc) (s : State) : Host.Outcome State Fault Refusal :=
  runWord h.g (vMerged 4 d a none false false (signLane true)) s

/-- A lane clamped to −|b| to |b| (R386). -/
def clampLane : LaneFn := fun t _ a b _ =>
  let w := t.etype.width
  if t.etype.isInt then
    let x := sextNat a w
    let y : Int := Nat.min (sextNat b w).natAbs (2 ^ (w - 1) - 1)
    (lowBits (if x < -y then -y else if y < x then y else x) w, 0)
  else
    let e := t.etype.fmt
    let x := decode e a
    let y := decode e (b % 2 ^ (w - 1))
    if x.isNan || (decode e b).isNan then (e.nan, flagIf (x.isSig || (decode e b).isSig) fNV)
    else if ltVal y x || ltVal x y.neg then (signed e x.sign (b % 2 ^ (w - 1)), 0)
    else (a, 0)

/-- VCLAMP (R386). -/
def execVclamp (h : WHead) (d : VDst) (a b : VSrc) (s : State) : Host.Outcome State Fault Refusal :=
  runWord h.g (vMerged 4 d a (some b) false false clampLane) s

/-- A transcendental word: TRANS, latency 8; an FP32 lane never draws (R145, R387). -/
def vTrans (d : VDst) (a : VSrc) (x : Trans) : W Unit := do
  needFeature 4
  let c ← getMe
  vMerged 8 d a none false (c.vt.etype != .fp32) (fun t dr a _ _ => transLane x t dr a)

/-- VRCP (R387). -/
def execVrcp (h : WHead) (d : VDst) (a : VSrc) (s : State) : Host.Outcome State Fault Refusal := runWord h.g (vTrans d a .rcp) s
/-- VRSQ (R387). -/
def execVrsq (h : WHead) (d : VDst) (a : VSrc) (s : State) : Host.Outcome State Fault Refusal := runWord h.g (vTrans d a .rsq) s
/-- VEXP2 (R387). -/
def execVexp2 (h : WHead) (d : VDst) (a : VSrc) (s : State) : Host.Outcome State Fault Refusal := runWord h.g (vTrans d a .exp2) s
/-- VLOG2 (R387). -/
def execVlog2 (h : WHead) (d : VDst) (a : VSrc) (s : State) : Host.Outcome State Fault Refusal := runWord h.g (vTrans d a .log2) s
/-- VTANH (R387). -/
def execVtanh (h : WHead) (d : VDst) (a : VSrc) (s : State) : Host.Outcome State Fault Refusal := runWord h.g (vTrans d a .tanh) s

/-! ## Integer and bit instructions (R388) -/

/-- VAND (R388). -/
def execVand (h : WHead) (d : VDst) (a b : VSrc) (s : State) : Host.Outcome State Fault Refusal :=
  runWord h.g (vMerged 2 d a (some b) false false (codeLane (fun _ x y => Nat.land x y))) s
/-- VOR (R388). -/
def execVor (h : WHead) (d : VDst) (a b : VSrc) (s : State) : Host.Outcome State Fault Refusal :=
  runWord h.g (vMerged 2 d a (some b) false false (codeLane (fun _ x y => Nat.lor x y))) s
/-- VXOR (R388). -/
def execVxor (h : WHead) (d : VDst) (a b : VSrc) (s : State) : Host.Outcome State Fault Refusal :=
  runWord h.g (vMerged 2 d a (some b) false false (codeLane (fun _ x y => Nat.xor x y))) s
/-- VNOT (R388). -/
def execVnot (h : WHead) (d : VDst) (a : VSrc) (s : State) : Host.Outcome State Fault Refusal :=
  runWord h.g (vMerged 2 d a none false false (codeLane (fun w x _ => 2 ^ w - 1 - x))) s
/-- VSHL (R388). -/
def execVshl (h : WHead) (d : VDst) (a b : VSrc) (s : State) : Host.Outcome State Fault Refusal :=
  runWord h.g (vMerged 2 d a (some b) false false (codeLane (fun w x y => x * 2 ^ (y % w) % 2 ^ w))) s
/-- VSHR (R388). -/
def execVshr (h : WHead) (d : VDst) (a b : VSrc) (s : State) : Host.Outcome State Fault Refusal :=
  runWord h.g (vMerged 2 d a (some b) false false (codeLane (fun w x y => x / 2 ^ (y % w)))) s
/-- VSRA (R388). -/
def execVsra (h : WHead) (d : VDst) (a b : VSrc) (s : State) : Host.Outcome State Fault Refusal :=
  runWord h.g (vMerged 2 d a (some b) false false (codeLane (fun w x y => lowBits (Int.fdiv (sextNat x w) (2 ^ (y % w))) w))) s

/-- An integer operation of R388 on the codes of a lane: wrapped on floating lanes, under R383 on integer lanes. -/
def codeInt (op : Int → Int → Int) : LaneFn := fun t _ a b _ =>
  let w := t.etype.width
  intResult (op (sextNat a w) (sextNat b w)) w (t.sat && t.etype.isInt)

/-- VADDI (R388). -/
def execVaddi (h : WHead) (d : VDst) (a : VSrc) (i : Imm 6) (s : State) : Host.Outcome State Fault Refusal :=
  runWord h.g (vMerged 2 d a none false false
    (fun t dr x _ z => codeInt (fun x y => x + y) t dr x ((immU i).toNat % 2 ^ t.etype.width) z)) s
/-- VIMUL (R388). -/
def execVimul (h : WHead) (d : VDst) (a b : VSrc) (s : State) : Host.Outcome State Fault Refusal :=
  runWord h.g (vMerged 3 d a (some b) false false (codeInt (fun x y => x * y))) s

/-- The number of one bits of a code. -/
def popCount (w x : Nat) : Nat := (List.range w).countP (fun i => x / 2 ^ i % 2 == 1)

/-- VPOPC (R388). -/
def execVpopc (h : WHead) (d : VDst) (a : VSrc) (s : State) : Host.Outcome State Fault Refusal :=
  runWord h.g (vMerged 2 d a none false false (codeLane (fun w x _ => popCount w x))) s

/-! ## Compares and masks (R389 to R391) -/

/-- The predicates of R389. -/
inductive VCmp where
  | eq | ne | lt | le | un
  deriving DecidableEq, Repr

/-- A compare of two lanes with the NV it sets (R389). -/
def cmpLane (op : VCmp) (t : VType) (a b : Nat) : Bool × VFl :=
  if t.etype.isInt then
    let x := sextNat a t.etype.width
    let y := sextNat b t.etype.width
    (match op with | .eq => x == y | .ne => x != y | .lt => x < y | .le => x ≤ y | .un => false, 0)
  else
    let x := decode t.etype.fmt a
    let y := decode t.etype.fmt b
    let sig := flagIf (x.isSig || y.isSig) fNV
    let any := flagIf (x.isNan || y.isNan) fNV
    match op with
    | .eq => (eqVal x y, sig)
    | .ne => (!eqVal x y, sig)
    | .lt => (ltVal x y, any)
    | .le => (ltVal x y || eqVal x y, any)
    | .un => (x.isNan || y.isNan, sig)

/-- The compared lanes of a word from lane j on. -/
def cmpFrom (op : VCmp) (t : VType) (m : Mask) : Nat → List Nat → List Nat → List (Bool × VFl)
  | j, a :: la, b :: lb => (if maskBit m j then cmpLane op t a b else (false, 0)) :: cmpFrom op t m (j + 1) la lb
  | _, [], _ => []
  | _, _ :: _, [] => []

/-- A vector compare: kD lands at g + 3 (R389). -/
def vCompare (op : VCmp) (d : KIdx) (a b : VSrc) : W Unit := do
  let c ← getMe
  let t := c.vt
  let m := c.kreg t.mask
  lowest [checkVSrc a, checkVSrc b]
  let va ← vSrc a
  let vb ← vSrc b
  let w := t.etype.width
  let rs := cmpFrom op t m.val 0 (lanes w va.val) (lanes w vb.val)
  let k := BitVec.ofNat 256 (packNat 1 (rs.map (fun r => r.1.toNat)))
  modS (fun s => s.land { landing s 3 [.k d ⟨k, lameOf [va.lame, vb.lame, m.lame]⟩] with flags := unionFl (rs.map (·.2)) })

/-- VCEQ (R389). -/
def execVceq (h : WHead) (d : KIdx) (a b : VSrc) (s : State) : Host.Outcome State Fault Refusal := runWord h.g (vCompare .eq d a b) s
/-- VCNE (R389). -/
def execVcne (h : WHead) (d : KIdx) (a b : VSrc) (s : State) : Host.Outcome State Fault Refusal := runWord h.g (vCompare .ne d a b) s
/-- VCLT (R389). -/
def execVclt (h : WHead) (d : KIdx) (a b : VSrc) (s : State) : Host.Outcome State Fault Refusal := runWord h.g (vCompare .lt d a b) s
/-- VCLE (R389). -/
def execVcle (h : WHead) (d : KIdx) (a b : VSrc) (s : State) : Host.Outcome State Fault Refusal := runWord h.g (vCompare .le d a b) s
/-- VCUN (R389). -/
def execVcun (h : WHead) (d : KIdx) (a b : VSrc) (s : State) : Host.Outcome State Fault Refusal := runWord h.g (vCompare .un d a b) s

/-- Lanes chosen between two lists by a mask, from lane j on (R390). -/
def selFrom (m : Mask) : Nat → List Nat → List Nat → List Nat
  | j, a :: la, b :: lb => (if maskBit m j then a else b) :: selFrom m (j + 1) la lb
  | _, [], _ => []
  | _, _ :: _, [] => []

/-- VSEL (R390). -/
def vSelect (d : VDst) (a b : VSrc) : W Unit := do
  let c ← getMe
  let m := c.kreg c.vt.mask
  checkV d [a, b] m.lame
  let va ← vSrc a
  let vb ← vSrc b
  let w := c.vt.etype.width
  landV d 3 0 ⟨ofLanes w (selFrom m.val 0 (lanes w va.val) (lanes w vb.val)), lameOf [va.lame, vb.lame, m.lame]⟩

/-- VSEL (R390). -/
def execVsel (h : WHead) (d : VDst) (a b : VSrc) (s : State) : Host.Outcome State Fault Refusal := runWord h.g (vSelect d a b) s

/-- A mask result lands two groups on (R391). -/
def landK (d : KIdx) (x : Lamed Mask) : W Unit := land 2 [.k d x]

/-- KAND (R391). -/
def execKand (h : WHead) (d a b : KIdx) (s : State) : Host.Outcome State Fault Refusal :=
  runWord h.g (do let c ← getMe; landK d ⟨(c.kreg a).val &&& (c.kreg b).val, Lame.max (c.kreg a).lame (c.kreg b).lame⟩) s
/-- KOR (R391). -/
def execKor (h : WHead) (d a b : KIdx) (s : State) : Host.Outcome State Fault Refusal :=
  runWord h.g (do let c ← getMe; landK d ⟨(c.kreg a).val ||| (c.kreg b).val, Lame.max (c.kreg a).lame (c.kreg b).lame⟩) s
/-- KXOR (R391). -/
def execKxor (h : WHead) (d a b : KIdx) (s : State) : Host.Outcome State Fault Refusal :=
  runWord h.g (do let c ← getMe; landK d ⟨(c.kreg a).val ^^^ (c.kreg b).val, Lame.max (c.kreg a).lame (c.kreg b).lame⟩) s
/-- KNOT (R391). -/
def execKnot (h : WHead) (d a : KIdx) (s : State) : Host.Outcome State Fault Refusal :=
  runWord h.g (do let c ← getMe; landK d ⟨~~~(c.kreg a).val, (c.kreg a).lame⟩) s
/-- KSET (R391). -/
def execKset (h : WHead) (d : KIdx) (i : Imm 6) (s : State) : Host.Outcome State Fault Refusal :=
  runWord h.g (landK d ⟨maskOf 256 (fun j => j < (immU i).toNat), 0⟩) s
/-- KANY: the predicate lands at g + 2 (R391, R177). -/
def execKany (h : WHead) (p : PIdx) (a : KIdx) (s : State) : Host.Outcome State Fault Refusal :=
  runWord h.g (do
    let c ← getMe
    land 2 [.p p ⟨(List.range c.vt.etype.lanes).any (maskBit (c.kreg a).val), (c.kreg a).lame⟩]) s
/-- KFIRST (R391). -/
def execKfirst (h : WHead) (d a : KIdx) (s : State) : Host.Outcome State Fault Refusal :=
  runWord h.g (do
    let c ← getMe
    let i := (List.range c.vt.etype.lanes).find? (maskBit (c.kreg a).val)
    landK d ⟨maskOf 256 (fun j => i == some j), (c.kreg a).lame⟩) s

/-! ## Reductions (R284, R392) -/

/-- A node of the tree: its lane, its code, whether it is an identity, and how often its lane has drawn. -/
structure Node where
  lane : Nat
  code : Nat
  ident : Bool
  drawn : Nat := 0
  deriving DecidableEq, Repr

/-- The reductions. -/
inductive Red where
  | sum | max | min | imax
  deriving DecidableEq, Repr

/-- The identity of a reduction for an element type (R284, R392). -/
def identityOf (op : Red) (e : EType) : Nat :=
  let w := e.width
  match op with
  | .sum => if e.isInt then 0 else 2 ^ (w - 1)
  | .max | .imax => if e.isInt then 2 ^ (w - 1) else 2 ^ (w - 1) + e.fmt.inf.getD 0
  | .min => if e.isInt then 2 ^ (w - 1) - 1 else e.fmt.inf.getD 0

/-- The winner of a VRIMAX node (R284). -/
def imaxNode (t : VType) (x y : Node) : Node × VFl :=
  let pick := fun (b : Bool) => if b then y else x
  if t.etype.isInt then
    let a := sextNat x.code t.etype.width
    let b := sextNat y.code t.etype.width
    (pick (a < b || (a == b && x.ident && !y.ident)), 0)
  else
    let e := t.etype.fmt
    let a := decode e x.code
    let b := decode e y.code
    let sig := flagIf (a.isSig || b.isSig) fNV
    if a.isNan then ({ x with code := e.nan }, sig)
    else if b.isNan then ({ y with code := e.nan }, sig)
    else (pick (belowVal a b || (!belowVal b a && x.ident && !y.ident)), 0)

/-- One node of the tree over its two inputs (R284): the new node and its flags, and whether its lane draws. -/
def redNode (op : Red) (t : VType) (dr : Nat → Nat → Nat) (x y : Node) : Node × VFl × Bool :=
  match op with
  | .imax => let r := imaxNode t x y; (r.1, r.2, false)
  | .max =>
    let r := minMaxLane true t 0 x.code y.code 0
    ({ x with code := r.1, ident := x.ident && y.ident }, r.2, false)
  | .min =>
    let r := minMaxLane false t 0 x.code y.code 0
    ({ x with code := r.1, ident := x.ident && y.ident }, r.2, false)
  | .sum =>
    if x.ident && y.ident then (x, 0, false)
    else
      let draws := t.rm == .sr && !t.etype.isInt
      let r := numLane (fun rm a b _ => addVal rm a b) (fun a b _ => a + b) t (dr x.lane x.drawn) x.code y.code 0
      ({ x with code := r.1, ident := false, drawn := x.drawn + draws.toNat }, r.2, draws)

/-- The levels of the tree: the last node, the flags, and the lanes that drew, level by level (R284). -/
def redTree (op : Red) (t : VType) (dr : Nat → Nat → Nat) : Nat → List Node → List Node × VFl × List Nat
  | 0, l => (l, 0, [])
  | n + 1, l =>
    if l.length ≤ 1 then (l, 0, []) else
    let rs := (pairs l).map (fun p => (redNode op t dr p.1 p.2, p.1.lane))
    let up := redTree op t dr n (rs.map (·.1.1))
    (up.1, unionFl (rs.map (·.1.2.1)) ||| up.2.1, (rs.filter (·.1.2.2)).map (·.2) ++ up.2.2)

/-- The lanes of A as leaves, a masked-off lane as the identity, from lane j on (R284). -/
def leavesFrom (op : Red) (t : VType) (m : Mask) : Nat → List Nat → List Node
  | _, [] => []
  | j, a :: l =>
    (if maskBit m j then { lane := j, code := a, ident := false } else { lane := j, code := identityOf op t.etype, ident := true }) ::
      leavesFrom op t m (j + 1) l

/-- A reduction word, latency 6 (R392). -/
def vReduce (op : Red) (d : VDst) (a : VSrc) : W Unit := do
  let c ← getMe
  let t := c.vt
  let m := c.kreg t.mask
  checkV d [a] m.lame
  let va ← vSrc a
  let w := t.etype.width
  let r := redTree op t c.draw 8 (leavesFrom op t m.val 0 (lanes w va.val))
  let top := r.1.headD { lane := 0, code := 0, ident := true }
  modMe (fun c => c.advance r.2.2)
  let out := top.code :: (if op == .imax then [if top.ident then 0 else top.lane] else [])
  landV d 6 r.2.1 ⟨ofLanes w out, lameOf [va.lame, m.lame]⟩

/-- VRSUM (R392). -/
def execVrsum (h : WHead) (d : VDst) (a : VSrc) (s : State) : Host.Outcome State Fault Refusal := runWord h.g (vReduce .sum d a) s
/-- VRMAX (R392). -/
def execVrmax (h : WHead) (d : VDst) (a : VSrc) (s : State) : Host.Outcome State Fault Refusal := runWord h.g (vReduce .max d a) s
/-- VRMIN (R392). -/
def execVrmin (h : WHead) (d : VDst) (a : VSrc) (s : State) : Host.Outcome State Fault Refusal := runWord h.g (vReduce .min d a) s
/-- VRIMAX (R392). -/
def execVrimax (h : WHead) (d : VDst) (a : VSrc) (s : State) : Host.Outcome State Fault Refusal := runWord h.g (vReduce .imax d a) s

/-! ## Moves and permutes (R393 to R396) -/

/-- VMOV: all 2,112 bits, with the lame bit (R393). -/
def execVmov (h : WHead) (d : VDst) (a : VSrc) (s : State) : Host.Outcome State Fault Refusal :=
  runWord h.g (do checkV d [a] 0; let va ← vSrc a; landV d 2 0 va) s

/-- A lane of a register image replaced; every other lane and the scale bytes stay (R394). -/
def setLane (w j x : Nat) (v : VReg) : VReg := vMake (packNat w ((lanes w v).set j (x % 2 ^ w))) (vScales v)

/-- STOV (R394). -/
def execStov (h : WHead) (d a : RIdx) (i : Imm 6) (s : State) : Host.Outcome State Fault Refusal :=
  runWord h.g (do
    let c ← getMe
    let vd ← wSrc d
    let e := c.vt.etype
    landV (.win d) 2 0
      ⟨setLane e.width ((immU i).toNat % e.lanes) (c.sreg a).val.toNat vd.val, Lame.max (c.sreg a).lame vd.lame⟩) s

/-- VIOTA (R395). -/
def execViota (h : WHead) (d : VDst) (s : State) : Host.Outcome State Fault Refusal :=
  runWord h.g (do
    let e := (← getMe).vt.etype
    checkVDst d
    landV d 3 0 ⟨ofLanes e.width ((List.range e.lanes).map (fun j => if e.isInt then j else (roundTo e.fmt .rne false 0 (.fin false j 0)).1)), 0⟩) s

/-- VPERM (R395). -/
def execVperm (h : WHead) (d : VDst) (a b : VSrc) (s : State) : Host.Outcome State Fault Refusal :=
  runWord h.g (do
    checkV d [a, b] 0
    let e := (← getMe).vt.etype
    let va ← vSrc a
    let vb ← vSrc b
    let la := lanes e.width va.val
    landV d 3 0 ⟨ofLanes e.width ((lanes e.width vb.val).map (fun x => la.getD (x % e.lanes) 0)), Lame.max va.lame vb.lame⟩) s

/-- Lane j + s, or 0 outside the vector (R395). -/
def slideLane (l : List Nat) (n : Nat) (s : Int) (j : Nat) : Nat :=
  let i := (j : Int) + s
  if 0 ≤ i && i < n then l.getD i.toNat 0 else 0

/-- VSLIDE (R395). -/
def execVslide (h : WHead) (d : VDst) (a : VSrc) (i : Imm 6) (s : State) : Host.Outcome State Fault Refusal :=
  runWord h.g (do
    checkV d [a] 0
    let e := (← getMe).vt.etype
    let va ← vSrc a
    let l := lanes e.width va.val
    landV d 3 0 ⟨ofLanes e.width ((List.range e.lanes).map (slideLane l e.lanes (sextNat (immU i).toNat 32))), va.lame⟩) s

/-- The lanes whose mask bits are set, in ascending order, from lane j on (R396). -/
def pickFrom (m : Mask) : Nat → List Nat → List Nat
  | _, [] => []
  | j, a :: l => if maskBit m j then a :: pickFrom m (j + 1) l else pickFrom m (j + 1) l

/-- The next lanes of a list placed where the mask bits are set, from lane j on (R396). -/
def spreadFrom (m : Mask) : Nat → Nat → List Nat → List Nat
  | _, 0, _ => []
  | j, n + 1, l => if maskBit m j then l.headD 0 :: spreadFrom m (j + 1) n l.tail else 0 :: spreadFrom m (j + 1) n l

/-- VCMPR (R396). -/
def execVcmpr (h : WHead) (d : VDst) (a : VSrc) (k : KIdx) (s : State) : Host.Outcome State Fault Refusal :=
  runWord h.g (do
    let c ← getMe
    checkV d [a] (c.kreg k).lame
    let va ← vSrc a
    let e := c.vt.etype
    landV d 3 0 ⟨ofLanes e.width (pickFrom (c.kreg k).val 0 (lanes e.width va.val)), Lame.max va.lame (c.kreg k).lame⟩) s

/-- VXPND (R396). -/
def execVxpnd (h : WHead) (d : VDst) (a : VSrc) (k : KIdx) (s : State) : Host.Outcome State Fault Refusal :=
  runWord h.g (do
    let c ← getMe
    checkV d [a] (c.kreg k).lame
    let va ← vSrc a
    let e := c.vt.etype
    landV d 3 0
      ⟨ofLanes e.width (spreadFrom (c.kreg k).val 0 e.lanes (lanes e.width va.val)), Lame.max va.lame (c.kreg k).lame⟩) s

/-- VLANE: every lane takes lane imm mod n of A (R395). -/
def execVlane (h : WHead) (d : VDst) (a : VSrc) (i : Imm 6) (s : State) : Host.Outcome State Fault Refusal :=
  runWord h.g (do
    checkV d [a] 0
    let e := (← getMe).vt.etype
    let va ← vSrc a
    let x := (lanes e.width va.val).getD ((immU i).toNat % e.lanes) 0
    landV d 3 0 ⟨ofLanes e.width (List.replicate e.lanes x), va.lame⟩) s

/-! ## The deferral queue (R397 to R400) -/

/-- The range checks of VDEFER and VDRAIN (R196, R398). -/
def deferCheck : W Unit := do
  let c ← getMe
  let b := c.deferBase
  if c.inScratch b 65536 && !c.hitsRing b 65536 && !c.hitsStash b 65536 then pure () else protection (localAddr b)

/-- The bytes of local scratch that an X command touches (R237). -/
def State.scratchPieces (s : State) (x : XCmd) : List (Nat × Nat) :=
  match tensorSlot x with
  | some (_, full) => if full then [] else [(x.list, 4 * x.rows)]
  | none => ((s.touches s.cur x).getD []).filterMap (fun p =>
      if 2 ^ 60 ≤ p.1 ∧ p.1 < 2 ^ 60 + 2 ^ 21 then some (p.1 - 2 ^ 60, p.2) else none)

/-- An X word issued before that touches one of some records of the queue, counted from HEAD, and has not been performed (R237, R400). -/
def State.deferMeets (s : State) (l : List Nat) : Bool :=
  let c := s.me
  let recs := l.map (fun i => (c.deferBase + 16 * ((c.deferHead + i) % 4096), 16))
  c.xq.any (fun x => x.st != .performed && piecesMeet (s.scratchPieces x) recs)

/-- The group is held until the rider's earlier X words that touch the same records have been performed (R400; DEDUCED, log entry 116). -/
def deferOrder (l : List Nat) : W Unit := do
  let s ← getS
  if s.deferMeets l && !s.pos.forced then hold else pure ()

/-- DEFERQ with a new HEAD and COUNT (R195). -/
def Ctx.setDefer (c : Ctx) (head count : Nat) : Ctx :=
  { c with deferOn := true, csr := { c.csr with deferq := setBits (setBits c.csr.deferq 36 24 count) 51 40 head } }

/-- One deferral record written into local scratch (R397). -/
def State.deferWrite (s : State) (value lane etype index : Nat) : State :=
  let a := s.me.scratch (s.me.deferBase + 16 * index)
  { s with mem := s.mem.write a (leBytes 4 value ++ leBytes 2 lane ++ leBytes 1 etype ++ List.replicate 9 0) }

/-- The lanes of a mask appended while room remains; answers the lanes that found none (R398). -/
def deferLanes (e : EType) (l : List Nat) : List Nat → State → State × List Nat
  | [], s => (s, [])
  | j :: t, s =>
    let c := s.me
    if c.deferCount < 4096 then
      let s1 := s.deferWrite (l.getD j 0) j e.code ((c.deferHead + c.deferCount) % 4096)
      deferLanes e l t (s1.modMe (fun c => c.setDefer c.deferHead (c.deferCount + 1)))
    else
      let r := deferLanes e l t s
      (r.1, j :: r.2)

/-- VDEFER (R398, R400). -/
def execVdefer (h : WHead) (d : KIdx) (a : VSrc) (b : KIdx) (s : State) : Host.Outcome State Fault Refusal :=
  runWord h.g (do
    let c ← getMe
    lowest [deferCheck, do consume 0xFF (Lame.max (← vSrcLame a) (c.kreg b).lame), checkVSrc a]
    let va ← vSrc a
    consume 0xFF (Lame.max va.lame (c.kreg b).lame)
    let e := c.vt.etype
    let js := (List.range e.lanes).filter (maskBit (c.kreg b).val)
    deferOrder ((List.range (Nat.min js.length (4096 - c.deferCount))).map (c.deferCount + ·))
    modMe (fun c => c.setDefer c.deferHead c.deferCount)
    let s ← getS
    let r := deferLanes e (lanes e.width va.val) js s
    modS (fun _ => r.1)
    land 6 [.k d ⟨maskOf 256 (fun j => r.2.contains j), 0⟩]) s

/-- The c oldest records of the deferral queue: their values, and whether one lies in a poisoned granule (R399). -/
def State.deferRead (s : State) (n : Nat) : List Nat × Bool :=
  let c := s.me
  let at_ := fun i => c.scratch (c.deferBase + 16 * ((c.deferHead + i) % 4096))
  ((List.range n).map (fun i => leNat (s.mem.read (at_ i) 4)), (List.range n).any (fun i => s.mem.poisoned (at_ i) 16))

/-- VDRAIN (R399, R400). A read of a poisoned record delivers zero (R298). -/
def execVdrain (h : WHead) (d : VDst) (b : KIdx) (s : State) : Host.Outcome State Fault Refusal :=
  runWord h.g (do
    let s ← getS
    let c := s.me
    let e := c.vt.etype
    let n := Nat.min c.deferCount e.lanes
    let r := s.deferRead n
    lowest [deferCheck, (match d with
      | .push _ => consume 0xFF (if r.2 then 3 else 0)
      | .win _ => pure ()), checkVDst d]
    deferOrder (List.range n)
    let x : Lamed VReg := if r.2 then ⟨zeroV, 3⟩ else ⟨ofLanes e.width (r.1.map (· % 2 ^ e.width)), 0⟩
    let k : RegWrite := .k b ⟨maskOf 256 (fun j => j < n), 0⟩
    modMe (fun c => c.setDefer ((c.deferHead + n) % 4096) (c.deferCount - n))
    landV d 6 0 x [k]) s

/-! ## Lame tests (R401, R402) -/

/-- VLAME (R401). -/
def execVlame (h : WHead) (p : PIdx) (a : VSrc) (s : State) : Host.Outcome State Fault Refusal :=
  runWord h.g (do checkVSrc a; let va ← vSrc a; land 2 [.p p ⟨va.lame != 0, 0⟩]) s

/-- VCLRL (R402). -/
def execVclrl (h : WHead) (d : RIdx) (s : State) : Host.Outcome State Fault Refusal :=
  runWord h.g (do let o ← windowOf d; land 2 [.vclr o]) s

end Sys2Proof.Machine
end

