-- ==== Sys2Proof/Machine/Convert.lean ====
section
/-! DEFINITION. Machine/Convert.lean: the V pipe words of chapter "Conversion and block-scaling instructions". -/

namespace Sys2Proof.Machine

/-- The format of a CVT source (R403, R406). -/
def cvtFmt : CvtSrc → Fmt
  | .fp32 => .fp32 | .bf16 => .bf16 | .fp16 => .fp16 | .e4m3 => .e4m3 | .e5m2 => .e5m2 | .e3m2 => .e3m2 | .e2m3 => .e2m3
  | .e2m1 => .e2m1 | .int8 => .int8 | .int16 => .int16 | .int32 => .int32 | .mxi8 => .mxi8

/-- The format of an MX element (R403). -/
def mxFmt : MxFmt → Fmt
  | .e4m3 => .e4m3 | .e5m2 => .e5m2 | .e3m2 => .e3m2 | .e2m3 => .e2m3 | .e2m1 => .e2m1 | .mxi8 => .mxi8

/-- The register width of a format (R405): every code of 8 bits or fewer has a byte. -/
def Fmt.regBits (f : Fmt) : Nat := Nat.max 8 f.bits

/-- The source lane of destination lane d, when the conversion writes it (R405). -/
def cvtLane (ws wt part d : Nat) : Option Nat :=
  let n := 2048 / Nat.max ws wt
  if wt ≤ ws then (if part * n ≤ d && d < part * n + n then some (d - part * n) else none)
  else if d < n then some (part * n + d) else none

/-- A conversion to a format (R405 to R409), latency 5. -/
def vConvert (target : Fmt) (d : VDst) (a : VSrc) (cc : CvtCtl) : W Unit := do
  let c ← getMe
  let t := c.vt
  let m := c.kreg t.mask
  checkV d [a] m.lame
  let va ← vSrc a
  let vd ← oldD d
  let src := cvtFmt cc.src
  let wt := target.regBits
  let la := lanes src.regBits va.val
  let ld := lanes wt vd.val
  let pick := fun j => if maskBit m.val j then cvtLane src.regBits wt cc.part.toNat j else none
  let js := List.range (2048 / wt)
  let rs := js.map (fun j => match pick j with
    | some i => roundTo target t.rm t.sat (c.draw j 0) (decode src (la.getD i 0))
    | none => (ld.getD j 0, 0))
  let written := js.filter (fun j => (pick j).isSome)
  modMe (fun c => c.advance (if t.rm == .sr then written else []))
  let dLame := if written.length == js.length then 0 else vd.lame
  landV d 5 (unionFl (rs.map (·.2))) ⟨ofLanes wt (rs.map (·.1)), lameOf [va.lame, m.lame, dLame]⟩

/-- CVTF32 (R405). -/
def execCvtf32 (h : WHead) (d : VDst) (a : VSrc) (c : CvtCtl) (s : State) : Host.Outcome State Fault Refusal := runWord h.g (vConvert .fp32 d a c) s
/-- CVTBF16 (R405). -/
def execCvtbf16 (h : WHead) (d : VDst) (a : VSrc) (c : CvtCtl) (s : State) : Host.Outcome State Fault Refusal := runWord h.g (vConvert .bf16 d a c) s
/-- CVTF16 (R405). -/
def execCvtf16 (h : WHead) (d : VDst) (a : VSrc) (c : CvtCtl) (s : State) : Host.Outcome State Fault Refusal := runWord h.g (vConvert .fp16 d a c) s
/-- CVTE4M3 (R405). -/
def execCvte4m3 (h : WHead) (d : VDst) (a : VSrc) (c : CvtCtl) (s : State) : Host.Outcome State Fault Refusal := runWord h.g (vConvert .e4m3 d a c) s
/-- CVTE5M2 (R405). -/
def execCvte5m2 (h : WHead) (d : VDst) (a : VSrc) (c : CvtCtl) (s : State) : Host.Outcome State Fault Refusal := runWord h.g (vConvert .e5m2 d a c) s
/-- CVTE3M2 (R405). -/
def execCvte3m2 (h : WHead) (d : VDst) (a : VSrc) (c : CvtCtl) (s : State) : Host.Outcome State Fault Refusal := runWord h.g (vConvert .e3m2 d a c) s
/-- CVTE2M3 (R405). -/
def execCvte2m3 (h : WHead) (d : VDst) (a : VSrc) (c : CvtCtl) (s : State) : Host.Outcome State Fault Refusal := runWord h.g (vConvert .e2m3 d a c) s
/-- CVTE2M1 (R405). -/
def execCvte2m1 (h : WHead) (d : VDst) (a : VSrc) (c : CvtCtl) (s : State) : Host.Outcome State Fault Refusal := runWord h.g (vConvert .e2m1 d a c) s
/-- CVTI32 (R405). -/
def execCvti32 (h : WHead) (d : VDst) (a : VSrc) (c : CvtCtl) (s : State) : Host.Outcome State Fault Refusal := runWord h.g (vConvert .int32 d a c) s
/-- CVTI8 (R405). -/
def execCvti8 (h : WHead) (d : VDst) (a : VSrc) (c : CvtCtl) (s : State) : Host.Outcome State Fault Refusal := runWord h.g (vConvert .int8 d a c) s

/-- The rounding mode of an MXQ or MXDQ: bit RNE of its control field stands in place of VTYPE.RM (R403). -/
def mxRm (t : VType) (c : MxCtl) : Rm := if c.rne then .rne else t.rm

/-- One quantised granule: its 32 element codes, its scale, its flags, and the elements that draw (R277, R410). -/
structure MxBlock where
  codes : List Nat
  scale : Nat
  flags : VFl
  draws : List Nat
  deriving DecidableEq, Repr

/-- Block i of the lanes of A quantised into granule g (R410). -/
def mxBlock (t : VType) (m : Mask) (f : Fmt) (rm : Rm) (dr : Nat → Nat) (la : List Nat) (i g : Nat) : MxBlock :=
  let on := fun e => maskBit m (32 * i + e)
  let x := fun e => if on e then decode t.etype.fmt (la.getD (32 * i + e) 0) else .fin false 0 0
  let k := mxScale ((List.range 32).map x) f
  if k = 0xFF then { codes := List.replicate 32 0, scale := 0xFF, flags := fNANB, draws := [] }
  else
    let rs := (List.range 32).map (fun e => if on e then mxElement f k rm t.sat (dr (32 * g + e)) (x e) else (0, 0))
    { codes := rs.map (·.1), scale := k, flags := unionFl (rs.map (·.2)),
      draws := if rm == .sr then ((List.range 32).filter on).map (fun e => 32 * g + e) else [] }

/-- MXQ, latency 7 (R410). -/
def vQuantise (d : VDst) (a : VSrc) (cc : MxCtl) : W Unit := do
  let c ← getMe
  let t := c.vt
  let m := c.kreg t.mask
  checkV d [a] m.lame
  let va ← vSrc a
  let vd ← oldD d
  let n := t.etype.lanes / 32
  let p := cc.part.toNat % (8 / n)
  let la := lanes t.etype.width va.val
  let ld := lanes 8 vd.val
  let pick := fun g =>
    if p * n ≤ g && g < p * n + n && (List.range 32).any (fun e => maskBit m.val (32 * (g - p * n) + e))
    then some (mxBlock t m.val (mxFmt cc.fmt) (mxRm t cc) (fun j => c.draw j 0) la (g - p * n) g) else none
  let gs := (List.range 8).map pick
  let bytes := (List.range 8).flatMap (fun g => match gs.getD g none with
    | some b => b.codes
    | none => (List.range 32).map (fun e => ld.getD (32 * g + e) 0))
  let scales := (List.range 8).map (fun g => match gs.getD g none with
    | some b => b.scale
    | none => vScale vd.val g)
  let blocks := gs.filterMap id
  modMe (fun c => c.advance (blocks.flatMap (·.draws)))
  let dLame := if blocks.length = 8 then 0 else vd.lame
  landV d 7 (unionFl (blocks.map (·.flags))) ⟨vMake (packNat 8 bytes) scales, lameOf [va.lame, m.lame, dLame]⟩

/-- MXQ (R410). -/
def execMxq (h : WHead) (d : VDst) (a : VSrc) (c : MxCtl) (s : State) : Host.Outcome State Fault Refusal := runWord h.g (vQuantise d a c) s

/-- MXDQ, latency 5 (R411). -/
def vDequantise (d : VDst) (a : VSrc) (cc : MxCtl) : W Unit := do
  let c ← getMe
  let t := c.vt
  let m := c.kreg t.mask
  checkV d [a] m.lame
  let va ← vSrc a
  let vd ← oldD d
  let n := t.etype.lanes
  let p := cc.part.toNat % (8 / (n / 32))
  let la := lanes 8 va.val
  let lane := fun j =>
    let g := p * (n / 32) + j / 32
    let k := vScale va.val g
    if k = 0xFF then .nan false
    else (decode (mxFmt cc.fmt) (la.getD (32 * g + j % 32) 0)).scale ((k : Int) - 127)
  let ld := lanes t.etype.width vd.val
  let rs := (List.range n).map (fun j =>
    if maskBit m.val j then roundTo t.etype.fmt (mxRm t cc) t.sat (c.draw j 0) (lane j) else (ld.getD j 0, 0))
  modMe (fun c => c.advance (if mxRm t cc == .sr then (List.range n).filter (maskBit m.val) else []))
  let dLame := if maskFull m.val n then 0 else vd.lame
  landV d 5 (unionFl (rs.map (·.2))) ⟨ofLanes t.etype.width (rs.map (·.1)), lameOf [va.lame, m.lame, dLame]⟩

/-- MXDQ (R411). -/
def execMxdq (h : WHead) (d : VDst) (a : VSrc) (c : MxCtl) (s : State) : Host.Outcome State Fault Refusal := runWord h.g (vDequantise d a c) s

/-- MXGETS (R412). -/
def execMxgets (h : WHead) (d : VDst) (a : VSrc) (s : State) : Host.Outcome State Fault Refusal :=
  runWord h.g (do
    checkV d [a] 0
    let e := (← getMe).vt.etype
    let va ← vSrc a
    landV d 3 0 ⟨ofLanes e.width (vScales va.val), va.lame⟩) s

/-- MXSETS (R412). -/
def execMxsets (h : WHead) (d : RIdx) (a : VSrc) (s : State) : Host.Outcome State Fault Refusal :=
  runWord h.g (do
    checkV (.win d) [a] 0
    let e := (← getMe).vt.etype
    let va ← vSrc a
    let vd ← wSrc d
    landV (.win d) 3 0 ⟨vMake (vElem vd.val) (((lanes e.width va.val).take 8).map (· % 256)), Lame.max va.lame vd.lame⟩) s

/-- A lane of VRAND from a draw (R413). -/
def randLane (unif : Bool) (e : EType) (d : Nat) : Nat :=
  match e with
  | .fp32 => if unif then (roundTo .fp32 .rne false 0 (.fin false (d / 2 ^ 8) (-24))).1 else d
  | .bf16 => if unif then (roundTo .bf16 .rne false 0 (.fin false (d / 2 ^ 24) (-8))).1 else d / 2 ^ 16
  | .fp16 => if unif then (roundTo .fp16 .rne false 0 (.fin false (d / 2 ^ 21) (-11))).1 else d / 2 ^ 16
  | .int32 => d
  | .int16 => d / 2 ^ 16
  | .int8 => d / 2 ^ 24

/-- VRAND: SROUND, latency 5; it draws whatever VTYPE.RM holds (R413). -/
def execVrand (h : WHead) (d : VDst) (unif : Bool) (s : State) : Host.Outcome State Fault Refusal :=
  runWord h.g (do
    needFeature 3
    let c ← getMe
    let t := c.vt
    let m := c.kreg t.mask
    checkV d [] m.lame
    let vd ← oldD d
    let n := t.etype.lanes
    let ld := lanes t.etype.width vd.val
    let rs := (List.range n).map (fun j => if maskBit m.val j then randLane unif t.etype (c.draw j 0) else ld.getD j 0)
    modMe (fun c => c.advance ((List.range n).filter (maskBit m.val)))
    landV d 5 0 ⟨ofLanes t.etype.width rs, Lame.max m.lame (if maskFull m.val n then 0 else vd.lame)⟩) s

end Sys2Proof.Machine
end

