-- ==== Sys2Proof/Machine/Frames.lean ====
section
/-! DEFINITION. Machine/Frames.lean: frames that arrive on the scale-out ports, their acknowledgement and retransmission, the checkpoint
engine, and the UCIe modules' credits, NAKs and retraining (R45 to R54, R58 to R62). -/

namespace Sys2Proof.Machine

/-! ## Arrival (R49, R50, R53) -/

/-- Bytes of a frame on the wire: two addresses and the EtherType, the transport header, the data, and the FCS (R48, R49). -/
def frameBytes (f : Frame) : Nat := 14 + 32 + f.data.length + 4
/-- The longest MAC frame that a port accepts (R48). -/
def maxFrame : Nat := 9216

/-- A frame that R49 drops: a bad FCS, another version, a type of 10 or more, or a reserved bit. -/
def badFrame (f : Frame) : Bool :=
  !f.fcsOk || f.ver != 1 || 10 ≤ f.type.toNat || f.resv != 0 || bits f.addr 63 45 != 0 || f.attr.toNat / 2 ^ 11 != 0 ||
  64 ≤ f.src.toNat || 64 ≤ f.dst.toNat || 3 ≤ f.cls.toNat

/-- The frames that a cumulative acknowledgement covers leave a stream: those whose number comes before it. -/
def Stream.acked (st : Stream) (ackn : Word) (now : Nat) : Stream :=
  let rest := st.unacked.filter (fun f => 2 ^ 31 ≤ (ackn - f.seq - 1).toNat)
  if rest.length = st.unacked.length then st
  else { st with unacked := rest, firsts := st.firsts.drop (st.unacked.length - rest.length), tries := 0, sentAt := now }

/-- An ACK of a stream leaves on its port, or that of the quarter of the port which it answers (R50). -/
def State.sendAck (s : State) (p dst cls : Nat) : State :=
  let st := s.streams.getD (streamKey dst cls) {}
  let f := { mkFrame 6 0 0 0 0 [] with cls := BitVec.ofNat 8 cls, src := BitVec.ofNat 8 s.myMod, dst := BitVec.ofNat 8 dst,
                                         seq := st.txSeq, ackn := st.rxSeq }
  match s.streamPort (st.port.getD (homePort (p / 4) dst)) with
  | some p => s.sendOut p f
  | none => s

/-- A frame at a port: not accepted, or not of this transport (R48, R49; DEDUCED, log entry 112); dropped (R49, R52); or taken: its sender
is reachable, its acknowledgement is noted, and one that is next in its stream is acted on, once (R50, R53). -/
def State.frameIn (s : State) (p : Nat) (f : Frame) (act : State → State) : State :=
  if !s.portUp p || 16 ≤ p || maxFrame < frameBytes f || f.etype != (s.reg .soetype).setWidth 16 then s
  else if badFrame f then s.dropFrame p
  else if !s.domainOn || f.dst.toNat != s.myMod then s
  else
    let k := streamKey f.src.toNat f.cls.toNat
    let s1 := s.gainReach f.src.toNat
    let st := (s1.streams.getD k {}).acked f.ackn s.clock
    let s2 : State := { s1 with streams := s1.streams.put k st }
    if f.type.toNat = 6 then s2
    else if f.seq ≠ st.rxSeq then s2.sendAck p f.src.toNat f.cls.toNat
    else act (({ s2 with streams := s2.streams.put k { st with rxSeq := st.rxSeq + 1 } } : State).sendAck p f.src.toNat f.cls.toNat)

/-- A frame of a type at a port; a malformed one is of no type. -/
def State.typed (s : State) (p : Nat) (f : Frame) (type : Nat) (act : State → State) : State :=
  if f.type.toNat = type || 10 ≤ f.type.toNat then s.frameIn p f act else s

/-! ## Requests of other modules (R54, R64) -/

/-- The first offset of the register window of a module (R64). -/
def windowBase : Nat := 0x7FFC000000

/-- The quarter that answers a frame: that of its home column; the register window answers from Q0 (DEDUCED, log entry 112). -/
def frQuarter (f : Frame) : Nat := if windowBase ≤ bits f.addr 38 0 then 0 else stallQuarter (homeStall (bits f.addr 38 0))

/-- A response to a frame: same TAG, class 1. -/
def State.respond (s : State) (f : Frame) (type : Nat) (data : List Byte) (poison : Bool) : State :=
  s.sendFrame (frQuarter f) f.src.toNat 1 (mkFrame type data.length f.tag.toNat f.addr.toNat (frameAttr 0 0 0 poison) data)

/-- The offset that a frame names in its module. -/
def frOff (f : Frame) : Nat := bits f.addr 38 0
/-- ATTR poison. -/
def frPoison (f : Frame) : Bool := f.attr.getLsbD 10

/-- The page of a 64 KiB page's offset with its CRC-32C (R49). -/
def State.pageCrc (s : State) (o : Nat) : Word := crc32c (s.mem.read (o / 65536 * 65536) 65536)

/-- A class-2 READ is answered with a piece; the last piece of a page carries the page's CRC-32C (R61). -/
def State.serveCkRead (s : State) (f : Frame) : State :=
  let o := (frOff f) / 4096 * 4096
  if dramBytes < o + 4096 then s
  else
    let last := o % 65536 = 0xF000
    s.sendFrame (stallQuarter (homeStall o)) f.src.toNat 2
      (mkFrame 8 4096 f.tag.toNat f.addr.toNat (frameAttr 0 0 0 (s.mem.poisoned o 4096)) (s.mem.read o 4096)
        (if last then s.pageCrc o else 0))

/-- A READ: from DRAM, or from the register window, which only frames of class 0 reach (R54, R64). A frame carries at most 4,096 bytes, and
a READ of more is answered with poison alone (R48, R49; DEDUCED, log entry 112). -/
def State.serveRead (s : State) (f : Frame) : State :=
  let n := f.len.toNat
  let zero := List.replicate n (0 : Byte)
  if 4096 < n then s.respond f 1 [] true
  else if windowBase ≤ (frOff f) then
    let o := (frOff f) - windowBase
    if bar0Ok o n && f.cls == 0 then
      let v := s.bar0Read (.peer (f.src.setWidth 6)) (o / 8 * 8)
      s.respond f 1 (((leBytes 8 v.toNat).drop (o % 8)).take n) false
    else s.badAccess.respond f 1 zero true
  else if dramBytes < (frOff f) + n then s.respond f 1 zero true
  else if s.mem.poisoned (frOff f) n then s.respond f 1 zero true
  else s.respond f 1 (s.mem.read (frOff f) n) false

/-- A WRITE: a store at its home column, or a write of the register window, which only frames of class 0 reach (R54, R64); WDONE follows. -/
def State.serveWrite (s : State) (f : Frame) : State :=
  if windowBase ≤ (frOff f) then
    if f.cls != 0 then s.badAccess.respond f 3 [] true
    else (s.registerWrite (.peer (f.src.setWidth 6)) ((frOff f) - windowBase) f.data.length (BitVec.ofNat 64 (leNat f.data))).respond f 3 [] false
  else if dramBytes < (frOff f) + f.data.length then s.respond f 3 [] true
  else (s.deviceWrite (frOff f) f.data (frPoison f)).respond f 3 [] false

/-- An ATOMIC at the atomic unit of its home column (R54, R254): the old value, or poison. A restore does not perform it. -/
def State.serveAtomic (s : State) (f : Frame) : State :=
  let code := unwireCode (f.attr.toNat / 64 % 16)
  let n := if code = 7 then f.data.length / 2 else f.data.length
  if dramBytes < (frOff f) + n || s.mem.poisoned (frOff f) n then s.respond f 5 (List.replicate n 0) true
  else
    match s.ckWrite (frOff f) n with
    | none => s.ckRefuse.respond f 5 (List.replicate n 0) true
    | some t =>
      let r := t.atomicAt (frOff f) n code (leNat (f.data.take n)) (leNat (f.data.drop n))
      r.1.respond f 5 (leBytes n r.2.val) false

/-! ## Responses of other modules (R54) -/

/-- The request that a response answers. -/
def State.answered (s : State) (f : Frame) (kind : ReqKind) : Option Outstanding :=
  s.outstanding.find? (fun o => o.dst == f.src.toNat && o.tag == f.tag.toNat && (o.kind == kind || (kind == .atomic && o.kind == .write)))

/-- RDATA: the line of a load; with poison it is zero and poisoned. -/
def State.takeData (s : State) (f : Frame) : State :=
  match s.answered f .read with
  | none => s
  | some o => if (frPoison f) then s.answer o (List.replicate 64 0) 15 else s.answer o (f.data ++ List.replicate (64 - f.data.length) 0) 0

/-- WDONE: the store is performed. -/
def State.takeDone (s : State) (f : Frame) : State :=
  match s.answered f .write with
  | none => s
  | some o => s.answer o [] 0

/-- ATOMRSP: the old value; the element addition of a tensor store that met poison is noted in the status (R254). -/
def State.takeOld (s : State) (f : Frame) : State :=
  match s.answered f .atomic with
  | none => s
  | some o =>
    let t := s.answer o f.data (if (frPoison f) then 15 else 0)
    if (frPoison f) && o.kind == .write then { t with ctxs := t.ctxs.upd o.key Ctx.noteUe } else t

/-! ## The checkpoint engine (R60 to R62) -/

/-- Pieces of 4,096 bytes of a page. -/
def ckPieces : Nat := 16

/-- The domain address of a byte of the checkpoint at the destination: BASE plus its place in the order of R60. -/
def State.ckAddr (s : State) (o : Nat) : Nat := s.ckMod * 2 ^ 39 + (s.ckBase + o) % 2 ^ 39

/-- The port of a frame of the engine: that of its quarter, or the next that is up and that CKPTCTL names (R50, R58). -/
def State.ckPort (s : State) (q : Nat) : Nat :=
  let pin := homePort q s.ckMod
  (((List.range 16).map (fun i => (pin + i) % 16)).find? (fun p => s.ckPorts.contains p)).getD pin

/-- A frame of the engine: on the stream of class 2 (R50, R58). -/
def State.sendCk (s : State) (q : Nat) (f : Frame) : State := s.sendFrom (s.ckPort q) s.ckMod 2 f

/-- The pages of a save go out: sixteen CKDATA frames, the last with the page's CRC-32C (R49, R60). -/
def State.ckSend (s : State) (i : Nat) : State :=
  let o := ckOffset i
  let q := stallQuarter (homeStall o)
  let s1 := (List.range ckPieces).foldl (fun s j =>
    s.sendCk q (mkFrame 8 4096 (i % 65536) (s.ckAddr (65536 * i + 4096 * j)) (frameAttr 0 0 0 (s.mem.poisoned (o + 4096 * j) 4096))
      (s.mem.read (o + 4096 * j) 4096) (if j = 15 then s.pageCrc o else 0))) s
  { s1 with ckpt := { s1.ckpt with pending := s1.ckpt.pending ++ [i] } }

/-- The quarter of a piece of a restore. -/
def pieceQuarter (piece : Nat) : Nat := stallQuarter (homeStall (ckOffset (piece / 16)))

/-- A READ for a piece of a restore (R61). -/
def State.ckAsk (s : State) (piece : Nat) : State :=
  let q := pieceQuarter piece
  let s1 := s.sendCk q (mkFrame 0 0 (piece % 65536) (s.ckAddr (4096 * piece)) 0 [])
  { s1 with ckpt := { s1.ckpt with pending := s1.ckpt.pending ++ [piece], ports := s1.ckpt.ports.put piece (s.ckPort q) } }

/-- The port of a piece has room for one more request: at most 64 are unanswered on each (R61). -/
def State.ckRoom (s : State) (piece : Nat) : Bool :=
  s.ckpt.pending.countP (fun x => s.ckpt.ports.get? x == some (s.ckPort (pieceQuarter piece))) < 64

/-- Pages of a save that may await their answer at once (the spec names no bound). -/
def ckWindow : Nat := 64

/-- A save has sent everything of a pass and everything is answered: a recopy pass of what is dirty, or the end (R60). -/
def State.ckPassEnd (s : State) : State :=
  let c := s.ckpt
  if c.dirty.isEmpty then { s.setCk 3 with ckpt := {} }
  else if c.pass < 2 then
    let s1 := (s.setField .ckptstat 4 3 (c.pass + 1)).setField .ckptstat 2 0 2
    { s1 with ckpt := { c with pass := c.pass + 1, todo := c.dirty, dirty := [] } }
  else { (s.setField .ckptstat 47 24 c.dirty.length).setCk 4 with ckpt := {} }

/-- The engine moves: the next page of a save, or the next requests of a restore (R60, R61); it stops without a port (R62). -/
def State.ckTick (s : State) : State :=
  if !s.ckBusy then s
  else if s.ckPorts.isEmpty then s.ckFail
  else
    let c := s.ckpt
    if c.restore then
      match c.todo with
        | p :: t => if s.ckRoom p then ({ s with ckpt := { c with todo := t } } : State).ckAsk p else s
        | [] =>
          if c.next < ckPages * 16 then if !s.ckRoom c.next then s else ({ s with ckpt := { c with next := c.next + 1 } } : State).ckAsk c.next
          else if c.pending.isEmpty then { s.setCk 3 with ckpt := {} } else s
    else if ckWindow ≤ c.pending.length then s
    else match c.todo with
      | i :: t => if s.homeHeld (ckOffset i) then s else ({ s with ckpt := { c with todo := t } } : State).ckSend i
      | [] =>
        if c.pass = 0 ∧ c.next < ckPages then
          if s.homeHeld (ckOffset c.next) then s else ({ s with ckpt := { c with next := c.next + 1 } } : State).ckSend c.next
        else if c.pending.isEmpty then s.ckPassEnd else s

/-- The page of a save that an answer names. -/
def State.ckNamed (s : State) (f : Frame) : Nat := (((frOff f) + 2 ^ 39 - s.ckBase) % 2 ^ 39) / 65536

/-- CKACK: the destination holds a page (R60). -/
def State.ckAcked (s : State) (f : Frame) : State :=
  let i := s.ckNamed f
  if s.ckBusy && !s.ckpt.restore && f.src.toNat == s.ckMod then
    { s with ckpt := { s.ckpt with pending := s.ckpt.pending.erase i, tries := s.ckpt.tries.del i } }
  else s

/-- One rejection more of a page; the third ends the checkpoint (R62). None while it goes on. -/
def State.ckReject (s : State) (i : Nat) : State × Bool :=
  let n := s.ckpt.tries.getD i 0 + 1
  if 3 ≤ n then (s.ckFail, false) else ({ s with ckpt := { s.ckpt with tries := s.ckpt.tries.put i n } }, true)

/-- NAK: the destination rejects a page's CRC, and the page is sent again (R61, R62). -/
def State.ckNaked (s : State) (f : Frame) : State :=
  let i := s.ckNamed f
  if s.ckBusy && !s.ckpt.restore && f.src.toNat == s.ckMod && s.ckpt.pending.contains i then
    match s.ckReject i with
    | (t, false) => t
    | (t, true) => { t with ckpt := { t.ckpt with pending := t.ckpt.pending.erase i, todo := i :: t.ckpt.todo } }
  else s

/-- A piece of a restore: written into its column; when its page is whole the page's CRC-32C decides (R61). -/
def State.ckPiece (s : State) (piece : Nat) (f : Frame) : State :=
  let i := piece / 16
  let o := ckOffset i
  let m := s.mem.write (o + piece % 16 * 4096) f.data
  let m1 := if (frPoison f) then m.taint (o + piece % 16 * 4096) 4096 else m
  let old := s.ckpt.arrived.getD i 0
  let bits' := Nat.lor (old % 65536) (2 ^ (piece % 16))
  let crc := if piece % 16 = 15 then f.pcrc.toNat else old / 65536
  let c : Ckpt := { s.ckpt with pending := s.ckpt.pending.erase piece, ports := s.ckpt.ports.del piece, arrived := s.ckpt.arrived.put i (bits' + 65536 * crc) }
  let s1 : State := { s with mem := m1, ckpt := c }
  if bits' ≠ 65535 then s1
  else
    let s2 : State := { s1 with ckpt := { s1.ckpt with arrived := s1.ckpt.arrived.del i } }
    if (s2.pageCrc o).toNat = crc then
      ({ s2 with ckpt := { s2.ckpt with tries := s2.ckpt.tries.del i } } : State).sendCk (stallQuarter (homeStall o))
        (mkFrame 9 0 0 (s2.ckAddr (65536 * i)) 0 [])
    else
      match s2.ckReject i with
      | (t, false) => t
      | (t, true) => { t with ckpt := { t.ckpt with todo := (List.range 16).map (fun j => 16 * i + j) ++ t.ckpt.todo } }

/-- A piece that a restore has asked for and a CKDATA brings, by its number. -/
def State.ckAsked (s : State) (f : Frame) : Option Nat :=
  if f.src.toNat == s.ckMod && f.data.length == 4096 then s.ckpt.pending.find? (fun x => x % 65536 == f.tag.toNat) else none

/-- The DRAM offset at which a CKDATA is written; none for a stray one, which comes unasked during a restore or names another module in ADDR
(R61). -/
def State.ckPlace (s : State) (f : Frame) : Option Nat :=
  if s.ckBusy && s.ckpt.restore then (s.ckAsked f).map (fun x => ckOffset (x / 16) + x % 16 * 4096)
  else if bits f.addr 44 39 = s.myMod then some (frOff f) else none

/-- CKDATA written at its home column: a piece of a restore; or one of a save for which this module serves as the safe tier, where the last
frame of a page brings CKACK or NAK (R61). -/
def State.storeCk (s : State) (f : Frame) : State :=
  if s.ckBusy && s.ckpt.restore then
    match s.ckAsked f with
    | some piece => s.ckPiece piece f
    | none => s
  else if dramBytes < (frOff f) + f.data.length then s
  else
    let s1 := s.deviceWrite (frOff f) f.data (frPoison f)
    if (frOff f) / 4096 % 16 ≠ 15 then s1
    else
      let page := (frOff f) / 65536 * 65536
      s1.sendFrame (stallQuarter (homeStall page)) f.src.toNat 2
        (mkFrame (if s1.pageCrc page = f.pcrc then 9 else 7) 0 f.tag.toNat (f.addr.toNat / 65536 * 65536) 0 [])

/-- CKDATA at a port: a stray one is dropped and counted (R61); another waits while its home column holds (R27, R158), and is written. -/
def State.takeCk (s : State) (p : Nat) (f : Frame) : State :=
  match s.ckPlace f with
  | none => s.dropFrame p
  | some o => if o < dramBytes && s.homeHeld o then s.holdDev (.frame f) else s.storeCk f

/-! ## Requests at their home columns (R54) -/

/-- A request is performed at its home column (R54). -/
def State.serve (s : State) (f : Frame) : State :=
  match f.type.toNat with
  | 0 => if f.cls = 2 then s.serveCkRead f else s.serveRead f
  | 2 => s.serveWrite f
  | 4 => s.serveAtomic f
  | 8 => if (s.ckPlace f).isSome then s.storeCk f else s
  | _ => s

/-- A request that finds its home column holding waits there (R27, R158). -/
def State.request' (s : State) (f : Frame) : State :=
  if (frOff f) < dramBytes && s.homeHeld (frOff f) then s.holdDev (.frame f) else s.serve f

/-- A held request is performed once its column no longer holds it; a step of an engine that met the column runs again (R28). -/
def State.devPerform (s : State) (id : Nat) : State :=
  match s.devReqs.get? id with
  | none => s
  | some r =>
    let t : State := { s with devReqs := s.devReqs.del id }
    let stay : State := { s with homeWait := s.homeWait ++ [(devKey, id)] }
    match r with
    | .frame f => if s.homeHeld (if f.type.toNat = 8 then (s.ckPlace f).getD 0 else frOff f) then stay else t.serve f
    | .mem m off n data =>
      let len := (data.map List.length).getD n
      if s.homeHeld off || s.homeHeld (off + len - 1) then stay
      else match data with
        | none => t.memRead m off n
        | some b => t.deviceWrite off b false
    | .back key pk b poison => if s.homeHeld pk then stay else t.homeWrite 0 pk b poison 0 key 0
    | .step d => { t with agenda := d :: t.agenda }

/-! ## Retransmission (R50) -/

/-- Cycles of 3 µs, and of 16 µs. -/
def resendAfter : Nat := 2100
def declareAfter : Nat := 11200

/-- The oldest unacknowledged frame of a stream was first sent 16 µs ago. -/
def Stream.overdue (st : Stream) (now : Nat) : Bool := (st.firsts.head?).any (fun t => t + declareAfter ≤ now)
/-- A stream has something to send again, or its destination is to be declared unreachable. -/
def Stream.timedOut (st : Stream) (now : Nat) : Bool := !st.unacked.isEmpty && (st.sentAt + resendAfter ≤ now || st.overdue now)

/-- RETRANSMIT_TIMEOUT: 3 µs after the last transmission every unacknowledged frame is sent again; after four times, or 16 µs after its first
transmission, the module is unreachable. -/
def State.retransmit (s : State) (dst cls : Nat) : State :=
  let k := streamKey dst cls
  match s.streams.get? k with
  | none => s
  | some st =>
    if !st.timedOut s.clock then s
    else if 4 ≤ st.tries || st.overdue s.clock then s.unreachable dst
    else ({ s with streams := s.streams.put k { st with tries := st.tries + 1, sentAt := s.clock } } : State).resend k

/-- The streams whose frames have waited 3 µs. -/
def State.retransmits (s : State) : State :=
  s.streams.foldl (fun s x => s.retransmit (x.1 / 4) (x.1 % 4)) s

/-! ## UCIe modules (R45, R46, R47) -/

/-- A trace module is of this number: m = 3i on EN and ES (R40). -/
def isTrace (l : Nat) : Bool := xlinkRole (l % linkCount) == 0

/-- XLINK.STATE changed: INTCAUSE.LINK (R88). -/
def State.setLink (s : State) (l n : Nat) : State := (s.setField (.xlink (l % linkCount)) 1 0 n).raiseInt 7

/-- The flits of a direction from a SEQ on are sent again; the repeat takes 16 cycles (R46). -/
def State.resendFlits (s : State) (l : Nat) (seq : Byte) : State :=
  let d := s.linkDir l
  let again := d.replay.dropWhile (fun x => x.1 != seq.toNat)
  if isTrace l then
    again.foldl (fun s x => (s.emit (.linkFlit l x.2.2)).push [.traceFlit l (BitVec.ofNat 1152 x.2.2)]) s
  else again.foldl (fun s x => s.later repeatCycles (.reinFlit x.2.1 (some l) (BitVec.ofNat 512 x.2.2) none)) s

/-- LINK_NAK: NAKS counts it; the sender resends from the failed flit, and the fourth in a row of one SEQ starts retraining (R46, R47). -/
def State.linkNak (s : State) (l : Nat) (seq : Byte) : State :=
  if 2 * linkCount ≤ l ∨ s.linkState l ≠ 1 then s
  else
    let d := s.linkDir l
    let run := if d.nakSeq = seq then d.nakRun + 1 else 1
    let m := Reg.xlink (l % linkCount)
    let s1 := (s.setField m 23 8 (holdAt 0xFFFF (bits (s.reg m) 23 8 + 1))).modLink l (fun d => { d with nakSeq := seq, nakRun := run })
    if run = 4 then (s1.modLink l (fun d => { d with nakRun := 0 })).setLink l 2 else s1.resendFlits l seq

/-- The failing step that a nest reports when its crossing goes down: the last that its head has started. -/
def Gang.stepNow (g : Gang) : Nat :=
  match g.members with
  | m :: _ => m.pass * nestC0 g.cfg + m.step - 1
  | [] => 0

/-- A module goes DOWN: each nest that crosses a trace module ends with NEST_CHECK (R46, R309). -/
def State.linkDown (s : State) (l : Nat) : State :=
  let s1 := s.setLink l 3
  if isTrace l then
    (s1.gangs.filter (fun g => !g.2.ended && traceLink g.2.row == l % linkCount && g.2.members.any (fun m => stallCol m.stall < 32) &&
      g.2.members.any (fun m => 32 ≤ stallCol m.stall))).foldl (fun s g => s.nestCheck g.1 g.2.stepNow) s1
  else s1

/-- RETRAIN_COMPLETE: sending resumes from the NAKed flit, or the module is DOWN (R46). -/
def State.retrained (s : State) (l : Nat) (up : Bool) : State :=
  if 2 * linkCount ≤ l ∨ s.linkState l ≠ 2 then s
  else if up then (s.setLink l 1).resendFlits l (s.linkDir l).nakSeq
  else s.linkDown l

/-- CREDIT_RETURN: the sender may send one flit more, of at most 16 (R45). -/
def State.creditIn (s : State) (l : Nat) : State :=
  if 2 * linkCount ≤ l then s else s.modLink l (fun d => { d with credits := Nat.min 16 (d.credits + 1) })

/-! ## Meanings -/

/-- READ (R54): answered with RDATA, or with CKDATA for class 2. -/
def execRead (port : Nat) (f : Frame) (s : State) : Host.Outcome State Fault Refusal := .next (s.typed port f 0 (fun s => s.request' f))
/-- RDATA (R54). -/
def execRdata (port : Nat) (f : Frame) (s : State) : Host.Outcome State Fault Refusal := .next (s.typed port f 1 (fun s => s.takeData f))
/-- WRITE (R54): answered with WDONE. -/
def execWrite (port : Nat) (f : Frame) (s : State) : Host.Outcome State Fault Refusal := .next (s.typed port f 2 (fun s => s.request' f))
/-- WDONE (R54). -/
def execWdone (port : Nat) (f : Frame) (s : State) : Host.Outcome State Fault Refusal := .next (s.typed port f 3 (fun s => s.takeDone f))
/-- ATOMIC (R54): answered with ATOMRSP. -/
def execAtomic (port : Nat) (f : Frame) (s : State) : Host.Outcome State Fault Refusal := .next (s.typed port f 4 (fun s => s.request' f))
/-- ATOMRSP (R54). -/
def execAtomrsp (port : Nat) (f : Frame) (s : State) : Host.Outcome State Fault Refusal := .next (s.typed port f 5 (fun s => s.takeOld f))
/-- ACK (R50): it carries the acknowledgement alone. -/
def execAck (port : Nat) (f : Frame) (s : State) : Host.Outcome State Fault Refusal := .next (s.typed port f 6 id)
/-- NAK (R61). -/
def execNak (port : Nat) (f : Frame) (s : State) : Host.Outcome State Fault Refusal := .next (s.typed port f 7 (fun s => s.ckNaked f))
/-- CKDATA (R61). -/
def execCkdata (port : Nat) (f : Frame) (s : State) : Host.Outcome State Fault Refusal := .next (s.typed port f 8 (fun s => s.takeCk port f))
/-- CKACK (R60). -/
def execCkack (port : Nat) (f : Frame) (s : State) : Host.Outcome State Fault Refusal := .next (s.typed port f 9 (fun s => s.ckAcked f))
/-- RETRANSMIT_TIMEOUT (R50). -/
def execRetransmitTimeout (dst : BitVec 6) (cls : Nat) (s : State) : Host.Outcome State Fault Refusal := .next (s.retransmit dst.toNat cls)
/-- PORT_LINK_CHANGE (R50): a port that ENABLE does not let train stays down (R51). -/
def execPortLinkChange (port : Nat) (up : Bool) (s : State) : Host.Outcome State Fault Refusal :=
  .next (if up && !bit (s.reg (.soport port)) 1 then s else s.portChange port up)
/-- CREDIT_RETURN (R45). -/
def execCreditReturn (link : Nat) (s : State) : Host.Outcome State Fault Refusal := .next (s.creditIn link)
/-- LINK_NAK (R46). -/
def execLinkNak (link : Nat) (seq : Byte) (s : State) : Host.Outcome State Fault Refusal := .next (s.linkNak link seq)
/-- RETRAIN_COMPLETE (R46). -/
def execRetrainComplete (link : Nat) (up : Bool) (s : State) : Host.Outcome State Fault Refusal := .next (s.retrained link up)

end Sys2Proof.Machine
end

