-- ==== Sys2Proof/Machine/Spdm.lean ====
section
/-! DEFINITION. Machine/Spdm.lean: the SPDM responder (R97 to R100, R103). Message codes and the order of a connection are those of
SPDM 1.3 itself; what a signature or a digest comes to is a free value (DESIGN CHOICE, log entry 8). -/

namespace Sys2Proof.Machine

/-- SHA-384 of a message, and n bytes made with a secret: 0 the slot-0 key, 1 the slot-1 key, 2 the key exchange, 3 a session's HMAC. -/
def hash384 (l : List Byte) : List Byte := (List.range 48).map (Config.digest384 l)
def secretBytes (key n : Nat) (l : List Byte) : List Byte := (List.range n).map (Config.sign key l)

/-- Response codes and error codes of SPDM. -/
def spVersion : Byte := 0x04
def spCapabilities : Byte := 0x61
def spAlgorithms : Byte := 0x63
def spDigests : Byte := 0x01
def spCertificate : Byte := 0x02
def spChallengeAuth : Byte := 0x03
def spMeasurements : Byte := 0x60
def spKeyExchange : Byte := 0x64
def spFinish : Byte := 0x65
def spHeartbeat : Byte := 0x68
def spKeyUpdate : Byte := 0x69
def spEndSession : Byte := 0x6C
def spVendor : Byte := 0x7E
def erInvalid : Byte := 0x01
def erUnexpected : Byte := 0x04
def erDecrypt : Byte := 0x06
def erSessions : Byte := 0x0A

/-- A connection, and the state with one changed. -/
def State.conn (s : State) (c : Nat) : Conn := s.conns.getD c {}
def State.modConn (s : State) (c : Nat) (f : Conn → Conn) : State := { s with conns := s.conns.put c (f (s.conn c)) }

/-- A response with its content, which joins the transcript of its connection after the request. -/
def State.reply (s : State) (c : Nat) (req : List Byte) (code : Byte) (data : List Byte) : State :=
  (s.modConn c (fun x => { x with transcript := x.transcript ++ req ++ (code :: data) })).emit (.spdm c code data)
/-- ERROR. -/
def State.spErr (s : State) (c : Nat) (code : Byte) : State := s.emit (.spdmError c code)

/-- The negotiation of a connection is complete. -/
def Conn.ready (x : Conn) : Bool := x.version && x.caps && x.algs

/-- A request that needs a negotiated connection. -/
def State.whenReady (s : State) (c : Nat) (f : State → State) : State := if (s.conn c).ready then f s else s.spErr c erUnexpected

/-- The identity keys and chains are served: in PROVISIONED and DEPLOYED, while the keys exist (R103). -/
def State.slotsPresent (s : State) : Bool := (s.nv.lcs == 1 || s.nv.lcs == 2) && s.nv.idKeys

/-- The longest message (R97). -/
def maxMessage : Nat := 4096

/-- A request of some bytes, when they are no more than a message may have (R97). -/
def State.ifShort (s : State) (c n : Nat) (f : State → State) : State := if maxMessage < n then s.spErr c erInvalid else f s

/-- The master on whose transport a connection runs: by its number modulo 3, the host and the second host over DOE, and the management
controller over MCTP (R97; DESIGN CHOICE, log entry 114). -/
def connMaster (c : Nat) : Master := if c % 3 = 0 then .host else if c % 3 = 1 then .host2 else .bmc

/-- A certificate chain by slot (R97). -/
def State.chain (s : State) (slot : Nat) : Option (List Byte) :=
  if !s.slotsPresent then none else match slot with
    | 0 => some s.nv.chain0
    | 1 => some s.nv.chain1
    | _ => none

/-- An Ed25519 signature of the transcript of a connection: its hash is what R98 asks for afterwards. -/
def State.signTranscript (s : State) (c : Nat) (req data : List Byte) : State × List Byte :=
  let h := hash384 ((s.conn c).transcript ++ req ++ data)
  (s.modConn c (fun x => { x with signed := some h }), secretBytes 0 64 h)

/-- Random bytes of a response. -/
def State.nonce32 (s : State) : State × List Byte :=
  ({ s with fresh := s.fresh + 4 }, (List.range 4).flatMap (fun i => leBytes 8 (Config.entropy (s.fresh + i)).toNat))

/-! ## Negotiation -/

/-- GET_VERSION: a connection begins again; SPDM 1.3. -/
def State.getVersion (s : State) (c : Nat) : State :=
  ({ s with conns := s.conns.put c { version := true }, sessions := s.sessions.filter (fun x => x.2.conn != c) } : State).reply c [0x84]
    spVersion [0x00, 0x13]

/-- The capabilities of R97 as SPDM's flags: CERT, CHAL, MEAS with signature, ENCRYPT, MAC, KEY_EX, HBEAT, KEY_UPD. -/
def capFlags : Nat := 2 ^ 1 + 2 ^ 2 + 2 * 2 ^ 3 + 2 ^ 6 + 2 ^ 7 + 2 ^ 9 + 2 ^ 13 + 2 ^ 14

/-- GET_CAPABILITIES. -/
def State.getCapabilities (s : State) (c : Nat) : State :=
  if (s.conn c).version then (s.modConn c (fun x => { x with caps := true })).reply c [0xE1] spCapabilities (leBytes 4 capFlags ++ leBytes 4 4096)
  else s.spErr c erUnexpected

/-- What the module supports of each kind, as SPDM's bits: Ed25519, SHA-384, secp384r1, AES-256-GCM (R97). -/
def algSupported : List Nat := [0x200, 0x2, 0x10, 0x2]

/-- NEGOTIATE_ALGORITHMS: the offered sets of signature, hash, key exchange and cipher; the first two must meet. -/
def State.negotiate (s : State) (c : Nat) (offered : List Word) : State :=
  if !(s.conn c).version || !(s.conn c).caps then s.spErr c erUnexpected
  else if maxMessage < 4 * offered.length + 4 then s.spErr c erInvalid
  else
    let chosen := algSupported.zipIdx.map (fun a => Nat.land a.1 (offered.getD a.2 0).toNat)
    if chosen.getD 0 0 = 0 ∨ chosen.getD 1 0 = 0 then s.spErr c erInvalid
    else (s.modConn c (fun x => { x with algs := true })).reply c (0xE3 :: offered.flatMap (fun w => leBytes 4 w.toNat)) spAlgorithms
      (chosen.flatMap (fun a => leBytes 4 a))

/-! ## Identity and measurements -/

/-- GET_DIGESTS: the slots that are present, and the digest of each chain. -/
def State.getDigests (s : State) (c : Nat) : State :=
  s.whenReady c (fun s => s.reply c [0x81] spDigests
    (if s.slotsPresent then 3 :: (hash384 s.nv.chain0 ++ hash384 s.nv.chain1) else [0]))

/-- GET_CERTIFICATE: a portion of a chain; a message is at most 4,096 bytes (R97). -/
def State.getCertificate (s : State) (c slot off len : Nat) : State :=
  s.whenReady c (fun s => match s.chain slot with
    | none => s.spErr c erInvalid
    | some b =>
      if b.length < off then s.spErr c erInvalid
      else
        let part := (b.drop off).take (Nat.min len 4088)
        s.reply c ([0x82, BitVec.ofNat 8 slot] ++ leBytes 2 off ++ leBytes 2 len) spCertificate
          ([BitVec.ofNat 8 slot, 0] ++ leBytes 2 part.length ++ leBytes 2 (b.length - off - part.length) ++ part))

/-- CHALLENGE: slot 0 signs with Ed25519; slot 1 serves its chain alone (R97). -/
def State.challenge (s : State) (c slot : Nat) (nonce : BitVec 256) : State :=
  s.whenReady c (fun s =>
    if slot ≠ 0 ∨ !s.slotsPresent then s.spErr c erInvalid
    else
      let req := [0x83, 0] ++ leBytes 32 nonce.toNat
      let (s1, n) := s.nonce32
      let data := hash384 s.nv.chain0 ++ n
      let (s2, sig) := s1.signTranscript c req data
      s2.reply c req spChallengeAuth (data ++ sig))

/-- The RETIRED fields of all 128 COLMAP registers, packed in index order (R100). -/
def State.retiredBytes (s : State) : List Byte :=
  leBytes 544 (packNat 34 ((List.range 128).map (fun r => bits (s.reg (.colmap r)) 33 0)))

/-- A measurement by index (R100). -/
def State.measure (s : State) (i : Nat) : Option (List Byte) :=
  match i with
  | 1 => some (hash384 Config.rom)
  | 2 => some (hash384 s.image)
  | 3 => some [BitVec.ofNat 8 s.nv.lcs, BitVec.ofNat 8 s.nv.svnmin, BitVec.ofNat 8 (bits (s.reg .bootstat) 23 16)]
  | 4 => some (hash384 Config.romKeys)
  | 5 => some s.retiredBytes
  | 6 => some (leBytes 8 (s.reg .hifid).toNat)
  | _ => none

/-- The measurements that a request names: 0 asks how many there are, 255 for all of them, another index for one. -/
def State.measured (s : State) (i : Nat) : Option (List Byte) :=
  if i = 0 then some [6]
  else
    let one := fun (j : Nat) => (s.measure j).map (fun b => BitVec.ofNat 8 j :: (leBytes 2 b.length ++ b))
    if i = 255 then some (6 :: (List.range 6).flatMap (fun j => (one (j + 1)).getD []))
    else (one i).map (fun b => 1 :: b)

/-- GET_MEASUREMENTS (R100). -/
def State.getMeasurements (s : State) (c i : Nat) (sign : Bool) (nonce : BitVec 256) : State :=
  s.whenReady c (fun s => match s.measured i with
    | none => s.spErr c erInvalid
    | some b =>
      if sign && !s.slotsPresent then s.spErr c erInvalid
      else
        let req := [0xE0, BitVec.ofNat 8 i] ++ (if sign then leBytes 32 nonce.toNat else [])
        let (s1, n) := s.nonce32
        if sign then
          let (s2, sig) := s1.signTranscript c req (b ++ n)
          s2.reply c req spMeasurements (b ++ n ++ sig)
        else s1.reply c req spMeasurements (b ++ n))

/-! ## Sessions (R97) -/

/-- The lowest number that no session has. -/
def State.freeSession (s : State) : Option Nat := (List.range 4).find? (fun i => (s.sessions.get? i).isNone)

/-- KEY_EXCHANGE: at most four sessions at once. -/
def State.keyExchange (s : State) (c slot : Nat) (key : List Byte) : State :=
  s.whenReady c (fun s =>
    if slot ≠ 0 ∨ !s.slotsPresent ∨ maxMessage < key.length + 40 then s.spErr c erInvalid
    else match s.freeSession with
      | none => s.spErr c erSessions
      | some i =>
        let req := [0xE4, 0] ++ key
        let (s1, n) := s.nonce32
        let data := BitVec.ofNat 8 i :: (n ++ secretBytes 2 96 (key ++ n))
        let (s2, sig) := s1.signTranscript c req data
        let secret := secretBytes 2 48 (key ++ n ++ [1])
        ({ s2 with sessions := s2.sessions.put i { conn := c, secret := secret } } : State).reply c req spKeyExchange (data ++ sig))

/-- A session of a connection. -/
def State.session (s : State) (c i : Nat) : Option Session := (s.sessions.get? i).filter (fun x => x.conn == c)

/-- FINISH: the HMAC over the transcript under the session's secret opens the session; another ends it. -/
def State.finish (s : State) (c i : Nat) (hmac : List Byte) : State :=
  match s.session c i with
  | none => s.spErr c erUnexpected
  | some x =>
    if x.established then s.spErr c erUnexpected
    else if maxMessage < hmac.length + 4 then s.spErr c erInvalid
    else if hmac = secretBytes 3 48 (x.secret ++ hash384 (s.conn c).transcript) then
      ({ s with sessions := s.sessions.put i { x with established := true } } : State).reply c (0xE5 :: hmac) spFinish []
    else ({ s with sessions := s.sessions.del i } : State).spErr c erDecrypt

/-- A request inside an open session. -/
def State.inSession (s : State) (c i : Nat) (f : Session → State) : State :=
  match s.session c i with
  | some x => if x.established then f x else s.spErr c erUnexpected
  | none => s.spErr c erUnexpected

/-- HEARTBEAT. -/
def State.heartbeat (s : State) (c i : Nat) : State := s.inSession c i (fun _ => s.emit (.spdm c spHeartbeat []))

/-- KEY_UPDATE: 1 updates the requester's key, 2 both, 3 verifies the new one. -/
def State.keyUpdate (s : State) (c i : Nat) (op : Byte) : State :=
  s.inSession c i (fun x =>
    if op = 0 ∨ 3 < op.toNat then s.spErr c erInvalid
    else ({ s with sessions := s.sessions.put i { x with updates := x.updates + (if op = 3 then 0 else 1) } } : State).emit
      (.spdm c spKeyUpdate [op]))

/-- END_SESSION. -/
def State.endSession (s : State) (c i : Nat) : State :=
  s.inSession c i (fun _ => ({ s with sessions := s.sessions.del i } : State).emit (.spdm c spEndSession []))

/-! ## The post-quantum signature (R98) -/

/-- The context string of the ML-DSA-65 signature. -/
def mlContext : List Byte := [0x45, 0x56, 0x45, 0x45, 0x4C, 0x2D, 0x53, 0x50, 0x44, 0x4D]

/-- IDE key management as PCIe has it, inside a session with the owner: QUERY, KEY_PROG, K_SET_GO and K_SET_STOP by their object number, the
sub-stream in bytes 4 to 7, and the key after it (R56, R57, R97; PRESUMED, log entry 115). -/
def State.ideManage (s : State) (c : Nat) (payload : List Byte) : State :=
  let stream := leNat ((payload.drop 4).take 4)
  let answer := fun (s : State) (n : Byte) => s.emit (.spdm c spVendor (0 :: n :: payload.drop 2 |>.take 8))
  if !(s.sessions.any (fun x => x.2.conn == c && x.2.established) && s.isOwner (connMaster c)) then s.spErr c erUnexpected
  else
    match (payload.getD 1 0).toNat with
    | 0 => answer s 1
    | 2 => answer { s with ideKeys := s.ideKeys.put stream (payload.drop 8) } 3
    | 4 => if (s.ideKeys.get? stream).isSome then answer { s with ideOn := setAdd s.ideOn stream } 6 else s.spErr c erInvalid
    | 5 => answer { s with ideOn := s.ideOn.filter (· != stream) } 6
    | _ => s.spErr c erInvalid

/-- VENDOR_DEFINED_REQUEST: byte 0x01 and a digest that is the latest the module signed with Ed25519 on the connection; or IDE key management
(PCI-SIG, protocol 0). -/
def State.vendor (s : State) (c : Nat) (std : BitVec 16) (vendor : Word) (payload : List Byte) : State :=
  s.whenReady c (fun s => s.ifShort c (payload.length + 12) (fun s =>
    if std = 3 ∧ vendor = 1 ∧ payload.head? = some 0 then s.ideManage c payload
    else if std = 5 ∧ vendor = 0x00059E41 ∧ payload.length = 49 ∧ payload.head? = some 1 ∧ (s.conn c).signed = some (payload.drop 1) ∧ s.slotsPresent then
      s.emit (.spdm c spVendor (0x01 :: (leBytes 2 3309 ++ secretBytes 1 3309 (mlContext ++ payload.drop 1))))
    else s.spErr c erInvalid))

/-! ## Meanings -/

/-- GET_VERSION (R97). -/
def execGetVersion (conn : Nat) (s : State) : Host.Outcome State Fault Refusal := .next (s.getVersion conn)
/-- GET_CAPABILITIES (R97). -/
def execGetCapabilities (conn : Nat) (s : State) : Host.Outcome State Fault Refusal := .next (s.getCapabilities conn)
/-- NEGOTIATE_ALGORITHMS (R97). -/
def execNegotiateAlgorithms (conn : Nat) (offered : List (BitVec 32)) (s : State) : Host.Outcome State Fault Refusal :=
  .next (s.negotiate conn offered)
/-- GET_DIGESTS (R97). -/
def execGetDigests (conn : Nat) (s : State) : Host.Outcome State Fault Refusal := .next (s.getDigests conn)
/-- GET_CERTIFICATE (R97). -/
def execGetCertificate (conn slot off len : Nat) (s : State) : Host.Outcome State Fault Refusal := .next (s.getCertificate conn slot off len)
/-- CHALLENGE (R97). -/
def execChallenge (conn slot : Nat) (nonce : BitVec 256) (s : State) : Host.Outcome State Fault Refusal := .next (s.challenge conn slot nonce)
/-- GET_MEASUREMENTS (R100). -/
def execGetMeasurements (conn index : Nat) (signed : Bool) (nonce : BitVec 256) (s : State) : Host.Outcome State Fault Refusal :=
  .next (s.getMeasurements conn index signed nonce)
/-- KEY_EXCHANGE (R97). -/
def execKeyExchange (conn slot : Nat) (data : List Byte) (s : State) : Host.Outcome State Fault Refusal := .next (s.keyExchange conn slot data)
/-- FINISH (R97). -/
def execFinish (conn session : Nat) (hmac : List Byte) (s : State) : Host.Outcome State Fault Refusal := .next (s.finish conn session hmac)
/-- HEARTBEAT (R97). -/
def execHeartbeat (conn session : Nat) (s : State) : Host.Outcome State Fault Refusal := .next (s.heartbeat conn session)
/-- KEY_UPDATE (R97). -/
def execKeyUpdate (conn session : Nat) (op : Byte) (s : State) : Host.Outcome State Fault Refusal := .next (s.keyUpdate conn session op)
/-- END_SESSION (R97). -/
def execEndSession (conn session : Nat) (s : State) : Host.Outcome State Fault Refusal := .next (s.endSession conn session)
/-- VENDOR_DEFINED_REQUEST (R98). -/
def execVendorDefinedRequest (conn : Nat) (std : BitVec 16) (vendor : Word) (payload : List Byte) (s : State) : Host.Outcome State Fault Refusal :=
  .next (s.vendor conn std vendor payload)

end Sys2Proof.Machine
end

