-- ==== Sys2Proof/Machine/Dispatch.lean ====
section
/-! DEFINITION. Machine/Dispatch.lean: one arm per instruction. -/

namespace Sys2Proof.Machine

/-- The meaning of an instruction. -/
def exec (i : Instr) (s : State) : Host.Outcome State Fault Refusal :=
  match i with
  | .powerOnReset => Sys2Proof.Machine.execPowerOnReset s
  | .moduleReset x0 => Sys2Proof.Machine.execModuleReset x0 s
  | .romVerify => Sys2Proof.Machine.execRomVerify s
  | .bootReady => Sys2Proof.Machine.execBootReady s
  | .bootRetry x0 => Sys2Proof.Machine.execBootRetry x0 s
  | .ucieTrainingComplete x0 x1 x2 => Sys2Proof.Machine.execUcieTrainingComplete x0 x1 x2 s
  | .tempConversion x0 x1 => Sys2Proof.Machine.execTempConversion x0 x1 s
  | .thermalControlTick x0 => Sys2Proof.Machine.execThermalControlTick x0 s
  | .powerControlTick x0 => Sys2Proof.Machine.execPowerControlTick x0 s
  | .capeffUpdate x0 => Sys2Proof.Machine.execCapeffUpdate x0 s
  | .groomCreditRefill x0 => Sys2Proof.Machine.execGroomCreditRefill x0 s
  | .dramclkStepWrite x0 x1 x2 => Sys2Proof.Machine.execDramclkStepWrite x0 x1 x2 s
  | .ratioChangeStart x0 => Sys2Proof.Machine.execRatioChangeStart x0 s
  | .ratioChangeEnd x0 => Sys2Proof.Machine.execRatioChangeEnd x0 s
  | .dramRefresh x0 => Sys2Proof.Machine.execDramRefresh x0 s
  | .shadowLatchDetect x0 x1 x2 x3 => Sys2Proof.Machine.execShadowLatchDetect x0 x1 x2 x3 s
  | .shadowcntClear x0 x1 => Sys2Proof.Machine.execShadowcntClear x0 x1 s
  | .colmapWrite x0 x1 => Sys2Proof.Machine.execColmapWrite x0 x1 s
  | .traceFlitReceive x0 x1 => Sys2Proof.Machine.execTraceFlitReceive x0 x1 s
  | .reinFlitReceive x0 x1 x2 x3 => Sys2Proof.Machine.execReinFlitReceive x0 x1 x2 x3 s
  | .creditReturn x0 => Sys2Proof.Machine.execCreditReturn x0 s
  | .linkNak x0 x1 => Sys2Proof.Machine.execLinkNak x0 x1 s
  | .retrainComplete x0 x1 => Sys2Proof.Machine.execRetrainComplete x0 x1 s
  | .xlinkClear x0 x1 => Sys2Proof.Machine.execXlinkClear x0 x1 s
  | .portLinkChange x0 x1 => Sys2Proof.Machine.execPortLinkChange x0 x1 s
  | .soportClear x0 x1 => Sys2Proof.Machine.execSoportClear x0 x1 s
  | .read x0 x1 => Sys2Proof.Machine.execRead x0 x1 s
  | .rdata x0 x1 => Sys2Proof.Machine.execRdata x0 x1 s
  | .write x0 x1 => Sys2Proof.Machine.execWrite x0 x1 s
  | .wdone x0 x1 => Sys2Proof.Machine.execWdone x0 x1 s
  | .atomic x0 x1 => Sys2Proof.Machine.execAtomic x0 x1 s
  | .atomrsp x0 x1 => Sys2Proof.Machine.execAtomrsp x0 x1 s
  | .ack x0 x1 => Sys2Proof.Machine.execAck x0 x1 s
  | .nak x0 x1 => Sys2Proof.Machine.execNak x0 x1 s
  | .ckdata x0 x1 => Sys2Proof.Machine.execCkdata x0 x1 s
  | .ckack x0 x1 => Sys2Proof.Machine.execCkack x0 x1 s
  | .retransmitTimeout x0 x1 => Sys2Proof.Machine.execRetransmitTimeout x0 x1 s
  | .domcfgWrite x0 x1 => Sys2Proof.Machine.execDomcfgWrite x0 x1 s
  | .hostLinkLoss x0 => Sys2Proof.Machine.execHostLinkLoss x0 s
  | .bar4Read x0 x1 x2 x3 => Sys2Proof.Machine.execBar4Read x0 x1 x2 x3 s
  | .bar4Write x0 x1 x2 => Sys2Proof.Machine.execBar4Write x0 x1 x2 s
  | .cxlMemAccess x0 x1 x2 x3 => Sys2Proof.Machine.execCxlMemAccess x0 x1 x2 x3 s
  | .cxlSnoop x0 x1 => Sys2Proof.Machine.execCxlSnoop x0 x1 s
  | .checkpointSave x0 x1 => Sys2Proof.Machine.execCheckpointSave x0 x1 s
  | .checkpointRestore x0 x1 => Sys2Proof.Machine.execCheckpointRestore x0 x1 s
  | .claim x0 => Sys2Proof.Machine.execClaim x0 s
  | .offer x0 x1 => Sys2Proof.Machine.execOffer x0 x1 s
  | .accept x0 => Sys2Proof.Machine.execAccept x0 s
  | .release x0 => Sys2Proof.Machine.execRelease x0 s
  | .doorbell x0 x1 x2 x3 x4 => Sys2Proof.Machine.execDoorbell x0 x1 x2 x3 x4 s
  | .queueEnable x0 x1 x2 => Sys2Proof.Machine.execQueueEnable x0 x1 x2 s
  | .queueDisable x0 x1 x2 => Sys2Proof.Machine.execQueueDisable x0 x1 x2 s
  | .queueResume x0 x1 => Sys2Proof.Machine.execQueueResume x0 x1 s
  | .hiferrClear x0 => Sys2Proof.Machine.execHiferrClear x0 s
  | .lifeCycleChange x0 x1 => Sys2Proof.Machine.execLifeCycleChange x0 x1 s
  | .getVersion x0 => Sys2Proof.Machine.execGetVersion x0 s
  | .getCapabilities x0 => Sys2Proof.Machine.execGetCapabilities x0 s
  | .negotiateAlgorithms x0 x1 => Sys2Proof.Machine.execNegotiateAlgorithms x0 x1 s
  | .getDigests x0 => Sys2Proof.Machine.execGetDigests x0 s
  | .getCertificate x0 x1 x2 x3 => Sys2Proof.Machine.execGetCertificate x0 x1 x2 x3 s
  | .challenge x0 x1 x2 => Sys2Proof.Machine.execChallenge x0 x1 x2 s
  | .getMeasurements x0 x1 x2 x3 => Sys2Proof.Machine.execGetMeasurements x0 x1 x2 x3 s
  | .keyExchange x0 x1 x2 => Sys2Proof.Machine.execKeyExchange x0 x1 x2 s
  | .finish x0 x1 x2 => Sys2Proof.Machine.execFinish x0 x1 x2 s
  | .heartbeat x0 x1 => Sys2Proof.Machine.execHeartbeat x0 x1 s
  | .keyUpdate x0 x1 x2 => Sys2Proof.Machine.execKeyUpdate x0 x1 x2 s
  | .endSession x0 x1 => Sys2Proof.Machine.execEndSession x0 x1 s
  | .vendorDefinedRequest x0 x1 x2 x3 => Sys2Proof.Machine.execVendorDefinedRequest x0 x1 x2 x3 s
  | .commandNop x0 => Sys2Proof.Machine.execCommandNop x0 s
  | .graphRun x0 => Sys2Proof.Machine.execGraphRun x0 s
  | .graphInstall x0 => Sys2Proof.Machine.execGraphInstall x0 s
  | .patch x0 => Sys2Proof.Machine.execPatch x0 s
  | .kernel x0 => Sys2Proof.Machine.execKernel x0 s
  | .copy x0 => Sys2Proof.Machine.execCopy x0 s
  | .flagset x0 => Sys2Proof.Machine.execFlagset x0 s
  | .flagwait x0 => Sys2Proof.Machine.execFlagwait x0 s
  | .flagwaitSatisfied x0 => Sys2Proof.Machine.execFlagwaitSatisfied x0 s
  | .indirect x0 => Sys2Proof.Machine.execIndirect x0 s
  | .commandComplete x0 => Sys2Proof.Machine.execCommandComplete x0 s
  | .replayStart x0 => Sys2Proof.Machine.execReplayStart x0 s
  | .kernelNodeLaunch x0 x1 => Sys2Proof.Machine.execKernelNodeLaunch x0 x1 s
  | .conditionalNode x0 x1 => Sys2Proof.Machine.execConditionalNode x0 x1 s
  | .loopNode x0 x1 => Sys2Proof.Machine.execLoopNode x0 x1 s
  | .loopIterationEnd x0 x1 => Sys2Proof.Machine.execLoopIterationEnd x0 x1 s
  | .surrogateNode x0 x1 => Sys2Proof.Machine.execSurrogateNode x0 x1 s
  | .signalNode x0 x1 => Sys2Proof.Machine.execSignalNode x0 x1 s
  | .copyNode x0 x1 => Sys2Proof.Machine.execCopyNode x0 x1 s
  | .nodeComplete x0 x1 => Sys2Proof.Machine.execNodeComplete x0 x1 s
  | .replayComplete x0 => Sys2Proof.Machine.execReplayComplete x0 s
  | .admitWrite x0 x1 x2 => Sys2Proof.Machine.execAdmitWrite x0 x1 x2 s
  | .headCommit x0 x1 x2 => Sys2Proof.Machine.execHeadCommit x0 x1 x2 s
  | .consCommit x0 x1 => Sys2Proof.Machine.execConsCommit x0 x1 s
  | .packetStart x0 => Sys2Proof.Machine.execPacketStart x0 s
  | .watchdogExpiry x0 => Sys2Proof.Machine.execWatchdogExpiry x0 s
  | .firmwareRestart x0 => Sys2Proof.Machine.execFirmwareRestart x0 s
  | .mcbselRead x0 x1 => Sys2Proof.Machine.execMcbselRead x0 x1 s
  | .mcbdataWrite x0 x1 => Sys2Proof.Machine.execMcbdataWrite x0 x1 s
  | .brkend x0 x1 => Sys2Proof.Machine.execBrkend x0 x1 s
  | .stallwearWrite x0 x1 => Sys2Proof.Machine.execStallwearWrite x0 x1 s
  | .featmaskWrite x0 x1 => Sys2Proof.Machine.execFeatmaskWrite x0 x1 s
  | .deferqWrite x0 x1 => Sys2Proof.Machine.execDeferqWrite x0 x1 s
  | .registerWrite x0 x1 x2 x3 => Sys2Proof.Machine.execRegisterWrite x0 x1 x2 x3 s
  | .wearSample x0 x1 x2 x3 => Sys2Proof.Machine.execWearSample x0 x1 x2 x3 s
  | .threshUpdate => Sys2Proof.Machine.execThreshUpdate s
  | .lifeRecordWrite => Sys2Proof.Machine.execLifeRecordWrite s
  | .riderRecordGrant x0 => Sys2Proof.Machine.execRiderRecordGrant x0 s
  | .riderPlace x0 => Sys2Proof.Machine.execRiderPlace x0 s
  | .spillExpiry x0 => Sys2Proof.Machine.execSpillExpiry x0 s
  | .preemptwaitExpiry x0 => Sys2Proof.Machine.execPreemptwaitExpiry x0 s
  | .stopAcknowledge x0 x1 x2 => Sys2Proof.Machine.execStopAcknowledge x0 x1 x2 s
  | .collectlimExpiry x0 => Sys2Proof.Machine.execCollectlimExpiry x0 s
  | .saveImageComplete x0 => Sys2Proof.Machine.execSaveImageComplete x0 s
  | .restartableReexecution x0 => Sys2Proof.Machine.execRestartableReexecution x0 s
  | .surrogateFallback x0 x1 => Sys2Proof.Machine.execSurrogateFallback x0 x1 s
  | .maintenanceMove x0 => Sys2Proof.Machine.execMaintenanceMove x0 s
  | .moveCopyComplete x0 => Sys2Proof.Machine.execMoveCopyComplete x0 s
  | .riderContextFree x0 => Sys2Proof.Machine.execRiderContextFree x0 s
  | .hbarPhaseComplete x0 => Sys2Proof.Machine.execHbarPhaseComplete x0 s
  | .waitTimeout x0 => Sys2Proof.Machine.execWaitTimeout x0 s
  | .implicitWaitExpiry x0 => Sys2Proof.Machine.execImplicitWaitExpiry x0 s
  | .ldfeRetry x0 => Sys2Proof.Machine.execLdfeRetry x0 s
  | .channelWaitSatisfied x0 => Sys2Proof.Machine.execChannelWaitSatisfied x0 s
  | .flgwaitPoll x0 => Sys2Proof.Machine.execFlgwaitPoll x0 s
  | .baysplitComplete x0 => Sys2Proof.Machine.execBaysplitComplete x0 s
  | .loadDataArrival x0 x1 => Sys2Proof.Machine.execLoadDataArrival x0 x1 s
  | .xCommandPerform x0 x1 => Sys2Proof.Machine.execXCommandPerform x0 x1 s
  | .engineRecordWrite x0 x1 => Sys2Proof.Machine.execEngineRecordWrite x0 x1 s
  | .translationWalk x0 x1 x2 => Sys2Proof.Machine.execTranslationWalk x0 x1 x2 s
  | .faultBatchClose => Sys2Proof.Machine.execFaultBatchClose s
  | .faultBatchWrite => Sys2Proof.Machine.execFaultBatchWrite s
  | .faultRetry x0 x1 => Sys2Proof.Machine.execFaultRetry x0 x1 s
  | .faultAbort x0 x1 => Sys2Proof.Machine.execFaultAbort x0 x1 s
  | .tlbInvalidate x0 x1 => Sys2Proof.Machine.execTlbInvalidate x0 x1 s
  | .splinter x0 x1 => Sys2Proof.Machine.execSplinter x0 x1 s
  | .lineWriteback x0 x1 => Sys2Proof.Machine.execLineWriteback x0 x1 s
  | .cleanLineDrop x0 x1 x2 => Sys2Proof.Machine.execCleanLineDrop x0 x1 x2 s
  | .guardCommit x0 => Sys2Proof.Machine.execGuardCommit x0 s
  | .nestGangStart x0 => Sys2Proof.Machine.execNestGangStart x0 s
  | .latchFillComplete x0 x1 => Sys2Proof.Machine.execLatchFillComplete x0 x1 s
  | .arrayStep x0 x1 => Sys2Proof.Machine.execArrayStep x0 x1 s
  | .whiffletreeAccumulate x0 => Sys2Proof.Machine.execWhiffletreeAccumulate x0 s
  | .passBoundary x0 => Sys2Proof.Machine.execPassBoundary x0 s
  | .epilogueStore x0 x1 x2 => Sys2Proof.Machine.execEpilogueStore x0 x1 x2 s
  | .nestCollectDrain x0 => Sys2Proof.Machine.execNestCollectDrain x0 s
  | .nestResume x0 => Sys2Proof.Machine.execNestResume x0 s
  | .seq => Sys2Proof.Machine.execSeq s
  | .loop => Sys2Proof.Machine.execLoop s
  | .brk => Sys2Proof.Machine.execBrk s
  | .ret => Sys2Proof.Machine.execRet s
  | .jmp x0 => Sys2Proof.Machine.execJmp x0 s
  | .call x0 => Sys2Proof.Machine.execCall x0 s
  | .yield => Sys2Proof.Machine.execYield s
  | .waitbrk => Sys2Proof.Machine.execWaitbrk s
  | .stop => Sys2Proof.Machine.execStop s
  | .nop x0 => Sys2Proof.Machine.execNop x0 s
  | .add x0 x1 x2 x3 => Sys2Proof.Machine.execAdd x0 x1 x2 x3 s
  | .sub x0 x1 x2 x3 => Sys2Proof.Machine.execSub x0 x1 x2 x3 s
  | .mul x0 x1 x2 x3 => Sys2Proof.Machine.execMul x0 x1 x2 x3 s
  | .mulhu x0 x1 x2 x3 => Sys2Proof.Machine.execMulhu x0 x1 x2 x3 s
  | .divu x0 x1 x2 x3 => Sys2Proof.Machine.execDivu x0 x1 x2 x3 s
  | .remu x0 x1 x2 x3 => Sys2Proof.Machine.execRemu x0 x1 x2 x3 s
  | .and x0 x1 x2 x3 => Sys2Proof.Machine.execAnd x0 x1 x2 x3 s
  | .or x0 x1 x2 x3 => Sys2Proof.Machine.execOr x0 x1 x2 x3 s
  | .xor x0 x1 x2 x3 => Sys2Proof.Machine.execXor x0 x1 x2 x3 s
  | .shl x0 x1 x2 x3 => Sys2Proof.Machine.execShl x0 x1 x2 x3 s
  | .shr x0 x1 x2 x3 => Sys2Proof.Machine.execShr x0 x1 x2 x3 s
  | .sra x0 x1 x2 x3 => Sys2Proof.Machine.execSra x0 x1 x2 x3 s
  | .min x0 x1 x2 x3 => Sys2Proof.Machine.execMin x0 x1 x2 x3 s
  | .max x0 x1 x2 x3 => Sys2Proof.Machine.execMax x0 x1 x2 x3 s
  | .minu x0 x1 x2 x3 => Sys2Proof.Machine.execMinu x0 x1 x2 x3 s
  | .maxu x0 x1 x2 x3 => Sys2Proof.Machine.execMaxu x0 x1 x2 x3 s
  | .clz x0 x1 x2 => Sys2Proof.Machine.execClz x0 x1 x2 s
  | .popc x0 x1 x2 => Sys2Proof.Machine.execPopc x0 x1 x2 s
  | .sel x0 x1 x2 x3 => Sys2Proof.Machine.execSel x0 x1 x2 x3 s
  | .addi x0 x1 x2 x3 => Sys2Proof.Machine.execAddi x0 x1 x2 x3 s
  | .andi x0 x1 x2 x3 => Sys2Proof.Machine.execAndi x0 x1 x2 x3 s
  | .ori x0 x1 x2 x3 => Sys2Proof.Machine.execOri x0 x1 x2 x3 s
  | .xori x0 x1 x2 x3 => Sys2Proof.Machine.execXori x0 x1 x2 x3 s
  | .shli x0 x1 x2 x3 => Sys2Proof.Machine.execShli x0 x1 x2 x3 s
  | .shri x0 x1 x2 x3 => Sys2Proof.Machine.execShri x0 x1 x2 x3 s
  | .srai x0 x1 x2 x3 => Sys2Proof.Machine.execSrai x0 x1 x2 x3 s
  | .movi x0 x1 x2 => Sys2Proof.Machine.execMovi x0 x1 x2 s
  | .movl x0 x1 x2 => Sys2Proof.Machine.execMovl x0 x1 x2 s
  | .cmpeq x0 x1 x2 x3 => Sys2Proof.Machine.execCmpeq x0 x1 x2 x3 s
  | .cmpne x0 x1 x2 x3 => Sys2Proof.Machine.execCmpne x0 x1 x2 x3 s
  | .cmplt x0 x1 x2 x3 => Sys2Proof.Machine.execCmplt x0 x1 x2 x3 s
  | .cmpltu x0 x1 x2 x3 => Sys2Proof.Machine.execCmpltu x0 x1 x2 x3 s
  | .cmpge x0 x1 x2 x3 => Sys2Proof.Machine.execCmpge x0 x1 x2 x3 s
  | .cmpgeu x0 x1 x2 x3 => Sys2Proof.Machine.execCmpgeu x0 x1 x2 x3 s
  | .cmpeqi x0 x1 x2 x3 => Sys2Proof.Machine.execCmpeqi x0 x1 x2 x3 s
  | .cmplti x0 x1 x2 x3 => Sys2Proof.Machine.execCmplti x0 x1 x2 x3 s
  | .plog x0 x1 x2 x3 x4 => Sys2Proof.Machine.execPlog x0 x1 x2 x3 x4 s
  | .pfrom x0 x1 x2 => Sys2Proof.Machine.execPfrom x0 x1 x2 s
  | .setj x0 x1 x2 => Sys2Proof.Machine.execSetj x0 x1 x2 s
  | .loopr x0 x1 x2 => Sys2Proof.Machine.execLoopr x0 x1 x2 s
  | .sfroma x0 x1 x2 => Sys2Proof.Machine.execSfroma x0 x1 x2 s
  | .sfromv x0 x1 x2 x3 => Sys2Proof.Machine.execSfromv x0 x1 x2 x3 s
  | .sfromn x0 x1 x2 => Sys2Proof.Machine.execSfromn x0 x1 x2 s
  | .csrr x0 x1 x2 => Sys2Proof.Machine.execCsrr x0 x1 x2 s
  | .csrw x0 x1 x2 => Sys2Proof.Machine.execCsrw x0 x1 x2 s
  | .trap x0 x1 => Sys2Proof.Machine.execTrap x0 x1 s
  | .tret x0 => Sys2Proof.Machine.execTret x0 s
  | .feat x0 x1 x2 => Sys2Proof.Machine.execFeat x0 x1 x2 s
  | .spawn x0 x1 x2 x3 => Sys2Proof.Machine.execSpawn x0 x1 x2 x3 s
  | .hitchCreate x0 x1 => Sys2Proof.Machine.execHitchCreate x0 x1 s
  | .hitchJoin x0 x1 x2 => Sys2Proof.Machine.execHitchJoin x0 x1 x2 s
  | .unhitch x0 => Sys2Proof.Machine.execUnhitch x0 s
  | .hbar x0 x1 x2 => Sys2Proof.Machine.execHbar x0 x1 x2 s
  | .vwin x0 x1 => Sys2Proof.Machine.execVwin x0 x1 s
  | .vrot x0 x1 => Sys2Proof.Machine.execVrot x0 x1 s
  | .setvt x0 x1 x2 x3 x4 => Sys2Proof.Machine.execSetvt x0 x1 x2 x3 x4 s
  | .srseed x0 x1 x2 => Sys2Proof.Machine.execSrseed x0 x1 x2 s
  | .contain x0 x1 => Sys2Proof.Machine.execContain x0 x1 s
  | .endcont x0 => Sys2Proof.Machine.execEndcont x0 s
  | .chkl x0 x1 x2 => Sys2Proof.Machine.execChkl x0 x1 x2 s
  | .rdcyc x0 x1 => Sys2Proof.Machine.execRdcyc x0 x1 s
  | .vadd x0 x1 x2 x3 => Sys2Proof.Machine.execVadd x0 x1 x2 x3 s
  | .vsub x0 x1 x2 x3 => Sys2Proof.Machine.execVsub x0 x1 x2 x3 s
  | .vmul x0 x1 x2 x3 => Sys2Proof.Machine.execVmul x0 x1 x2 x3 s
  | .vfma x0 x1 x2 x3 => Sys2Proof.Machine.execVfma x0 x1 x2 x3 s
  | .vfms x0 x1 x2 x3 => Sys2Proof.Machine.execVfms x0 x1 x2 x3 s
  | .vfnma x0 x1 x2 x3 => Sys2Proof.Machine.execVfnma x0 x1 x2 x3 s
  | .vmin x0 x1 x2 x3 => Sys2Proof.Machine.execVmin x0 x1 x2 x3 s
  | .vmax x0 x1 x2 x3 => Sys2Proof.Machine.execVmax x0 x1 x2 x3 s
  | .vabs x0 x1 x2 => Sys2Proof.Machine.execVabs x0 x1 x2 s
  | .vneg x0 x1 x2 => Sys2Proof.Machine.execVneg x0 x1 x2 s
  | .vrcp x0 x1 x2 => Sys2Proof.Machine.execVrcp x0 x1 x2 s
  | .vrsq x0 x1 x2 => Sys2Proof.Machine.execVrsq x0 x1 x2 s
  | .vexp2 x0 x1 x2 => Sys2Proof.Machine.execVexp2 x0 x1 x2 s
  | .vlog2 x0 x1 x2 => Sys2Proof.Machine.execVlog2 x0 x1 x2 s
  | .vtanh x0 x1 x2 => Sys2Proof.Machine.execVtanh x0 x1 x2 s
  | .vclamp x0 x1 x2 x3 => Sys2Proof.Machine.execVclamp x0 x1 x2 x3 s
  | .vand x0 x1 x2 x3 => Sys2Proof.Machine.execVand x0 x1 x2 x3 s
  | .vor x0 x1 x2 x3 => Sys2Proof.Machine.execVor x0 x1 x2 x3 s
  | .vxor x0 x1 x2 x3 => Sys2Proof.Machine.execVxor x0 x1 x2 x3 s
  | .vnot x0 x1 x2 => Sys2Proof.Machine.execVnot x0 x1 x2 s
  | .vshl x0 x1 x2 x3 => Sys2Proof.Machine.execVshl x0 x1 x2 x3 s
  | .vshr x0 x1 x2 x3 => Sys2Proof.Machine.execVshr x0 x1 x2 x3 s
  | .vsra x0 x1 x2 x3 => Sys2Proof.Machine.execVsra x0 x1 x2 x3 s
  | .vaddi x0 x1 x2 x3 => Sys2Proof.Machine.execVaddi x0 x1 x2 x3 s
  | .vimul x0 x1 x2 x3 => Sys2Proof.Machine.execVimul x0 x1 x2 x3 s
  | .vpopc x0 x1 x2 => Sys2Proof.Machine.execVpopc x0 x1 x2 s
  | .vceq x0 x1 x2 x3 => Sys2Proof.Machine.execVceq x0 x1 x2 x3 s
  | .vcne x0 x1 x2 x3 => Sys2Proof.Machine.execVcne x0 x1 x2 x3 s
  | .vclt x0 x1 x2 x3 => Sys2Proof.Machine.execVclt x0 x1 x2 x3 s
  | .vcle x0 x1 x2 x3 => Sys2Proof.Machine.execVcle x0 x1 x2 x3 s
  | .vcun x0 x1 x2 x3 => Sys2Proof.Machine.execVcun x0 x1 x2 x3 s
  | .vsel x0 x1 x2 x3 => Sys2Proof.Machine.execVsel x0 x1 x2 x3 s
  | .kand x0 x1 x2 x3 => Sys2Proof.Machine.execKand x0 x1 x2 x3 s
  | .kor x0 x1 x2 x3 => Sys2Proof.Machine.execKor x0 x1 x2 x3 s
  | .kxor x0 x1 x2 x3 => Sys2Proof.Machine.execKxor x0 x1 x2 x3 s
  | .knot x0 x1 x2 => Sys2Proof.Machine.execKnot x0 x1 x2 s
  | .kset x0 x1 x2 => Sys2Proof.Machine.execKset x0 x1 x2 s
  | .kany x0 x1 x2 => Sys2Proof.Machine.execKany x0 x1 x2 s
  | .kfirst x0 x1 x2 => Sys2Proof.Machine.execKfirst x0 x1 x2 s
  | .vrsum x0 x1 x2 => Sys2Proof.Machine.execVrsum x0 x1 x2 s
  | .vrmax x0 x1 x2 => Sys2Proof.Machine.execVrmax x0 x1 x2 s
  | .vrmin x0 x1 x2 => Sys2Proof.Machine.execVrmin x0 x1 x2 s
  | .vrimax x0 x1 x2 => Sys2Proof.Machine.execVrimax x0 x1 x2 s
  | .vmov x0 x1 x2 => Sys2Proof.Machine.execVmov x0 x1 x2 s
  | .stov x0 x1 x2 x3 => Sys2Proof.Machine.execStov x0 x1 x2 x3 s
  | .viota x0 x1 => Sys2Proof.Machine.execViota x0 x1 s
  | .vperm x0 x1 x2 x3 => Sys2Proof.Machine.execVperm x0 x1 x2 x3 s
  | .vslide x0 x1 x2 x3 => Sys2Proof.Machine.execVslide x0 x1 x2 x3 s
  | .vcmpr x0 x1 x2 x3 => Sys2Proof.Machine.execVcmpr x0 x1 x2 x3 s
  | .vxpnd x0 x1 x2 x3 => Sys2Proof.Machine.execVxpnd x0 x1 x2 x3 s
  | .vlane x0 x1 x2 x3 => Sys2Proof.Machine.execVlane x0 x1 x2 x3 s
  | .cvtf32 x0 x1 x2 x3 => Sys2Proof.Machine.execCvtf32 x0 x1 x2 x3 s
  | .cvtbf16 x0 x1 x2 x3 => Sys2Proof.Machine.execCvtbf16 x0 x1 x2 x3 s
  | .cvtf16 x0 x1 x2 x3 => Sys2Proof.Machine.execCvtf16 x0 x1 x2 x3 s
  | .cvte4m3 x0 x1 x2 x3 => Sys2Proof.Machine.execCvte4m3 x0 x1 x2 x3 s
  | .cvte5m2 x0 x1 x2 x3 => Sys2Proof.Machine.execCvte5m2 x0 x1 x2 x3 s
  | .cvte3m2 x0 x1 x2 x3 => Sys2Proof.Machine.execCvte3m2 x0 x1 x2 x3 s
  | .cvte2m3 x0 x1 x2 x3 => Sys2Proof.Machine.execCvte2m3 x0 x1 x2 x3 s
  | .cvte2m1 x0 x1 x2 x3 => Sys2Proof.Machine.execCvte2m1 x0 x1 x2 x3 s
  | .cvti32 x0 x1 x2 x3 => Sys2Proof.Machine.execCvti32 x0 x1 x2 x3 s
  | .cvti8 x0 x1 x2 x3 => Sys2Proof.Machine.execCvti8 x0 x1 x2 x3 s
  | .mxq x0 x1 x2 x3 => Sys2Proof.Machine.execMxq x0 x1 x2 x3 s
  | .mxdq x0 x1 x2 x3 => Sys2Proof.Machine.execMxdq x0 x1 x2 x3 s
  | .mxgets x0 x1 x2 => Sys2Proof.Machine.execMxgets x0 x1 x2 s
  | .mxsets x0 x1 x2 => Sys2Proof.Machine.execMxsets x0 x1 x2 s
  | .vrand x0 x1 x2 => Sys2Proof.Machine.execVrand x0 x1 x2 s
  | .vdefer x0 x1 x2 x3 => Sys2Proof.Machine.execVdefer x0 x1 x2 x3 s
  | .vdrain x0 x1 x2 => Sys2Proof.Machine.execVdrain x0 x1 x2 s
  | .vlame x0 x1 x2 => Sys2Proof.Machine.execVlame x0 x1 x2 s
  | .vclrl x0 x1 => Sys2Proof.Machine.execVclrl x0 x1 s
  | .nfroms x0 x1 x2 => Sys2Proof.Machine.execNfroms x0 x1 x2 s
  | .nseti x0 x1 x2 => Sys2Proof.Machine.execNseti x0 x1 x2 s
  | .ngo x0 x1 => Sys2Proof.Machine.execNgo x0 x1 s
  | .nwait x0 x1 x2 => Sys2Proof.Machine.execNwait x0 x1 x2 s
  | .nstat x0 x1 => Sys2Proof.Machine.execNstat x0 x1 s
  | .nfreeze x0 => Sys2Proof.Machine.execNfreeze x0 s
  | .nthaw x0 => Sys2Proof.Machine.execNthaw x0 s
  | .ndrain x0 x1 x2 => Sys2Proof.Machine.execNdrain x0 x1 x2 s
  | .nfill x0 x1 x2 => Sys2Proof.Machine.execNfill x0 x1 x2 s
  | .npos x0 x1 => Sys2Proof.Machine.execNpos x0 x1 s
  | .nseek x0 x1 => Sys2Proof.Machine.execNseek x0 x1 s
  | .wfetch x0 x1 x2 => Sys2Proof.Machine.execWfetch x0 x1 x2 s
  | .wswap x0 x1 => Sys2Proof.Machine.execWswap x0 x1 s
  | .aclr x0 x1 x2 => Sys2Proof.Machine.execAclr x0 x1 x2 s
  | .epicfg x0 x1 x2 => Sys2Proof.Machine.execEpicfg x0 x1 x2 s
  | .cksum x0 x1 x2 => Sys2Proof.Machine.execCksum x0 x1 x2 s
  | .ncutEnd x0 => Sys2Proof.Machine.execNcutEnd x0 s
  | .ncutAbandon x0 => Sys2Proof.Machine.execNcutAbandon x0 s
  | .ldb x0 x1 x2 x3 => Sys2Proof.Machine.execLdb x0 x1 x2 x3 s
  | .ldh x0 x1 x2 x3 => Sys2Proof.Machine.execLdh x0 x1 x2 x3 s
  | .ldw x0 x1 x2 x3 => Sys2Proof.Machine.execLdw x0 x1 x2 x3 s
  | .ldd x0 x1 x2 x3 => Sys2Proof.Machine.execLdd x0 x1 x2 x3 s
  | .stb x0 x1 x2 x3 => Sys2Proof.Machine.execStb x0 x1 x2 x3 s
  | .sth x0 x1 x2 x3 => Sys2Proof.Machine.execSth x0 x1 x2 x3 s
  | .stw x0 x1 x2 x3 => Sys2Proof.Machine.execStw x0 x1 x2 x3 s
  | .std x0 x1 x2 x3 => Sys2Proof.Machine.execStd x0 x1 x2 x3 s
  | .ldv x0 x1 x2 x3 => Sys2Proof.Machine.execLdv x0 x1 x2 x3 s
  | .stv x0 x1 x2 x3 => Sys2Proof.Machine.execStv x0 x1 x2 x3 s
  | .ldfe x0 x1 x2 x3 => Sys2Proof.Machine.execLdfe x0 x1 x2 x3 s
  | .stfe x0 x1 x2 x3 => Sys2Proof.Machine.execStfe x0 x1 x2 x3 s
  | .feclr x0 x1 x2 x3 => Sys2Proof.Machine.execFeclr x0 x1 x2 x3 s
  | .tdesc x0 x1 x2 x3 => Sys2Proof.Machine.execTdesc x0 x1 x2 x3 s
  | .tread x0 x1 x2 x3 => Sys2Proof.Machine.execTread x0 x1 x2 x3 s
  | .twrite x0 x1 x2 x3 => Sys2Proof.Machine.execTwrite x0 x1 x2 x3 s
  | .tgather x0 x1 x2 x3 => Sys2Proof.Machine.execTgather x0 x1 x2 x3 s
  | .tscatter x0 x1 x2 x3 => Sys2Proof.Machine.execTscatter x0 x1 x2 x3 s
  | .tscadd x0 x1 x2 x3 => Sys2Proof.Machine.execTscadd x0 x1 x2 x3 s
  | .chcfg x0 x1 x2 => Sys2Proof.Machine.execChcfg x0 x1 x2 s
  | .chcfgOff x0 x1 x2 => Sys2Proof.Machine.execChcfgOff x0 x1 x2 s
  | .chadv x0 x1 => Sys2Proof.Machine.execChadv x0 x1 s
  | .chrel x0 x1 => Sys2Proof.Machine.execChrel x0 x1 s
  | .chwaitf x0 x1 x2 x3 => Sys2Proof.Machine.execChwaitf x0 x1 x2 x3 s
  | .chwaite x0 x1 x2 x3 => Sys2Proof.Machine.execChwaite x0 x1 x2 x3 s
  | .chstat x0 x1 x2 => Sys2Proof.Machine.execChstat x0 x1 x2 s
  | .rsend x0 x1 x2 x3 x4 => Sys2Proof.Machine.execRsend x0 x1 x2 x3 x4 s
  | .rcast x0 x1 x2 x3 x4 x5 => Sys2Proof.Machine.execRcast x0 x1 x2 x3 x4 x5 s
  | .aadd x0 x1 x2 x3 => Sys2Proof.Machine.execAadd x0 x1 x2 x3 s
  | .amin x0 x1 x2 x3 => Sys2Proof.Machine.execAmin x0 x1 x2 x3 s
  | .amax x0 x1 x2 x3 => Sys2Proof.Machine.execAmax x0 x1 x2 x3 s
  | .aand x0 x1 x2 x3 => Sys2Proof.Machine.execAand x0 x1 x2 x3 s
  | .aor x0 x1 x2 x3 => Sys2Proof.Machine.execAor x0 x1 x2 x3 s
  | .axor x0 x1 x2 x3 => Sys2Proof.Machine.execAxor x0 x1 x2 x3 s
  | .axchg x0 x1 x2 x3 => Sys2Proof.Machine.execAxchg x0 x1 x2 x3 s
  | .acas x0 x1 x2 x3 => Sys2Proof.Machine.execAcas x0 x1 x2 x3 s
  | .afadd x0 x1 x2 x3 => Sys2Proof.Machine.execAfadd x0 x1 x2 x3 s
  | .fence x0 x1 x2 => Sys2Proof.Machine.execFence x0 x1 x2 s
  | .flush x0 x1 x2 => Sys2Proof.Machine.execFlush x0 x1 x2 s
  | .inval x0 x1 x2 => Sys2Proof.Machine.execInval x0 x1 x2 s
  | .flgset x0 x1 x2 x3 => Sys2Proof.Machine.execFlgset x0 x1 x2 x3 s
  | .flgwait x0 x1 x2 x3 x4 => Sys2Proof.Machine.execFlgwait x0 x1 x2 x3 x4 s
  | .smap x0 x1 x2 x3 => Sys2Proof.Machine.execSmap x0 x1 x2 x3 s
  | .sunmap x0 x1 => Sys2Proof.Machine.execSunmap x0 x1 s
  | .baysplit x0 x1 x2 x3 => Sys2Proof.Machine.execBaysplit x0 x1 x2 x3 s
  | .gcheck x0 x1 x2 x3 x4 => Sys2Proof.Machine.execGcheck x0 x1 x2 x3 x4 s
  | .afroms x0 x1 x2 => Sys2Proof.Machine.execAfroms x0 x1 x2 s
  | .aaddi x0 x1 x2 x3 => Sys2Proof.Machine.execAaddi x0 x1 x2 x3 s
  | .pref x0 x1 x2 x3 => Sys2Proof.Machine.execPref x0 x1 x2 x3 s
  | .configurationWrite x0 x1 x2 => Sys2Proof.Machine.execConfigurationWrite x0 x1 x2 s
  | .accumulatorCopyComplete x0 => Sys2Proof.Machine.execAccumulatorCopyComplete x0 s
  | .arraySelfTestComplete x0 x1 => Sys2Proof.Machine.execArraySelfTestComplete x0 x1 s

end Sys2Proof.Machine
end

