-- ==== Sys2Proof/Machine/Issue.lean ====
section
/-! DEFINITION. Machine/Issue.lean: an SCU issues a group: fetch, group formation, holds, the words, the next address, and the
choice among contexts (R124, R172 to R174, R184 to R186, R191, R290, R314 to R316, R330, R331). -/

namespace Sys2Proof.Machine

/-! ## Fetch (R210, R314) -/

/-- Four words of 16 bytes. -/
def packetWords (b : List Byte) : List Word := (List.range 4).map (fun i => BitVec.ofNat 32 (leNat ((b.drop (4 * i)).take 4)))

/-- The 16 bytes of a packet as four words, and whether they are poisoned: code is fetched through the paddock cache; a groom context
fetches from the groom code store of its die (R94; DESIGN CHOICE, log entry 10). -/
def fetchPacket (k st va : Nat) : A (List Word × Bool) := do
  if isGroom k then
    let s ← aGet
    pure (packetWords (s.mem.read (groomAddr (stallQuarter st) (va % 2 ^ 23)) 16), false)
  else do
    let e ← translate k st va 4
    let s ← aGet
    let pk := s.physKey e va
    let o := pk % 64
    let l ← readLine k st (pk / 64 * 64) e.nc false (byteMask o 16) 0
    pure (packetWords ((l.bytes.drop o).take 16), l.poison.getLsbD (o / 16))

/-- The address of the packet of a code address (R314). -/
def packetOf (a : DWord) : DWord := a &&& ~~~(15 : DWord)

/-! ## Group formation (R315, R316) -/

/-- A group as formed: its words with their index and the word after each, the index of its sequential successor in the
packet (4 for the next packet), and the index of a word at which formation failed. -/
structure Formed where
  words : List (Nat × Word × Word)
  succ : Nat := 4
  bad : Option Nat := none
  deriving DecidableEq, Repr

/-- PIPE of a word. -/
def pipeOf (w : Word) : BitVec 2 := w.extractLsb' 28 2

/-- decode_group from word i on, with the pipes taken so far (R316). -/
def formFrom (ws : List Word) : Nat → Nat → List (BitVec 2) → Formed
  | 0, i, _ => { words := [], bad := some (i - 1) }
  | fuel + 1, i, pipes =>
    let w := ws.getD i 0
    let next := ws.getD (i + 1) 0
    let ch := w.extractLsb' 30 2
    let me := (i, w, next)
    if pipes.contains (pipeOf w) then { words := [me], bad := some i }
    else if (ch == 1 || ch == 3) && i == 3 then { words := [me], bad := some i }
    else if ch = 0 then { words := [me], succ := i + 1 }
    else if ch = 2 then { words := [me], succ := 4 }
    else if ch = 3 then { words := [me], succ := i + 2 }
    else
      let r := formFrom ws fuel (i + 1) (pipeOf w :: pipes)
      { r with words := me :: r.words }

/-- The group at a code address in its packet. -/
def formGroup (ws : List Word) (pc : DWord) : Formed := formFrom ws 4 (bits pc 3 2) []

/-- A decoded word of a group. -/
structure GWord where
  idx : Nat
  word : Word
  lit : Word
  i : Instr
  deriving DecidableEq, Repr

/-- Whether a word divides, and whether it is a TRET. -/
def isDivide : Instr → Bool
  | .divu _ _ _ _ | .remu _ _ _ _ => true
  | _ => false
def isTret : Instr → Bool
  | .tret _ => true
  | _ => false

/-- The words of a group decoded, or the lowest-positioned word that is no instruction (R330, R331). -/
def judge (f : Formed) (divBusy : Bool) : Except (Nat × Word) (List GWord) :=
  f.words.foldr (fun w r =>
    if f.bad = some w.1 then .error (w.1, w.2.1)
    else
      match decodeWord w.2.1 w.2.2 with
      | .error _ => .error (w.1, w.2.1)
      | .ok i =>
        if (isDivide i && divBusy) || (isTret i && f.words.length != 1) then .error (w.1, w.2.1)
        else
          match r with
          | .error e => .error e
          | .ok l => .ok ({ idx := w.1, word := w.2.1, lit := w.2.2, i := i } :: l)) (.ok [])

/-! ## The words of a group -/

/-- The guard of a word's bits: [27:25], or [23:21] for an S word (R317, R318). -/
def wordGuard (w : Word) : PIdx := if pipeOf w = 0 then w.extractLsb' 21 3 else w.extractLsb' 25 3

/-- SEL, which its G does not squash (R322). -/
def isSel : Instr → Bool
  | .sel _ _ _ _ => true
  | _ => false

/-- CSRR, which reads what stands before its group (R352, R354). -/
def isCsrr : Instr → Bool
  | .csrr _ _ _ => true
  | _ => false

/-- A word takes effect: its guard reads 1, or it is SEL. -/
def GWord.live (w : GWord) (c : Ctx) : Bool := isSel w.i || (c.preg (wordGuard w.word)).val

/-- The words that set the PC themselves: LOOPR, TRAP, TRET. -/
def selfSelects : Instr → Bool
  | .loopr _ _ _ | .trap _ _ | .tret _ => true
  | _ => false

/-- What the words of a group come to: the state, the causes with their positions, whether one is held. -/
structure Run where
  s : State
  causes : List Cause := []
  held : Bool := false

/-- A state as the result of one word of a group: what it raised is noted, and its effect is kept when it raised nothing. -/
def Run.after (r : Run) (o : Host.Outcome State Fault Refusal) : Run :=
  match o with
  | .next t =>
    match t.raised with
    | none => { r with s := t }
    | some (.cause c) => { r with causes := r.causes ++ [c] }
    | some .held | some .xfull => { r with held := true }
  | .fault _ => r
  | .refused _ => r

/-- A word of a group run at its place. -/
def Run.word (r : Run) (base : Pos) (w : GWord) : Run :=
  r.after (exec w.i { r.s with pos := { base with addr := packetOf base.group + BitVec.ofNat 64 (4 * w.idx),
                                                  idx := BitVec.ofNat 2 w.idx, word := w.word, lit := w.lit }, raised := none })

/-- The words of a pipe. -/
def ofPipe (l : List GWord) (p : BitVec 2) : List GWord := l.filter (fun w => pipeOf w.word = p)

/-- The V result that waited for room is served after the X sources (R186). -/
def Run.push (r : Run) : Run :=
  match servePush r.s with
  | .ok t => { r with s := t }
  | .error (.cause c) => { r with causes := r.causes ++ [c] }
  | .error _ => { r with held := true }

/-- The outcome of a selector taken as the state it leaves. -/
def Run.select (r : Run) (base : Pos) (ws : List GWord) : Run :=
  let c := r.s.me
  match ws.find? (fun w => pipeOf w.word = 0) with
  | none => r.after (execSeq r.s)
  | some w =>
    if !w.live c then
      if w.word.extractLsb' 24 4 == 14 then r.after (execNestOwed { r.s with pos := { base with idx := BitVec.ofNat 2 w.idx, word := w.word } })
      else r.after (execSeq { r.s with pos := base })
    else if selfSelects w.i then r
    else
      let s := { r.s with pos := { base with idx := BitVec.ofNat 2 w.idx, word := w.word, lit := w.lit }, raised := none }
      match nxOf (w.word.extractLsb' 24 4) with
      | none | some .seq => r.after (execSeq s)
      | some .loop => r.after (execLoop s)
      | some .brk => r.after (execBrk s)
      | some .ret => r.after (execRet s)
      | some (.jmp j) => r.after (execJmp j s)
      | some (.call j) => r.after (execCall j s)
      | some .yield => r.after (execYield s)
      | some .waitbrk => r.after (execWaitbrk s)
      | some .stop => r.after (execStop s)

/-- The effect of a group's words in the order CSRR, V, X, the held V destination, M, S, then the next address (R186, R323). -/
def runGroup (s : State) (base : Pos) (ws : List GWord) : Run :=
  let r0 : Run := { s := { s with pos := base, raised := none, pendPush := none } }
  let r0 := ((ofPipe ws 0).filter (fun w => isCsrr w.i)).foldl (fun r w => r.word base w) r0
  let r1 := (ofPipe ws 1).foldl (fun r w => r.word base w) r0
  let r2 := ((ofPipe ws 3).foldl (fun r w => r.word base w) r1).push
  let r3 := (ofPipe ws 2).foldl (fun r w => r.word base w) r2
  let r4 := ((ofPipe ws 0).filter (fun w => !isCsrr w.i)).foldl (fun r w => r.word base w) r3
  if r4.causes.isEmpty && !r4.held then
    r4.select base ws
  else
    -- the selector's own causes count beside those of the words (R290)
    let r5 := Run.select { s := { s with pos := base, raised := none } } base (ws.filter (fun w => pipeOf w.word = 0 && !selfSelects w.i))
    { r4 with causes := r4.causes ++ r5.causes }

/-- The cause that is taken: the lowest code, then the lowest position (R290). -/
def firstCause : List Cause → Option Cause
  | [] => none
  | c :: t => some (t.foldl (fun a b => if b.code.toNat < a.code.toNat ∨ (b.code = a.code ∧ b.word.toNat < a.word.toNat) then b else a) c)

/-! ## After a group -/

/-- Wear units of the words of a group of a user context: V 2, S and X 1 each (R139). -/
def wordWeight (w : Word) : Nat := if pipeOf w = 1 then 2 else if pipeOf w = 2 then 0 else 1

/-- What every issued group does to its context beside its words: wear units, and the count of groups since the last
sequencing point (R139, R191). -/
def Ctx.issued (c : Ctx) (units : Nat) (seqPoint : Bool) : Ctx :=
  { c with forced := false, groups := if seqPoint then 0 else c.groups + 1,
           csr := { c.csr with wearcnt := c.csr.wearcnt + BitVec.ofNat 64 units } }

/-- A context is blocked before its next group: it holds its place in a wait of WAITLIM, begun once (R182 to R184). -/
def State.blockBefore (s : State) (k : Nat) (w : WaitKind) : State :=
  if (s.ctx k).waits.isEmpty then s.blockFor k w (bits (s.ctx k).csr.waitlim 23 0) else s

/-- The waits before a group are over: the group issues. -/
def Ctx.unhold (c : Ctx) : Ctx := { c with waits := c.waits.filter (fun w => w.kind != .held && w.kind != .xfull) }

/-- UNCORRECTABLE of a code fetch that is lame with a cause (R210, R300). -/
def fetchCause (l : Lame) : Cause := { code := 7, info := BitVec.ofNat 64 (l.toNat + 0xFF00), lame := l }

/-- A group whose landings are done: an unwind, a cause, a hold, or its effect. The first component is the state when it is not
held. -/
def State.issueFormed (s : State) (k : Nat) (ws : List Word) (poison : Bool) : Option State :=
  let pc := (s.ctx k).pc
  let s0 := { s.modCtx k Ctx.unhold with cur := k }
  let (s1, ue) := s0.tick k
  let c1 := s1.ctx k
  if ue && c1.contain then some (s1.unwind k pc 3 false)
  else if poison then some ((s1.untick k).takeCause k (fetchCause 3) pc)
  else
    let f := formGroup ws pc
    match judge f (c1.land.any (fun e => e.divide)) with
    | .error (i, w) =>
      some ((s1.untick k).takeCause k { code := 1, info := w.setWidth 64, word := BitVec.ofNat 2 i, pipe := pipeOf w } pc)
    | .ok l =>
      let base : Pos := { addr := pc, group := pc, succ := packetOf pc + BitVec.ofNat 64 (4 * f.succ), forced := c1.forced,
                          withX := (ofPipe l 3).any (fun w => w.live c1), limit := bits c1.csr.waitlim 23 0 }
      let r := runGroup s1 base l
      if r.held then none
      else
        let long : List Cause := if 0 < c1.loops.length ∧ 1024 ≤ c1.groups then
            l.head?.toList.map (fun w => { code := 0x0D, word := BitVec.ofNat 2 w.idx, pipe := pipeOf w.word }) else []
        match firstCause (r.causes ++ long) with
        | some c => some ((({ s1 with pos := base } : State).untick k).takeCause k c pc)
        | none =>
          let sel := (ofPipe l 0).any (fun w => w.word.extractLsb' 24 4 != 0)
          let point := sel || c1.loops.isEmpty || c1.waits.length < (r.s.ctx k).waits.length
          let units := if isGroom k then 0 else (l.map (fun w => wordWeight w.word)).sum * s.wearFactor c1.stall
          some (r.s.modCtx k (fun c => c.issued units point))

/-- The packet of a context's next group. -/
def fetchNext (k : Nat) (c : Ctx) (s : State) : Except Halt (List Word × Bool) × State := (fetchPacket k c.stall (packetOf c.pc).toNat) s

/-- A code fetch halted at a fault (R210). -/
def State.fetchHalt (s : State) (k va kind : Nat) : State :=
  (s.reportFault (s.ctx k).asid va kind 4).modCtx k (fun c =>
    { c with waits := [{ kind := .fetch va kind false, pred := none, limit := bits c.csr.waitlim 23 0,
                         deadline := s.clock + bits c.csr.waitlim 23 0 }] })

/-- A context issues its next group, or is blocked before it (R184, R210). Answers whether a group took the slot. -/
def State.issue (s : State) (k : Nat) : State × Bool :=
  match fetchNext k (s.ctx k) s with
  | (.error h, t) =>
    match h with
    | .fault va kind _ => (t.fetchHalt k va kind, false)
    | .wait => (t, false)
    | .refused => (t, false)
  | (.ok r, t) =>
    match t.issueFormed k r.1 r.2 with
    | some u => (u, true)
    | none => (t.blockBefore k .held, false)

/-! ## The choice among contexts (R124, R172, R173) -/

/-- A context may issue: it is on a stall, has not ended, and no wait blocks it but one before its next group. -/
def Ctx.ready (c : Ctx) : Bool :=
  c.resident && !c.retiring && c.failed.isNone && c.pendingTrap.isNone &&
  c.waits.all (fun w => w.kind == .held || w.kind == .xfull) &&
  (match c.loc with
   | .on _ _ => true
   | .stopped _ _ _ | .waiting _ | .saved => false)

/-- The user contexts of a stall that may issue, the one whose turn it is first; after a YIELD those come first that have not yielded
(R124, R172, R323). -/
def State.userOrder (s : State) (st : Nat) : List Nat :=
  let x := s.stalls.getD st {}
  let users := (s.ctxs.filter (fun c => !isGroom c.1 && c.2.ready && c.2.stall == st)).map (fun c => (c.1, c.2.slot))
  let l := users.filter (fun u => u.2 != x.last.toNat) ++ users.filter (fun u => u.2 == x.last.toNat)
  let order : List (Nat × Nat) := match x.yielded with
    | some y => l.filter (fun u => u.2 != y) ++ l.filter (fun u => u.2 == y)
    | none => l
  order.map (·.1)

/-- The contexts of a list whose next group would issue; the others are blocked before it (R172, R184). -/
def State.readyOf (s : State) : List Nat → State × List Nat
  | [] => (s, [])
  | k :: t =>
    match s.issue k with
    | (_, true) => ((s.readyOf t).1, k :: (s.readyOf t).2)
    | (u, false) => u.readyOf t

/-- Cycles in a row that a user context has been ready without a slot. -/
def Stall.idle (x : Stall) (slot : Nat) : Nat := if slot = 0 then x.idle0 else x.idle1

/-- A groom slot leaves every ready user context a group in every 8 cycles: each issues in its turn after it (R124, R173). -/
def State.groomFits (s : State) (st : Nat) (users : List Nat) : Bool :=
  users.zipIdx.all (fun u => (s.stalls.getD st {}).idle (s.ctx u.1).slot + 1 + u.2 ≤ 7)

/-- Which context takes the slot of a stall: the groom context when no user context is ready, or while it has CREDIT, the guarantee of the
user contexts holds and no YIELD gives the slot to one of them; else the first user context (R124, R323). -/
def State.pick (s : State) (st : Nat) (users groom : List Nat) : Option Nat :=
  let yielded := (s.stalls.getD st {}).yielded.any (fun y => users.any (fun u => (s.ctx u).slot != y))
  if users.isEmpty || (bits (s.reg (.groomshare st)) 12 5 != 0 && s.groomFits st users && !yielded) then
    groom.head?.or users.head?
  else users.head?

/-- What a slot does to its stall: whose turn is next, the cycles that ready user contexts have gone without, and the groom credit
(R124, R173, R323). -/
def State.tookSlot (s : State) (st k : Nat) (users : List Nat) : State :=
  let x := s.stalls.getD st {}
  let wait := fun (slot : Nat) => if users.any (fun u => u != k && (s.ctx u).slot == slot) then x.idle slot + 1 else 0
  let x1 : Stall := { x with idle0 := wait 0, idle1 := wait 1 }
  if isGroom k then
    let s1 : State := { s with stalls := s.stalls.put st x1 }
    if users.isEmpty then s1
    else s1.setReg (.groomshare st) (setBits (s.reg (.groomshare st)) 12 5 (bits (s.reg (.groomshare st)) 12 5 - 1))
  else
    let slot := (s.ctx k).slot
    { s with stalls := s.stalls.put st { x1 with last := slot == 1, yielded := if x.yielded = some slot then x.yielded else none } }

/-- The groom context of a stall when it may issue. -/
def State.groomOf (s : State) (st : Nat) : List Nat := if (s.ctxs.get? (groomKey + st)).any Ctx.ready then [groomKey + st] else []

/-- The state after the contexts of a stall have been tried, those that are ready, and the one that takes the slot. -/
def State.contend (s : State) (st : Nat) : State × List Nat × Option Nat :=
  let u := s.readyOf (s.userOrder st)
  let g := u.1.readyOf (u.1.groomOf st)
  (g.1, u.2, g.1.pick st u.2 g.2)

/-- The lowest stall from a number on with a context that may issue; the stalls of a row domain in the second half of a stretched cycle
take no slot (R307). -/
def State.nextStall (s : State) (from' : Nat) : Option Nat :=
  (s.ctxs.filter (fun c => c.2.ready && from' ≤ c.2.stall && !s.stretched.contains (stallDieRow c.2.stall))).foldl (fun m c =>
    match m with
    | none => some c.2.stall
    | some x => some (Nat.min x c.2.stall)) none

/-- A stall takes its issue slot. -/
def State.slot (s : State) (st : Nat) : State :=
  match ({ s with turn := st + 1 } : State).contend st with
  | (t, users, some k) =>
    match t.issue k with
    | (u, true) => u.tookSlot st k users
    | (u, false) => u
  | (t, _, none) => t

end Sys2Proof.Machine
end

