-- ==== Sys2Proof/Machine/Advance.lean ====
section
/-! DEFINITION. Machine/Advance.lean: the steps that are due, the passing of a cycle, and one step of the module. -/

namespace Sys2Proof.Machine

/-- A step that is due runs: one from outside, or one that the machine's own engines have made due. The checks of a store step agree
unless an event from outside says otherwise (R308). -/
def State.runDue (s : State) (d : Due) : Host.Outcome State Fault Refusal :=
  match d with
  | .ext i => exec i s
  | .xPerform key tok => if key = devKey then .next (s.devPerform tok) else execXCommandPerform key tok s
  | .loadArrive key tok => execLoadDataArrival key tok s
  | .engineWrite key tok => execEngineRecordWrite key tok s
  | .waitTimeout key => execWaitTimeout key s
  | .implicitExpiry key => execImplicitWaitExpiry key s
  | .ldfeRetry key => execLdfeRetry key s
  | .chanWait key => execChannelWaitSatisfied key s
  | .flgPoll key => execFlgwaitPoll key s
  | .baysplitDone key => execBaysplitComplete key s
  | .hbarDone hitch => execHbarPhaseComplete hitch s
  | .contextFree key => execRiderContextFree key s
  | .guardCommit key => execGuardCommit key s
  | .accCopy key => execAccumulatorCopyComplete key s
  | .reinFlit stalls link flit sender => .next (s.reinReceive stalls link flit sender)
  | .lineWriteback paddock line => execLineWriteback paddock line s
  | .lineDrop stall line l0 => execCleanLineDrop stall line l0 s
  | .packetStart q => execPacketStart q s
  | .commandNop cmd => execCommandNop cmd s
  | .graphRun cmd => execGraphRun cmd s
  | .graphInstall cmd => execGraphInstall cmd s
  | .patch cmd => execPatch cmd s
  | .kernel cmd => execKernel cmd s
  | .copy cmd => execCopy cmd s
  | .flagset cmd => execFlagset cmd s
  | .flagwait cmd => execFlagwait cmd s
  | .flagwaitOk cmd => execFlagwaitSatisfied cmd s
  | .indirect cmd => execIndirect cmd s
  | .commandComplete cmd => execCommandComplete cmd s
  | .replayStart r => execReplayStart r s
  | .kernelNode r n => execKernelNodeLaunch r n s
  | .condNode r n => execConditionalNode r n s
  | .loopNode r n => execLoopNode r n s
  | .loopEnd r n => execLoopIterationEnd r n s
  | .surrogateNode r n => execSurrogateNode r n s
  | .signalNode r n => execSignalNode r n s
  | .copyNode r n => execCopyNode r n s
  | .nodeComplete r n => execNodeComplete r n s
  | .replayComplete r => execReplayComplete r s
  | .recordGrant launch => execRiderRecordGrant launch s
  | .riderPlace key => execRiderPlace key s
  | .spill key => execSpillExpiry key s
  | .preempt key => execPreemptwaitExpiry key s
  | .stopAck col key cls => execStopAcknowledge col key cls s
  | .collectLim col => execCollectlimExpiry col s
  | .saveDone col => execSaveImageComplete col s
  | .reexec launch => execRestartableReexecution launch s
  | .surrogateFallback launch tile => execSurrogateFallback launch tile s
  | .maintenanceMove stall => execMaintenanceMove stall s
  | .moveCopyDone row => execMoveCopyComplete row s
  | .faultClose => execFaultBatchClose s
  | .faultWrite => execFaultBatchWrite s
  | .splinter => .next s.splStep
  | .gangStart g => execNestGangStart g s
  | .latchFill g m => execLatchFillComplete g m s
  | .arrayStep g m => execArrayStep g m s
  | .whiffle g => execWhiffletreeAccumulate g s
  | .passBoundary g => execPassBoundary g s
  | .epilogue g => execEpilogueStore g true true s
  | .nestDrain g => execNestCollectDrain g s
  | .nestResume g => execNestResume g s
  | .capeff row => execCapeffUpdate row s
  | .credit stall => execGroomCreditRefill stall s
  | .thermal row => execThermalControlTick row s
  | .ratioStart q => execRatioChangeStart q s
  | .ratioEnd q => execRatioChangeEnd q s
  | .watchdog die => execWatchdogExpiry die s
  | .restart die => execFirmwareRestart die s
  | .retransmit dst cls => execRetransmitTimeout dst cls s
  | .romVerify => execRomVerify s
  | .bootReady => execBootReady s
  | .traceFlit link flit => execTraceFlitReceive link flit s
  | .upset u => .next (s.upset u)
  | .mcbRead key off => .next (s.mcbRead key off)
  | .mcbWrite _ off v => .next (s.mcbWrite off v)

/-! ## What a new cycle makes due (DESIGN CHOICE, log entries 1 and 2) -/

/-- A wait of a context of a kind. -/
def Ctx.waitsFor (c : Ctx) (f : WaitKind → Bool) : Bool := c.waits.any (fun w => f w.kind)

/-- A context on its stall that the collector has not stopped. -/
def Ctx.running (c : Ctx) : Bool :=
  match c.loc with
  | .on _ _ => true
  | .stopped _ _ _ | .waiting _ | .saved => false

/-- The tests of the waits of a context at the end of a cycle: conditions first, expiries after them (R170, R181, R183). -/
def Ctx.waitDues (c : Ctx) (k now : Nat) : List Due :=
  if c.waits.isEmpty || !c.running then []
  else
    (if c.waitsFor (fun w => match w with
        | .chf _ | .che _ => true
        | _ => false) then [.chanWait k] else []) ++
    (if c.waitsFor (fun w => match w with
        | .flg _ _ _ _ => true
        | _ => false) then [.flgPoll k] else []) ++
    (if c.waitsFor (fun w => match w with
        | .ldfe _ => true
        | _ => false) then [.ldfeRetry k] else []) ++
    (if c.waitsFor (fun w => match w with
        | .baysplit _ => true
        | _ => false) then [.baysplitDone k] else []) ++
    (if c.waits.any (fun w => w.pred.isSome && w.deadline ≤ now) then [.waitTimeout k] else []) ++
    (if c.waits.any (fun w => w.pred.isNone && w.deadline ≤ now) then [.implicitExpiry k] else [])

/-- The X commands of a context that could be performed (R237, R448). -/
def Ctx.cmdDues (c : Ctx) (k : Nat) : List Due :=
  c.xq.filterMap (fun x => match x.st with
    | .queued | .moving => some (.xPerform k x.tok)
    | .halted _ _ _ | .performed | .empty => none)

/-- The steps of a gang: fills that end, members from the tail to the head, each of which starts a step when it is ready, then what the
whiffletree has (R425, R429, R431 to R435). -/
def State.gangDues (s : State) (gi : Nat) (g : Gang) : List Due :=
  ((List.range g.members.length).filterMap (fun mi => (g.member mi).bind (fun m =>
    if m.fillAt.any (fun t => t ≤ s.clock) then some (.latchFill gi mi) else none))) ++
  (if g.ended || g.saved.isSome then [] else (List.range g.members.length).reverse.map (fun mi => .arrayStep gi mi)) ++
  (if g.flight.any (fun f => f.next == g.members.length && f.ready ≤ s.clock) then [.whiffle gi] else []) ++
  (if g.ended then [] else [.passBoundary gi]) ++
  (if g.stores.isEmpty then [] else [.epilogue gi]) ++
  (if g.byCollector && g.saved.isNone && !g.ended then [.nestDrain gi] else [])

/-- Fills begin where their bank is free. -/
def State.fillsBegin (s : State) : State :=
  s.gangs.foldl (fun s g => (List.range g.2.members.length).foldl (fun s mi => s.fillBegin g.1 mi) s) s

/-- The port queues of the nests run on, and NWAITs are tested (R434, R438). -/
def State.portsRun (s : State) : State :=
  (s.ctxs.filter (fun c => !c.2.nest.port.isEmpty || c.2.waitsFor (· == .nwait))).foldl (fun s c => (s.runPort c.1 5).nwaitTest c.1) s

/-- The steps of the nests. -/
def State.nestDues (s : State) : List Due :=
  (s.ctxs.filterMap (fun c => if c.2.nest.copy.any (fun x => x.2 ≤ s.clock) then some (.accCopy c.1) else none)) ++
  s.waiting.map (fun w => match w.gang with
    | some g => .nestResume g
    | none => .gangStart w.order) ++
  s.gangs.flatMap (fun g => s.gangDues g.1 g.2)

/-- The lines that are written back or dropped in this cycle (R220, R223). -/
def State.lineDues (s : State) : List Due :=
  (s.slices.flatMap (fun p => p.2.filterMap (fun l =>
    if l.dirty != 0 then
      (if l.written + writebackAfter ≤ s.clock || l.filled + dropAfter ≤ s.clock then some (.lineWriteback p.1 l.pa) else none)
    else if l.filled + dropAfter ≤ s.clock then some (.lineDrop (sliceStall p.1 l.pa) l.pa false) else none))) ++
  (s.l0.flatMap (fun e => e.2.filterMap (fun l => if l.filled + dropAfter ≤ s.clock then some (.lineDrop e.1 l.pa true) else none))) ++
  (s.ctxs.flatMap (fun c =>
    if !c.2.resident then []
    else c.2.stash.flatMap (fun t => t.lines.filterMap (fun l =>
      match l.st with
      | .dirty =>
        if l.written + writebackAfter ≤ s.clock || l.filled + dropAfter ≤ s.clock then some (.lineWriteback (stallPaddock c.2.stall) l.pk) else none
      | .clean => if l.filled + dropAfter ≤ s.clock then some (.lineDrop c.2.stall l.pk false) else none
      | .absent => none))))

/-- The dispatcher's steps: contexts to free, riders to place or to pre-empt for (R143, R148, R165). -/
def State.dispatchDues (s : State) : List Due :=
  (s.ctxs.filterMap (fun c => if c.2.retiring && !isGroom c.1 then some (.contextFree c.1) else none)) ++
  s.recordWait.map Due.recordGrant ++
  (s.waiters.flatMap (fun c => .riderPlace c.1 :: (if 6 ≤ c.2.prio && s.preemptDue c.2 then [.preempt c.1] else [])))

/-- The front end's steps: packets, GRAPH commands that wait their turn, FLAGWAITs, and watchdogs (R78, R80, R113, R128). -/
def State.frontDues (s : State) : List Due :=
  (s.cmds.filterMap (fun c =>
    if c.2.waiting && c.2.opc == 1 then some (commandDue 1 c.1 (graphInstalls c.2.desc))
    else if c.2.opc == 6 && !c.2.waiting && !c.2.done then some (.flagwaitOk c.1) else none)) ++
  ((List.range 256).filterMap (fun q => if s.queueRuns q && (s.nextPacket q).isSome then some (.packetStart q) else none)) ++
  ((List.range 4).filterMap (fun d => if bits (s.reg (.dblstat d)) 12 0 ≠ bits (s.reg (.dblstat d)) 28 16 then some (.watchdog d) else none))

/-- What comes before the steps of the arrays and the groups of a cycle: ratio changes that end; caps and credits in every cycle of a row
domain whose CYCLE is a multiple of 64 (R27, R31, R124). -/
def State.clockDues (s : State) : List Due :=
  (s.ratio.filterMap (fun r => if r.2.1 + 1400 ≤ s.clock then some (.ratioEnd r.1) else none)) ++
  ((List.range 128).filterMap (fun row =>
    if s.rowCycle row % 64 = 0 && bits ((s.capeff row).reg (.rowpwr row)) 22 16 != bits (s.reg (.rowpwr row)) 22 16 then some (.capeff row)
    else none)) ++
  (s.regs.filterMap (fun r =>
    if 0x8200000 ≤ r.1 && r.1 < 0x8201000 && s.cycle (r.1 - 0x8200000) % 64 = 0 && bits r.2 12 5 != bits r.2 4 0 then
      some (.credit (r.1 - 0x8200000))
    else none))

/-- The thermal controllers, every 100 µs (R35). -/
def State.thermalDues (s : State) : List Due := if s.clock % 70000 = 0 then (List.range 128).map (fun row => .thermal row) else []

/-- The streams with frames that have waited 3 µs, or 16 µs since their first transmission (R50). -/
def State.streamDues (s : State) : List Due :=
  s.streams.filterMap (fun x =>
    if x.2.timedOut s.clock then some (.retransmit (BitVec.ofNat 6 (x.1 / 4)) (x.1 % 4)) else none)

/-- What goes on by itself in a cycle before its steps: flits and faults that found no room, fills, port queues, launches, collections,
evictions, moves, and the checkpoint engine. -/
def State.settle (s : State) : State :=
  let s1 := ((s.reinRetry.fetchesAgain.takeFaults).nestRetire.gather).fillsBegin.portsRun
  let s2 := s1.launches.foldl (fun s l => s.launchTick l.1) s1
  let s3 := (s2.evictTick.colls.foldl (fun s c => s.collTick c.1) s2.evictTick)
  (s3.moves.foldl (fun s m => s.moveTick m.1) s3).ckTick

/-- A context whose row domain has been in the second half of a stretched cycle: what it counts in cycles is one later (R307). -/
def Ctx.later (c : Ctx) : Ctx :=
  { c with waits := c.waits.map (fun w => { w with deadline := w.deadline + 1 }),
           nest := { c.nest with copy := c.nest.copy.map (fun x => (x.1, x.2 + 1)) } }

/-- A gang some of whose members have been in the second half of a stretched cycle: their fills, their banks and the sums on their way to
them are one cycle later (R307). -/
def Gang.later (g : Gang) (rows : List Nat) : Gang :=
  let hit := fun (m : Member) => rows.contains (stallDieRow m.stall)
  { g with
    members := g.members.map (fun m =>
      if hit m then { m with fillAt := m.fillAt.map (· + 1), free0 := m.free0 + 1, free1 := m.free1 + 1 } else m),
    flight := g.flight.map (fun f => if (g.members[f.next]?).any hit then { f with ready := f.ready + 1 } else f) }

/-- The second halves of stretched cycles are over: a stretched cycle counts as one, and the next ones begin (R307, R356). -/
def State.stretchRows (s : State) : State :=
  if s.stretched.isEmpty && s.stretchNext.isEmpty then s
  else
    let rows := s.stretched
    let on := fun (c : Ctx) => c.resident && rows.contains (stallDieRow c.stall)
    { s with
      rowLag := rows.foldl (fun m r => m.put r (m.getD r 0 + 1)) s.rowLag, stretched := s.stretchNext, stretchNext := [],
      ctxs := s.ctxs.map (fun c => if on c.2 then (c.1, c.2.later) else c),
      gangs := s.gangs.map (fun g => (g.1, g.2.later rows)),
      colls := s.colls.map (fun x => if x.2.victims.any (fun k => on (s.ctx k)) then (x.1, { x.2 with start := x.2.start + 1 }) else x) }

/-- A cycle passes: the waits are tested at its end; then what home columns held is tried again, in its order of arrival, what has crossed a
die edge arrives, and what the new cycle makes due (R28, R44, R170, R181). -/
def State.advance (s : State) : State :=
  let held := s.homeWait.map (fun h => Due.xPerform h.1 h.2)
  let s0 := ({ s with clock := s.clock + 1, turn := 0, homeWait := [], shadowNow := [], headWas := [],
                           timed := s.timed.filter (fun t => s.clock + 1 < t.1) } : State).stretchRows
  let now := (s.timed.filter (fun t => t.1 ≤ s.clock + 1)).map (·.2)
  let s1 := s0.push (s0.ctxs.flatMap (fun c => c.2.waitDues c.1 s0.clock) ++ held ++ now)
  let s2 := s1.settle
  s2.push
    (s2.clockDues ++ s2.ctxs.flatMap (fun c => c.2.cmdDues c.1) ++ s2.nestDues ++ s2.dispatchDues ++
     s2.frontDues ++ (if s2.faults.isEmpty then [] else [.faultClose]) ++ s2.lineDues ++ s2.thermalDues ++ s2.streamDues)

/-- Power is on, or what is due is the power-on reset that brings it (R35, R91). -/
def State.alive (s : State) : Bool :=
  s.powered || (match s.agenda with
    | .ext .powerOnReset :: _ => true
    | _ => false)

/-- The number of the master that writes OWNREQ. -/
def ownreqMaster : Due → Option Nat
  | .ext (.claim m) => some (masterNum m)
  | .ext (.offer m _) => some (masterNum m)
  | .ext (.accept m) => some (masterNum m)
  | .ext (.release m) => some (masterNum m)
  | .ext (.registerWrite m off _ _) => if off = 0x18 then some (masterNum m) else none
  | .ext (.write _ f) => if f.type = 2 ∧ f.cls = 0 ∧ frOff f = windowBase + 0x18 then some (masterNum (.peer (f.src.setWidth 6))) else none
  | _ => none

/-- The step that is first: of the OWNREQ writes that arrive in one cycle, that of the lowest master (R72). -/
def arbiter (d : Due) (t : List Due) : Due × List Due :=
  match ownreqMaster d with
  | none => (d, t)
  | some m =>
    let best := t.foldl (fun b e => match ownreqMaster e with
      | some n => Nat.min n b
      | none => b) m
    match t.findIdx? (fun e => best < m && ownreqMaster e == some best) with
    | none => (d, t)
    | some i => (t.getD i d, d :: t.eraseIdx i)

/-- One step: the first step that is due; else the next stall of the cycle that can issue takes its slot; else the cycle ends
(DESIGN CHOICE, log entry 1). -/
def State.stepOnce (s : State) : Host.Outcome State Fault Refusal :=
  if !s.alive then .fault .powerLost
  else
    match s.agenda with
    | d :: t => ({ s with agenda := (arbiter d t).2 } : State).runDue (arbiter d t).1
    | [] =>
      match s.nextStall s.turn with
      | some st => .next (s.slot st)
      | none => .next s.advance

/-- Where withFetchWord puts an instruction: an address of a page of this module's DRAM. -/
def bootPage : Nat := 0x10000

/-- A state in which the next step issues the instruction of a word and its literal: a rider of die 0 on stall 0 whose PC names
the packet (DESIGN CHOICE, log entry 18). -/
def State.placeWord (s : State) (w : Nat) : State :=
  let c := s.ctx 0
  let c1 : Ctx := { c with loc := .on 0 0, pc := BitVec.ofNat 64 bootPage, aspace := true, waits := [], retiring := false, failed := none,
                           pendingTrap := none, forced := false, stash := [] }
  let e : TlbEntry := { asid := c.asid, va := bootPage, size := 65536, w := true, x := true, host := false, nc := false,
                        pa := s.myMod * 2 ^ 39 + bootPage }
  let m := s.mem.write bootPage (leBytes 16 (w % 2 ^ 64))
  let s1 := (({ s with powered := true, agenda := [], turn := 0, mem := m } : State).setCtx 0 c1).modSlice 0 (fun l => dropLine l bootPage)
  { s1 with stallTlb := s1.stallTlb.put 0 (e :: s1.stallTlb.getD 0 []),
            stalls := s1.stalls.put 0 { s1.stalls.getD 0 {} with last := true, idle0 := 7, yielded := none } }

end Sys2Proof.Machine
end

