-- ==== Sys2Proof/Safety.lean ====
section
/-! DEFINITION. Safety.lean: what counts as a safe run: the module keeps power, and no meaning is missing. -/

namespace Sys2Proof.Machine

/-- A step that ends in a next state. -/
def Runs (s t : State) : Prop := step s = .next t

/-- A step neither faults nor refuses. -/
def SafeStep (s : State) : Prop := ∃ t, Runs s t

end Sys2Proof.Machine
end

