-- ==== Sys2Proof/Certificates/Slice0/Obligations.lean ====
section
/-! DEFINITION. Obligations.lean: the statements for the provers, each a proposition about the machine, and the few
definitions they share. -/

namespace Sys2Proof.Claims
open Sys2Proof.Machine

/-- The guard of a word reads 1 and is not lame: the word takes effect (R322). -/
def Live (s : State) (g : PIdx) : Prop := s.me.preg g = ⟨true, 0⟩

/-- The guard of a word reads 0 and is not lame: the word is squashed (R322). -/
def Squashed (s : State) (g : PIdx) : Prop := s.me.preg g = ⟨false, 0⟩

/-- The state in which a word's results wait in the landing queue of its context and nothing else has changed (R175, R178). -/
def queue (s : State) (n : Nat) (ws : List RegWrite) : State := { s.land (landing s n ws) with raised := none }

/-- The state in which the context of the word has changed and nothing else. -/
def withMe (s : State) (f : Ctx → Ctx) : State := { s.modMe f with raised := none }

/-- The cause that a word raises at its place: its code, its INFO, and the word and pipe that name it (R288, R289). -/
def causeAt (s : State) (code info : Nat) (lame : Lame := 0) : Cause :=
  { code := BitVec.ofNat 8 code, info := BitVec.ofNat 64 info, word := s.pos.idx, pipe := s.pos.word.extractLsb' 28 2, lame := lame }

/-- The state in which a cause has been taken at the group of the word (R290, R291). -/
def taken (s : State) (c : Cause) : State := { s.takeCause s.cur c s.pos.group with raised := some (.cause c) }

end Sys2Proof.Claims

open Sys2Proof Sys2Proof.Machine Sys2Proof.Claims

/-! ## Scalar words -/

/-- R338, R340: the register forms of two sources queue their result at their latency, lame with the greatest cause of
their sources, and change nothing else. -/
def Sys2Proof.Claims.ScalarTwoSourceResults : Prop :=
  ∀ (s : State) (h : SHead) (d a b : RIdx), Live s h.g →
    let x := (s.me.sreg a).val
    let y := (s.me.sreg b).val
    let n := y.toNat % 64
    let w := fun (v : DWord) => [RegWrite.s d ⟨v, lameOf [(s.me.sreg a).lame, (s.me.sreg b).lame]⟩]
    Sys2Proof.Machine.exec (.add h d a b) s = .next (queue s 1 (w (BitVec.ofNat 64 (x.toNat + y.toNat)))) ∧
    Sys2Proof.Machine.exec (.sub h d a b) s = .next (queue s 1 (w (BitVec.ofInt 64 (x.toNat - y.toNat)))) ∧
    Sys2Proof.Machine.exec (.mul h d a b) s = .next (queue s 3 (w (BitVec.ofNat 64 (x.toNat * y.toNat)))) ∧
    Sys2Proof.Machine.exec (.mulhu h d a b) s = .next (queue s 3 (w (BitVec.ofNat 64 (x.toNat * y.toNat / 2 ^ 64)))) ∧
    Sys2Proof.Machine.exec (.and h d a b) s = .next (queue s 1 (w (x &&& y))) ∧
    Sys2Proof.Machine.exec (.or h d a b) s = .next (queue s 1 (w (x ||| y))) ∧
    Sys2Proof.Machine.exec (.xor h d a b) s = .next (queue s 1 (w (x ^^^ y))) ∧
    Sys2Proof.Machine.exec (.shl h d a b) s = .next (queue s 1 (w (BitVec.ofNat 64 (x.toNat * 2 ^ n)))) ∧
    Sys2Proof.Machine.exec (.shr h d a b) s = .next (queue s 1 (w (BitVec.ofNat 64 (x.toNat / 2 ^ n)))) ∧
    Sys2Proof.Machine.exec (.sra h d a b) s = .next (queue s 1 (w (BitVec.ofInt 64 (x.toInt / 2 ^ n)))) ∧
    Sys2Proof.Machine.exec (.min h d a b) s = .next (queue s 1 (w (if x.toInt ≤ y.toInt then x else y))) ∧
    Sys2Proof.Machine.exec (.max h d a b) s = .next (queue s 1 (w (if x.toInt ≤ y.toInt then y else x))) ∧
    Sys2Proof.Machine.exec (.minu h d a b) s = .next (queue s 1 (w (if x.toNat ≤ y.toNat then x else y))) ∧
    Sys2Proof.Machine.exec (.maxu h d a b) s = .next (queue s 1 (w (if x.toNat ≤ y.toNat then y else x)))

/-- R340, R342 to R344: the words of one source and an immediate, the constants, and SEL, which its guard does not squash. -/
def Sys2Proof.Claims.ScalarImmediateAndSelectResults : Prop :=
  ∀ (s : State) (h : SHead) (d a b : RIdx) (i : Imm 5) (k : Imm 10) (v : Word),
    let x := (s.me.sreg a).val
    let n := (immU i).toNat % 64
    let w := fun (v : DWord) => [RegWrite.s d ⟨v, (s.me.sreg a).lame⟩]
    (Live s h.g →
      Sys2Proof.Machine.exec (.addi h d a i) s = .next (queue s 1 (w (BitVec.ofInt 64 (x.toInt + (immS i).toInt)))) ∧
      Sys2Proof.Machine.exec (.andi h d a i) s = .next (queue s 1 (w (x &&& immS i))) ∧
      Sys2Proof.Machine.exec (.ori h d a i) s = .next (queue s 1 (w (x ||| immS i))) ∧
      Sys2Proof.Machine.exec (.xori h d a i) s = .next (queue s 1 (w (x ^^^ immS i))) ∧
      Sys2Proof.Machine.exec (.shli h d a i) s = .next (queue s 1 (w (BitVec.ofNat 64 (x.toNat * 2 ^ n)))) ∧
      Sys2Proof.Machine.exec (.shri h d a i) s = .next (queue s 1 (w (BitVec.ofNat 64 (x.toNat / 2 ^ n)))) ∧
      Sys2Proof.Machine.exec (.srai h d a i) s = .next (queue s 1 (w (BitVec.ofInt 64 (x.toInt / 2 ^ n)))) ∧
      (∃ z : Nat, z ≤ 64 ∧ x.toNat < 2 ^ (64 - z) ∧ (z < 64 → 2 ^ (63 - z) ≤ x.toNat) ∧
        Sys2Proof.Machine.exec (.clz h d a) s = .next (queue s 1 (w (BitVec.ofNat 64 z)))) ∧
      Sys2Proof.Machine.exec (.popc h d a) s =
        .next (queue s 1 (w (BitVec.ofNat 64 ((List.range 64).filter (fun j => x.getLsbD j)).length))) ∧
      Sys2Proof.Machine.exec (.movi h d k) s = .next (queue s 1 [.s d ⟨immS k, 0⟩]) ∧
      Sys2Proof.Machine.exec (.movl h d v) s = .next (queue s 1 [.s d ⟨BitVec.ofNat 64 v.toNat, 0⟩]) ∧
      Sys2Proof.Machine.exec (.nop h) s = .next { s with raised := none }) ∧
    Sys2Proof.Machine.exec (.sel h d a b) s =
      .next (queue s 1 [.s d ⟨if (s.me.preg h.g).val then x else (s.me.sreg b).val,
        lameOf [(s.me.sreg a).lame, (s.me.sreg b).lame, (s.me.preg h.g).lame]⟩])

/-- R340, R341: DIVU and REMU land 20 groups on, a divisor of 0 giving all ones and the dividend; while an earlier divide of the
context has not landed either raises ILLEGAL_ENCODING. -/
def Sys2Proof.Claims.DivideAndRemainder : Prop :=
  ∀ (s : State) (h : SHead) (d a b : RIdx),
    let x := (s.me.sreg a).val
    let y := (s.me.sreg b).val
    let r := fun (v : DWord) =>
      ({ s.land { landing s 20 [.s d ⟨v, lameOf [(s.me.sreg a).lame, (s.me.sreg b).lame]⟩] with divide := true } with raised := none } : State)
    (Live s h.g → s.me.land.any (fun e => e.divide) = false →
      Sys2Proof.Machine.exec (.divu h d a b) s =
        .next (r (if y.toNat = 0 then 0xFFFFFFFFFFFFFFFF else BitVec.ofNat 64 (x.toNat / y.toNat))) ∧
      Sys2Proof.Machine.exec (.remu h d a b) s = .next (r (BitVec.ofNat 64 (x.toNat % y.toNat)))) ∧
    (s.me.land.any (fun e => e.divide) = true →
      Sys2Proof.Machine.exec (.divu h d a b) s = .next (taken s (causeAt s 1 s.pos.word.toNat)) ∧
      Sys2Proof.Machine.exec (.remu h d a b) s = .next (taken s (causeAt s 1 s.pos.word.toNat)))

/-- Scalar words queue their results at their latency; SEL is not squashed; divides: the statements above together. -/
def Obligations.ScalarResults : Prop :=
  Claims.ScalarTwoSourceResults ∧ Claims.ScalarImmediateAndSelectResults ∧ Claims.DivideAndRemainder

/-- R345 to R347, R363, R372: the words that write a predicate do so at g+2. CHKL clears the lame bit of its source beside it. -/
def Sys2Proof.Claims.PredicateResults : Prop :=
  ∀ (s : State) (h : SHead) (p q r : PIdx) (a b : RIdx) (i : Imm 5) (m : Byte), Live s h.g →
    let x := (s.me.sreg a).val
    let y := (s.me.sreg b).val
    let two := fun (v : Bool) => [RegWrite.p p ⟨v, lameOf [(s.me.sreg a).lame, (s.me.sreg b).lame]⟩]
    let one := fun (v : Bool) => [RegWrite.p p ⟨v, (s.me.sreg a).lame⟩]
    let u := (s.me.preg q).val
    let v := (s.me.preg r).val
    let log := fun (v : Bool) => [RegWrite.p p ⟨v, lameOf [(s.me.preg q).lame, (s.me.preg r).lame]⟩]
    Sys2Proof.Machine.exec (.cmpeq h p a b) s = .next (queue s 2 (two (decide (x.toNat = y.toNat)))) ∧
    Sys2Proof.Machine.exec (.cmpne h p a b) s = .next (queue s 2 (two (decide (x.toNat ≠ y.toNat)))) ∧
    Sys2Proof.Machine.exec (.cmplt h p a b) s = .next (queue s 2 (two (decide (x.toInt < y.toInt)))) ∧
    Sys2Proof.Machine.exec (.cmpltu h p a b) s = .next (queue s 2 (two (decide (x.toNat < y.toNat)))) ∧
    Sys2Proof.Machine.exec (.cmpge h p a b) s = .next (queue s 2 (two (decide (y.toInt ≤ x.toInt)))) ∧
    Sys2Proof.Machine.exec (.cmpgeu h p a b) s = .next (queue s 2 (two (decide (y.toNat ≤ x.toNat)))) ∧
    Sys2Proof.Machine.exec (.cmpeqi h p a i) s = .next (queue s 2 (one (decide (x.toInt = (immS i).toInt)))) ∧
    Sys2Proof.Machine.exec (.cmplti h p a i) s = .next (queue s 2 (one (decide (x.toInt < (immS i).toInt)))) ∧
    Sys2Proof.Machine.exec (.pfrom h p a) s = .next (queue s 2 (one (decide (x.toNat ≠ 0)))) ∧
    Sys2Proof.Machine.exec (.plog h .and p q r) s = .next (queue s 2 (log (u && v))) ∧
    Sys2Proof.Machine.exec (.plog h .or p q r) s = .next (queue s 2 (log (u || v))) ∧
    Sys2Proof.Machine.exec (.plog h .xor p q r) s = .next (queue s 2 (log (u ^^ v))) ∧
    Sys2Proof.Machine.exec (.plog h .andn p q r) s = .next (queue s 2 (log (u && !v))) ∧
    Sys2Proof.Machine.exec (.feat h p m) s =
      .next (queue s 2 [.p p ⟨decide (∀ j : Fin 8, m.getLsbD j = true → s.me.csr.declfeat.getLsbD j = true), 0⟩]) ∧
    Sys2Proof.Machine.exec (.chkl h p a) s =
      .next (withMe (queue s 2 [.p p ⟨decide ((s.me.sreg a).lame ≠ 0), 0⟩])
        (fun c => { c with f := { c.f with s := rset c.f.s a ⟨(rget c.f.s a).val, 0⟩ } }))

/-- R348, R350 to R352, R355, R373: targets, copies from other files, the control registers and the cycle counter as sources. -/
def Sys2Proof.Claims.CopiesIntoScalars : Prop :=
  ∀ (s : State) (h : SHead) (d a b : RIdx) (j : JIdx) (k : Imm 10) (n : BitVec 10), Live s h.g →
    let L := s.me.vt.etype.lanes
    let w := s.me.vt.etype.width
    let v := s.me.vreg (s.me.window a)
    let i := (s.me.sreg b).val.toNat % L
    let code := (lanes w v.val).getD i 0
    Sys2Proof.Machine.exec (.setj h j k) s =
      .next (queue s 1 [.j j ⟨BitVec.ofInt 64 ((s.pos.addr.toInt + 4 * (immS k).toInt) / 4 * 4 % 2 ^ 49), 0⟩]) ∧
    Sys2Proof.Machine.exec (.sfroma h d a) s = .next (queue s 2 [.s d (s.me.areg a)]) ∧
    Sys2Proof.Machine.exec (.sfromn h d a) s = .next (queue s 2 [.s d (s.me.nreg a)]) ∧
    (s.me.window a < s.me.vregs →
      Sys2Proof.Machine.exec (.sfromv h d a b) s = .next (queue s 4 [.s d
        ⟨if s.me.vt.etype.isInt then BitVec.ofInt 64 (if code < 2 ^ (w - 1) then (code : Int) else code - 2 ^ w) else BitVec.ofNat 64 code,
         lameOf [v.lame, (s.me.sreg b).lame]⟩])) ∧
    Sys2Proof.Machine.exec (.rdcyc h d) s = .next (queue s 1 [.s d ⟨BitVec.ofNat 64 s.clock, 0⟩]) ∧
    (n.toNat < 0x80 ∨ groomKey ≤ s.cur → Sys2Proof.Machine.exec (.csrr h d n) s = .next (queue s 1 [.s d ⟨s.csrValue s.cur n.toNat, 0⟩])) ∧
    (0x80 ≤ n.toNat → s.cur < groomKey → Sys2Proof.Machine.exec (.csrr h d n) s = .next (taken s (causeAt s 5 n.toNat)))

/-- Predicates at g+2, and copies into scalars from other files, CSRs and the cycle counter: the statements above together. -/
def Obligations.PredicatesAndCopies : Prop :=
  Claims.PredicateResults ∧ Claims.CopiesIntoScalars

/-! ## Control flow -/

/-- R189, R323, R491, R165: what each next-address selector does to the rider. LOOP rotates the window region as it loops back; a
selector that needs a loop or a link and finds none, and a ninth CALL, raise ILLEGAL_CONTEXT; a jump or a call through a lame register is a
consuming use of register 96 + jA (R288, R300). -/
def Sys2Proof.Claims.SelectorsChooseTheNextGroup : Prop :=
  ∀ (s : State) (j : JIdx),
    let rotated := if s.me.rotSize = 0 then s.me.csr.vrot else
      setBits s.me.csr.vrot 12 8 ((s.me.rotBase + s.me.rotSize - 1) % s.me.rotSize)
    Sys2Proof.Machine.exec .seq s = .next (withMe s (fun c => { c with pc := s.pos.succ })) ∧
    (s.me.jlame j = 0 → Sys2Proof.Machine.exec (.jmp j) s = .next (withMe s (fun c => { c with pc := s.me.jreg j }))) ∧
    (s.me.jlame j ≠ 0 →
      Sys2Proof.Machine.exec (.jmp j) s = .next (taken s (causeAt s 7 ((s.me.jlame j).toNat + 256 * (96 + j.toNat)) (s.me.jlame j))) ∧
      (s.me.links.length < 8 →
        Sys2Proof.Machine.exec (.call j) s = .next (taken s (causeAt s 7 ((s.me.jlame j).toNat + 256 * (96 + j.toNat)) (s.me.jlame j))))) ∧
    (s.me.jlame j = 0 → s.me.links.length < 8 →
      Sys2Proof.Machine.exec (.call j) s = .next (withMe s (fun c => { c with pc := s.me.jreg j, links := s.pos.succ :: s.me.links }))) ∧
    (8 ≤ s.me.links.length → Sys2Proof.Machine.exec (.call j) s = .next (taken s (causeAt s 2 0))) ∧
    (∀ a t, s.me.links = a :: t → Sys2Proof.Machine.exec .ret s = .next (withMe s (fun c => { c with pc := a, links := t }))) ∧
    (s.me.links = [] → Sys2Proof.Machine.exec .ret s = .next (taken s (causeAt s 2 0))) ∧
    (∀ e t, s.me.loops = e :: t →
      Sys2Proof.Machine.exec .brk s = .next (withMe s (fun c => { c with pc := e.exit, loops := t })) ∧
      (2 ≤ e.count.toNat →
        Sys2Proof.Machine.exec .loop s = .next (withMe s (fun c => { c with
          pc := e.head, loops := { e with count := e.count - 1 } :: t,
          csr := { c.csr with vrot := rotated } }))) ∧
      (e.count.toNat ≤ 1 →
        Sys2Proof.Machine.exec .loop s = .next (withMe s (fun c => { c with pc := s.pos.succ, loops := t })))) ∧
    (s.me.loops = [] →
      Sys2Proof.Machine.exec .loop s = .next (taken s (causeAt s 2 0)) ∧
      Sys2Proof.Machine.exec .brk s = .next (taken s (causeAt s 2 0))) ∧
    Sys2Proof.Machine.exec .yield s =
      .next { withMe s (fun c => { c with pc := s.pos.succ }) with
              stalls := s.stalls.put s.me.stall { s.stalls.getD s.me.stall {} with yielded := some s.me.slot } } ∧
    (s.reg .lcstate &&& 7 ≠ 2 →
      Sys2Proof.Machine.exec .waitbrk s = .next (withMe s (fun c => { c with
        pc := s.pos.succ,
        waits := c.waits ++ [{ kind := .waitbrk, pred := none, limit := s.pos.limit, deadline := s.clock + s.pos.limit }] }))) ∧
    (s.reg .lcstate &&& 7 = 2 →
      Sys2Proof.Machine.exec .waitbrk s = .next (withMe s (fun c => { c with pc := s.pos.succ }))) ∧
    (s.me.nest.owes = none →
      Sys2Proof.Machine.exec .stop s =
        .next (withMe (s.leaveHitch s.cur) (fun c => { c with retiring := true, pendingTrap := none }))) ∧
    (∀ i, s.me.nest.owes = some i → Sys2Proof.Machine.exec .stop s = .next (taken s (causeAt s 8 i.toNat)))

/-- R189, R349: LOOPR pushes count, head, exit and initial count, the head being the packet after its own, and goes on at the
sequential successor; a count of 0 goes to the exit; a nonzero count at depth six raises ILLEGAL_CONTEXT; a lame count is a consuming use. -/
def Sys2Proof.Claims.LoopsAreEntered : Prop :=
  ∀ (s : State) (h : SHead) (a : RIdx) (j : JIdx) (n : DWord), Live s h.g →
    let head := BitVec.ofNat 64 (s.pos.addr.toNat / 16 * 16 + 16)
    (s.me.sreg a = ⟨0, 0⟩ → s.me.jlame j = 0 →
      Sys2Proof.Machine.exec (.loopr h a j) s = .next (withMe s (fun c => { c with pc := s.me.jreg j }))) ∧
    (s.me.sreg a = ⟨n, 0⟩ → n ≠ 0 → s.me.loops.length < 6 → s.me.jlame j = 0 →
      Sys2Proof.Machine.exec (.loopr h a j) s = .next (withMe s (fun c => { c with
        pc := s.pos.succ, loops := { count := n, head := head, exit := s.me.jreg j, init := n } :: s.me.loops }))) ∧
    (n ≠ 0 → (s.me.sreg a).val = n → 6 ≤ s.me.loops.length →
      Sys2Proof.Machine.exec (.loopr h a j) s = .next (taken s (causeAt s 2 0))) ∧
    ((s.me.sreg a).lame ≠ 0 → s.me.loops.length < 6 →
      Sys2Proof.Machine.exec (.loopr h a j) s =
        .next (taken s (causeAt s 7 ((s.me.sreg a).lame.toNat + 256 * a.toNat) (s.me.sreg a).lame)))

/-- Each next-address selector, and LOOPR: the statements above together. -/
def Obligations.SelectorsAndLoops : Prop :=
  Claims.SelectorsChooseTheNextGroup ∧ Claims.LoopsAreEntered

/-! ## Control registers -/

/-- R352, R353, R367 to R370: what CSRW writes in a user context, with the causes it raises, and the words that set up the window,
the vector type and the generator. -/
def Sys2Proof.Claims.ControlRegisterWrites : Prop :=
  ∀ (s : State) (h : SHead) (d : RIdx) (v : DWord), Live s h.g → s.cur < groomKey →
    let w := fun (n : BitVec 10) (f : Csrs → Csrs) =>
      Sys2Proof.Machine.exec (.csrw h d n) s = .next (withMe s (fun c => { c with csr := f c.csr }))
    (s.me.sreg d = ⟨v, 0⟩ →
      (bits v 6 4 ≠ 4 ∨ s.me.csr.declfeat.getLsbD 3 = true →
        w 0x010 (fun c => { c with vtype := vtypeWord (bits v 2 0) (bits v 6 4) (bit v 7) (bits v 10 8) })) ∧
      (bits v 6 4 = 4 → s.me.csr.declfeat.getLsbD 3 = false →
        Sys2Proof.Machine.exec (.csrw h d 0x010) s = .next (taken s (causeAt s 4 8))) ∧
      w 0x011 (fun c => { c with vwb := v &&& 0x7FF }) ∧
      w 0x012 (fun c => { c with vrot := BitVec.ofNat 64 (Nat.min 32 (v.toNat % 64)) }) ∧
      w 0x013 (fun c => { c with vflags := c.vflags &&& ~~~(v &&& 0x3F) }) ∧
      w 0x014 (fun c => { c with waitlim := BitVec.ofNat 64 (Nat.max 1 (v.toNat % 2 ^ 24)) }) ∧
      w 0x015 (fun c => { c with deferq := BitVec.ofNat 64 (v.toNat % 2 ^ 21 / 16 * 16) }) ∧
      w 0x020 (fun c => { c with trapvec := BitVec.ofNat 64 (v.toNat % 2 ^ 49 / 16 * 16) }) ∧
      (∀ n : BitVec 10, n ∈ [0x000, 0x001, 0x002, 0x003, 0x004, 0x005, 0x008, 0x009, 0x00A, 0x00B, 0x022] → w n id) ∧
      (s.me.csr.status.getLsbD 3 = true →
        w 0x021 (fun c => { c with trappc := v }) ∧ w 0x023 id ∧ w 0x024 (fun c => { c with ssw := v }))) ∧
    (∀ n : BitVec 10, n ∈ [0x021, 0x023, 0x024] → s.me.csr.status.getLsbD 3 = false →
      Sys2Proof.Machine.exec (.csrw h d n) s = .next (taken s (causeAt s 2 0))) ∧
    (∀ n : BitVec 10, n = 0x006 ∨ n = 0x007 ∨ 0x080 ≤ n →
      Sys2Proof.Machine.exec (.csrw h d n) s = .next (taken s (causeAt s 5 n.toNat))) ∧
    (∀ n : BitVec 10, n ∈ [0x011, 0x012, 0x013, 0x014, 0x015, 0x020] → (s.me.sreg d).lame ≠ 0 →
      Sys2Proof.Machine.exec (.csrw h d n) s =
        .next (taken s (causeAt s 7 ((s.me.sreg d).lame.toNat + 256 * d.toNat) (s.me.sreg d).lame)))

/-- R193, R266, R274, R354, R367 to R370: VWIN, VROT, SETVT and SRSEED write the registers of the vector set-up of their context and
nothing else; a window base above 2,047 raises WINDOW, and stochastic rounding needs SROUND. -/
def Sys2Proof.Claims.VectorSetUpWords : Prop :=
  ∀ (s : State) (h : SHead) (a b : RIdx) (i : Imm 10) (n : BitVec 10) (et rm : BitVec 3) (sat : Bool) (k : KIdx) (x y : DWord), Live s h.g →
    let w := fun (i : Instr) (f : Csrs → Csrs) => Sys2Proof.Machine.exec i s = .next (withMe s (fun c => { c with csr := f c.csr }))
    let base := (immU i).toNat
    let vt := BitVec.ofNat 64
      ((if et.toNat < 6 then et.toNat else 0) + 16 * (if rm.toNat < 5 then rm.toNat else 0) + 128 * sat.toNat + 256 * k.toNat)
    (base ≤ 2047 → w (.vwin h i) (fun c => { c with vwb := BitVec.ofNat 64 base })) ∧
    (2047 < base → Sys2Proof.Machine.exec (.vwin h i) s = .next (taken s (causeAt s 10 (base % 2048 * 65536)))) ∧
    w (.vrot h n) (fun c => { c with vrot := BitVec.ofNat 64 (Nat.min 32 n.toNat) }) ∧
    (rm ≠ 4 ∨ s.me.csr.declfeat.getLsbD 3 = true →
      w (.setvt h et rm sat k) (fun c => { c with vtype := vt })) ∧
    (s.me.csr.declfeat.getLsbD 3 = true → s.me.sreg a = ⟨x, 0⟩ → s.me.sreg b = ⟨y, 0⟩ →
      Sys2Proof.Machine.exec (.srseed h a b) s = .next (withMe s (fun c => { c with srSeed := (x, y), sr := [] }))) ∧
    (s.me.csr.declfeat.getLsbD 3 = false →
      Sys2Proof.Machine.exec (.srseed h a b) s = .next (taken s (causeAt s 4 8)) ∧
      Sys2Proof.Machine.exec (.setvt h et 4 sat k) s = .next (taken s (causeAt s 4 8)))

/-- CSRW, VWIN, VROT, SETVT and SRSEED write their registers and nothing else: the statements above together. -/
def Obligations.ControlRegistersAndVectorSetUp : Prop :=
  Claims.ControlRegisterWrites ∧ Claims.VectorSetUpWords

/-! ## Traps and returns -/

/-- R288, R291 to R293: a cause taken by a handler is one event. The trap registers name the cause and the group, SSW takes STATUS as it
reads, the frame takes the unlanded results, the stacks, the window and guarded mode, HANDLER is set and CONTAIN suspended, and the
handler's first group is at TRAPVEC. No other context, no memory and no module register changes. -/
def Sys2Proof.Claims.TrapEntryIsOneEvent : Prop :=
  ∀ (s : State) (k : Nat) (t : Cause) (pc : DWord),
    let c := s.ctx k
    let u := s.takeCause k t pc
    k < groomKey → c.csr.status.getLsbD 3 = false → c.csr.trapvec ≠ 0 → t.code ≠ 4 → t.code ≠ 8 →
    (t.code ≠ 7 ∨ c.csr.status.getLsbD 4 = false) →
      u.ctx k = { c with
        pc := c.csr.trapvec, loops := [], links := [], land := [], forced := false,
        frame := some { replay := c.land, loops := c.loops, links := c.links, vwb := c.csr.vwb, vrot := c.csr.vrot,
                        guarded := c.csr.status.getLsbD 5 },
        csr := { c.csr with
          trappc := pc, trapinfo := t.info, ssw := c.statusWord, vrot := 0,
          trapcause := BitVec.ofNat 64 (t.code.toNat + 2 ^ 16 * t.word.toNat + 2 ^ 18 * t.pipe.toNat),
          status := (c.csr.status ||| 8) &&& ~~~16 } } ∧
      u.mem = s.mem ∧ u.regs = s.regs ∧ ∀ j, j ≠ k → u.ctx j = s.ctx j

/-- R291, R294, R296, R304: a cause that no handler takes. In handler mode, or with TRAPVEC zero, it ends the rider, which retires with
the cause and leaves no entry unlanded; a consuming use inside a containment region unwinds; a groom context that cannot take its cause
restarts the firmware of its die. -/
def Sys2Proof.Claims.CausesWithoutAHandler : Prop :=
  ∀ (s : State) (k : Nat) (t : Cause) (pc : DWord),
    let c := s.ctx k
    let u := s.takeCause k t pc
    (k < groomKey → t.code ≠ 4 →
      (c.csr.status.getLsbD 3 = true ∨ (c.csr.trapvec = 0 ∧ (t.code ≠ 7 ∨ c.csr.status.getLsbD 4 = false))) →
        (u.ctx k).failed = some t ∧ (u.ctx k).retiring = true ∧ (u.ctx k).land = [] ∧ (u.ctx k).frame = none ∧ (u.ctx k).waits = []) ∧
    (t.code = 7 → c.csr.status.getLsbD 3 = false → c.csr.status.getLsbD 4 = true → c.xq = [] → ∀ n, c.snap = some n →
        (u.ctx k).pc = n.target ∧ (u.ctx k).f = { c.f with s := n.s } ∧ (u.ctx k).loops = n.loops ∧ (u.ctx k).links = n.links ∧
        (u.ctx k).csr.vwb = n.vwb ∧ (u.ctx k).csr.vrot = n.vrot ∧ (u.ctx k).land = [] ∧ (u.ctx k).snap = none ∧
        (u.ctx k).csr.status = c.csr.status &&& ~~~16 ∧
        bits (u.ctx k).csr.contstat 48 0 = pc.toNat % 2 ^ 49 ∧ bits (u.ctx k).csr.contstat 50 49 = t.lame.toNat ∧
        bits (u.ctx k).csr.contstat 51 51 = 1 ∧
        bits (u.ctx k).csr.contstat 63 52 = Nat.min 0xFFF (bits c.csr.contstat 63 52 + 1)) ∧
    (groomKey ≤ k → t.code ≠ 8 →
      (c.csr.status.getLsbD 3 = true ∨ (c.csr.trapvec = 0 ∧ (t.code ≠ 7 ∨ c.csr.status.getLsbD 4 = false))) →
        u.agenda = s.agenda ++ [.restart (stallQuarter (k - groomKey))] ∧ u.ctxs = s.ctxs)

/-- R361: TRAP lets its selector act first; with STOP the rider retires and no trap is taken; otherwise SOFTWARE is taken at the next
group that the selector names, at once when no wait of its group is left, and when they have ended otherwise. -/
def Sys2Proof.Claims.TrapWordTakesSoftware : Prop :=
  ∀ (s : State) (h : SHead) (i : BitVec 10) (j : JIdx), Live s h.g →
    let cause : Cause := { code := 9, info := BitVec.ofNat 64 i.toNat, word := s.pos.idx, pipe := 0 }
    let at' := fun (pc : DWord) => s.modMe (fun c => { c with pc := pc })
    (h.nx = .seq → s.me.waits = [] → s.me.pendingTrap = none →
      Sys2Proof.Machine.exec (.trap h i) s = .next { (at' s.pos.succ).takeCause s.cur cause s.pos.succ with raised := none }) ∧
    (h.nx = .jmp j → s.me.jlame j = 0 → s.me.waits = [] → s.me.pendingTrap = none →
      Sys2Proof.Machine.exec (.trap h i) s = .next { (at' (s.me.jreg j)).takeCause s.cur cause (s.me.jreg j) with raised := none }) ∧
    (h.nx = .seq → s.me.waits ≠ [] →
      Sys2Proof.Machine.exec (.trap h i) s =
        .next (withMe s (fun c => { c with pc := s.pos.succ, pendingTrap := some (cause, s.pos.succ) }))) ∧
    (h.nx = .stop → s.me.nest.owes = none →
      Sys2Proof.Machine.exec (.trap h i) s =
        .next (withMe (s.leaveHitch s.cur) (fun c => { c with retiring := true, pendingTrap := none })))

/-- R294, R295: TRET restores the stacks, the window, STATUS and the replay queue, and goes on at TRAPPC; a frame it refuses leaves the
handler at TRAPVEC with HCAUSE 3; outside handler mode it raises ILLEGAL_CONTEXT. -/
def Sys2Proof.Claims.TrapReturnRestoresTheFrame : Prop :=
  ∀ (s : State) (h : SHead), Live s h.g →
    let c := s.me
    let w := c.csr.ssw
    let depth := w.toNat % 8
    let base := bits w 23 16
    (c.csr.status.getLsbD 3 = false → Sys2Proof.Machine.exec (.tret h) s = .next (taken s (causeAt s 2 0))) ∧
    (c.csr.status.getLsbD 3 = true → ∀ f, c.frame = some f →
      let good := bits w 15 9 = 0 ∧ bits w 63 24 = 0 ∧ w.getLsbD 3 = false ∧ depth ≤ f.loops.length ∧ w.getLsbD 5 = f.guarded ∧
        bits w 8 6 = bits c.csr.riderid 50 48 ∧ (w.getLsbD 4 = true → c.snap.isSome = true) ∧
        base < Nat.max 1 (bits f.vrot 5 0) ∧ bits c.csr.trappc 1 0 = 0 ∧ bits c.csr.trappc 63 49 = 0
      (good → c.land = [] →
        Sys2Proof.Machine.exec (.tret h) s = .next (withMe s (fun c => { c with
          pc := c.csr.trappc, frame := none, land := f.replay, loops := f.loops.drop (f.loops.length - depth), links := f.links,
          snap := if w.getLsbD 4 then c.snap else none,
          csr := { c.csr with vwb := f.vwb, vrot := setBits f.vrot 12 8 base, status := w } }))) ∧
      (¬ good →
        Sys2Proof.Machine.exec (.tret h) s = .next (withMe s (fun c => { c with
          pc := c.csr.trapvec, csr := { c.csr with trapcause := setBits c.csr.trapcause 15 8 3 } }))))

/-- Taking a cause, causes that nothing takes, TRAP, and TRET: the statements above together. -/
def Obligations.TrapsAndReturns : Prop :=
  Claims.TrapEntryIsOneEvent ∧ Claims.CausesWithoutAHandler ∧ Claims.TrapWordTakesSoftware ∧ Claims.TrapReturnRestoresTheFrame

/-! ## Riders, hitches and containment -/

/-- R168, R169, R365: HITCH takes the lowest free entry of its die or joins a live one, UNHITCH leaves, and HBAR arrives and blocks; each
is ILLEGAL_CONTEXT in a groom context and HITCH where R169 names a failure. -/
def Sys2Proof.Claims.HitchWords : Prop :=
  ∀ (s : State) (h : SHead) (d a : RIdx) (p : PIdx) (t : Imm 10) (e key : Nat) (x : Hitch) (id : DWord), Live s h.g →
    let die := bits s.me.csr.riderid 17 16
    let made := s.makeHitch (e * 4 + die) [s.cur]
    let own := hitchId (e * 4 + die) (made.hitchGen (e * 4 + die))
    let joined : State := { s with hitches := s.hitches.put key { x with members := setAdd x.members s.cur } }
    let wait : Wait := { kind := .hbar, pred := some p, limit := (immU t).toNat, deadline := s.clock + 1 + (immU t).toNat,
                         seq := s.seqNow, word := s.pos.word, lit := s.pos.lit }
    (s.cur < groomKey → s.hitchOf s.cur = none → s.freeHitch die = some e →
      Sys2Proof.Machine.exec (.hitchCreate h d) s = .next (queue made 4 [.s d ⟨own, 0⟩, .hitch own])) ∧
    (s.cur < groomKey → (s.hitchOf s.cur).isSome ∨ s.freeHitch die = none →
      Sys2Proof.Machine.exec (.hitchCreate h d) s = .next (taken s (causeAt s 12 0))) ∧
    (s.cur < groomKey → s.hitchOf s.cur = none → s.me.sreg a = ⟨id, 0⟩ → s.liveHitch id = some (key, x) → x.members.length < 4096 →
      Sys2Proof.Machine.exec (.hitchJoin h d a) s = .next (queue joined 4 [.s d ⟨hitchId key x.gen, 0⟩, .hitch (hitchId key x.gen)])) ∧
    (s.cur < groomKey → s.me.sreg a = ⟨id, 0⟩ → (s.hitchOf s.cur).isSome ∨ s.liveHitch id = none →
      Sys2Proof.Machine.exec (.hitchJoin h d a) s = .next (taken s (causeAt s 12 id.toNat))) ∧
    (s.cur < groomKey → s.hitchOf s.cur = some key →
      Sys2Proof.Machine.exec (.unhitch h) s = .next { s.leaveHitch s.cur with raised := none } ∧
      ∃ u, Sys2Proof.Machine.exec (.hbar h p t) s = .next u ∧ u.me = { s.me with waits := s.me.waits ++ [wait] } ∧
        (∀ y, s.hitches.get? key = some y → u.hitches.get? key = some { y with arrived := setAdd y.arrived s.cur })) ∧
    (s.cur < groomKey → s.hitchOf s.cur = none →
      Sys2Proof.Machine.exec (.unhitch h) s = .next (taken s (causeAt s 12 0)) ∧
      Sys2Proof.Machine.exec (.hbar h p t) s = .next (taken s (causeAt s 12 0))) ∧
    (groomKey ≤ s.cur → ∀ i ∈ [Instr.hitchCreate h d, .hitchJoin h d a, .unhitch h, .hbar h p t],
      Sys2Proof.Machine.exec i s = .next (taken s (causeAt s 2 0)))

/-- R166, R364: SPAWN makes one rider in the pool of its parent's die that starts at jA with s1 and s2 as given and s3 zero, waits for the
dispatcher, and belongs to its parent's launch; sD takes its RIDERID, or all ones when no record is free. -/
def Sys2Proof.Claims.SpawnCreatesARider : Prop :=
  ∀ (s : State) (h : SHead) (d b : RIdx) (j : JIdx) (x y : DWord), Live s h.g → s.cur < groomKey → s.me.csr.status.getLsbD 5 = false →
    s.me.sreg d = ⟨x, 0⟩ → s.me.sreg b = ⟨y, 0⟩ → s.me.jlame j = 0 →
    let die := bits s.me.csr.riderid 17 16
    (s.recordsHeld die = false → ∀ slot, s.freeRecord die = some slot → riderKey die slot ≠ s.cur →
      ∃ t c, Sys2Proof.Machine.exec (.spawn h d j b) s = .next t ∧ t.ctxs.get? (riderKey die slot) = some c ∧
        c.pc = s.me.jreg j ∧ c.sreg 1 = ⟨x, 0⟩ ∧ c.sreg 2 = ⟨y, 0⟩ ∧ c.sreg 3 = ⟨0, 0⟩ ∧ c.loc = .waiting s.ids ∧
        c.launch = s.me.launch ∧ c.vregs = s.me.vregs ∧ c.nbays = s.me.nbays ∧ c.tileX = y.toNat % 65536 ∧ c.tileY = 1 ∧ c.bound = none ∧
        t.me.land = insertLanding s.me.land (landing s 4 [.s d ⟨c.csr.riderid, 0⟩]) ∧
        bits c.csr.riderid 15 0 = slot % 65536 ∧ bits c.csr.riderid 17 16 = die ∧
        t.mem = s.mem ∧ t.regs = s.regs ∧ t.hitches = s.hitches) ∧
    ((s.recordsHeld die = true ∨ s.freeRecord die = none) →
      Sys2Proof.Machine.exec (.spawn h d j b) s = .next (queue s 4 [.s d ⟨BitVec.allOnes 64, 0⟩]))

/-- R303, R371: CONTAIN snapshots the scalars, the stacks, the window and its target and opens the region; ENDCONT discards the snapshot
and closes it; each raises ILLEGAL_CONTEXT where the other is due, and CONTAIN in handler mode too. -/
def Sys2Proof.Claims.ContainmentRegions : Prop :=
  ∀ (s : State) (h : SHead) (j : JIdx), Live s h.g →
    let c := s.me
    (c.csr.status.getLsbD 4 = false → c.csr.status.getLsbD 3 = false → c.jlame j = 0 →
      Sys2Proof.Machine.exec (.contain h j) s = .next (withMe s (fun c => { c with
        snap := some { s := c.f.s, loops := c.loops, links := c.links, vwb := c.csr.vwb, vrot := c.csr.vrot, target := s.me.jreg j },
        csr := { c.csr with status := c.csr.status ||| 16 } }))) ∧
    (c.csr.status.getLsbD 4 = true →
      Sys2Proof.Machine.exec (.endcont h) s = .next (withMe s (fun c => { c with
        snap := none, csr := { c.csr with status := c.csr.status &&& ~~~16 } }))) ∧
    (c.csr.status.getLsbD 4 = true ∨ c.csr.status.getLsbD 3 = true →
      Sys2Proof.Machine.exec (.contain h j) s = .next (taken s (causeAt s 2 0))) ∧
    (c.csr.status.getLsbD 4 = false → Sys2Proof.Machine.exec (.endcont h) s = .next (taken s (causeAt s 2 0)))

/-- HITCH, UNHITCH, HBAR, SPAWN (lowest free entry and record: log entry 16), CONTAIN and ENDCONT: the statements above together. -/
def Obligations.HitchesAndSpawn : Prop :=
  Claims.HitchWords ∧ Claims.SpawnCreatesARider ∧ Claims.ContainmentRegions

/-! ## Vector words -/

namespace Sys2Proof.Claims
open Sys2Proof.Machine

/-- Lane j of a window register, as a code of the type in force (R262). -/
def laneOf (s : State) (i : RIdx) (j : Nat) : Nat := (lanes s.me.vt.etype.width (s.me.vreg (s.me.window i)).val).getD j 0

/-- The lame cause of a window register. -/
def wLame (s : State) (i : RIdx) : Lame := (s.me.vreg (s.me.window i)).lame

/-- A window name lies in the allocation (R194). -/
def InWindow (s : State) (i : RIdx) : Prop := s.me.window i < s.me.vregs

/-- The state in which a V word's result waits in the landing queue with the flags it raises, after the lanes that draw have drawn
(R178, R267, R275). -/
def queueV (s : State) (n : Nat) (w : RegWrite) (flags : VFl) (drew : List Nat := []) : State :=
  { (s.modMe (fun c => c.advance drew)).land { landing s n [w] with flags := flags } with raised := none }

/-- The result of a merged word: lanes inside the mask take f, the others keep the destination's; it is lame with the greatest cause of
its sources, its mask, and its destination where that is read (R377, R379, R381). -/
def landMerged (s : State) (n : Nat) (d : RIdx) (srcs : List RIdx) (readD : Bool) (drew : List Nat) (f : Nat → Nat × VFl) : State :=
  let t := s.me.vt
  let m := s.me.kreg t.mask
  let rs := (List.range t.etype.lanes).map (fun j => if m.val.getLsbD j then f j else (laneOf s d j, 0))
  let old := if readD || (List.range t.etype.lanes).any (fun j => !m.val.getLsbD j) then wLame s d else 0
  queueV s n (.v (s.me.window d) ⟨ofLanes t.etype.width (rs.map (·.1)), lameOf (srcs.map (wLame s) ++ [m.lame, old])⟩)
    (unionFl (rs.map (·.2))) drew

/-- The lanes that draw under stochastic rounding: those of a floating type inside the mask (R275). -/
def drewAll (s : State) : List Nat :=
  if s.me.vt.rm = .sr ∧ s.me.vt.etype.isInt = false then
    (List.range s.me.vt.etype.lanes).filter (fun j => (s.me.kreg s.me.vt.mask).val.getLsbD j)
  else []

/-- An integer result of w bits: wrapped under NONSAT, clamped with OF under SAT (R383). -/
def fit (s : State) (z : Int) : Nat × VFl :=
  let w := s.me.vt.etype.width
  if s.me.vt.sat = true ∧ z < -(2 ^ (w - 1) : Int) then (2 ^ (w - 1), 0x02)
  else if s.me.vt.sat = true ∧ (2 ^ (w - 1) : Int) ≤ z then (2 ^ (w - 1) - 1, 0x02)
  else ((z % 2 ^ w).toNat, 0)

/-- A code of the type in force as a signed integer. -/
def sint (s : State) (x : Nat) : Int := (BitVec.ofNat s.me.vt.etype.width x).toInt

end Sys2Proof.Claims

/-- R262, R264: granule g of a vector register is 256 element bits and a scale byte; lane j of width w is bits w·j up of the 2,048
element bits; a register made of lane codes gives them back, with every scale byte 0x7F. -/
def Sys2Proof.Claims.VectorRegisterLayout : Prop :=
  ∀ (e : EType) (v : VReg) (l : List Nat) (j g : Nat), j < e.lanes → g < 8 →
    (lanes e.width v).length = e.lanes ∧
    (lanes e.width v)[j]? = some (v.toNat / 2 ^ (264 * (e.width * j / 256) + e.width * j % 256) % 2 ^ e.width) ∧
    (l.length = e.lanes → (∀ x ∈ l, x < 2 ^ e.width) →
      lanes e.width (ofLanes e.width l) = l ∧ (ofLanes e.width l).toNat / 2 ^ (264 * g + 256) % 256 = 0x7F)

/-- R257, R259, R268 to R270: a code that is no NaN, decoded to its exact value and rounded back to its own format, is itself under
every rounding mode and raises no flag. (MXINT8 is left out: its code 0x80 is never produced by rounding.) -/
def Sys2Proof.Claims.RoundingKeepsRepresentableValues : Prop :=
  ∀ (f : Fmt) (rm : Rm) (sat : Bool) (draw c : Nat), f ≠ .mxi8 → c < 2 ^ f.bits → draw < 2 ^ 32 → (decode f c).isNan = false →
    roundTo f rm sat draw (decode f c) = (c, 0)

/-- Lanes and scales of a vector register; rounding keeps what a format represents: the statements above together. -/
def Obligations.VectorLayoutAndRounding : Prop :=
  Claims.VectorRegisterLayout ∧ Claims.RoundingKeepsRepresentableValues

/-- R379, R382 to R386: arithmetic on lanes of floating types is exact and rounded once, on lanes of integer types exact and wrapped or
clamped; it lands at g+4. -/
def Sys2Proof.Claims.VectorArithmetic : Prop :=
  ∀ (s : State) (h : WHead) (d a b : RIdx), Live s h.g → InWindow s d → InWindow s a → InWindow s b →
    let t := s.me.vt
    let e := t.etype.fmt
    let two := fun (i : Instr) (fl : Val → Val → Val × VFl) (int : Int → Int → Int) =>
      Sys2Proof.Machine.exec i s = .next (landMerged s 4 d [a, b] false (drewAll s) (fun j =>
        if t.etype.isInt then fit s (int (sint s (laneOf s a j)) (sint s (laneOf s b j)))
        else
          let x := fl (decode e (laneOf s a j)) (decode e (laneOf s b j))
          let y := roundTo e t.rm t.sat (s.me.draw j 0) x.1
          (y.1, x.2 ||| y.2)))
    let three := fun (i : Instr) (fl : Val → Val → Val → Val × VFl) (int : Int → Int → Int → Int) =>
      Sys2Proof.Machine.exec i s = .next (landMerged s 4 d [a, b] true (drewAll s) (fun j =>
        if t.etype.isInt then fit s (int (sint s (laneOf s a j)) (sint s (laneOf s b j)) (sint s (laneOf s d j)))
        else
          let x := fl (decode e (laneOf s a j)) (decode e (laneOf s b j)) (decode e (laneOf s d j))
          let y := roundTo e t.rm t.sat (s.me.draw j 0) x.1
          (y.1, x.2 ||| y.2)))
    two (.vadd h (.win d) (.win a) (.win b)) (addVal t.rm) (fun x y => x + y) ∧
    two (.vsub h (.win d) (.win a) (.win b)) (fun x y => addVal t.rm x y.neg) (fun x y => x - y) ∧
    two (.vmul h (.win d) (.win a) (.win b)) mulVal (fun x y => x * y) ∧
    three (.vfma h d (.win a) (.win b)) (fun x y z => fmaVal t.rm x y z) (fun x y z => x * y + z) ∧
    three (.vfms h d (.win a) (.win b)) (fun x y z => fmaVal t.rm x y z.neg) (fun x y z => x * y - z) ∧
    three (.vfnma h d (.win a) (.win b)) (fun x y z => fmaVal t.rm x.neg y z) (fun x y z => z - x * y)

/-- R386, R387: minimum, maximum, sign and clamp keep codes and round nothing; a NaN lane gives the canonical NaN. The transcendental
words land at g+8 and need the feature TRANS. -/
def Sys2Proof.Claims.VectorSelectionArithmetic : Prop :=
  ∀ (s : State) (h : WHead) (d a b : RIdx), Live s h.g → InWindow s d → InWindow s a → InWindow s b →
    let t := s.me.vt
    let e := t.etype.fmt
    let w := t.etype.width
    let A := laneOf s a
    let B := laneOf s b
    let nan2 := fun (j : Nat) => (e.nan, if (decode e (A j)).isSig || (decode e (B j)).isSig then (0x01 : VFl) else 0)
    let nan1 := fun (j : Nat) => (e.nan, if (decode e (A j)).isSig then (0x01 : VFl) else 0)
    let anyNan := fun (j : Nat) => (decode e (A j)).isNan || (decode e (B j)).isNan
    let two := fun (i : Instr) (f : Nat → Nat × VFl) => Sys2Proof.Machine.exec i s = .next (landMerged s 4 d [a, b] false [] f)
    let one := fun (i : Instr) (f : Nat → Nat × VFl) => Sys2Proof.Machine.exec i s = .next (landMerged s 4 d [a] false [] f)
    let trans := fun (i : Instr) (x : Trans) =>
      (s.me.csr.declfeat.getLsbD 4 = true →
        Sys2Proof.Machine.exec i s = .next (landMerged s 8 d [a] false (if t.etype = .fp32 then [] else drewAll s)
          (fun j => transLane x t (s.me.draw j 0) (A j)))) ∧
      (s.me.csr.declfeat.getLsbD 4 = false → Sys2Proof.Machine.exec i s = .next (taken s (causeAt s 4 16)))
    two (.vmin h (.win d) (.win a) (.win b)) (fun j =>
      if t.etype.isInt then (if sint s (A j) ≤ sint s (B j) then A j else B j, 0)
      else if anyNan j then nan2 j
      else (if belowVal (decode e (A j)) (decode e (B j)) then A j else B j, 0)) ∧
    two (.vmax h (.win d) (.win a) (.win b)) (fun j =>
      if t.etype.isInt then (if sint s (A j) ≤ sint s (B j) then B j else A j, 0)
      else if anyNan j then nan2 j
      else (if belowVal (decode e (A j)) (decode e (B j)) then B j else A j, 0)) ∧
    one (.vabs h (.win d) (.win a)) (fun j =>
      if t.etype.isInt then fit s |sint s (A j)|
      else if (decode e (A j)).isNan then nan1 j else (A j % 2 ^ (w - 1), 0)) ∧
    one (.vneg h (.win d) (.win a)) (fun j =>
      if t.etype.isInt then fit s (- sint s (A j))
      else if (decode e (A j)).isNan then nan1 j else (A j ^^^ 2 ^ (w - 1), 0)) ∧
    two (.vclamp h (.win d) (.win a) (.win b)) (fun j =>
      if t.etype.isInt then
        let x := sint s (A j)
        let y : Int := min |sint s (B j)| (2 ^ (w - 1) - 1)
        (((max (-y) (min x y)) % 2 ^ w).toNat, 0)
      else if anyNan j then nan2 j
      else
        let x := decode e (A j)
        let y := decode e (B j % 2 ^ (w - 1))
        if ltVal y x || ltVal x y.neg then ((if x.sign then 2 ^ (w - 1) else 0) + B j % 2 ^ (w - 1), 0) else (A j, 0)) ∧
    trans (.vrcp h (.win d) (.win a)) .rcp ∧ trans (.vrsq h (.win d) (.win a)) .rsq ∧ trans (.vexp2 h (.win d) (.win a)) .exp2 ∧
    trans (.vlog2 h (.win d) (.win a)) .log2 ∧ trans (.vtanh h (.win d) (.win a)) .tanh

/-- Lane arithmetic, selection arithmetic and the transcendental words: the statements above together. -/
def Obligations.VectorArithmeticResults : Prop :=
  Claims.VectorArithmetic ∧ Claims.VectorSelectionArithmetic

/-- R388: the bit and integer words act on lane codes of every type; their latencies are 2, and 3 for VIMUL. -/
def Sys2Proof.Claims.VectorBitWords : Prop :=
  ∀ (s : State) (h : WHead) (d a b : RIdx) (i : Imm 6), Live s h.g → InWindow s d → InWindow s a → InWindow s b →
    let t := s.me.vt
    let w := t.etype.width
    let A := laneOf s a
    let B := laneOf s b
    let two := fun (i : Instr) (f : Nat → Nat) => Sys2Proof.Machine.exec i s = .next (landMerged s 2 d [a, b] false [] (fun j => (f j, 0)))
    let one := fun (i : Instr) (f : Nat → Nat) => Sys2Proof.Machine.exec i s = .next (landMerged s 2 d [a] false [] (fun j => (f j, 0)))
    let add := fun (z : Int) => if t.etype.isInt then fit s z else ((z % 2 ^ w).toNat, 0)
    two (.vand h (.win d) (.win a) (.win b)) (fun j => A j &&& B j) ∧
    two (.vor h (.win d) (.win a) (.win b)) (fun j => A j ||| B j) ∧
    two (.vxor h (.win d) (.win a) (.win b)) (fun j => A j ^^^ B j) ∧
    one (.vnot h (.win d) (.win a)) (fun j => 2 ^ w - 1 - A j) ∧
    two (.vshl h (.win d) (.win a) (.win b)) (fun j => A j * 2 ^ (B j % w) % 2 ^ w) ∧
    two (.vshr h (.win d) (.win a) (.win b)) (fun j => A j / 2 ^ (B j % w)) ∧
    two (.vsra h (.win d) (.win a) (.win b)) (fun j => (sint s (A j) / 2 ^ (B j % w) % 2 ^ w).toNat) ∧
    Sys2Proof.Machine.exec (.vaddi h (.win d) (.win a) i) s =
      .next (landMerged s 2 d [a] false [] (fun j => add (sint s (A j) + sint s (immU i).toNat))) ∧
    Sys2Proof.Machine.exec (.vimul h (.win d) (.win a) (.win b)) s =
      .next (landMerged s 3 d [a, b] false [] (fun j => add (sint s (A j) * sint s (B j)))) ∧
    one (.vpopc h (.win d) (.win a)) (fun j => ((List.range w).filter (fun i => (A j).testBit i)).length)

/-- R389, R390: the compares write bit j of kD for the lanes inside the mask and 0 elsewhere, landing at g+3, and set no flag but NV;
VSEL chooses each lane by the mask. -/
def Sys2Proof.Claims.VectorComparesAndSelect : Prop :=
  ∀ (s : State) (h : WHead) (d a b : RIdx) (k : KIdx), Live s h.g → InWindow s d → InWindow s a → InWindow s b →
    let t := s.me.vt
    let e := t.etype.fmt
    let n := t.etype.lanes
    let m := s.me.kreg t.mask
    let x := fun (j : Nat) => decode e (laneOf s a j)
    let y := fun (j : Nat) => decode e (laneOf s b j)
    let i := fun (j : Nat) => sint s (laneOf s a j)
    let l := fun (j : Nat) => sint s (laneOf s b j)
    let sig := fun (j : Nat) => (x j).isSig || (y j).isSig
    let nan := fun (j : Nat) => (x j).isNan || (y j).isNan
    let cmp := fun (ins : Instr) (int : Nat → Bool) (fl : Nat → Bool) (nv : Nat → Bool) =>
      Sys2Proof.Machine.exec ins s = .next (queueV s 3
        (.k k ⟨maskOf 256 (fun j => decide (j < n) && m.val.getLsbD j && (if t.etype.isInt then int j else fl j)),
          lameOf [wLame s a, wLame s b, m.lame]⟩)
        (if !t.etype.isInt && (List.range n).any (fun j => m.val.getLsbD j && nv j) then 0x01 else 0))
    cmp (.vceq h k (.win a) (.win b)) (fun j => i j = l j) (fun j => eqVal (x j) (y j)) sig ∧
    cmp (.vcne h k (.win a) (.win b)) (fun j => i j ≠ l j) (fun j => !eqVal (x j) (y j)) sig ∧
    cmp (.vclt h k (.win a) (.win b)) (fun j => i j < l j) (fun j => ltVal (x j) (y j)) nan ∧
    cmp (.vcle h k (.win a) (.win b)) (fun j => i j ≤ l j) (fun j => ltVal (x j) (y j) || eqVal (x j) (y j)) nan ∧
    cmp (.vcun h k (.win a) (.win b)) (fun _ => false) nan sig ∧
    Sys2Proof.Machine.exec (.vsel h (.win d) (.win a) (.win b)) s = .next (queueV s 3
      (.v (s.me.window d) ⟨ofLanes t.etype.width ((List.range n).map (fun j => if m.val.getLsbD j then laneOf s a j else laneOf s b j)),
        lameOf [wLame s a, wLame s b, m.lame]⟩) 0)

/-- R177, R391: the words on lane masks land at g+2, KANY with a predicate. -/
def Sys2Proof.Claims.LaneMaskWords : Prop :=
  ∀ (s : State) (h : WHead) (d a b : KIdx) (p : PIdx) (i : Imm 6), Live s h.g →
    let n := s.me.vt.etype.lanes
    let x := s.me.kreg a
    let y := s.me.kreg b
    let both := if x.lame.toNat ≤ y.lame.toNat then y.lame else x.lame
    let on := (List.range n).filter (fun j => x.val.getLsbD j)
    Sys2Proof.Machine.exec (.kand h d a b) s = .next (queue s 2 [.k d ⟨x.val &&& y.val, both⟩]) ∧
    Sys2Proof.Machine.exec (.kor h d a b) s = .next (queue s 2 [.k d ⟨x.val ||| y.val, both⟩]) ∧
    Sys2Proof.Machine.exec (.kxor h d a b) s = .next (queue s 2 [.k d ⟨x.val ^^^ y.val, both⟩]) ∧
    Sys2Proof.Machine.exec (.knot h d a) s = .next (queue s 2 [.k d ⟨~~~x.val, x.lame⟩]) ∧
    Sys2Proof.Machine.exec (.kset h d i) s = .next (queue s 2 [.k d ⟨BitVec.ofNat 256 (2 ^ Nat.min 256 (immU i).toNat - 1), 0⟩]) ∧
    Sys2Proof.Machine.exec (.kany h p a) s = .next (queue s 2 [.p p ⟨!on.isEmpty, x.lame⟩]) ∧
    Sys2Proof.Machine.exec (.kfirst h d a) s =
      .next (queue s 2 [.k d ⟨(match on with
        | [] => 0
        | j :: _ => BitVec.ofNat 256 (2 ^ j)), x.lame⟩])

/-- Lane bit words, compares, VSEL and the words on lane masks: the statements above together. -/
def Obligations.VectorBitsComparesMasks : Prop :=
  Claims.VectorBitWords ∧ Claims.VectorComparesAndSelect ∧ Claims.LaneMaskWords

/-- R284, R392: the reductions land at g+6 what their tree over the masked lanes gives, in lane 0, VRIMAX with the index in lane 1. Over an
integer type without saturation VRSUM is the sum modulo 2^w, and VRMAX, VRMIN and VRIMAX are the greatest, the least, and the lowest place of
the greatest. -/
def Sys2Proof.Claims.VectorReductions : Prop :=
  ∀ (s : State) (h : WHead) (d a : RIdx), Live s h.g → InWindow s d → InWindow s a →
    let t := s.me.vt
    let w := t.etype.width
    let m := s.me.kreg t.mask
    let lame := lameOf [wLame s a, m.lame]
    let out := fun (l : List Nat) => RegWrite.v (s.me.window d) ⟨ofLanes w l, lame⟩
    let tree := fun (op : Red) => redTree op t s.me.draw 8 (leavesFrom op t m.val 0 ((List.range t.etype.lanes).map (laneOf s a)))
    let top := fun (op : Red) => ((tree op).1.headD { lane := 0, code := 0, ident := true })
    let on := (List.range t.etype.lanes).filter (fun j => m.val.getLsbD j)
    let vals := on.map (fun j => sint s (laneOf s a j))
    let least := -(2 ^ (w - 1) : Int)
    let great := vals.foldl max least
    Sys2Proof.Machine.exec (.vrsum h (.win d) (.win a)) s = .next (queueV s 6 (out [(top .sum).code]) (tree .sum).2.1 (tree .sum).2.2) ∧
    Sys2Proof.Machine.exec (.vrmax h (.win d) (.win a)) s = .next (queueV s 6 (out [(top .max).code]) (tree .max).2.1 []) ∧
    Sys2Proof.Machine.exec (.vrmin h (.win d) (.win a)) s = .next (queueV s 6 (out [(top .min).code]) (tree .min).2.1 []) ∧
    Sys2Proof.Machine.exec (.vrimax h (.win d) (.win a)) s =
      .next (queueV s 6 (out [(top .imax).code, if (top .imax).ident then 0 else (top .imax).lane]) (tree .imax).2.1 []) ∧
    (t.etype.isInt = true →
      (t.sat = false → Sys2Proof.Machine.exec (.vrsum h (.win d) (.win a)) s = .next (queueV s 6 (out [(vals.sum % 2 ^ w).toNat]) 0)) ∧
      Sys2Proof.Machine.exec (.vrmax h (.win d) (.win a)) s = .next (queueV s 6 (out [(great % 2 ^ w).toNat]) 0) ∧
      Sys2Proof.Machine.exec (.vrmin h (.win d) (.win a)) s =
        .next (queueV s 6 (out [((vals.foldl min (2 ^ (w - 1) - 1)) % 2 ^ w).toNat]) 0) ∧
      Sys2Proof.Machine.exec (.vrimax h (.win d) (.win a)) s =
        .next (queueV s 6 (out [(great % 2 ^ w).toNat, (on.find? (fun j => decide (sint s (laneOf s a j) = great))).getD 0]) 0))

/-- R393 to R396, R401, R402: moves and permutes land at g+2 or g+3; VLAME reads a lame bit and VCLRL clears one. -/
def Sys2Proof.Claims.VectorMovesAndPermutes : Prop :=
  ∀ (s : State) (h : WHead) (d a b : RIdx) (k : KIdx) (p : PIdx) (i : Imm 6), Live s h.g → InWindow s d → InWindow s a → InWindow s b →
    let e := s.me.vt.etype
    let w := e.width
    let n := e.lanes
    let A := laneOf s a
    let km := s.me.kreg k
    let r := fun (ins : Instr) (f : Nat → Nat) (l : Lame) =>
      Sys2Proof.Machine.exec ins s = .next (queueV s 3 (.v (s.me.window d) ⟨ofLanes w ((List.range n).map f), l⟩) 0)
    let off := (BitVec.ofNat 32 (immU i).toNat).toInt
    Sys2Proof.Machine.exec (.vmov h (.win d) (.win a)) s = .next (queueV s 2 (.v (s.me.window d) (s.me.vreg (s.me.window a))) 0) ∧
    Sys2Proof.Machine.exec (.stov h d a i) s = .next (queueV s 2 (.v (s.me.window d)
      ⟨vMake (packNat w (((List.range n).map (laneOf s d)).set ((immU i).toNat % n) ((s.me.sreg a).val.toNat % 2 ^ w)))
        ((List.range 8).map (fun g => (s.me.vreg (s.me.window d)).val.toNat / 2 ^ (264 * g + 256) % 256)),
       lameOf [(s.me.sreg a).lame, wLame s d]⟩) 0) ∧
    r (.viota h (.win d)) (fun j => if e.isInt then j else (roundTo e.fmt .rne false 0 (.fin false j 0)).1) 0 ∧
    r (.vperm h (.win d) (.win a) (.win b)) (fun j => A (laneOf s b j % n)) (lameOf [wLame s a, wLame s b]) ∧
    r (.vslide h (.win d) (.win a) i) (fun j => if 0 ≤ (j : Int) + off ∧ (j : Int) + off < n then A (j + off).toNat else 0) (wLame s a) ∧
    r (.vlane h (.win d) (.win a) i) (fun _ => A ((immU i).toNat % n)) (wLame s a) ∧
    Sys2Proof.Machine.exec (.vcmpr h (.win d) (.win a) k) s = .next (queueV s 3 (.v (s.me.window d)
      ⟨ofLanes w (((List.range n).filter (fun j => km.val.getLsbD j)).map A), lameOf [wLame s a, km.lame]⟩) 0) ∧
    r (.vxpnd h (.win d) (.win a) k) (fun j => if km.val.getLsbD j then A (((List.range j).filter (fun i => km.val.getLsbD i)).length) else 0)
      (lameOf [wLame s a, km.lame]) ∧
    Sys2Proof.Machine.exec (.vlame h p (.win a)) s = .next (queue s 2 [.p p ⟨decide (wLame s a ≠ 0), 0⟩]) ∧
    Sys2Proof.Machine.exec (.vclrl h d) s = .next (queue s 2 [.vclr (s.me.window d)])

/-- Reductions, moves, permutes, VLAME and VCLRL: the statements above together. -/
def Obligations.VectorReductionsAndMoves : Prop :=
  Claims.VectorReductions ∧ Claims.VectorMovesAndPermutes

/-- R195, R398 to R400: VDEFER appends the masked lanes to the deferral queue while it has room and answers those it could not take; VDRAIN
takes the oldest records out, once the rider's X words that touch these records have been performed. -/
def Obligations.DeferralQueue : Prop :=
  ∀ (s : State) (h : WHead) (d k : KIdx) (a v : RIdx), Live s h.g → InWindow s a → InWindow s v →
    let c := s.me
    let e := c.vt.etype
    let base := c.deferBase
    let at' := fun (i : Nat) => c.scratch (base + 16 * ((c.deferHead + i) % 4096))
    let js := (List.range e.lanes).filter (fun j => (c.kreg k).val.getLsbD j)
    let placed := js.take (4096 - c.deferCount)
    let left := js.drop (4096 - c.deferCount)
    let n := Nat.min c.deferCount e.lanes
    s.deferMeets (List.range n ++ (List.range placed.length).map (c.deferCount + ·)) = false →
    base % 16 = 0 → c.deferCount ≤ 4096 → c.inScratch base 65536 = true → c.hitsRing base 65536 = false → c.hitsStash base 65536 = false →
    (wLame s a = 0 → (c.kreg k).lame = 0 →
      ∃ t, Sys2Proof.Machine.exec (.vdefer h d (.win a) k) s = .next t ∧
        t.me.deferCount = c.deferCount + placed.length ∧ t.me.deferHead = c.deferHead ∧ t.me.deferBase = base ∧ t.me.deferOn = true ∧
        t.me.land = insertLanding c.land (landing s 6 [.k d ⟨maskOf 256 (fun j => left.contains j), 0⟩]) ∧
        ∀ i, ∀ j, placed[i]? = some j →
          t.mem.read (at' (c.deferCount + i)) 16 =
            leBytes 4 (laneOf s a j) ++ leBytes 2 j ++ leBytes 1 e.code ++ List.replicate 9 0) ∧
    ((∀ i < n, s.mem.poisoned (at' i) 16 = false) →
      Sys2Proof.Machine.exec (.vdrain h (.win v) d) s =
        .next (queue (s.modMe (fun c => c.setDefer ((c.deferHead + n) % 4096) (c.deferCount - n))) 6
          [.v (c.window v) ⟨ofLanes e.width ((List.range n).map (fun i => leNat (s.mem.read (at' i) 4) % 2 ^ e.width)), 0⟩,
           .k d ⟨maskOf 256 (fun j => j < n), 0⟩]))

/-- R403 to R409: a conversion rounds the source lanes that its part names to the target format, lands at g+5, and keeps every other lane of
the destination; a code of 8 bits or fewer has a byte of the register. -/
def Sys2Proof.Claims.Conversions : Prop :=
  ∀ (s : State) (h : WHead) (d a : RIdx) (cc : CvtCtl), Live s h.g → InWindow s d → InWindow s a →
    let t := s.me.vt
    let m := s.me.kreg t.mask
    let src := cvtFmt cc.src
    let bits8 := fun (f : Fmt) => Nat.max 8 f.bits
    let A := fun (j : Nat) => (lanes (bits8 src) (s.me.vreg (s.me.window a)).val).getD j 0
    let goes := fun (ins : Instr) (f : Fmt) =>
      let wt := bits8 f
      let n := 2048 / Nat.max (bits8 src) wt
      let lo := if wt ≤ bits8 src then cc.part.toNat * n else 0
      let from' := fun (j : Nat) => if wt ≤ bits8 src then j - lo else cc.part.toNat * n + j
      let writes := fun (j : Nat) => m.val.getLsbD j && decide (lo ≤ j) && decide (j < lo + n)
      let js := List.range (2048 / wt)
      let old := fun (j : Nat) => (lanes wt (s.me.vreg (s.me.window d)).val).getD j 0
      let rs := js.map (fun j => if writes j then roundTo f t.rm t.sat (s.me.draw j 0) (decode src (A (from' j))) else (old j, 0))
      Sys2Proof.Machine.exec ins s = .next (queueV s 5
        (.v (s.me.window d) ⟨ofLanes wt (rs.map (·.1)), lameOf [wLame s a, m.lame, if js.all writes then 0 else wLame s d]⟩)
        (unionFl (rs.map (·.2))) (if t.rm = .sr then js.filter writes else []))
    goes (.cvtf32 h (.win d) (.win a) cc) .fp32 ∧ goes (.cvtbf16 h (.win d) (.win a) cc) .bf16 ∧
    goes (.cvtf16 h (.win d) (.win a) cc) .fp16 ∧ goes (.cvte4m3 h (.win d) (.win a) cc) .e4m3 ∧
    goes (.cvte5m2 h (.win d) (.win a) cc) .e5m2 ∧ goes (.cvte3m2 h (.win d) (.win a) cc) .e3m2 ∧
    goes (.cvte2m3 h (.win d) (.win a) cc) .e2m3 ∧ goes (.cvte2m1 h (.win d) (.win a) cc) .e2m1 ∧
    goes (.cvti32 h (.win d) (.win a) cc) .int32 ∧ goes (.cvti8 h (.win d) (.win a) cc) .int8

/-- R277, R278, R410 to R413: MXQ quantises blocks of 32 lanes with a shared scale, MXDQ scales elements back, MXGETS and MXSETS move scale
bytes, VRAND draws. MXQ lands at g+7, MXDQ and VRAND at g+5, the moves at g+3. -/
def Sys2Proof.Claims.BlockScaling : Prop :=
  ∀ (s : State) (h : WHead) (d a : RIdx) (cc : MxCtl) (unif : Bool), Live s h.g → InWindow s d → InWindow s a →
    let t := s.me.vt
    let m := s.me.kreg t.mask
    let on := fun (j : Nat) => m.val.getLsbD j
    let f := mxFmt cc.fmt
    let rm := if cc.rne then Rm.rne else t.rm
    let n := t.etype.lanes
    let blocks := n / 32
    let p := cc.part.toNat % (8 / blocks)
    let vd := (s.me.vreg (s.me.window d)).val
    let va := (s.me.vreg (s.me.window a)).val
    let full := (List.range n).all on
    -- granule g as MXQ leaves it: none keeps the destination's
    let granule := fun (g : Nat) =>
      if p * blocks ≤ g ∧ g < p * blocks + blocks ∧ (List.range 32).any (fun e => on (32 * (g - p * blocks) + e)) then
        let i := g - p * blocks
        let x := (List.range 32).map (fun e => if on (32 * i + e) then decode t.etype.fmt (laneOf s a (32 * i + e)) else .fin false 0 0)
        let k := mxScale x f
        if k = 255 then some (List.replicate 32 ((0, 0) : Nat × VFl), k, (0x20 : VFl), ([] : List Nat))
        else some ((List.range 32).map (fun e => if on (32 * i + e) then mxElement f k rm t.sat (s.me.draw (32 * g + e) 0) (x.getD e (.fin false 0 0)) else (0, 0)),
          k, 0, if rm = .sr then ((List.range 32).filter (fun e => on (32 * i + e))).map (fun e => 32 * g + e) else [])
      else none
    let gs := (List.range 8).map granule
    let bytes := (List.range 256).map (fun j => match gs.getD (j / 32) none with
      | some b => (b.1.getD (j % 32) (0, 0)).1
      | none => (lanes 8 vd).getD j 0)
    let scales := (List.range 8).map (fun g => match gs.getD g none with
      | some b => b.2.1
      | none => vScale vd g)
    let whole := gs.all (·.isSome)
    let back := fun (j : Nat) =>
      let k := vScale va (p * blocks + j / 32)
      if k = 255 then Val.nan false
      else (decode f ((lanes 8 va).getD (32 * (p * blocks + j / 32) + j % 32) 0)).scale ((k : Int) - 127)
    let rs := (List.range n).map (fun j => if on j then roundTo t.etype.fmt rm t.sat (s.me.draw j 0) (back j) else (laneOf s d j, 0))
    Sys2Proof.Machine.exec (.mxq h (.win d) (.win a) cc) s = .next (queueV s 7
      (.v (s.me.window d) ⟨vMake (packNat 8 bytes) scales, lameOf [wLame s a, m.lame, if whole then 0 else wLame s d]⟩)
      (unionFl ((gs.filterMap id).map (fun b => b.2.2.1 ||| unionFl (b.1.map (·.2))))) ((gs.filterMap id).flatMap (·.2.2.2))) ∧
    Sys2Proof.Machine.exec (.mxdq h (.win d) (.win a) cc) s = .next (queueV s 5
      (.v (s.me.window d) ⟨ofLanes t.etype.width (rs.map (·.1)), lameOf [wLame s a, m.lame, if full then 0 else wLame s d]⟩)
      (unionFl (rs.map (·.2))) (if rm = .sr then (List.range n).filter on else [])) ∧
    Sys2Proof.Machine.exec (.mxgets h (.win d) (.win a)) s = .next (queueV s 3
      (.v (s.me.window d) ⟨ofLanes t.etype.width ((List.range 8).map (vScale va)), wLame s a⟩) 0) ∧
    Sys2Proof.Machine.exec (.mxsets h d (.win a)) s = .next (queueV s 3
      (.v (s.me.window d) ⟨vMake (vElem vd) ((List.range 8).map (fun g => laneOf s a g % 256)), lameOf [wLame s a, wLame s d]⟩) 0) ∧
    (s.me.csr.declfeat.getLsbD 3 = true →
      Sys2Proof.Machine.exec (.vrand h (.win d) unif) s = .next (queueV s 5
        (.v (s.me.window d) ⟨ofLanes t.etype.width ((List.range n).map (fun j => if on j then randLane unif t.etype (s.me.draw j 0) else laneOf s d j)),
          lameOf [m.lame, if full then 0 else wLame s d]⟩) 0 ((List.range n).filter on))) ∧
    (s.me.csr.declfeat.getLsbD 3 = false → Sys2Proof.Machine.exec (.vrand h (.win d) unif) s = .next (taken s (causeAt s 4 8)))

/-- Conversions, MXQ, MXDQ, MXGETS, MXSETS and VRAND: the statements above together. -/
def Obligations.ConversionsAndBlockScaling : Prop :=
  Claims.Conversions ∧ Claims.BlockScaling

/-! ## Access words at issue -/

namespace Sys2Proof.Claims
open Sys2Proof.Machine

/-- The state in which a word has entered the X command queue of its context, with its performance due (R210, R444). -/
def queueX (s : State) (x : XCmd) : State :=
  { (({ s with ids := s.ids + 1 } : State).modMe (fun c => { c with xq := c.xq ++ [{ x with tok := s.ids, seq := s.seqNow }] })).push [.xPerform s.cur s.ids]
    with raised := none }

/-- The same, with results that land n groups on and until their data arrive would be lame with cause LATE (R178, R444). -/
def queueXL (s : State) (x : XCmd) (n : Nat) (ws : List RegWrite) : State :=
  { (queueX s x).land { landing s n ws with tok := some s.ids } with raised := none }

/-- The tag of an address (R200). -/
def tagOf (ea : DWord) : Nat := ea.toNat / 2 ^ 60

/-- An address register plus an offset: the tag stands and the rest adds modulo 2^60 (R441). -/
def sumAddr (a off : DWord) : DWord := BitVec.ofNat 64 (tagOf a * 2 ^ 60 + (a.toNat + off.toNat) % 2 ^ 60)

/-- The scratch offsets o up to o + n lie in the rider's bays, and in none that is cache (R201). -/
def InBays (c : Ctx) (o n : Nat) : Prop :=
  o + n ≤ c.nbays * 2 ^ 18 ∧ ∀ b < 8, c.csr.baymap.getLsbD b = true → o + n ≤ b * 2 ^ 18 ∨ (b + 1) * 2 ^ 18 ≤ o ∨ n = 0

/-- An address of n bytes that no check at issue refuses, for tags 0 to 2 (R200, R201). -/
def PlainAddress (s : State) (ea : DWord) (n : Nat) : Prop :=
  (tagOf ea = 0 ∧ bits ea 59 49 = 0) ∨ (tagOf ea = 1 ∧ bits ea 59 21 = 0 ∧ InBays s.me (bits ea 59 0) n) ∨
  (tagOf ea = 2 ∧ bits ea 31 21 = 0 ∧ bits ea 59 45 = 0)

/-- An address of a flag word (R225). -/
def FlagAddress (ea : DWord) : Prop := tagOf ea = 3 ∧ bits ea 59 18 = 0 ∧ bits ea 1 0 = 0

/-- A channel of the rider with room for a record of a kind at page and record, and nothing earlier still to be put in it (R184, R187). -/
def RoomIn (s : State) (c : CIdx) (scal : Bool) (ch : Chan) (r : Nat) : Prop :=
  s.me.chans.get? c.toNat = some ch ∧ ch.prod = .rider ∧ ch.scal = scal ∧ s.me.xq.any (fun x => x.fills c) = false ∧ ch.room = some r

/-- A channel of the rider whose head page holds a record, and no earlier command still to take one (R184, R187). -/
def RecordIn (s : State) (c : CIdx) (scal : Bool) (ch : Chan) (r : Nat) : Prop :=
  s.me.chans.get? c.toNat = some ch ∧ ch.array = false ∧ ch.scal = scal ∧ s.me.xq.any (fun x => x.drains c) = false ∧ ch.ready = some r

/-- The state with that room reserved (R185). -/
def reserved (s : State) (c : CIdx) (ch : Chan) (r : Nat) : State :=
  s.modMe (fun x => { x with chans := x.chans.put c.toNat (ch.reserve r) })

/-- The rider is not in guarded mode, so its writes are not held (R252). -/
def Free (s : State) : Prop := s.me.csr.status.getLsbD 5 = false

/-- The word may enter the X command queue: its guard is true and the queue has room (R210, R322). -/
def Enters (s : State) (g : PIdx) : Prop := Live s g ∧ s.me.xq.length < 32

end Sys2Proof.Claims

/-- R441, R444, R452 to R454: a load whose address passes its checks enters the command queue, and its destination lands at g+5, a
plane at g+6. A load to a channel reserves its record at issue. -/
def Sys2Proof.Claims.LoadsEnterTheQueue : Prop :=
  ∀ (s : State) (h : WHead) (r a w : RIdx) (c : MemCtl) (v : VecCtl) (f : LdfeCtl) (q : CIdx) (ch : Chan) (n : Nat),
    Enters s h.g → (s.me.areg a).lame = 0 →
    let base := (s.me.areg a).val
    let ea := sumAddr base (offBytes c.off)
    let ev := sumAddr base (vecOff v)
    let ef := sumAddr base (ldfeOff f)
    let x := fun (i : Instr) (ea : DWord) => ({ tok := 0, i := i, ea := ea } : XCmd)
    let load := fun (size : Nat) (i : XDst → Instr) => ea.toNat % size = 0 →
      (Sys2Proof.Machine.exec (i (.reg r)) s = .next (queueXL s (x (i (.reg r)) ea) 5 [.a r ⟨0, 1⟩])) ∧
      (RoomIn s q true ch n →
        Sys2Proof.Machine.exec (i (.push q)) s =
          .next (queueX (reserved s q ch n) { x (i (.push q)) ea with room := some (q.toNat, ch.openIx, n) }))
    (PlainAddress s ea 1 → load 1 (fun d => .ldb h d a c)) ∧
    (PlainAddress s ea 2 → load 2 (fun d => .ldh h d a c)) ∧
    (PlainAddress s ea 4 ∨ FlagAddress ea → load 4 (fun d => .ldw h d a c)) ∧
    (PlainAddress s ea 8 → load 8 (fun d => .ldd h d a c)) ∧
    (PlainAddress s ev (vecBytes v) → ev.toNat % 16 = 0 →
      (InWindow s w → Sys2Proof.Machine.exec (.ldv h (.win w) a v) s =
        .next (queueXL s (x (.ldv h (.win w) a v) ev) 6 [.v (s.me.window w) ⟨zeroV, 1⟩])) ∧
      (RoomIn s q false ch n → Sys2Proof.Machine.exec (.ldv h (.push q) a v) s =
        .next (queueX (reserved s q ch n) { x (.ldv h (.push q) a v) ev with room := some (q.toNat, ch.openIx, n) }))) ∧
    (PlainAddress s ef 8 → tagOf ef ≠ 0 → ef.toNat % 8 = 0 →
      Sys2Proof.Machine.exec (.ldfe h (.reg r) a f) s =
        .next (queueXL s { x (.ldfe h (.reg r) a f) ef with v2 := BitVec.ofNat 64 s.pos.limit } 5 [.a r ⟨0, 1⟩]))

/-- R200, R201, R289, R290, R441: an address outside its layout or with a tag above 3 raises PROTECTION, a misaligned one MISALIGNED, each
with the address, for loads and stores alike; of the two PROTECTION comes first. -/
def Obligations.AddressChecks : Prop :=
  ∀ (s : State) (h : WHead) (r a b : RIdx) (c : MemCtl), Enters s h.g → (s.me.areg a).lame = 0 → (s.me.areg b).lame = 0 → Free s →
    let ea := sumAddr (s.me.areg a).val (offBytes c.off)
    let words : List (Nat × Instr) := [(1, .ldb h (.reg r) a c), (2, .ldh h (.reg r) a c), (4, .ldw h (.reg r) a c), (8, .ldd h (.reg r) a c),
      (1, .stb h a (.reg b) c), (2, .sth h a (.reg b) c), (4, .stw h a (.reg b) c), (8, .std h a (.reg b) c)]
    ∀ p ∈ words,
      (4 ≤ tagOf ea ∨ (tagOf ea = 0 ∧ bits ea 59 49 ≠ 0) ∨ (tagOf ea = 1 ∧ bits ea 59 21 ≠ 0) ∨
        (tagOf ea = 2 ∧ (bits ea 31 21 ≠ 0 ∨ bits ea 59 45 ≠ 0)) ∨ (tagOf ea = 3 ∧ (bits ea 59 18 ≠ 0 ∨ bits ea 1 0 ≠ 0)) ∨
        (tagOf ea = 1 ∧ s.me.nbays * 2 ^ 18 < bits ea 59 0 + p.1) →
        Sys2Proof.Machine.exec p.2 s = .next (taken s (causeAt s 5 ea.toNat))) ∧
      (PlainAddress s ea p.1 → ea.toNat % p.1 ≠ 0 → Sys2Proof.Machine.exec p.2 s = .next (taken s (causeAt s 6 ea.toNat))) ∧
      (FlagAddress ea → p.1 ≠ 4 → Sys2Proof.Machine.exec p.2 s = .next (taken s (causeAt s 6 ea.toNat)))

/-- R252, R441, R452 to R454, R468: a store captures its address and datum and enters the command queue. In guarded mode its write takes 32
bytes of the guard buffer for each granule at tags 0 and 2, and one that finds no room is discarded and sets GOVF. -/
def Sys2Proof.Claims.StoresEnterTheQueue : Prop :=
  ∀ (s : State) (h : WHead) (d a w : RIdx) (c : MemCtl) (v : VecCtl) (f : StfeCtl) (o : Option (BitVec 25)),
    Enters s h.g → (s.me.areg d).lame = 0 → (s.me.areg a).lame = 0 →
    let base := (s.me.areg d).val
    let datum := (s.me.areg a).val
    let ea := sumAddr base (offBytes c.off)
    let ev := sumAddr base (vecOff v)
    let ef := sumAddr base (offBytes f.off)
    let er := sumAddr base (offBytes o)
    let store := fun (i : Instr) => Sys2Proof.Machine.exec i s = .next (queueX s { tok := 0, i := i, ea := ea, v1 := datum })
    (Free s →
      (PlainAddress s ea 1 → store (.stb h d (.reg a) c)) ∧
      (PlainAddress s ea 2 → ea.toNat % 2 = 0 → store (.sth h d (.reg a) c)) ∧
      (PlainAddress s ea 4 ∨ FlagAddress ea → ea.toNat % 4 = 0 → store (.stw h d (.reg a) c)) ∧
      (PlainAddress s ea 8 → ea.toNat % 8 = 0 → store (.std h d (.reg a) c)) ∧
      (PlainAddress s ev (vecBytes v) → ev.toNat % 16 = 0 → InWindow s w → wLame s w = 0 →
        Sys2Proof.Machine.exec (.stv h d (.win w) v) s =
          .next (queueX s { tok := 0, i := .stv h d (.win w) v, ea := ev, vec := (s.me.vreg (s.me.window w)).val })) ∧
      (PlainAddress s ef 8 → tagOf ef ≠ 0 → ef.toNat % 8 = 0 →
        Sys2Proof.Machine.exec (.stfe h d (.reg a) f) s = .next (queueX s { tok := 0, i := .stfe h d (.reg a) f, ea := ef, v1 := datum }))) ∧
    (PlainAddress s er datum.toNat → tagOf er ≠ 0 → er.toNat % 16 = 0 → datum.toNat % 16 = 0 → datum.toNat < 2 ^ 21 →
      Sys2Proof.Machine.exec (.feclr h d a o) s = .next (queueX s { tok := 0, i := .feclr h d a o, ea := er, v1 := datum })) ∧
    (s.me.csr.status.getLsbD 5 = true → s.me.xq.any (fun x => x.commit) = false → PlainAddress s ea 8 → tagOf ea ≠ 1 → ea.toNat % 8 = 0 →
      (s.me.guardUsed + 32 ≤ s.me.guardMax →
        Sys2Proof.Machine.exec (.std h d (.reg a) c) s =
          .next (queueX (s.modMe (fun c => { c with guardUsed := c.guardUsed + 32 }))
            { tok := 0, i := .std h d (.reg a) c, ea := ea, v1 := datum, guarded := true })) ∧
      (s.me.guardMax < s.me.guardUsed + 32 →
        Sys2Proof.Machine.exec (.std h d (.reg a) c) s = .next (withMe s (fun c => { c with govf := true }))))

/-- Loads and stores enter the X command queue: the statements above together. -/
def Obligations.LoadsAndStoresEnterTheQueue : Prop :=
  Claims.LoadsEnterTheQueue ∧ Claims.StoresEnterTheQueue

/-- R252, R441, R460 to R465: the atomics, fences, ranges, prefetches and flag words at issue. An atomic lands its old value at g+6; FLGWAIT
blocks while its word is polled. -/
def Sys2Proof.Claims.AtomicsAndFlagsEnterTheQueue : Prop :=
  ∀ (s : State) (h : WHead) (d a b : RIdx) (p : PIdx) (c : AtomCtl) (ord : Order) (sc : Scope) (l0 : Bool) (m1 : BitVec 6) (fl : FlgLit),
    Enters s h.g → (s.me.areg d).lame = 0 → (s.me.areg a).lame = 0 → (s.me.areg b).lame = 0 → (s.me.areg (d + 1)).lame = 0 → Free s →
    let A := (s.me.areg a).val
    let D := (s.me.areg d).val
    let x := fun (i : Instr) => ({ tok := 0, i := i, ea := A, v1 := D, v2 := (s.me.areg (d + 1)).val } : XCmd)
    let size := if tagOf A = 3 then 4 else 8
    let atom := fun (i : Instr) => Sys2Proof.Machine.exec i s = .next (queueXL s (x i) 6 [.a d ⟨0, 1⟩])
    (PlainAddress s A size ∨ FlagAddress A → A.toNat % size = 0 →
      atom (.aadd h d a c) ∧ atom (.amin h d a c) ∧ atom (.amax h d a c) ∧ atom (.aand h d a c) ∧ atom (.aor h d a c) ∧
      atom (.axor h d a c) ∧ atom (.axchg h d a c) ∧
      Sys2Proof.Machine.exec (.acas h d a c) s = .next (queueXL s (x (.acas h d a c)) 6 [.a d ⟨0, 1⟩, .a (d + 1) ⟨0, 1⟩])) ∧
    (s.me.csr.declfeat.getLsbD 5 = true → PlainAddress s A 4 ∨ FlagAddress A → A.toNat % 4 = 0 → atom (.afadd h d a c)) ∧
    (s.me.csr.declfeat.getLsbD 5 = false → Sys2Proof.Machine.exec (.afadd h d a c) s = .next (taken s (causeAt s 4 32))) ∧
    Sys2Proof.Machine.exec (.fence h ord sc) s = .next (queueX s { tok := 0, i := .fence h ord sc }) ∧
    (tagOf D = 0 → bits D 59 49 = 0 → A.toNat < 2 ^ 40 →
      Sys2Proof.Machine.exec (.flush h d a) s = .next (queueX s { tok := 0, i := .flush h d a, ea := D, v1 := A }) ∧
      Sys2Proof.Machine.exec (.inval h d a) s = .next (queueX s { tok := 0, i := .inval h d a, ea := D, v1 := A })) ∧
    (tagOf A = 0 → bits A 59 49 = 0 →
      Sys2Proof.Machine.exec (.pref h a l0 m1) s = .next (queueX s { tok := 0, i := .pref h a l0 m1, ea := A })) ∧
    (PlainAddress s A 0 → tagOf A ≠ 0 → Sys2Proof.Machine.exec (.pref h a l0 m1) s = .next { s with raised := none }) ∧
    (PlainAddress s D 4 ∨ FlagAddress D → D.toNat % 4 = 0 →
      Sys2Proof.Machine.exec (.flgset h d a c) s = .next (queueX s { tok := 0, i := .flgset h d a c, ea := D, v1 := A })) ∧
    (PlainAddress s A 4 ∨ FlagAddress A → A.toNat % 4 = 0 →
      let wait : Wait := { kind := .flg A fl.cmp (BitVec.ofNat 32 (s.me.areg b).val.toNat) fl.scope, pred := some p, limit := fl.timeout.toNat,
                           deadline := s.clock + 1 + fl.timeout.toNat, seq := s.seqNow, word := s.pos.word, lit := s.pos.lit }
      Sys2Proof.Machine.exec (.flgwait h p a b fl) s =
        .next (withMe s (fun c => { c with waits := c.waits ++ [wait] })))

/-- R444, R455 to R457, R459: the tensor and rein words at issue capture their origin, index and first record, and reserve the first record
of a channel they fill; RSEND and RCAST take the head page when it is FILLED. -/
def Sys2Proof.Claims.TensorAndReinWordsEnterTheQueue : Prop :=
  ∀ (s : State) (h : WHead) (d b : RIdx) (slot : BitVec 4) (zue : Bool) (q : CIdx) (src : CSrc) (ch : Chan) (n : Nat) (ord : Order) (sc : Scope)
    (col : Bool), Enters s h.g → Free s → (∀ k : RIdx, k ∈ [d, d + 1, d + 2, b] → (s.me.areg k).lame = 0) →
    let org := [(s.me.areg d).val, (s.me.areg (d + 1)).val, (s.me.areg (d + 2)).val]
    let D := (s.me.areg d).val
    let B := (s.me.areg b).val
    let reads := fun (i : Instr) (x : XCmd) => Sys2Proof.Machine.exec i s = .next (queueX (reserved s q ch n)
      { x with i := i, org := org, room := some (q.toNat, ch.openIx, n) })
    let rec' := s.recordAt s.cur ch ch.head n
    let writes := fun (i : Instr) (x : XCmd) => Sys2Proof.Machine.exec i s = .next (queueX (s.readRecord s.cur src.c ch n false)
      { x with i := i, org := org, vec := vOfBytes rec'.val, lame := rec'.lame, data2 := 1 })
    let sends := fun (i : Instr) => Sys2Proof.Machine.exec i s = .next (queueX s { tok := 0, i := i, v1 := D, prog := ch.head })
    let none' := fun (i : Instr) => ({ tok := 0, i := i } : XCmd)
    (tagOf D = 0 → bits D 59 49 = 0 → D.toNat % 16 = 0 →
      Sys2Proof.Machine.exec (.tdesc h d slot zue) s = .next (queueX s { tok := 0, i := .tdesc h d slot zue, ea := D })) ∧
    (RoomIn s q false ch n →
      reads (.tread h q d slot) (none' .seq) ∧ reads (.tgather h q d b) { none' .seq with v1 := B }) ∧
    (RecordIn s src.c false ch n →
      writes (.twrite h d src slot) (none' .seq) ∧ writes (.tscatter h d src b) { none' .seq with v1 := B } ∧
      writes (.tscadd h d src b) { none' .seq with v1 := B }) ∧
    (s.me.chans.get? src.c.toNat = some ch → ch.array = false → (ch.page ch.head).st = .filled → s.pageLame s.cur ch ch.head = 0 →
      s.me.xq.any (fun x => x.drains src.c) = false →
      sends (.rsend h d src ord sc) ∧ sends (.rcast h d src ord sc col)) ∧
    (s.me.chans.get? src.c.toNat = some ch → ch.array = false → (ch.page ch.head).st ≠ .filled → s.pos.forced = false →
      Sys2Proof.Machine.exec (.rsend h d src ord sc) s = .next { s with raised := some .held })

/-- Atomics, fences, ranges, flag words, tensor words and rein words at issue: the statements above together. -/
def Obligations.AtomicTensorAndReinWords : Prop :=
  Claims.AtomicsAndFlagsEnterTheQueue ∧ Claims.TensorAndReinWordsEnterTheQueue

/-- R185, R446 to R451: the channel words. CHCFG sets up a ring of free pages whose full-empty bits are clear, CHCFG.OFF discards it with
what is still on its way to it, CHADV
closes the open page, CHREL frees the head page, the waits block, and CHSTAT reads without entering the queue. -/
def Sys2Proof.Claims.ChannelWords : Prop :=
  ∀ (s : State) (h : WHead) (q : CIdx) (src : CSrc) (a : RIdx) (p : PIdx) (t : Imm 7) (ch : Chan), Enters s h.g →
    let c := s.me
    let size := ch.pages.length * ch.pageBytes
    let closed : Chan :=
      { ch.setPage ch.openIx { ch.page ch.openIx with closed := true } with openIx := (ch.openIx + 1) % ch.pages.length }
    let wait := fun (k : WaitKind) => ({ kind := k, pred := some p, limit := (immU t).toNat, deadline := s.clock + 1 + (immU t).toNat,
                                         seq := s.seqNow, word := s.pos.word, lit := s.pos.lit } : Wait)
    let waits := fun (i : Instr) (k : WaitKind) => Sys2Proof.Machine.exec i s =
      .next (withMe s (fun c => { c with waits := c.waits ++ [wait k] }))
    ((c.areg a).lame = 0 → chanFrom (c.areg a).val = some ch → c.chans.get? q.toNat = none → c.inScratch ch.base size = true →
      c.hitsRing ch.base size = false → c.hitsStash ch.base size = false → c.hitsDefer ch.base size = false →
      (ch.prod = .rein → s.reinTaken s.cur q = false) →
      ∃ u, Sys2Proof.Machine.exec (.chcfg h q a) s = .next u ∧ u.me = { c with chans := c.chans.put q.toNat ch } ∧
        u.mem.bytes = s.mem.bytes ∧ u.mem.poison = s.mem.poison ∧ ch.pages.all (fun p => p.st == .free) = true ∧
        (∀ g, g ∈ u.mem.full → g ∈ s.mem.full)) ∧
    ((c.areg a).lame = 0 → chanFrom (c.areg a).val = none →
      Sys2Proof.Machine.exec (.chcfg h q a) s = .next (taken s (causeAt s 11 q.toNat))) ∧
    ((c.areg a).lame = 0 → (c.chans.get? q.toNat).isSome = true →
      Sys2Proof.Machine.exec (.chcfg h q a) s = .next (taken s (causeAt s 11 q.toNat))) ∧
    (∃ u, Sys2Proof.Machine.exec (.chcfgOff h q a) s = .next u ∧ u.me.chans = c.chans.del q.toNat ∧ u.me.f = c.f ∧ u.me.csr = c.csr ∧
      u.me.pc = c.pc ∧ u.mem = s.mem ∧ u.regs = s.regs ∧ u.me.xq.map (·.tok) = c.xq.map (·.tok) ∧ u.me.land.map (·.seq) = c.land.map (·.seq) ∧
      (∀ x ∈ u.me.xq, (x.fills q = true ∨ x.drains q = true → x.cut = true) ∧ ∀ r, x.room = some r → r.1 ≠ q.toNat) ∧
      (∀ e ∈ u.me.land, ∀ page rec v, RegWrite.push q page rec v ∉ e.writes)) ∧
    (c.chans.get? q.toNat = some ch → ch.prod = .rider →
      ((ch.page ch.openIx).st = .open → (ch.page ch.openIx).closed = false →
        Sys2Proof.Machine.exec (.chadv h q) s =
          .next { (s.modMe (fun c => { c with chans := c.chans.put q.toNat closed })).settlePage s.cur q ch.openIx with raised := none }) ∧
      ((ch.page ch.openIx).st ≠ .open → Sys2Proof.Machine.exec (.chadv h q) s = .next { s with raised := none })) ∧
    (c.chans.get? src.c.toNat = some ch → ch.array = false →
      ((ch.page ch.head).st = .filled ∨ (ch.page ch.head).st = .draining →
        Sys2Proof.Machine.exec (.chrel h src) s = .next { (s.freePage s.cur src.c ch.head).skipEmpty s.cur src.c 64 with raised := none }) ∧
      ((ch.page ch.head).st = .free ∨ (ch.page ch.head).st = .open →
        Sys2Proof.Machine.exec (.chrel h src) s = .next { s with raised := none })) ∧
    (c.chans.get? src.c.toNat = some ch →
      waits (.chwaitf h p src t) (.chf src.c) ∧ waits (.chwaite h p src t) (.che src.c) ∧
      Sys2Proof.Machine.exec (.chstat h a (some src)) s = .next (queue s 2 [.a a ⟨chanStatus (some ch), 0⟩])) ∧
    (c.chans.get? src.c.toNat = none →
      (∀ i ∈ [Instr.chrel h src, .chwaitf h p src t, .chwaite h p src t],
        Sys2Proof.Machine.exec i s = .next (taken s (causeAt s 11 src.c.toNat))) ∧
      Sys2Proof.Machine.exec (.chstat h a (some src)) s = .next (queue s 2 [.a a ⟨0, 0⟩])) ∧
    Sys2Proof.Machine.exec (.chstat h a none) s = .next (withMe (queue s 2 [.a a ⟨s.ctxStatus s.cur, 0⟩])
      (fun c => { c with refused := false, ue := false, baddesc := false, nref := 0, nue := 0 }))

/-- R218, R222, R252, R466 to R470: the words on scratch, the guard check and address arithmetic. -/
def Obligations.ScratchWordsAndAddressArithmetic : Prop :=
  ∀ (s : State) (h : WHead) (d a b : RIdx) (p : PIdx) (t : Imm 7) (sc : Scope) (force : Bool), Enters s h.g →
    let c := s.me
    let D := (c.areg d).val
    let A := (c.areg a).val
    let B := (c.areg b).val
    let cache := A.toNat % 256
    let mapping : Stash := { off := bits D 59 0, va := A.toNat, len := B.toNat, lines := List.replicate (B.toNat / 64) {} }
    let split : Wait := { kind := .baysplit (BitVec.ofNat 8 cache), pred := some p, limit := (immU t).toNat, deadline := s.clock + 1 + (immU t).toNat,
                          seq := s.seqNow, word := s.pos.word, lit := s.pos.lit }
    let commits := !force && !c.govf && !(decode .fp32 (A.toNat % 2 ^ 32)).isNan && !(decode .fp32 (c.csr.tolr.toNat % 2 ^ 32)).isNan &&
      !ltVal (decode .fp32 (c.csr.tolr.toNat % 2 ^ 32)) (decode .fp32 (A.toNat % 2 ^ 32))
    ((c.areg d).lame = 0 → (c.areg a).lame = 0 → (c.areg b).lame = 0 → tagOf D = 1 → tagOf A = 0 → bits D 59 21 = 0 → bits A 59 49 = 0 →
      D.toNat % 4096 = 0 → A.toNat % 4096 = 0 → B.toNat % 4096 = 0 → B ≠ 0 → InBays c (bits D 59 0) B.toNat → c.stash.length < 8 →
      c.hitsStash (bits D 59 0) B.toNat = false → c.hitsRing (bits D 59 0) B.toNat = false → c.hitsDefer (bits D 59 0) B.toNat = false →
      c.stash.any (fun t => overlaps t.va t.len A.toNat B.toNat) = false →
      Sys2Proof.Machine.exec (.smap h d a b) s = .next (withMe s (fun c => { c with stash := c.stash ++ [mapping] }))) ∧
    ((c.areg d).lame = 0 → (c.areg a).lame = 0 → (c.areg b).lame = 0 → 8 ≤ c.stash.length ∨ B = 0 ∨ tagOf D ≠ 1 ∨ D.toNat % 4096 ≠ 0 →
      Sys2Proof.Machine.exec (.smap h d a b) s = .next (taken s (causeAt s 5 D.toNat))) ∧
    ((c.areg a).lame = 0 → Sys2Proof.Machine.exec (.sunmap h a) s = .next (queueX s { tok := 0, i := .sunmap h a, ea := A })) ∧
    ((c.areg a).lame = 0 →
      ((∀ i < 8, cache.testBit i = true → i < c.nbays ∧ (c.csr.baymap.getLsbD i = true ∨
          (c.hitsRing (i * 2 ^ 18) (2 ^ 18) = false ∧ c.hitsStash (i * 2 ^ 18) (2 ^ 18) = false ∧ c.hitsDefer (i * 2 ^ 18) (2 ^ 18) = false))) →
        Sys2Proof.Machine.exec (.baysplit h p a t) s =
          .next (withMe s (fun c => { c with waits := c.waits ++ [split] }))) ∧
      (∀ i < 8, cache.testBit i = true → c.nbays ≤ i →
        Sys2Proof.Machine.exec (.baysplit h p a t) s = .next (taken s (causeAt s 5 A.toNat)))) ∧
    ((c.areg a).lame = 0 → c.csr.declfeat.getLsbD 6 = true →
      (Free s → Sys2Proof.Machine.exec (.gcheck h p a sc force) s = .next (queue s 2 [.p p ⟨true, 0⟩])) ∧
      (c.csr.status.getLsbD 5 = true → c.xq.any (fun x => x.commit) = false →
        Sys2Proof.Machine.exec (.gcheck h p a sc force) s = .next (queueX
          ((s.land (landing s 2 [.p p ⟨commits, 0⟩])).modMe (fun c =>
            { c with gchecked := c.gchecked.or (some commits) }))
          { tok := 0, i := .gcheck h p a sc force, commit := commits }))) ∧
    (c.csr.declfeat.getLsbD 6 = false → Sys2Proof.Machine.exec (.gcheck h p a sc force) s = .next (taken s (causeAt s 4 64))) ∧
    Sys2Proof.Machine.exec (.afroms h d a) s = .next (queue s 2 [.a d (c.sreg a)]) ∧
    Sys2Proof.Machine.exec (.aaddi h d a t) s =
      .next (queue s 1 [.a d ⟨BitVec.ofInt 64 (A.toInt + (immS t).toInt), (c.areg a).lame⟩])

/-- R183 to R186, R375, R380, R381: a pop takes the next record of a FILLED or DRAINING head page and a peek leaves it; a push reserves the
next record of the open page at issue and writes it as it lands. Without a record or room the group is held; once its wait has expired a
source delivers zero lame with cause LATE. Pushing a lame result is a consuming use. -/
def Sys2Proof.Claims.VectorChannelOperands : Prop :=
  ∀ (s : State) (h : WHead) (w : RIdx) (q : CIdx) (ch : Chan) (n : Nat), Live s h.g → InWindow s w →
    let v := s.me.vreg (s.me.window w)
    let rec' := s.recordAt s.cur ch ch.head n
    let read := fun (peek : Bool) => queueV (s.readRecord s.cur q ch n peek) 2 (.v (s.me.window w) ⟨vOfBytes rec'.val, rec'.lame⟩) 0
    (RecordIn s q false ch n →
      Sys2Proof.Machine.exec (.vmov h (.win w) (.pop q)) s = .next (read false) ∧
      Sys2Proof.Machine.exec (.vmov h (.win w) (.peek q)) s = .next (read true) ∧
      (read true).mem.bytes = s.mem.bytes ∧
      (ch.scope = 0 → ∃ c', (read true).me.chans.get? q.toNat = some c' ∧ c' = ch.setPage ch.head { ch.page ch.head with st := .draining })) ∧
    (s.me.chans.get? q.toNat = some ch → ch.array = false → ch.scal = false → ch.ready = none →
      (s.pos.forced = false → Sys2Proof.Machine.exec (.vmov h (.win w) (.pop q)) s = .next { s with raised := some .held }) ∧
      (s.pos.forced = true → Sys2Proof.Machine.exec (.vmov h (.win w) (.pop q)) s = .next (queueV s 2 (.v (s.me.window w) ⟨zeroV, 1⟩) 0))) ∧
    (v.lame = 0 → RoomIn s q false ch n →
      Sys2Proof.Machine.exec (.vmov h (.push q) (.win w)) s = .next (queueV (reserved s q ch n) 2 (.push q ch.openIx n v) 0)) ∧
    (v.lame = 0 → s.me.chans.get? q.toNat = some ch → ch.prod = .rider → ch.scal = false → ch.room = none → s.pos.withX = false →
      s.pos.forced = false → Sys2Proof.Machine.exec (.vmov h (.push q) (.win w)) s = .next { s with raised := some .held }) ∧
    (v.lame ≠ 0 → s.me.chans.get? q.toNat = some ch → ch.prod = .rider → ch.scal = false →
      Sys2Proof.Machine.exec (.vmov h (.push q) (.win w)) s = .next (taken s (causeAt s 7 (v.lame.toNat + 256 * 255) v.lame))) ∧
    (s.me.chans.get? q.toNat = none →
      Sys2Proof.Machine.exec (.vmov h (.win w) (.pop q)) s = .next (taken s (causeAt s 11 q.toNat)) ∧
      Sys2Proof.Machine.exec (.vmov h (.push q) (.win w)) s = .next (taken s (causeAt s 11 q.toNat)))

/-- The channel words, and channels as sources and destinations of V words: the statements above together. -/
def Obligations.ChannelsInBothPipes : Prop :=
  Claims.ChannelWords ∧ Claims.VectorChannelOperands

/-! ## What every word does -/

namespace Sys2Proof.Claims
open Sys2Proof.Machine

/-- The guard of a word (R317, R318, R322): none for SEL, which its G does not squash, and for what is no word. -/
def guardOf : Instr → Option PIdx
  | .nop h | .add h _ _ _ | .sub h _ _ _ | .mul h _ _ _ | .mulhu h _ _ _ | .divu h _ _ _ | .remu h _ _ _ | .and h _ _ _ | .or h _ _ _
  | .xor h _ _ _ | .shl h _ _ _ | .shr h _ _ _ | .sra h _ _ _ | .min h _ _ _ | .max h _ _ _ | .minu h _ _ _ | .maxu h _ _ _ | .clz h _ _
  | .popc h _ _ | .addi h _ _ _ | .andi h _ _ _ | .ori h _ _ _ | .xori h _ _ _ | .shli h _ _ _ | .shri h _ _ _ | .srai h _ _ _
  | .movi h _ _ | .movl h _ _ | .cmpeq h _ _ _ | .cmpne h _ _ _ | .cmplt h _ _ _ | .cmpltu h _ _ _ | .cmpge h _ _ _ | .cmpgeu h _ _ _
  | .cmpeqi h _ _ _ | .cmplti h _ _ _ | .plog h _ _ _ _ | .pfrom h _ _ | .setj h _ _ | .loopr h _ _ | .sfroma h _ _ | .sfromv h _ _ _
  | .sfromn h _ _ | .csrr h _ _ | .csrw h _ _ | .trap h _ | .tret h | .feat h _ _ | .spawn h _ _ _ | .hitchCreate h _ | .hitchJoin h _ _
  | .unhitch h | .hbar h _ _ | .vwin h _ | .vrot h _ | .setvt h _ _ _ _ | .srseed h _ _ | .contain h _ | .endcont h | .chkl h _ _
  | .rdcyc h _ => some h.g
  | .vadd h _ _ _ | .vsub h _ _ _ | .vmul h _ _ _ | .vfma h _ _ _ | .vfms h _ _ _ | .vfnma h _ _ _ | .vmin h _ _ _ | .vmax h _ _ _
  | .vabs h _ _ | .vneg h _ _ | .vrcp h _ _ | .vrsq h _ _ | .vexp2 h _ _ | .vlog2 h _ _ | .vtanh h _ _ | .vclamp h _ _ _ | .vand h _ _ _
  | .vor h _ _ _ | .vxor h _ _ _ | .vnot h _ _ | .vshl h _ _ _ | .vshr h _ _ _ | .vsra h _ _ _ | .vaddi h _ _ _ | .vimul h _ _ _
  | .vpopc h _ _ | .vceq h _ _ _ | .vcne h _ _ _ | .vclt h _ _ _ | .vcle h _ _ _ | .vcun h _ _ _ | .vsel h _ _ _ | .kand h _ _ _
  | .kor h _ _ _ | .kxor h _ _ _ | .knot h _ _ | .kset h _ _ | .kany h _ _ | .kfirst h _ _ | .vrsum h _ _ | .vrmax h _ _ | .vrmin h _ _
  | .vrimax h _ _ | .vmov h _ _ | .stov h _ _ _ | .viota h _ | .vperm h _ _ _ | .vslide h _ _ _ | .vcmpr h _ _ _ | .vxpnd h _ _ _
  | .vlane h _ _ _ | .cvtf32 h _ _ _ | .cvtbf16 h _ _ _ | .cvtf16 h _ _ _ | .cvte4m3 h _ _ _ | .cvte5m2 h _ _ _ | .cvte3m2 h _ _ _
  | .cvte2m3 h _ _ _ | .cvte2m1 h _ _ _ | .cvti32 h _ _ _ | .cvti8 h _ _ _ | .mxq h _ _ _ | .mxdq h _ _ _ | .mxgets h _ _ | .mxsets h _ _
  | .vrand h _ _ | .vdefer h _ _ _ | .vdrain h _ _ | .vlame h _ _ | .vclrl h _ | .nfroms h _ _ | .nseti h _ _ | .ngo h _ | .nwait h _ _
  | .nstat h _ | .nfreeze h | .nthaw h | .ndrain h _ _ | .nfill h _ _ | .npos h _ | .nseek h _ | .wfetch h _ _ | .wswap h _ | .aclr h _ _
  | .epicfg h _ _ | .cksum h _ _ | .ncutEnd h | .ncutAbandon h | .ldb h _ _ _ | .ldh h _ _ _ | .ldw h _ _ _ | .ldd h _ _ _ | .stb h _ _ _
  | .sth h _ _ _ | .stw h _ _ _ | .std h _ _ _ | .ldv h _ _ _ | .stv h _ _ _ | .ldfe h _ _ _ | .stfe h _ _ _ | .feclr h _ _ _
  | .tdesc h _ _ _ | .tread h _ _ _ | .twrite h _ _ _ | .tgather h _ _ _ | .tscatter h _ _ _ | .tscadd h _ _ _ | .chcfg h _ _
  | .chcfgOff h _ _ | .chadv h _ | .chrel h _ | .chwaitf h _ _ _ | .chwaite h _ _ _ | .chstat h _ _ | .rsend h _ _ _ _
  | .rcast h _ _ _ _ _ | .aadd h _ _ _ | .amin h _ _ _ | .amax h _ _ _ | .aand h _ _ _ | .aor h _ _ _ | .axor h _ _ _ | .axchg h _ _ _
  | .acas h _ _ _ | .afadd h _ _ _ | .fence h _ _ | .flush h _ _ | .inval h _ _ | .flgset h _ _ _ | .flgwait h _ _ _ _ | .smap h _ _ _
  | .sunmap h _ | .baysplit h _ _ _ | .gcheck h _ _ _ _ | .afroms h _ _ | .aaddi h _ _ _ | .pref h _ _ _ => some h.g
  | _ => none

/-- The words of the S pipe and the X pipe whose only effect is a result that lands in a register. -/
def onlyLands : Instr → Bool
  | .add _ _ _ _ | .sub _ _ _ _ | .mul _ _ _ _ | .mulhu _ _ _ _ | .divu _ _ _ _ | .remu _ _ _ _ | .and _ _ _ _ | .or _ _ _ _
  | .xor _ _ _ _ | .shl _ _ _ _ | .shr _ _ _ _ | .sra _ _ _ _ | .min _ _ _ _ | .max _ _ _ _ | .minu _ _ _ _ | .maxu _ _ _ _ | .clz _ _ _
  | .popc _ _ _ | .addi _ _ _ _ | .andi _ _ _ _ | .ori _ _ _ _ | .xori _ _ _ _ | .shli _ _ _ _ | .shri _ _ _ _ | .srai _ _ _ _
  | .movi _ _ _ | .movl _ _ _ | .cmpeq _ _ _ _ | .cmpne _ _ _ _ | .cmplt _ _ _ _ | .cmpltu _ _ _ _ | .cmpge _ _ _ _ | .cmpgeu _ _ _ _
  | .cmpeqi _ _ _ _ | .cmplti _ _ _ _ | .plog _ _ _ _ _ | .pfrom _ _ _ | .setj _ _ _ | .sfroma _ _ _ | .sfromv _ _ _ _ | .sfromn _ _ _
  | .feat _ _ _ | .rdcyc _ _ | .sel _ _ _ _ | .csrr _ _ _
  | .kand _ _ _ _ | .kor _ _ _ _ | .kxor _ _ _ _ | .knot _ _ _ | .kset _ _ _ | .kany _ _ _ | .kfirst _ _ _
  | .nfroms _ _ _ | .nseti _ _ _ | .nstat _ _ | .npos _ _ | .afroms _ _ _ | .aaddi _ _ _ _ => true
  | _ => false

/-- The words of the V pipe. -/
def isVWord : Instr → Bool
  | .vadd _ _ _ _ | .vsub _ _ _ _ | .vmul _ _ _ _ | .vfma _ _ _ _ | .vfms _ _ _ _ | .vfnma _ _ _ _ | .vmin _ _ _ _ | .vmax _ _ _ _
  | .vabs _ _ _ | .vneg _ _ _ | .vrcp _ _ _ | .vrsq _ _ _ | .vexp2 _ _ _ | .vlog2 _ _ _ | .vtanh _ _ _ | .vclamp _ _ _ _ | .vand _ _ _ _
  | .vor _ _ _ _ | .vxor _ _ _ _ | .vnot _ _ _ | .vshl _ _ _ _ | .vshr _ _ _ _ | .vsra _ _ _ _ | .vaddi _ _ _ _ | .vimul _ _ _ _
  | .vpopc _ _ _ | .vceq _ _ _ _ | .vcne _ _ _ _ | .vclt _ _ _ _ | .vcle _ _ _ _ | .vcun _ _ _ _ | .vsel _ _ _ _ | .kand _ _ _ _
  | .kor _ _ _ _ | .kxor _ _ _ _ | .knot _ _ _ | .kset _ _ _ | .kany _ _ _ | .kfirst _ _ _ | .vrsum _ _ _ | .vrmax _ _ _ | .vrmin _ _ _
  | .vrimax _ _ _ | .vmov _ _ _ | .stov _ _ _ _ | .viota _ _ | .vperm _ _ _ _ | .vslide _ _ _ _ | .vcmpr _ _ _ _ | .vxpnd _ _ _ _
  | .vlane _ _ _ _ | .cvtf32 _ _ _ _ | .cvtbf16 _ _ _ _ | .cvtf16 _ _ _ _ | .cvte4m3 _ _ _ _ | .cvte5m2 _ _ _ _ | .cvte3m2 _ _ _ _
  | .cvte2m3 _ _ _ _ | .cvte2m1 _ _ _ _ | .cvti32 _ _ _ _ | .cvti8 _ _ _ _ | .mxq _ _ _ _ | .mxdq _ _ _ _ | .mxgets _ _ _ | .mxsets _ _ _
  | .vrand _ _ _ | .vdefer _ _ _ _ | .vdrain _ _ _ | .vlame _ _ _ | .vclrl _ _ => true
  | _ => false

/-- The words of the X pipe. -/
def isXWord : Instr → Bool
  | .ldb _ _ _ _ | .ldh _ _ _ _ | .ldw _ _ _ _ | .ldd _ _ _ _ | .stb _ _ _ _ | .sth _ _ _ _ | .stw _ _ _ _ | .std _ _ _ _ | .ldv _ _ _ _
  | .stv _ _ _ _ | .ldfe _ _ _ _ | .stfe _ _ _ _ | .feclr _ _ _ _ | .tdesc _ _ _ _ | .tread _ _ _ _ | .twrite _ _ _ _ | .tgather _ _ _ _
  | .tscatter _ _ _ _ | .tscadd _ _ _ _ | .chcfg _ _ _ | .chcfgOff _ _ _ | .chadv _ _ | .chrel _ _ | .chwaitf _ _ _ _ | .chwaite _ _ _ _
  | .chstat _ _ _ | .rsend _ _ _ _ _ | .rcast _ _ _ _ _ _ | .aadd _ _ _ _ | .amin _ _ _ _ | .amax _ _ _ _ | .aand _ _ _ _ | .aor _ _ _ _
  | .axor _ _ _ _ | .axchg _ _ _ _ | .acas _ _ _ _ | .afadd _ _ _ _ | .fence _ _ _ | .flush _ _ _ | .inval _ _ _ | .flgset _ _ _ _
  | .flgwait _ _ _ _ _ | .smap _ _ _ _ | .sunmap _ _ | .baysplit _ _ _ _ | .gcheck _ _ _ _ _ | .afroms _ _ _ | .aaddi _ _ _ _
  | .pref _ _ _ _ => true
  | _ => false

end Sys2Proof.Claims

/-- R175, R176, R178, R320, R329: as a rider begins a group every entry of its landing queue comes one group nearer; those that have waited
out land, the later in issue order over the earlier; what is written to s0 is discarded; a register that no due entry names keeps its
value, and with nothing due nothing else changes. -/
def Obligations.LandingQueue : Prop :=
  ∀ (s : State) (k : Nat),
    let c := s.ctx k
    let u := (s.tick k).1
    let near := c.land.map (fun e => { e with remain := e.remain - 1 })
    let due := near.filter (fun e => decide (e.remain = 0))
    (u.ctx k).land = near.filter (fun e => decide (e.remain ≠ 0)) ∧
    (u.ctx k).seq = c.seq + 1 ∧
    (∀ r : RIdx, (∀ e ∈ due, ∀ x, RegWrite.s r x ∉ e.writes) → rget (u.ctx k).f.s r = rget c.f.s r) ∧
    (∀ (r : RIdx) (x : Lamed DWord) (pre post : List Landing) (e : Landing), due = pre ++ e :: post → e.writes = [.s r x] → r ≠ 0 →
      (∀ e' ∈ post, ∀ y, RegWrite.s r y ∉ e'.writes) → rget (u.ctx k).f.s r = x) ∧
    rget (u.ctx k).f.s 0 = rget c.f.s 0 ∧
    (∀ b : BitVec 6, (∀ e ∈ due, e.flags &&& b = 0) → (u.ctx k).csr.vflags &&& b.setWidth 64 = c.csr.vflags &&& b.setWidth 64) ∧
    (due = [] → u = s.setCtx k { c with land := near, seq := c.seq + 1 })

/-- R322, R340: a word whose guard reads 0 is squashed and changes nothing, whichever word it is; only SEL is not squashed, a divide behind
a divide raises ILLEGAL_ENCODING all the same, and an M word takes the NEST_CHECK that its rider is owed. -/
def Sys2Proof.Claims.SquashedWordsChangeNothing : Prop :=
  ∀ (s : State) (i : Instr) (g : PIdx), guardOf i = some g → Squashed s g → s.me.nest.owes = none →
    (isDivide i = true → s.me.land.any (fun e => e.divide) = false) →
    Sys2Proof.Machine.exec i s = .next { s with raised := none }

/-- R300, R322: the use of a lame guard is consuming: a word whose guard reads 0 and is lame raises UNCORRECTABLE with the guard's cause and
its register, 108 + G. -/
def Sys2Proof.Claims.LameGuardsAreConsumed : Prop :=
  ∀ (s : State) (i : Instr) (g : PIdx) (l : Lame), guardOf i = some g → s.me.preg g = ⟨false, l⟩ → l ≠ 0 → s.me.nest.owes = none →
    (isDivide i = true → s.me.land.any (fun e => e.divide) = false) →
    Sys2Proof.Machine.exec i s = .next (taken s (causeAt s 7 (l.toNat + 256 * (108 + g.toNat)) l))

/-- A squashed word changes nothing; the use of a lame guard is consuming: the statements above together. -/
def Obligations.GuardedWords : Prop :=
  Claims.SquashedWordsChangeNothing ∧ Claims.LameGuardsAreConsumed

/-- R175, R338, R391, R439, R470: a word whose effect is a register result changes the landing queue of its context and nothing else when
it raises no cause: no memory, no register, no other context. -/
def Sys2Proof.Claims.RegisterWordsOnlyQueueTheirResult : Prop :=
  ∀ (s t : State) (i : Instr), onlyLands i = true → Sys2Proof.Machine.exec i s = .next t → t.raised = none →
    t = { s.modMe (fun c => { c with land := t.me.land }) with raised := none }

/-- R175, R375, R377, R400: a V word that raises no cause changes no register at issue, no stack, no PC, no register of the module, and no
byte of memory but those that VDEFER appends; of the control registers only DEFERQ may change. -/
def Sys2Proof.Claims.VectorWordFrame : Prop :=
  ∀ (s t : State) (i : Instr), isVWord i = true → Sys2Proof.Machine.exec i s = .next t → t.raised = none →
    (∀ k, (t.ctx k).f = (s.ctx k).f ∧ (t.ctx k).pc = (s.ctx k).pc ∧ (t.ctx k).loops = (s.ctx k).loops ∧
      (t.ctx k).links = (s.ctx k).links ∧ (t.ctx k).xq = (s.ctx k).xq ∧ (t.ctx k).nest = (s.ctx k).nest ∧
      (k ≠ s.cur → (t.ctx k).csr = (s.ctx k).csr ∧ (t.ctx k).land = (s.ctx k).land ∧ (t.ctx k).chans = (s.ctx k).chans)) ∧
    t.me.csr = { s.me.csr with deferq := t.me.csr.deferq } ∧
    t.mem.host = s.mem.host ∧ t.regs = s.regs ∧ t.nv = s.nv ∧ t.gangs = s.gangs ∧ t.stalls = s.stalls ∧ t.hitches = s.hitches ∧
    ((∀ h d a k, i ≠ .vdefer h d a k) → t.mem.bytes = s.mem.bytes)

/-- R210, R444: at issue an X word that raises no cause changes no register, no stack, no PC and no byte of memory: its accesses are performed
from the command queue. -/
def Sys2Proof.Claims.AccessWordFrame : Prop :=
  ∀ (s t : State) (i : Instr), isXWord i = true → Sys2Proof.Machine.exec i s = .next t → t.raised = none →
    (∀ k, (t.ctx k).f = (s.ctx k).f ∧ (t.ctx k).pc = (s.ctx k).pc ∧ (t.ctx k).loops = (s.ctx k).loops ∧
      (t.ctx k).links = (s.ctx k).links ∧ (t.ctx k).csr = (s.ctx k).csr ∧ (t.ctx k).nest = (s.ctx k).nest ∧
      (k ≠ s.cur → (t.ctx k).land = (s.ctx k).land ∧ (t.ctx k).chans = (s.ctx k).chans ∧ (t.ctx k).xq = (s.ctx k).xq)) ∧
    t.mem.bytes = s.mem.bytes ∧ t.mem.host = s.mem.host ∧ t.regs = s.regs ∧ t.nv = s.nv ∧ t.gangs = s.gangs ∧ t.hitches = s.hitches

/-- What register words, V words and X words leave unchanged at issue: the statements above together. -/
def Obligations.WordFrames : Prop :=
  Claims.RegisterWordsOnlyQueueTheirResult ∧ Claims.VectorWordFrame ∧ Claims.AccessWordFrame

/-! ## Nests -/

namespace Sys2Proof.Claims
open Sys2Proof.Machine

/-- The state in which the nest of the word's context has changed and nothing else. -/
def withNest (s : State) (f : Nest → Nest) : State := withMe s (fun c => { c with nest := f c.nest })

/-- The state in which one gang has changed and nothing else. -/
def withGang (s : State) (gi : Nat) (g : Gang) : State := { s with gangs := s.gangs.put gi g, raised := none }

/-- An M word has its effect: its guard is true, NEST is declared, and no NEST_CHECK is owed (R146, R309, R322). -/
def NestWord (s : State) (g : PIdx) : Prop := Live s g ∧ s.me.csr.declfeat &&& 0x87 = 0x87 ∧ s.me.nest.owes = none

/-- The port queue of the nest is empty, no copy is under way and no wait of its context is open: a word is applied as it issues (R438). -/
def PortIdle (s : State) : Prop := s.me.nest.port = [] ∧ s.me.nest.copy = none ∧ s.me.waits = []

end Sys2Proof.Claims

/-- R309, R424, R438 to R440: M words at issue. The register words land at g+2 or g+4; the others enter the port queue behind a copy, are
held while it is full, and with an expired wait are discarded with MISUSE; a word that needs NEST traps without it, and NEST_CHECK comes first. -/
def Sys2Proof.Claims.NestWordsAtIssue : Prop :=
  ∀ (s : State) (h : WHead) (d a : RIdx) (i : Imm 10) (p : PIdx) (mode e : BitVec 3) (cnt : BitVec 10) (slot : BitVec 4) (keep : Bool) (x : DWord),
    let n := s.me.nest
    let v := (s.me.nreg a).val
    let cfg := [(s.me.nreg 0).val, (s.me.nreg 1).val, (s.me.nreg 2).val, (s.me.nreg 3).val, (s.me.nreg 4).val, (s.me.nreg 5).val, (s.me.nreg 6).val]
    let count := cnt.toNat + 1
    let port : List (Instr × PortWord) := [(.ngo h mode, .ngo cfg mode), (.nfreeze h, .freeze), (.nthaw h, .thaw), (.nseek h a, .seek v),
      (.wfetch h a slot, .wfetch (v.toNat % 2 ^ 32) slot.toNat), (.wswap h keep, .wswap keep), (.aclr h a cnt, .aclr v count),
      (.epicfg h a e, .epicfg e.toNat v), (.ncutEnd h, .cut false), (.ncutAbandon h, .cut true)]
    let moves : List (Instr × PortWord) := [(.ndrain h a cnt, .move true v count s.ids), (.nfill h a cnt, .move false v count s.ids)]
    let wait : Wait := { kind := .nwait, pred := some p, limit := (immU i).toNat, deadline := s.clock + 1 + (immU i).toNat,
                         seq := s.seqNow, word := s.pos.word, lit := s.pos.lit }
    (NestWord s h.g →
      Sys2Proof.Machine.exec (.nfroms h d a) s = .next (queue s 2 [.n d (s.me.sreg a)]) ∧
      Sys2Proof.Machine.exec (.nseti h d i) s = .next (queue s 2 [.n d ⟨immS i, 0⟩]) ∧
      (n.st = .running → Sys2Proof.Machine.exec (.nwait h p i) s = .next (withMe s (fun c => { c with waits := c.waits ++ [wait] }))) ∧
      (n.port = [] →
        let w := s.nestWord s.cur
        (Sys2Proof.Machine.exec (.nstat h d) s = .next (queue s 4 [.n d ⟨w, 0⟩]) ∧
          bits w 2 0 = n.st.code ∧ bits w 6 3 = n.code % 16 ∧ bit w 7 = n.misuse ∧ bit w 11 = n.poison ∧ bit w 12 = n.retried ∧ bits w 63 13 = 0) ∧
        Sys2Proof.Machine.exec (.npos h d) s =
          .next (queue s 4 [.n d ⟨BitVec.ofNat 64 (n.pass % 2 ^ 32 + n.group % 2 ^ 32 * 2 ^ 32), 0⟩]) ∧
        (s.me.nreg a = ⟨x, 0⟩ → n.gang = none →
          Sys2Proof.Machine.exec (.cksum h d a) s = .next
            (let t := queue s 4 [.n d ⟨BitVec.ofNat 64 (n.nck % 2 ^ 32 + n.rows % 2 ^ 32 * 2 ^ 32), 0⟩]
             if x.getLsbD 0 then withNest t (fun n => { n with nck := 0, rows := 0 }) else t))) ∧
      ((∀ k : RIdx, k ∈ [0, 1, 2, 3, 4, 5, 6, a] → (s.me.nreg k).lame = 0) →
        (n.copy.isSome = true → n.port.length < 3 →
          (∀ w ∈ port, Sys2Proof.Machine.exec w.1 s = .next (withNest s (fun n => { n with port := n.port ++ [w.2] }))) ∧
          (∀ w ∈ moves, Sys2Proof.Machine.exec w.1 s =
            .next { withNest s (fun n => { n with port := n.port ++ [w.2] }) with ids := s.ids + 1 })) ∧
        (4 ≤ n.port.length + n.copy.toList.length → ∀ w ∈ port,
          (s.pos.forced = false → Sys2Proof.Machine.exec w.1 s = .next { s with raised := some .held }) ∧
          (s.pos.forced = true → Sys2Proof.Machine.exec w.1 s = .next (withNest s (fun n => { n with misuse := true })))))) ∧
    (Live s h.g → s.me.csr.declfeat.getLsbD 0 = false → n.owes = none →
      ∀ w ∈ [Instr.nfroms h d a, .nseti h d i, .nwait h p i, .nstat h d, .nfreeze h, .nthaw h, .npos h d, .wswap h keep, .ncutEnd h],
        Sys2Proof.Machine.exec w s = .next (taken s (causeAt s 4 1))) ∧
    (Live s h.g → s.me.csr.declfeat &&& 0x87 = 0x87 → n.owes = some x →
      ∀ w ∈ [Instr.nfroms h d a, .nseti h d i, .nstat h d, .nfreeze h, .nthaw h, .wswap h keep, .ncutEnd h, .ncutAbandon h],
        Sys2Proof.Machine.exec w s = .next (taken s (causeAt s 8 x.toNat)))

/-- R422, R424, R427, R433, R434, R439: what the words of the port queue do when they are applied at once: an arm captures n0 to n6 and
E0 to E7; a freeze, a thaw, a cut, a seek, a fetch, a swap, a clear and a copy act in the states that allow them and set MISUSE in the others. -/
def Sys2Proof.Claims.NestPortWords : Prop :=
  ∀ (s : State) (h : WHead) (a : RIdx) (mode e : BitVec 3) (cnt : BitVec 10) (slot : BitVec 4) (gi : Nat) (g : Gang),
    NestWord s h.g → PortIdle s → (∀ k : RIdx, k ∈ [0, 1, 2, 3, 4, 5, 6, a] → (s.me.nreg k).lame = 0) →
    let n := s.me.nest
    let v := (s.me.nreg a).val
    let misused := withNest s (fun n => { n with misuse := true })
    let count := cnt.toNat + 1
    let first := bits v 41 32
    let tail : Bool := !n.cfg.isEmpty && nestTail n.cfg == s.me.stall
    let p := v.toNat % 2 ^ 32
    let live := n.st = .armed ∨ n.st = .running ∨ n.st = .frozen
    (¬ live → n.gang = none →
      (∀ w ∈ [Instr.nfreeze h, .nthaw h, .nseek h a, .wfetch h a slot, .wswap h true, .wswap h false, .ncutEnd h, .ncutAbandon h, .nfill h a cnt],
        ∃ t, Sys2Proof.Machine.exec w s = .next t ∧ t.me.nest = { n with misuse := true } ∧ t.gangs = s.gangs ∧ t.mem = s.mem ∧ t.regs = s.regs) ∧
      (∃ t, Sys2Proof.Machine.exec (.ngo h mode) s = .next t ∧
        t.me.nest.cfg = [(s.me.nreg 0).val, (s.me.nreg 1).val, (s.me.nreg 2).val, (s.me.nreg 3).val, (s.me.nreg 4).val, (s.me.nreg 5).val,
          (s.me.nreg 6).val] ∧
        t.me.nest.epi = n.staged ∧ t.me.nest.staged = n.staged ∧ t.me.nest.mode = mode ∧ t.me.nest.misuse = false ∧
        (t.me.nest.st = .armed ∨ t.me.nest.st = .rejected) ∧ (t.me.nest.st = .rejected → t.me.nest.code ≠ 0) ∧ t.me.f = s.me.f)) ∧
    (live → Sys2Proof.Machine.exec (.ngo h mode) s = .next misused) ∧
    Sys2Proof.Machine.exec (.epicfg h a e) s = .next (withNest s (fun n => { n with staged := n.staged.set e.toNat v })) ∧
    (n.st = .running → n.gang = some gi → s.gangs.get? gi = some g →
      Sys2Proof.Machine.exec (.nfreeze h) s = .next (withGang s gi { g with fpend := true }) ∧
      Sys2Proof.Machine.exec (.nthaw h) s = .next (withGang s gi { g with fpend := false }) ∧
      Sys2Proof.Machine.exec (.ncutEnd h) s = .next (withGang s gi { g with cpend := some false }) ∧
      Sys2Proof.Machine.exec (.ncutAbandon h) s = .next (withGang s gi { g with cpend := some true }) ∧
      Sys2Proof.Machine.exec (.nseek h a) s = .next misused) ∧
    (n.st = .armed → n.gathered = false →
      Sys2Proof.Machine.exec (.nfreeze h) s = .next (withNest s (fun n => { n with fpend := true })) ∧
      Sys2Proof.Machine.exec (.nthaw h) s = .next (withNest s (fun n => { n with fpend := false }))) ∧
    (n.st = .frozen → n.gang = some gi → s.gangs.get? gi = some g → g.byCollector = false → g.saved = none →
      (s.copying g = false →
        ∃ t, Sys2Proof.Machine.exec (.nthaw h) s = .next t ∧ t.me.nest = { n with st := .running } ∧
          t.gangs.get? gi = some { g with frozen := false }) ∧
      (∃ t, Sys2Proof.Machine.exec (.ncutAbandon h) s = .next t ∧ t.me.nest = { n with st := .cut }) ∧
      (p < nestP g.cfg →
        ∃ t, Sys2Proof.Machine.exec (.nseek h a) s = .next t ∧ t.me.nest = { n with pass := p, group := p / nestR g.cfg } ∧
          ∃ g', t.gangs.get? gi = some g' ∧ g'.members.all (fun m => m.pass == p && m.step == 0) = true ∧ g'.members.length = g.members.length) ∧
      (nestP g.cfg ≤ p → Sys2Proof.Machine.exec (.nseek h a) s = .next misused)) ∧
    (live → n.mode.getLsbD 1 = true →
      (n.wfetch = none → Sys2Proof.Machine.exec (.wfetch h a slot) s =
        .next (withNest s (fun n => { n with wfetch := some (p, slot.toNat), fetched := true }))) ∧
      Sys2Proof.Machine.exec (.wswap h true) s = .next (withNest s (fun n => { n with grants := n.grants ++ [true] })) ∧
      (n.fetched = true →
        Sys2Proof.Machine.exec (.wswap h false) s = .next (withNest s (fun n => { n with grants := n.grants ++ [false], fetched := false }))) ∧
      (n.fetched = false →
        Sys2Proof.Machine.exec (.wswap h false) s = .next (withNest s (fun n => { n with grants := n.grants ++ [true], misuse := true })))) ∧
    (live → n.mode.getLsbD 1 = false → ∀ w ∈ [Instr.wfetch h a slot, .wswap h true, .wswap h false],
      Sys2Proof.Machine.exec w s = .next misused) ∧
    (tail = true → first + count ≤ 1024 → (s.gangOf s.cur).any (fun g => g.2.saved.isSome) = false →
      (n.st ≠ .running → Sys2Proof.Machine.exec (.aclr h a cnt) s =
        .next (withNest s (fun n => { n with copy := some (.aclr v count, s.clock + 4 * count) }))) ∧
      (n.st = .frozen → bits v 20 0 % 128 = 0 → s.me.inScratch (bits v 20 0) (128 * count) = true → s.me.xq = [] →
        Sys2Proof.Machine.exec (.ndrain h a cnt) s =
          .next { withNest s (fun n => { n with copy := some (.move true v count s.ids, s.clock + 4 * count) }) with ids := s.ids + 1 } ∧
        Sys2Proof.Machine.exec (.nfill h a cnt) s =
          .next { withNest s (fun n => { n with copy := some (.move false v count s.ids, s.clock + 4 * count) }) with ids := s.ids + 1 })) ∧
    (tail = false ∨ 1024 < first + count ∨ n.st = .running →
      Sys2Proof.Machine.exec (.aclr h a cnt) s = .next misused ∧
      (∀ w ∈ [Instr.ndrain h a cnt, .nfill h a cnt], Sys2Proof.Machine.exec w s = .next { misused with ids := s.ids + 1 }))

/-- M words at issue, and what the words of the port queue do when applied: the statements above together. -/
def Obligations.NestWords : Prop :=
  Claims.NestWordsAtIssue ∧ Claims.NestPortWords

/-! ## The engines of the nests -/

/-- R282, R302, R429, R434: the oldest sums that have reached a whiffletree are added to their entry with one rounding a lane, and poison
stays with it; a copy out writes an entry's 32 sums to scratch, a copy in reads them, a clear sets entries to +0. No other entry changes. -/
def Obligations.AccumulatorEntries : Prop :=
  ∀ (s : State) (gi key : Nat) (g : Gang) (f : Sums) (a : DWord) (n ord at' e : Nat),
    let c := s.ctx key
    let whiff := stallDieRow (nestTail c.nest.cfg)
    let first := bits a 41 32
    let o := bits a 20 0
    let place := f.pass / nestR g.cfg % 2 * 512 + f.row
    let old := s.accGet g.whiff place
    (s.gangs.get? gi = some g → g.flight.find? (fun f => f.next == g.members.length && decide (f.ready ≤ s.clock)) = some f →
      f.row + 1 ≠ nestC0 g.cfg →
      ∃ t, Sys2Proof.Machine.exec (.whiffletreeAccumulate gi) s = .next t ∧
        t.accGet g.whiff place = { vals := (old.vals.zip f.sums).map (fun p => (addCodes .fp32 p.1 p.2)), poison := old.poison || f.poison } ∧
        (∀ j, j ≠ place → t.accGet g.whiff j = s.accGet g.whiff j) ∧
        t.gangs.get? gi = some { g with flight := g.flight.erase f, touched := setAdd g.touched place } ∧ t.mem = s.mem ∧ t.ctxs = s.ctxs) ∧
    (s.gangs.get? gi = none → Sys2Proof.Machine.exec (.whiffletreeAccumulate gi) s = .next s) ∧
    (rising (s.acc.map (·.1)) = true → c.nest.copy = some (.aclr a n, at') → c.nest.port = [] → c.xq = [] → c.nest.gang = none → e < n →
      ∃ t, Sys2Proof.Machine.exec (.accumulatorCopyComplete key) s = .next t ∧ (t.ctx key).nest.copy = none ∧
        t.accGet whiff (first + e) = { vals := List.replicate 32 0, poison := false } ∧
        (∀ j, j < first ∨ first + n ≤ j → t.accGet whiff j = s.accGet whiff j) ∧ t.mem = s.mem) ∧
    (c.nest.copy = some (.move true a 1 ord, at') → c.nest.port = [] → c.xq = [] → c.nest.gang = none → c.loc = .on c.stall 0 →
      o % 128 = 0 → c.inScratch o 128 = true → c.hitsRing o 128 = false → c.hitsStash o 128 = false → c.hitsDefer o 128 = false →
      (s.accGet whiff first).poison = false → (s.accGet whiff first).vals.length = 32 →
      ∃ t, Sys2Proof.Machine.exec (.accumulatorCopyComplete key) s = .next t ∧ (t.ctx key).nest.copy = none ∧
        t.mem.read (c.scratch o) 128 = (s.accGet whiff first).vals.flatMap (fun x => leBytes 4 x) ∧
        (∀ b, b < c.scratch o ∨ c.scratch o + 128 ≤ b → t.mem.get b = s.mem.get b) ∧ t.acc = s.acc) ∧
    (c.nest.copy = some (.move false a 1 ord, at') → c.nest.port = [] → c.xq = [] → c.nest.gang = none → c.loc = .on c.stall 0 →
      o % 128 = 0 → c.inScratch o 128 = true → c.hitsStash o 128 = false → s.mem.poisoned (c.scratch o) 128 = false →
      ∃ t, Sys2Proof.Machine.exec (.accumulatorCopyComplete key) s = .next t ∧ (t.ctx key).nest.copy = none ∧
        t.accGet whiff first = { vals := (List.range 32).map (fun i => leNat (s.mem.read (c.scratch o + 4 * i) 4)), poison := false } ∧
        (∀ j, j ≠ first → t.accGet whiff j = s.accGet whiff j) ∧ t.mem.bytes = s.mem.bytes) ∧
    (c.nest.copy = none → Sys2Proof.Machine.exec (.accumulatorCopyComplete key) s = .next s)

/-- R281, R308, R309, R425 to R427, R433, R435: the row sequencer. A step adds the products of one activation row to the sums that came in, PE
row by PE row with one rounding each; a fill from an invalid slot is poisoned; a pass boundary takes a pending cut before a freeze; a store
step whose check fails twice ends the nest with NEST_CHECK; the collector's drain keeps the touched entries and a resumption puts them back. -/
def Sys2Proof.Claims.NestEngines : Prop :=
  ∀ (s : State) (gi mi : Nat) (g : Gang) (m : Member) (b : Bool) (ch : Chan) (r : Nat) (f : Sums) (x : Store) (w : Waiting)
    (entries : List (Nat × AccEntry)) (row k p : Nat), rising (s.gangs.map (·.1)) = true → s.gangs.get? gi = some g → g.members[mi]? = some m →
    let c := (s.ctx m.key).nest.cfg
    let acts := rowVals (nestFmta c) g.depth (s.recordAt m.key ch ch.head r).val m.row
    let l := s.latch m.stall b
    let weights := (l.elems.zip l.scales).map (fun p => scaledVal l.fmt p.1 p.2)
    let col := fun (j : Nat) => (List.range 32).foldl (fun sum row => peStep sum ((List.range g.depth).map (fun d =>
      (acts.getD (row * g.depth + d) (.nan false), weights.getD (32 * (row * g.depth + d) + j) (.nan false))))) (f.sums.getD j 0)
    let tail : Bool := mi + 1 == g.members.length
    let out : Sums :=
      { pass := m.pass, row := m.step, sums := (List.range 32).map col, poison := f.poison || (s.recordAt m.key ch ch.head r).lame != 0 || l.poison,
        next := mi + 1, ready := s.clock + sumLatency m.stall tail, wire := false }
    (s.stepReady g mi m = some (b, ch, r, f) → stallCol m.stall ≠ 31 →
      ∃ t, Sys2Proof.Machine.exec (.arrayStep gi mi) s = .next t ∧ ∃ g', t.gangs.get? gi = some g' ∧
        g'.flight.getLast? = some out ∧
        (m.step + 1 ≠ nestC0 g.cfg → (g'.members.map (fun y => (y.pass, y.step)))[mi]? = some (m.pass, m.step + 1)) ∧
        (m.step + 1 = nestC0 g.cfg → (g'.members.map (fun y => (y.pass, y.step)))[mi]? = some (m.pass + 1, 0)) ∧
        t.mem.bytes = s.mem.bytes ∧ t.acc = s.acc) ∧
    (s.stepReady g mi m = none → Sys2Proof.Machine.exec (.arrayStep gi mi) s = .next s) ∧
    (m.fillAt.any (fun at' => at' ≤ s.clock) = true → g.manual = false → m.fill < nestP g.cfg → m.fill = m.pass → (s.ctx m.key).slots.get? (nestWslot c) = none →
      ∃ t, Sys2Proof.Machine.exec (.latchFillComplete gi mi) s = .next t ∧
        t.latch m.stall (passBank m.fill) = { s.latch m.stall (passBank m.fill) with full := true } ∧ t.mem = s.mem ∧ t.acc = s.acc) ∧
    (m.fillAt = none → g.manual = false → m.fill < nestP g.cfg → m.fill = m.pass → g.ended = false → g.saved = none → m.halted = none →
      bit (s.reg (.dramclk (stallQuarter m.stall))) 4 = false → m.freeAt (passBank m.fill) ≤ s.clock → (s.ctx m.key).slots.get? (nestWslot c) = none →
      ((s.fillBegin gi mi).latch m.stall (passBank m.fill)).poison = true ∧
        ((s.fillBegin gi mi).gangs.get? gi).map (fun g => (g.members.map (·.fillAt)).getD mi none) =
          some (some (s.clock + s.fillCycles m.stall))) ∧
    (m.fillAt = none → g.ended = true → Sys2Proof.Machine.exec (.latchFillComplete gi mi) s = .next s) ∧
    (g.ended = false → g.still = false → g.saved = none → g.ending = none → g.atBoundary = true → m.key < groomKey →
      (s.ctx m.key).nest.gang = some gi → (s.ctx m.key).nest.st = .running →
      (g.cpend = some true → g.stores = [] →
        ∃ t, Sys2Proof.Machine.exec (.passBoundary gi) s = .next t ∧ (t.ctx m.key).nest.st = .cut ∧ t.gangs.get? gi = none ∧ t.mem.bytes = s.mem.bytes) ∧
      (g.cpend = none → g.stopping = false → g.fpend = true → s.gangOrphan g = false →
        ∃ t, Sys2Proof.Machine.exec (.passBoundary gi) s = .next t ∧ (t.ctx m.key).nest.st = .frozen ∧
          t.gangs.get? gi = some { g with frozen := true, fpend := false } ∧ t.mem = s.mem) ∧
      (g.cpend = none → g.stopping = false → g.fpend = false → Sys2Proof.Machine.exec (.passBoundary gi) s = .next s)) ∧
    (g.stores.head? = some x → g.bias.isSome = true → g.halted = none → g.saved = none → (s.ctx m.key).nest.gang = some gi →
      ∃ t, Sys2Proof.Machine.exec (.epilogueStore gi false false) s = .next t ∧ (t.ctx m.key).nest.st = .check ∧
        (t.ctx m.key).nest.owes = some (BitVec.ofNat 64
          ((((x.group + 1) * nestR g.cfg - 1) * nestC0 g.cfg + x.at') % 2 ^ 16 + g.row * 2 ^ 16)) ∧ t.gangs.get? gi = none ∧
        bits (t.reg (.chklog g.whiff)) 31 16 = Nat.min 0xFFFF (bits (s.reg (.chklog g.whiff)) 31 16 + 1) ∧ t.mem.bytes = s.mem.bytes) ∧
    (g.stores = [] → g.bias.isSome = true → Sys2Proof.Machine.exec (.epilogueStore gi true true) s = .next s) ∧
    (g.ended = false → g.byCollector = true → g.saved = none → g.members.any (fun m => (s.ctx m.key).nest.copy.isSome) = false →
      ∃ t, Sys2Proof.Machine.exec (.nestCollectDrain gi) s = .next t ∧
        t.gangs.get? gi = some { g with saved := some (g.touched.map (fun e => (e, s.accGet g.whiff e))) } ∧ t.mem = s.mem) ∧
    (g.ended = true → Sys2Proof.Machine.exec (.nestCollectDrain gi) s = .next s) ∧
    (s.waiting.find? (fun w => w.gang == some gi) = some w → s.mayStart w = true → g.saved = some entries → (entries.map (·.1)).Nodup →
      ∃ t, Sys2Proof.Machine.exec (.nestResume gi) s = .next t ∧ (∃ g', t.gangs.get? gi = some g' ∧ g'.saved = none ∧ g'.byCollector = false) ∧
        (∀ e ∈ entries, t.accGet g.whiff e.1 = e.2) ∧ t.mem = s.mem) ∧
    (s.waiting.find? (fun w => w.gang == some gi) = none → Sys2Proof.Machine.exec (.nestResume gi) s = .next s) ∧
    (∃ t, Sys2Proof.Machine.exec (.arraySelfTestComplete row []) s = .next t ∧
      bits (t.reg (.chklog row)) 47 32 = Nat.min 0xFFFF (bits (s.reg (.chklog row)) 47 32 + 1) ∧ t.ctxs = s.ctxs ∧ t.mem = s.mem) ∧
    (s.physStall k = some p → s.physState p < 2 → row < 128 →
      ∃ t, Sys2Proof.Machine.exec (.arraySelfTestComplete row [k]) s = .next t ∧ bits (t.reg (.stallwear p)) 33 32 = 2 ∧
        t.reg (.chklog row) = s.reg (.chklog row) ∧ t.mem.bytes = s.mem.bytes)

/-- R417, R423, R425: a gang all of whose members have armed and whose resources are free starts: every member RUNNING, its latches empty,
the tail's epilogue words captured; while a gang that was armed before it wants a resource of it, it waits. -/
def Sys2Proof.Claims.GangStart : Prop :=
  ∀ (s : State) (order k : Nat) (w : Waiting), s.waiting.find? (fun w => w.order == order && w.gang.isNone) = some w →
    (s.mayStart w = true → epiMode (s.ctx (w.keys.getLastD 0)).nest.epi ≠ 2 → bit (cfgW (s.ctx (w.keys.getLastD 0)).nest.epi 0) 13 = false →
      (s.ctx (w.keys.getLastD 0)).nest.mode.getLsbD 2 = false →
      ∃ t, Sys2Proof.Machine.exec (.nestGangStart order) s = .next t ∧
        (∃ g, t.gangs.get? order = some g ∧ g.row = stallRow (nestHead w.cfg) ∧ g.members.map (·.key) = w.keys ∧ g.cfg = w.cfg ∧
          g.epi = (s.ctx (w.keys.getLastD 0)).nest.epi ∧ g.ended = false ∧ g.flight = [] ∧ g.frozen = false) ∧
        (k ∈ w.keys → (t.ctx k).nest.st = .running ∧ (t.ctx k).nest.gang = some order ∧
          (t.latch (s.ctx k).stall false).full = false ∧ (t.latch (s.ctx k).stall true).full = false) ∧
        t.mem = s.mem ∧ t.acc = s.acc) ∧
    (s.mayStart w = false → Sys2Proof.Machine.exec (.nestGangStart order) s = .next s)

/-- The row sequencer, and the start of a gang: the statements above together. -/
def Obligations.NestsAndGangs : Prop :=
  Claims.NestEngines ∧ Claims.GangStart

/-! ## Accesses performed, and waits -/

namespace Sys2Proof.Claims
open Sys2Proof.Machine

/-- A command that waits alone in the queue of a context that is on its stall, outside guarded mode, without stashes, with no collection
and no checkpoint under way: it may be performed now. -/
def Alone (s : State) (k : Nat) (x : XCmd) (st slot : Nat) : Prop :=
  (s.ctx k).xq = [x] ∧ x.st = .queued ∧ x.mute = false ∧ x.guarded = false ∧ (s.ctx k).loc = .on st slot ∧ (s.ctx k).stash = [] ∧ s.colls = [] ∧
  (s.ctx k).nest.port = [] ∧ (s.ctx k).nest.copy = none

/-- An aligned scratch address of n bytes in the rider's bays (R200, R201, R441). -/
def InScratch (s : State) (k : Nat) (ea : DWord) (n : Nat) : Prop :=
  tagOf ea = 1 ∧ bits ea 59 21 = 0 ∧ ea.toNat % n = 0 ∧ InBays (s.ctx k) (bits ea 59 0) n

end Sys2Proof.Claims

/-- R201, R237, R252, R444, R452, R454, R460: accesses to the rider's own scratch, performed. A store writes its bytes at the address captured at issue
and no other byte; a load, and an atomic with the old value, have their data on the way; STFE fills its granule, LDFE empties a full one and
waits at an empty one. -/
def Sys2Proof.Claims.ScratchAccesses : Prop :=
  ∀ (s : State) (k st slot : Nat) (x : XCmd) (h : WHead) (d a : RIdx) (mc : MemCtl) (sc : StfeCtl) (lc : LdfeCtl) (ac : AtomCtl),
    Alone s k x st slot → mc.ord = .rlx → sc.ord = .rlx → lc.ord = .rlx → lc.lit = none → ac.ord = .rlx →
    let c := s.ctx k
    let o := bits x.ea 59 0
    let at' := c.scratch o
    let run := Sys2Proof.Machine.exec (.xCommandPerform k x.tok) s
    let stored := fun (n : Nat) (v : Nat) (t : State) => t.mem.read at' n = leBytes n v ∧
      (∀ b, b < at' ∨ at' + n ≤ b → t.mem.get b = s.mem.get b) ∧ t.mem.host = s.mem.host ∧ (t.ctx k).f = c.f
    let got := fun (v : Nat) (t : State) =>
      (t.ctx k).xq = [{ x with st := .performed, data := some ⟨BitVec.ofNat 2112 v, 0⟩, data2 := 0 }] ∧ (t.ctx k).f = c.f ∧ (t.ctx k).land = c.land
    let stores := fun (n : Nat) => InScratch s k x.ea n → ∃ t, run = .next t ∧ stored n x.v1.toNat t ∧ (t.ctx k).xq = []
    let loads := fun (n : Nat) => InScratch s k x.ea n → s.mem.poisoned at' n = false →
      ∃ t, run = .next t ∧ got (leNat (s.mem.read at' n)) t ∧ t.mem = s.mem
    let rmw := fun (f : Nat → Nat → Nat) => InScratch s k x.ea 8 → s.mem.poisoned at' 8 = false →
      let old := leNat (s.mem.read at' 8)
      ∃ t, run = .next t ∧ got old t ∧ stored 8 (f old x.v1.toNat) t
    let sint := fun (v : Nat) => (BitVec.ofNat 64 v).toInt
    (x.i = .stb h d (.reg a) mc → stores 1) ∧ (x.i = .sth h d (.reg a) mc → stores 2) ∧
    (x.i = .stw h d (.reg a) mc → stores 4) ∧ (x.i = .std h d (.reg a) mc → stores 8) ∧
    (x.i = .flgset h d a ac → stores 4) ∧
    (x.i = .ldb h (.reg d) a mc → loads 1) ∧ (x.i = .ldh h (.reg d) a mc → loads 2) ∧
    (x.i = .ldw h (.reg d) a mc → loads 4) ∧ (x.i = .ldd h (.reg d) a mc → loads 8) ∧
    (x.i = .stfe h d (.reg a) sc → InScratch s k x.ea 8 →
      ∃ t, run = .next t ∧ stored 8 x.v1.toNat t ∧ t.mem.isFull at' = true ∧ (t.ctx k).xq = []) ∧
    (x.i = .ldfe h (.reg d) a lc → InScratch s k x.ea 8 → s.mem.poisoned at' 8 = false →
      (s.mem.isFull at' = true → ∃ t, run = .next t ∧ got (leNat (s.mem.read at' 8)) t ∧ t.mem.isFull at' = false ∧ t.mem.bytes = s.mem.bytes) ∧
      (s.mem.isFull at' = false → ∃ t, run = .next t ∧ (t.ctx k).xq = [{ x with st := .empty }] ∧ t.mem = s.mem ∧
        (t.ctx k).waits.any (fun w => w.kind == .ldfe x.tok) = true)) ∧
    (x.i = .aadd h d a ac → rmw (fun m v => m + v)) ∧ (x.i = .aand h d a ac → rmw (fun m v => m &&& v)) ∧
    (x.i = .aor h d a ac → rmw (fun m v => m ||| v)) ∧ (x.i = .axor h d a ac → rmw (fun m v => m ^^^ v)) ∧
    (x.i = .axchg h d a ac → rmw (fun _ v => v)) ∧
    (x.i = .amin h d a ac → rmw (fun m v => if sint v < sint m then v else m)) ∧
    (x.i = .amax h d a ac → rmw (fun m v => if sint m < sint v then v else m)) ∧
    (x.i = .acas h d a ac → InScratch s k x.ea 8 → s.mem.poisoned at' 8 = false →
      let old := leNat (s.mem.read at' 8)
      ∃ t, run = .next t ∧ stored 8 (if old = x.v1.toNat then x.v2.toNat else old) t ∧ (t.ctx k).f = c.f ∧
        (t.ctx k).xq = [{ x with st := .performed, data := some ⟨BitVec.ofNat 2112 old, 0⟩, data2 := if old = x.v1.toNat then 1 else 0 }])

/-- R178, R227, R243, R444, R448, R456, R461: data that arrive fill the landing entry that awaits them; a tensor read of a slot that is not valid
delivers one zero record, lame with cause REFUSED; a fence waits its turn and writes no byte; what has left the queue does nothing. -/
def Sys2Proof.Claims.CommandsComplete : Prop :=
  ∀ (s : State) (k st slot : Nat) (x : XCmd) (h : WHead) (r d : RIdx) (v : Lamed VReg) (e : Landing) (q : CIdx) (n : BitVec 4) (ch : Chan) (page rec : Nat)
    (ord : Order),
    let c := s.ctx k
    (c.xq = [x] → x.data = some v → x.room = none → x.i = .ldd h (.reg r) d {} → c.land = [e] → e.tok = some x.tok → e.writes = [.a r ⟨0, 1⟩] →
      ∃ t, Sys2Proof.Machine.exec (.loadDataArrival k x.tok) s = .next t ∧ (t.ctx k).xq = [] ∧
        (t.ctx k).land = [{ e with tok := none, writes := [.a r ⟨v.val.setWidth 64, v.lame⟩] }] ∧ t.mem = s.mem ∧ (t.ctx k).f = c.f) ∧
    (Alone s k x st slot → x.i = .tread h q r n → x.org.length = 3 → c.slots.get? n.toNat = none → x.room = some (q.toNat, page, rec) → x.prog = 0 →
      c.chans.get? q.toNat = some ch → ch.scal = false → (ch.page page).closed = true → (ch.page page).res = (ch.page page).wr + 1 →
      (ch.page page).st = .open → rec + 1 = (ch.page page).res → (ch.page page).absent = [] → page ≠ ch.head →
      let place := c.scratch (ch.recOff page rec)
      ∀ i ∈ [Instr.engineRecordWrite k x.tok, .xCommandPerform k x.tok],
        ∃ t, Sys2Proof.Machine.exec i s = .next t ∧ (t.ctx k).xq = [] ∧ (t.ctx k).refused = true ∧
          (∃ ch', (t.ctx k).chans.get? q.toNat = some ch' ∧ (ch'.page page).st = .filled ∧ (t.recordAt k ch' page rec).lame = 2) ∧
          t.mem.read place 256 = List.replicate 256 0 ∧ (∀ b, b < place ∨ place + 288 ≤ b → t.mem.get b = s.mem.get b)) ∧
    (Alone s k x st slot → x.i = .fence h ord .stall → s.onTheWay k = false →
      ∃ t, Sys2Proof.Machine.exec (.xCommandPerform k x.tok) s = .next t ∧ (t.ctx k).xq = [] ∧ t.mem = s.mem ∧ (t.ctx k).f = c.f) ∧
    (c.xq = [] → ∀ i ∈ [Instr.xCommandPerform k x.tok, .engineRecordWrite k x.tok, .loadDataArrival k x.tok],
      Sys2Proof.Machine.exec i s = .next s)

/-- Accesses to own scratch performed; data arrive, fences, and commands that have left: the statements above together. -/
def Obligations.AccessesPerformed : Prop :=
  Claims.ScratchAccesses ∧ Claims.CommandsComplete

/-- R170, R177, R181, R183, R218, R450, R454, R465, R491: how waits end. An explicit one ends with predicate 1 when its condition holds and 0 at
its timeout, in either case at g+2 of its group; an implicit one ends by expiry with p7 set. While nothing holds and no time is out,
nothing happens. -/
def Obligations.WaitsEnd : Prop :=
  ∀ (s : State) (k st slot : Nat) (w : Wait) (p : PIdx) (c8 : Byte) (q : CIdx) (ch : Chan) (tok : Nat) (x : XCmd) (ea : DWord) (v : Word) (hk : Nat) (y : Hitch)
    (h : WHead) (r a : RIdx) (lc : LdfeCtl),
    let c := s.ctx k
    let pred := fun (p : PIdx) (b : Bool) => ({ seq := w.seq, remain := 2, writes := [.p p ⟨b, 0⟩], word := w.word, lit := w.lit } : Landing)
    let ends := fun (b : Bool) (t : State) => t.ctx k = { c with waits := [], land := insertLanding c.land (pred p b) }
    let p7 := fun (n : Nat) => ({ seq := 4 * c.seq + 3, remain := n, writes := [.p 7 ⟨true, 0⟩] } : Landing)
    c.waits = [w] → c.pendingTrap = none → c.loc = .on st slot → s.colls = [] →
    (w.pred = some p →
      (w.deadline ≤ s.clock → w.kind ≠ .hbar → ∃ t, Sys2Proof.Machine.exec (.waitTimeout k) s = .next t ∧ ends false t ∧ t.mem = s.mem) ∧
      (s.clock < w.deadline → Sys2Proof.Machine.exec (.waitTimeout k) s = .next s) ∧
      Sys2Proof.Machine.exec (.implicitWaitExpiry k) s = .next s ∧
      (w.kind = .chf q → c.chans.get? q.toNat = some ch →
        ((ch.page ch.head).st = .filled ∨ (ch.page ch.head).st = .draining → ch.prod = .rider →
          ∃ t, Sys2Proof.Machine.exec (.channelWaitSatisfied k) s = .next t ∧ ends true t ∧ t.mem = s.mem) ∧
        ((ch.page ch.head).st = .free ∨ (ch.page ch.head).st = .open → Sys2Proof.Machine.exec (.channelWaitSatisfied k) s = .next s)) ∧
      (w.kind = .che q → c.chans.get? q.toNat = some ch → ch.pages.all (fun p => p.st == .filled) = true →
        Sys2Proof.Machine.exec (.channelWaitSatisfied k) s = .next s) ∧
      (w.kind = .flg ea .geu v (some .die) → w.halted = none → c.xq = [] → tagOf ea = 3 → bits ea 59 18 = 0 →
        let word := leNat (s.mem.read (eaFlag ea) 4)
        s.mem.poisoned (eaFlag ea) 4 = false →
        (v.toNat ≤ word → ∃ t, Sys2Proof.Machine.exec (.flgwaitPoll k) s = .next t ∧
          (t.ctx k).waits = [] ∧ (t.ctx k).land = insertLanding c.land (pred p true) ∧ t.mem = s.mem) ∧
        (word < v.toNat → Sys2Proof.Machine.exec (.flgwaitPoll k) s = .next s)) ∧
      (w.kind = .baysplit c8 → c.xq = [] → c.csr.baymap.toNat % 256 = 0 → c8 = 2 →
        ∃ t, Sys2Proof.Machine.exec (.baysplitComplete k) s = .next t ∧ (t.ctx k).waits = [] ∧
          (t.ctx k).csr.baymap = setBits c.csr.baymap 7 0 2 ∧ (t.ctx k).land = insertLanding c.land (pred p true) ∧
          (∀ b, b < 2 ^ 18 → t.mem.get (c.scratch (2 ^ 18) + b) = 0) ∧
          (∀ b, b < c.scratch (2 ^ 18) ∨ c.scratch (2 ^ 18) + 2 ^ 18 ≤ b → t.mem.get b = s.mem.get b)) ∧
      (w.kind = .baysplit c8 → c.xq ≠ [] → Sys2Proof.Machine.exec (.baysplitComplete k) s = .next s) ∧
      (w.kind = .hbar → s.hitches.get? hk = some y → y.live = true → y.members = [k] →
        (y.arrived = [k] → ∃ t, Sys2Proof.Machine.exec (.hbarPhaseComplete hk) s = .next t ∧ ends true t ∧
          t.hitches.get? hk = some { y with arrived := [], phase := y.phase + 1 } ∧ t.mem = s.mem) ∧
        (y.arrived = [] → Sys2Proof.Machine.exec (.hbarPhaseComplete hk) s = .next s))) ∧
    (w.pred = none →
      (w.deadline ≤ s.clock → w.kind = .held →
        ∃ t, Sys2Proof.Machine.exec (.implicitWaitExpiry k) s = .next t ∧
          t.ctx k = { c with waits := [], forced := true, land := insertLanding c.land (p7 3) } ∧ t.mem = s.mem) ∧
      (w.deadline ≤ s.clock → w.kind = .waitbrk →
        ∃ t, Sys2Proof.Machine.exec (.implicitWaitExpiry k) s = .next t ∧
          t.ctx k = { c with waits := [], land := insertLanding c.land (p7 2) } ∧ t.mem = s.mem) ∧
      (s.clock < w.deadline → Sys2Proof.Machine.exec (.implicitWaitExpiry k) s = .next s) ∧
      Sys2Proof.Machine.exec (.waitTimeout k) s = .next s ∧
      (w.kind = .ldfe tok → c.xq = [x] → x.tok = tok → x.st = .empty → x.mute = false → x.guarded = false → x.i = .ldfe h (.reg r) a lc → lc.ord = .rlx → lc.lit = none → c.stash = [] →
        c.nest.port = [] →
        c.nest.copy = none →
        InScratch s k x.ea 8 → s.mem.poisoned (c.scratch (bits x.ea 59 0)) 8 = false →
        (s.mem.isFull (c.scratch (bits x.ea 59 0)) = true →
          ∃ t, Sys2Proof.Machine.exec (.ldfeRetry k) s = .next t ∧ (t.ctx k).waits = [] ∧
            ((t.ctx k).xq.map (fun x => x.data)) = [some ⟨BitVec.ofNat 2112 (leNat (s.mem.read (c.scratch (bits x.ea 59 0)) 8)), 0⟩]) ∧
        (s.mem.isFull (c.scratch (bits x.ea 59 0)) = false →
          ∃ t, Sys2Proof.Machine.exec (.ldfeRetry k) s = .next t ∧ (t.ctx k).waits = [w] ∧ t.mem = s.mem)))

/-! ## Translation, faults, lines and flits -/

namespace Sys2Proof.Claims
open Sys2Proof.Machine

/-- A master owns the module, and the module has booted: a write of one of its blocks is performed (R74, R92). -/
def Owns (s : State) (m : Master) : Prop := s.isOwner m = true ∧ s.stage = 4

/-- What a write of an owner's block by another master, or before stage 4, comes to: a count of HIFERR, and nothing else (R74, R90). -/
def turnedAway (s : State) (m : Master) : State := if s.stage = 4 then (if s.isOwner m then s else s.nonOwner) else s.badAccess

/-- The count that a write turned away adds to: NONOWN from stage 4 on, BADACC before. -/
def countOf (s : State) (r : DWord) : Nat := if s.stage = 4 then bits r 15 0 else bits r 31 16

end Sys2Proof.Claims

/-- R205 to R208, R210 to R214: a walk fills both TLBs or reports its fault; a batch closes 20 µs after its oldest fault and is written as
one 32-byte record with INTCAUSE.FAULT; RETRY lets what is halted at a page go on, and ABORT completes it there as not performed. -/
def Obligations.FaultUnit : Prop :=
  ∀ (s : State) (m : Master) (v : DWord) (k va kind : Nat) (acc : BitVec 4) (e : TlbEntry) (f : PFault) (x : XCmd) (c : Ctx),
    let a := va % 2 ^ 49
    let st := (s.ctx k).stall
    let fault : PFault := { asid := (s.ctx k).asid, page := a / 65536, kind := 1, access := acc, count := 1, arrived := s.clock }
    let n := 2 ^ bits (s.reg .fltbase) 5 1
    let prod := bits (s.reg .fltptr) 31 0
    let used := (prod + 2 ^ 32 - bits (s.reg .fltptr) 63 32) % 2 ^ 32
    let place := bits (s.reg .fltbase) 63 12 * 4096 + 32 * (prod % n)
    ((s.ctx k).aspace = false → (s.ctx k).dead = [] → s.faults = [] → s.faultBatch = [] → s.reported = [] →
      Sys2Proof.Machine.exec (.translationWalk k va acc) s = .next { s with faults := [fault] }) ∧
    ((s.ctx k).aspace = true → s.stallTlb = [] → s.paddockTlb = [] → s.walk (s.ctx k).asid (s.ctx k).root a = .ok e → permFault e acc = none →
      Sys2Proof.Machine.exec (.translationWalk k va acc) s =
        .next { s with stallTlb := [(st, [e])], paddockTlb := [(stallPaddock st, [e])] }) ∧
    (s.faults = [f] → s.faultBatch = [] →
      (f.arrived + 14000 ≤ s.clock → Sys2Proof.Machine.exec .faultBatchClose s =
        .next ({ s with faultBatch := [f], faults := [], agenda := s.agenda ++ [.faultWrite] })) ∧
      (s.clock < f.arrived + 14000 → Sys2Proof.Machine.exec .faultBatchClose s = .next s)) ∧
    (s.faultBatch = [f] →
      ((s.reg .fltbase).getLsbD 0 = true → used < n →
        ∃ t, Sys2Proof.Machine.exec .faultBatchWrite s = .next t ∧ t.faultBatch = [] ∧ (t.reg .intcause).getLsbD 4 = true ∧
          bits (t.reg .fltptr) 31 0 = (prod + 1) % 2 ^ 32 ∧
          t.mem.hostRead place 32 = leBytes 8 (f.page * 65536) ++ leBytes 4 1 ++ leBytes 2 f.asid ++ [BitVec.ofNat 8 f.kind, f.access.setWidth 8] ++
            leBytes 4 f.count ++ leBytes 4 s.faultSerial ++ leBytes 8 0 ∧
          t.mem.bytes = s.mem.bytes ∧ t.ctxs = s.ctxs) ∧
      ((s.reg .fltbase).getLsbD 0 = false ∨ n ≤ used → Sys2Proof.Machine.exec .faultBatchWrite s = .next s)) ∧
    (s.ctxs.get? k = some c → c.xq = [x] → x.st = .halted va kind acc → acc ≠ 4 → c.waits = [] → c.nest.copyHalt = none → s.gangs = [] →
      bits v 11 0 = c.asid → bits v 48 16 ≤ va / 65536 → va / 65536 ≤ bits v 48 16 + bits v 63 49 →
      let on := { x with st := if 0 < x.prog then .moving else .queued }
      (Owns s m →
        (∃ t, Sys2Proof.Machine.exec (.faultRetry m v) s = .next t ∧ t.ctx k = { c with xq := [on] }) ∧
        (∃ t, Sys2Proof.Machine.exec (.faultAbort m v) s = .next t ∧ (t.ctx k).xq = [{ on with dead := x.dead ++ [va / 65536] }] ∧
          (t.ctx k).refused = true ∧ (t.ctx k).f = c.f ∧ (t.ctx k).pc = c.pc)))

/-- R74, R90, R209, R214 to R216: an invalidation takes every entry of its range out of every TLB; a splinter's GO starts it (BUSY), or is
ignored while one runs; its stages read the leaf (ERR 1 without one), write the new table (ERR 3 when that write fails, which is a free
value, log entry 113), and replace the parent's entry if it still is what was read (ERR 2 otherwise), dropping the large page from every
TLB. The responses and both of these need the owner, and are only counted when another master makes them or before stage 4. -/
def Obligations.OwnersPagingWrites : Prop :=
  ∀ (s : State) (m : Master) (v : DWord) (st j a : Nat) (e : DWord) (x : Splinter),
    let size := tableBytes x.small
    let leaf := (s.rootOf x.asid).map (fun r => s.leafAt x.va (x.small + 1) [3, 2, 1, 0] (r * 8192))
    let ends := fun (t : State) (err : Nat) => t.spl = none ∧ bits (t.reg .splctl) 3 2 = err ∧ bit (t.reg .splctl) 1 = false ∧ t.ctxs = s.ctxs
    let hit := fun (e : TlbEntry) => v.getLsbD 12 || (e.asid == bits v 11 0 &&
      (bits v 63 49 == 0x7FFF || overlaps e.va e.size (bits v 48 16 * 65536) ((bits v 63 49 + 1) * 65536)))
    (Owns s m →
      (∃ t, Sys2Proof.Machine.exec (.tlbInvalidate m v) s = .next t ∧
        t.stallTlb.getD st [] = (s.stallTlb.getD st []).filter (fun e => !hit e) ∧
        t.paddockTlb.getD st [] = (s.paddockTlb.getD st []).filter (fun e => !hit e) ∧ t.mem = s.mem ∧ t.ctxs = s.ctxs) ∧
      (bit (s.reg .splctl) 1 = false → ∃ t, Sys2Proof.Machine.exec (.splinter m v) s = .next t ∧
        t.spl = some { asid := bits (s.reg .splva) 11 0, va := bits (s.reg .splva) 48 16 * 65536, small := bits v 4 4, table := bits v 38 8 * 256 } ∧
        bit (t.reg .splctl) 1 = true ∧ t.agenda = s.agenda ++ [.splinter] ∧ t.mem = s.mem ∧ t.ctxs = s.ctxs) ∧
      (bit (s.reg .splctl) 1 = true → ∃ t, Sys2Proof.Machine.exec (.splinter m v) s = .next t ∧ t.spl = s.spl ∧ bit (t.reg .splctl) 1 = true ∧
        t.mem = s.mem ∧ t.ctxs = s.ctxs)) ∧
    (s.spl = some x → x.leaf = none →
      (leaf = none ∨ leaf = some (some none) → ends s.splStep 1 ∧ s.splStep.mem = s.mem) ∧
      (leaf = some (some (some (a, e))) → x.table % size ≠ 0 ∨ s.reservedRange x.table size = true → ends s.splStep 1 ∧ s.splStep.mem = s.mem) ∧
      (leaf = some (some (some (a, e))) → x.table % size = 0 → s.reservedRange x.table size = false →
        s.splStep.spl = some { x with leaf := some (a, e) } ∧ s.splStep.mem = s.mem ∧ s.splStep.regs = s.regs)) ∧
    (s.spl = some x → x.leaf = some (a, e) → x.written = false → s.homeHeld x.table = false →
      (Config.splinterFails s.fresh = true → ends s.splStep 3 ∧ s.splStep.mem = s.mem) ∧
      (Config.splinterFails s.fresh = false → s.splStep.spl = some { x with written := true } ∧ s.splStep.regs = s.regs ∧
        (j < levelEntries x.small → s.splStep.mem.read (x.table + 8 * j) 8 =
          leBytes 8 (e.toNat % 64 + (bits e 56 8 * 256 + j * 2 ^ levelShift x.small))) ∧
        (∀ b, (b < x.table ∨ x.table + size ≤ b) → s.splStep.mem.get b = s.mem.get b))) ∧
    (s.spl = some x → x.leaf = some (a, e) → x.written = true → s.homeHeld a = false →
      (s.mem.read a 8 ≠ leBytes 8 e.toNat → ends s.splStep 2 ∧ s.splStep.mem = s.mem) ∧
      (s.mem.read a 8 = leBytes 8 e.toNat → ends s.splStep 0 ∧ s.splStep.mem.read a 8 = leBytes 8 (1 + x.table) ∧
        (∀ b, b < a ∨ a + 8 ≤ b → s.splStep.mem.get b = s.mem.get b) ∧
        s.splStep.stallTlb.getD st [] = (s.stallTlb.getD st []).filter (fun t => !(t.asid == x.asid && overlaps t.va t.size x.page.1 x.page.2)))) ∧
    (s.isOwner m = false ∨ s.stage ≠ 4 →
      ∀ i ∈ [Instr.tlbInvalidate m v, .splinter m v, .faultRetry m v, .faultAbort m v],
        ∃ t, Sys2Proof.Machine.exec i s = .next t ∧ countOf s (t.reg .hiferr) = Nat.min 0xFFFF (countOf s (s.reg .hiferr) + 1) ∧
          t.ctxs = s.ctxs ∧ t.mem = s.mem ∧ t.stallTlb = s.stallTlb ∧ t.faults = s.faults)

/-- R43, R46, R185, R187, R220, R459, R469: a dirty line is written back and stays clean, a clean one is dropped, with no other effect; a rein flit
writes its 32 bytes into the open page of the channel it names, is counted where there is none, and with a bad CRC is refused with a NAK;
a commit of the guard buffer ends guarded mode. -/
def Obligations.LinesAndFlits : Prop :=
  ∀ (s : State) (p line k st : Nat) (l : Line) (flit : BitVec 512) (ch : Chan) (sender : Option Nat) (link : Nat) (x : XCmd) (h : WHead) (g : PIdx)
    (a : RIdx) (slot : Nat),
    let young := s.clock < l.filled + 700
    let plain := s.ctxs.all (fun c => c.2.stash.isEmpty) = true
    let data := leBytes 32 flit.toNat
    let chan := flitBits flit 273 270
    let off := flitBits flit 291 274
    (plain → findLine (s.slices.getD p []) line = some l → l.pa = line → line < remoteKey →
      (l.dirty = BitVec.allOnes 64 → l.bytes.length = 64 → line % 64 = 0 → s.homeHeld line = false →
        ∃ t, Sys2Proof.Machine.exec (.lineWriteback p line) s = .next t ∧ t.mem.read line 64 = l.bytes ∧
          (∀ b, b < line ∨ line + 64 ≤ b → t.mem.get b = s.mem.get b) ∧
          (young → ∃ l', findLine (t.slices.getD p []) line = some l' ∧ l'.dirty = 0 ∧ l'.bytes = l.bytes ∧ l'.filled = l.filled) ∧ t.ctxs = s.ctxs) ∧
      (l.dirty = 0 → (young → Sys2Proof.Machine.exec (.lineWriteback p line) s = .next s) ∧
        (p = stallPaddock st → (s.slices.getD p []).all (fun y => y.pa != line || y == l) = true →
          ∃ t, Sys2Proof.Machine.exec (.cleanLineDrop st line false) s = .next t ∧ findLine (t.slices.getD p []) line = none ∧
            t.mem = s.mem ∧ t.ctxs = s.ctxs))) ∧
    (∃ t, Sys2Proof.Machine.exec (.cleanLineDrop st line true) s = .next t ∧ t.mem = s.mem ∧ t.ctxs = s.ctxs ∧ t.slices = s.slices ∧
      findLine (t.l0.getD st []) line = none) ∧
    (s.reinWait = [] → s.reinOwner st chan = none →
      ∃ t, Sys2Proof.Machine.exec (.reinFlitReceive st none flit sender) s = .next t ∧
        (t.stalls.getD st {}).disc = Nat.min 0xFFFF ((s.stalls.getD st {}).disc + 1) ∧ t.mem = s.mem ∧ t.ctxs = s.ctxs) ∧
    (s.reinWait = [] → s.reinOwner st chan = some (k, ch) → (ch.page ch.openIx).st = .free → off * 32 < ch.pageBytes → flitBits flit 293 292 = 0 →
      (ch.page ch.head).st = .free →
      let place := (s.ctx k).scratch (ch.base + ch.openIx * ch.pageBytes + off * 32)
      ∃ t, Sys2Proof.Machine.exec (.reinFlitReceive st none flit sender) s = .next t ∧ t.mem.read place 32 = data ∧
        (∀ b, b < place ∨ place + 32 ≤ b → t.mem.get b = s.mem.get b) ∧ t.mem.isFull place = true ∧ (t.ctx k).f = (s.ctx k).f) ∧
    ((s.linkDir link).discarding = false → flitGood flit = false →
      ∃ t, Sys2Proof.Machine.exec (.reinFlitReceive st (some link) flit sender) s = .next t ∧
        t.out = s.out ++ [.linkNak link (BitVec.ofNat 8 (flitBits flit 301 294))] ∧ (t.linkDir link).discarding = true ∧
        t.mem = s.mem ∧ t.ctxs = s.ctxs) ∧
    (Alone s k x st slot → x.i = .gcheck h g a .stall false → (s.ctx k).guard = [] → x.commit = true → s.onTheWay k = false →
      ∃ t, Sys2Proof.Machine.exec (.guardCommit k) s = .next t ∧ (t.ctx k).xq = [] ∧ (t.ctx k).csr.status.getLsbD 5 = false ∧
        t.mem = s.mem ∧ (t.ctx k).f = (s.ctx k).f) ∧
    ((s.ctx k).xq = [] → Sys2Proof.Machine.exec (.guardCommit k) s = .next s)

/-! ## The host interface -/

namespace Sys2Proof.Claims
open Sys2Proof.Machine

/-- No cache and no stash of the module holds a line, and no home column holds a request. -/
def NothingCached (s : State) : Prop :=
  s.slices = [] ∧ s.l0 = [] ∧ s.ctxs.all (fun c => c.2.stash.isEmpty) = true ∧ s.ratio = [] ∧ s.moves = [] ∧ s.devReqs = []

end Sys2Proof.Claims

/-- R69 to R73, R88, R90: CLAIM takes a module without an owner, and for the BMC any module; OFFER sets HANDING and DEST, ACCEPT by DEST hands
over, RELEASE and the loss of the owner's path clear VALID; each change sets INTCAUSE.OWNCHG, a new owner raises EPOCH, and a request without
the right to it has no effect. -/
def Obligations.Ownership : Prop :=
  ∀ (s : State) (m : Master) (dest : BitVec 2),
    let r := s.reg .owner
    let n := masterNum m
    let kept := fun (t : State) => t.mem = s.mem ∧ t.ctxs = s.ctxs
    let owned := fun (t : State) => bits (t.reg .owner) 1 0 = n ∧ bit (t.reg .owner) 2 = true ∧ bit (t.reg .owner) 3 = false ∧
      bits (t.reg .owner) 15 8 = (bits r 15 8 + 1) % 256 ∧ bit (t.reg .intcause) 5 = true ∧ t.isOwner m = true ∧ kept t
    let free := fun (t : State) => bit (t.reg .owner) 2 = false ∧ bit (t.reg .owner) 3 = false ∧ bit (t.reg .intcause) 5 = true ∧ kept t
    (s.ownerValid = false ∨ n = 2 → ∃ t, Sys2Proof.Machine.exec (.claim m) s = .next t ∧ owned t) ∧
    (s.ownerValid = true → n ≠ 2 → Sys2Proof.Machine.exec (.claim m) s = .next s) ∧
    (s.isOwner m = true → dest.toNat ≠ n →
      ∃ t, Sys2Proof.Machine.exec (.offer m dest) s = .next t ∧ bit (t.reg .owner) 3 = true ∧ bits (t.reg .owner) 5 4 = dest.toNat ∧
        bits (t.reg .owner) 2 0 = bits r 2 0 ∧ bits (t.reg .owner) 15 8 = bits r 15 8 ∧ kept t) ∧
    (s.isOwner m = true → dest.toNat = n →
      ∃ t, Sys2Proof.Machine.exec (.offer m dest) s = .next t ∧ bit (t.reg .owner) 3 = false ∧
        bits (t.reg .owner) 2 0 = bits r 2 0 ∧ bits (t.reg .owner) 15 8 = bits r 15 8 ∧ kept t) ∧
    (bit r 3 = true → bits r 5 4 = n → ∃ t, Sys2Proof.Machine.exec (.accept m) s = .next t ∧ owned t) ∧
    (bit r 3 = false ∨ bits r 5 4 ≠ n → Sys2Proof.Machine.exec (.accept m) s = .next s) ∧
    (s.isOwner m = true → ∃ t, Sys2Proof.Machine.exec (.release m) s = .next t ∧ free t) ∧
    (s.isOwner m = true → n < 2 → ∃ t, Sys2Proof.Machine.exec (.hostLinkLoss m) s = .next t ∧ free t) ∧
    (s.isOwner m = true → Sys2Proof.Machine.exec (.hiferrClear m) s = .next (s.setReg .hiferr 0)) ∧
    (s.isOwner m = false →
      (∀ i ∈ [Instr.offer m dest, .release m, .hostLinkLoss m], Sys2Proof.Machine.exec i s = .next s) ∧
      ∃ t, Sys2Proof.Machine.exec (.hiferrClear m) s = .next t ∧ bits (t.reg .hiferr) 15 0 = Nat.min 0xFFFF (bits (s.reg .hiferr) 15 0 + 1) ∧ kept t)

/-- R10, R57, R64 to R69, R74, R90, R92: accesses from outside. A register write by the owner changes the bytes written; one without the right is
counted in NONOWN or BADACC and has no effect, as one with a bad size or alignment has. A DRAM read completes with the bytes, with zeros
before stage 4, and past 384 GiB with Unsupported Request; a DRAM write stores its bytes and no other. -/
def Obligations.AccessesFromOutside : Prop :=
  ∀ (s : State) (m : Master) (off n size : Nat) (v : DWord) (data : List Byte) (bar : BitVec 3) (addr : Nat) (inval : Bool),
    let die := off / 65536
    let o := off % 65536
    let kept := fun (t : State) => t.mem = s.mem ∧ t.ctxs = s.ctxs
    (s.isOwner m = true →
      (∃ t, Sys2Proof.Machine.exec (.registerWrite m 0x40 8 v) s = .next t ∧ t.reg .inten = v &&& 0x1FF ∧ kept t) ∧
      (∃ t, Sys2Proof.Machine.exec (.registerWrite m 0x38 8 v) s = .next t ∧ t.reg .intcause = s.reg .intcause &&& ~~~(v &&& 0x1FF) ∧ kept t)) ∧
    (Owns s m → off < 0x40000 → off % 8 = 0 →
      ∃ t, Sys2Proof.Machine.exec (.registerWrite m (0x80000 + off) 8 v) s = .next t ∧ t.mem.read (flagAddr die 0 + o) 8 = leBytes 8 v.toNat ∧
        (∀ b, b < flagAddr die 0 + o ∨ flagAddr die 0 + o + 8 ≤ b → t.mem.get b = s.mem.get b) ∧ t.ctxs = s.ctxs) ∧
    (s.isOwner m = false → ∃ t, Sys2Proof.Machine.exec (.registerWrite m 0x40 8 v) s = .next t ∧
      t.reg .inten = s.reg .inten ∧ bits (t.reg .hiferr) 15 0 = Nat.min 0xFFFF (bits (s.reg .hiferr) 15 0 + 1) ∧ kept t) ∧
    (s.stage ≠ 4 → ∃ t, Sys2Proof.Machine.exec (.registerWrite m 0x400400 8 v) s = .next t ∧
      bits (t.reg .hiferr) 31 16 = Nat.min 0xFFFF (bits (s.reg .hiferr) 31 16 + 1) ∧ kept t) ∧
    ((size ≠ 4 ∧ size ≠ 8) ∨ off % size ≠ 0 ∨ 2 ^ 26 < off + size →
      ∃ t, Sys2Proof.Machine.exec (.registerWrite m off size v) s = .next t ∧
        bits (t.reg .hiferr) 31 16 = Nat.min 0xFFFF (bits (s.reg .hiferr) 31 16 + 1) ∧ kept t) ∧
    Sys2Proof.Machine.exec (.bar4Read m 0 0x10 8) s =
      .next (s.emit (.readData m (leBytes 8 (setBits (s.reg .owner) 7 6 (masterNum m)).toNat) false)) ∧
    (hasBars m = true → bar ≠ 0 → bar ≠ 2 → NothingCached s →
      (off + n ≤ dramBytes → s.stage = 4 →
        Sys2Proof.Machine.exec (.bar4Read m bar off n) s = .next (s.emit (.readData m (s.mem.read off n) (s.mem.poisoned off n))) ∧
        Sys2Proof.Machine.exec (.cxlMemAccess m off n none) s = .next (s.emit (.readData m (s.mem.read off n) (s.mem.poisoned off n)))) ∧
      (off + n ≤ dramBytes → s.stage ≠ 4 →
        Sys2Proof.Machine.exec (.bar4Read m bar off n) s = .next (s.emit (.readData m (List.replicate n 0) false))) ∧
      (dramBytes < off + n → ∃ t, Sys2Proof.Machine.exec (.bar4Read m bar off n) s = .next t ∧ t.out = s.out ++ [.unsupported m] ∧ kept t) ∧
      (off + data.length ≤ dramBytes → Owns s m →
        ∀ i ∈ [Instr.bar4Write m off data, .cxlMemAccess m off n (some data)],
          ∃ t, Sys2Proof.Machine.exec i s = .next t ∧ t.mem.read off data.length = data ∧
            (∀ b, b < off ∨ off + data.length ≤ b → t.mem.get b = s.mem.get b) ∧ t.ctxs = s.ctxs ∧ t.regs = s.regs) ∧
      (off + data.length ≤ dramBytes → s.stage = 4 → s.isOwner m = false →
        ∀ i ∈ [Instr.bar4Write m off data, .cxlMemAccess m off n (some data)],
          ∃ t, Sys2Proof.Machine.exec i s = .next t ∧ bits (t.reg .hiferr) 15 0 = Nat.min 0xFFFF (bits (s.reg .hiferr) 15 0 + 1) ∧ kept t)) ∧
    (NothingCached s → ∃ t, Sys2Proof.Machine.exec (.cxlSnoop addr inval) s = .next t ∧ t.out = s.out ++ [.snoop (addr / 64 * 64) none] ∧
      kept t ∧ t.regs = s.regs)

/-! ## Queues, doorbells and the groom contexts' writes -/

/-- R75, R76, R82 to R87: a doorbell of an enabled queue that rings forward within the ring, by HEAD as it was when the cycle began, stores TAIL and logs 16 bytes; another sets QERR to code 7
and is dropped; enabling a queue zeroes its indices, disabling keeps them, and clearing HALTED lets a refused packet be passed. -/
def Obligations.QueuesAndDoorbells : Prop :=
  ∀ (s : State) (m : Master) (q : Nat) (v : Word) (w : DWord) (off size : Nat),
    let c := s.reg (.qctl q)
    let die := bits c 9 8
    let x := v.toNat
    let head := bits (s.reg (.qptr q)) 63 32
    let tail := bits (s.reg (.qptr q)) 31 0
    let dist := fun (i : Nat) => (i + 2 ^ 32 - s.headWas.getD q head) % 2 ^ 32
    let log := s.reg (.dblstat die)
    let prod := bits log 12 0
    let fits := dist x ≤ 2 ^ bits c 6 2 ∧ dist tail ≤ dist x
    let place := logAddr die (prod % 4096)
    let kept := fun (t : State) => t.mem = s.mem ∧ t.ctxs = s.ctxs
    let dropped := fun (t : State) => bits (t.reg .hiferr) 47 32 = Nat.min 0xFFFF (bits (s.reg .hiferr) 47 32 + 1) ∧
      t.reg (.qptr q) = s.reg (.qptr q) ∧ kept t
    q < 256 →
    (Owns s m → hasBars m = true →
      (bit c 0 = true → fits → (prod + 8192 - bits log 28 16) % 8192 ≠ 4096 →
        ∃ t, Sys2Proof.Machine.exec (.doorbell m q 0 4 v) s = .next t ∧ bits (t.reg (.qptr q)) 31 0 = x ∧ bits (t.reg (.qptr q)) 63 32 = head ∧
          t.mem.read place 16 = leBytes 4 (bits log 63 32) ++ [BitVec.ofNat 8 q, 0, 0, 0] ++ leBytes 4 x ++ leBytes 4 s.clock ∧
          (∀ b, b < place ∨ place + 16 ≤ b → t.mem.get b = s.mem.get b) ∧
          bits (t.reg (.dblstat die)) 12 0 = (prod + 1) % 8192 ∧ bits (t.reg (.dblstat die)) 63 32 = (bits log 63 32 + 1) % 2 ^ 32) ∧
      (bit c 0 = true → fits → (prod + 8192 - bits log 28 16) % 8192 = 4096 →
        ∃ t, Sys2Proof.Machine.exec (.doorbell m q 0 4 v) s = .next t ∧ bits (t.reg (.qptr q)) 31 0 = x ∧
          bit (t.reg (.dblstat die)) 29 = true ∧ bit (t.reg .intcause) 1 = true ∧ kept t) ∧
      (bit c 0 = true → ¬ fits → ∃ t, Sys2Proof.Machine.exec (.doorbell m q 0 4 v) s = .next t ∧
        bits (t.reg (.qerr q)) 7 0 = 7 ∧ bits (t.reg (.qerr q)) 47 16 = x ∧ dropped t) ∧
      (bit c 0 = false → ∃ t, Sys2Proof.Machine.exec (.doorbell m q 0 4 v) s = .next t ∧ dropped t ∧ t.reg (.qerr q) = s.reg (.qerr q)) ∧
      (off ≠ 0 ∨ size ≠ 4 → ∃ t, Sys2Proof.Machine.exec (.doorbell m q off size v) s = .next t ∧
        bits (t.reg .hiferr) 31 16 = Nat.min 0xFFFF (bits (s.reg .hiferr) 31 16 + 1) ∧ kept t)) ∧
    (Owns s m →
      (bit c 0 = false → ∃ t, Sys2Proof.Machine.exec (.queueEnable m q w) s = .next t ∧ bit (t.reg (.qctl q)) 0 = true ∧
        t.reg (.qptr q) = 0 ∧ t.reg (.feq q) = 0 ∧ bits (t.reg (.qctl q)) 6 2 = Nat.min 16 (Nat.max 4 (bits w 6 2)) ∧
        bits (t.reg (.qctl q)) 9 8 = bits w 9 8 ∧ bits (t.reg (.qctl q)) 12 10 = bits w 12 10 ∧ kept t) ∧
      (bit c 0 = true → s.engines = [] → ∃ t, Sys2Proof.Machine.exec (.queueDisable m q w) s = .next t ∧ bit (t.reg (.qctl q)) 0 = false ∧
        t.reg (.qptr q) = s.reg (.qptr q) ∧ bits (t.reg (.qctl q)) 9 8 = bits c 9 8 ∧ kept t) ∧
      (bit c 31 = true → ∃ t, Sys2Proof.Machine.exec (.queueResume m q) s = .next t ∧ bit (t.reg (.qctl q)) 31 = false ∧
        bit (t.reg (.qctl q)) 0 = bit c 0 ∧
        bits (t.reg (.feq q)) 63 32 = (if (s.engines.getD q {}).refused0 then (bits (s.reg (.feq q)) 63 32 + 1) % 2 ^ 32 else bits (s.reg (.feq q)) 63 32) ∧
        kept t)) ∧
    (s.isOwner m = false → s.stage = 4 → ∀ i ∈ [Instr.queueEnable m q w, .queueDisable m q w, .queueResume m q],
      ∃ t, Sys2Proof.Machine.exec i s = .next t ∧ t.reg (.qctl q) = c ∧ bits (t.reg .hiferr) 15 0 = Nat.min 0xFFFF (bits (s.reg .hiferr) 15 0 + 1) ∧ kept t)

/-- R20, R87, R125, R133, R145, R195, R359, R360, R491: what the groom contexts write. ADMIT and HEAD move only as far as TAIL and START and set BADW
beyond; CONS advances to PROD at most; STATE of a stall only rises; a map changes only while its row is idle; MCBSEL and MCBDATA start an
access; DEFERQ keeps a base in scratch; BRKEND ends a WAITBRK. -/
def Obligations.GroomWrites : Prop :=
  ∀ (s : State) (die q stall pos key : Nat) (v : DWord) (w : Wait),
    let head := bits (s.reg (.qptr q)) 63 32
    let dist := fun (i : Nat) => (i + 2 ^ 32 - head) % 2 ^ 32
    let adm := bits (s.reg (.feq q)) 31 0
    let start := bits (s.reg (.feq q)) 63 32
    let tail := bits (s.reg (.qptr q)) 31 0
    let n := bits v 31 0
    let g := s.ctx (groomKey + stall)
    let row := s.gselRow (groomKey + stall)
    let map := s.reg (.colmap row)
    let st := s.reg (.stallwear pos)
    let kept := fun (t : State) => t.mem = s.mem ∧ t.ctxs = s.ctxs
    (q < 256 → die < 4 → bits (s.reg (.qctl q)) 9 8 = die →
      (dist adm ≤ dist n → dist n ≤ dist tail → ∃ t, Sys2Proof.Machine.exec (.admitWrite die q v) s = .next t ∧
        bits (t.reg (.feq q)) 31 0 = n ∧ bits (t.reg (.feq q)) 63 32 = start ∧ kept t) ∧
      (dist n < dist adm ∨ dist tail < dist n → ∃ t, Sys2Proof.Machine.exec (.admitWrite die q v) s = .next t ∧
        t.reg (.feq q) = s.reg (.feq q) ∧ bit (t.reg (.festat die)) 0 = true ∧ kept t) ∧
      (dist n ≤ dist start → ∃ t, Sys2Proof.Machine.exec (.headCommit die q v) s = .next t ∧
        bits (t.reg (.qptr q)) 63 32 = n ∧ bits (t.reg (.qptr q)) 31 0 = tail ∧ kept t) ∧
      (dist start < dist n → ∃ t, Sys2Proof.Machine.exec (.headCommit die q v) s = .next t ∧
        t.reg (.qptr q) = s.reg (.qptr q) ∧ bit (t.reg (.festat die)) 0 = true ∧ kept t)) ∧
    (bits (s.reg (.qctl q)) 9 8 ≠ die → Sys2Proof.Machine.exec (.admitWrite die q v) s = .next s ∧ Sys2Proof.Machine.exec (.headCommit die q v) s = .next s) ∧
    (die < 4 → ∃ t, Sys2Proof.Machine.exec (.consCommit die v) s = .next t ∧
      bits (t.reg (.dblstat die)) 28 16 = (if (bits (s.reg (.dblstat die)) 12 0 + 8192 - bits v 28 16) % 8192 ≤ 4096 then bits v 28 16
        else bits (s.reg (.dblstat die)) 28 16) ∧
      bits (t.reg (.dblstat die)) 12 0 = bits (s.reg (.dblstat die)) 12 0 ∧ kept t) ∧
    (∃ t, Sys2Proof.Machine.exec (.mcbselRead stall v) s = .next t ∧ bits (t.ctx (groomKey + stall)).csr.mcbsel 25 3 = bits v 25 3 ∧
      bit (t.ctx (groomKey + stall)).csr.mcbsel 27 = false ∧ t.agenda = s.agenda ++ [.mcbRead (groomKey + stall) (bits v 25 3 * 8)] ∧ t.mem = s.mem) ∧
    Sys2Proof.Machine.exec (.mcbdataWrite stall v) s =
      .next (s.push [.mcbWrite (groomKey + stall) (bits g.csr.mcbsel 25 3 * 8) v]) ∧
    Sys2Proof.Machine.exec (.deferqWrite key v) s =
      .next (s.modCtx key (fun c => { c with csr := { c.csr with deferq := BitVec.ofNat 64 (v.toNat % 2 ^ 21 / 16 * 16) } })) ∧
    (s.ctxs.get? key = some (s.ctx key) → key < groomKey → (s.ctx key).loc = .on stall 1 → (s.ctx key).waits = [w] → w.kind = .waitbrk →
      bits v 11 0 = stall → bit v 12 = true → bit v 13 = true →
      ∃ t, Sys2Proof.Machine.exec (.brkend stall v) s = .next t ∧ t.ctx key = { s.ctx key with waits := [] } ∧ t.mem = s.mem ∧ t.regs = s.regs) ∧
    (bit v 13 = false → Sys2Proof.Machine.exec (.brkend stall v) s = .next s) ∧
    (pos < 4352 → bit (s.reg (.colmap (pos / 34))) (pos % 34) = false →
      (bits st 33 32 < bits v 33 32 → bits v 33 32 < 3 → ∃ t, Sys2Proof.Machine.exec (.stallwearWrite pos v) s = .next t ∧
        bits (t.reg (.stallwear pos)) 33 32 = bits v 33 32 ∧ bits (t.reg (.stallwear pos)) 15 0 = Nat.max (bits st 15 0) (bits v 15 0) ∧
        t.nv.state.get? pos = some (bits v 33 32) ∧ kept t) ∧
      (bits v 33 32 < bits st 33 32 ∨ bits v 33 32 = 3 → bits st 33 32 < 3 → ∃ t, Sys2Proof.Machine.exec (.stallwearWrite pos v) s = .next t ∧
        bits (t.reg (.stallwear pos)) 33 32 = bits st 33 32 ∧ bit (t.reg (.stallwear pos)) 63 = true ∧ t.nv = s.nv ∧ kept t)) ∧
    (pos < 4352 → ∃ t, Sys2Proof.Machine.exec (.featmaskWrite pos v) s = .next t ∧ t.reg (.featmask pos) = v &&& 0xFF ∧
      t.nv.featmask.get? pos = some (s.nv.featmask.getD pos 0xFF &&& bits v 7 0) ∧ kept t) ∧
    (row < 128 → bits v 33 0 ≠ bits map 33 0 → s.rowBusy row = true → ∃ t, Sys2Proof.Machine.exec (.colmapWrite stall v) s = .next t ∧
      bits (t.reg (.colmap row)) 33 0 = bits map 33 0 ∧ bit (t.reg (.colmap row)) 40 = true ∧ kept t) ∧
    (row < 128 → bits v 33 0 = bits map 33 0 → bit v 40 = true → ∃ t, Sys2Proof.Machine.exec (.colmapWrite stall v) s = .next t ∧
      t.reg (.colmap row) = map &&& 0xFFFFFEFFFFFFFFFF ∧ kept t) ∧
    (row < 128 → bits map 33 0 = 0 → s.rowBusy row = false → s.physState (row * 34) = 2 → bits v 33 0 = 1 → s.mem = {} →
      ∃ t, Sys2Proof.Machine.exec (.colmapWrite stall v) s = .next t ∧ bits (t.reg (.colmap row)) 33 0 = 1 ∧ bits (t.reg (.colmap row)) 35 34 = 1 ∧
        t.nv.retired.get? row = some 1)

/-! ## Resets, boot, clocks and wear -/

/-- The tables of the life record name physical positions and die rows that exist (R134). -/
def Sys2Proof.Claims.LifeTables (s : State) : Prop :=
  (∀ e ∈ s.nv.wear, e.1 < 4352) ∧ (∀ e ∈ s.nv.state, e.1 < 4352) ∧ (∀ e ∈ s.nv.featmask, e.1 < 4352) ∧ (∀ e ∈ s.nv.retired, e.1 < 128)

/-- What a wipe leaves (R63, R72, R91, R101): no context, empty memories and full bits, stage 0, no owner, LCSTATE from the fuses, a new
nonce. -/
def Sys2Proof.Claims.Wiped (s t : State) : Prop :=
  t.ctxs = [] ∧ t.stalls = [] ∧ t.gangs = [] ∧ t.acc = [] ∧ t.l0 = [] ∧ t.slices = [] ∧ t.mem.bytes = [] ∧ t.mem.full = [] ∧
  t.mem.poison = [] ∧ t.engines = [] ∧ t.cmds = [] ∧ t.stage = 0 ∧ bit (t.reg .owner) 2 = false ∧ t.reg .inten = 0 ∧
  t.reg .lcnonce = Config.entropy s.fresh ∧ bits (t.reg .lcstate) 2 0 = t.nv.lcs % 8 ∧ bits (t.reg .lcstate) 15 8 = t.nv.svnmin % 256

/-- R16, R39, R63, R64, R72, R74, R91, R101: the resets. A power-on reset takes every register from its Reset column; a module reset keeps
the module control block; it comes from a Function Level Reset of the owner, or of anyone on the host port while there is none. -/
def Obligations.Resets : Prop :=
  ∀ (s : State) (m : Master) (req : BitVec 16),
    Claims.LifeTables s →
    (∃ t, Sys2Proof.Machine.exec .powerOnReset s = .next t ∧ Claims.Wiped s t ∧ bits (t.reg .hifid) 15 0 = 7 ∧
      bits (t.reg .hifid) 63 32 = s.nv.serial.toNat ∧ bits (t.reg .pwrctl) 11 0 = 2800 ∧ bits (t.reg .pwrctl) 38 32 = 64 ∧
      t.reg .soetype = 0x88B5 ∧ t.clock = 0 ∧ t.req0 = none) ∧
    (m = .host ∨ m = .host2 → s.isOwner m = true ∨ s.ownerValid = false →
      ∃ t, Sys2Proof.Machine.exec (.moduleReset m) s = .next t ∧ Claims.Wiped s t ∧ t.reg .pwrctl = s.reg .pwrctl ∧
        (∀ q < 4, t.reg (.dramclk q) = s.reg (.dramclk q)) ∧ (∀ i < 16, t.reg (.soport i) = s.reg (.soport i)) ∧
        bits (t.reg .lcstate) 7 4 = bits (s.reg .lcstate) 7 4 ∧ t.req0 = s.req0) ∧
    (m = .host ∨ m = .host2 → s.isOwner m = false → s.ownerValid = true →
      ∃ t, Sys2Proof.Machine.exec (.moduleReset m) s = .next t ∧ bits (t.reg .hiferr) 15 0 = Nat.min 0xFFFF (bits (s.reg .hiferr) 15 0 + 1) ∧
        t.mem = s.mem ∧ t.ctxs = s.ctxs) ∧
    (∀ w ∈ [ConfigWrite.flr, .other, .msix true false, .msix true true, .msix false false, .msix false true],
      ∃ t, Sys2Proof.Machine.exec (.configurationWrite m req w) s = .next t ∧ t.req0 = some (s.req0.getD req) ∧
        (let named := (if s.req0.getD req = req then Master.host else Master.host2)
         (s.isOwner named = false → s.ownerValid = true → bits (t.reg .hiferr) 15 0 = Nat.min 0xFFFF (bits (s.reg .hiferr) 15 0 + 1) ∧
            t.mem = s.mem ∧ t.ctxs = s.ctxs) ∧
         (s.isOwner named = true ∨ s.ownerValid = false → w = .flr → Claims.Wiped s t) ∧
         (s.isOwner named = true ∨ s.ownerValid = false → w ≠ .flr → t.ctxs = s.ctxs ∧ t.mem = s.mem ∧ t.nv = s.nv ∧
            (w = .other → t.regs = s.regs ∧ t.msixOn = s.msixOn ∧ t.msixHeld = s.msixHeld) ∧
            (∀ on mask, w = .msix on mask → t.msixOn = on ∧ t.msixHeld = mask))))

/-- R88, R92 to R96, R492: the boot. The ROM tries the slot with the higher SVN first; an accepted image lies in the code store of each die at
stage 2, and stage 3 follows when training has ended; the firmware sets stage 4; with neither slot accepted stage 15 waits for a recovery image. -/
def Sys2Proof.Claims.BootStages : Prop :=
  ∀ (s : State) (m : Master) (link : Nat) (up : Bool) (rep : BitVec 3),
    let a := s.nv.slotA
    let b := s.nv.slotB
    let bFirst := 4096 ≤ a.length ∧ 4096 ≤ b.length ∧ (fieldOf a 7 7 < fieldOf b 7 7)
    let head := s.mem.read 0 4096
    let rec' := head ++ s.mem.read 4096 (Nat.min (2 ^ 26) (fieldOf head 11 8))
    let loaded := fun (t : State) (img : List Byte) (slot : Nat) (recov : Bool) =>
      let body := (img.drop 4096).take (fieldOf img 11 8)
      t.stage = (if s.trained then 3 else 2) ∧ bits (t.reg .bootstat) 8 8 = slot ∧ bit (t.reg .bootstat) 9 = recov ∧
      bits (t.reg .bootstat) 23 16 = fieldOf img 7 7 ∧ (∀ d < 4, t.mem.read (groomAddr d 0) body.length = body) ∧
      t.nv.svnmin = (if s.nv.lcs = 2 ∧ s.nv.svnmin < fieldOf img 7 7 then fieldOf img 7 7 else s.nv.svnmin)
    let waits := fun (t : State) (cause : Nat) => t.stage = 15 ∧ bits (t.reg .bootstat) 7 4 = cause ∧ t.mem = s.mem ∧ t.ctxs = s.ctxs
    Claims.LifeTables s →
    (s.stage = 0 →
      (bFirst → s.imageCheck b = 0 → ∃ t, Sys2Proof.Machine.exec .romVerify s = .next t ∧ loaded t b 1 false) ∧
      (bFirst → s.imageCheck b ≠ 0 → s.imageCheck a = 0 → ∃ t, Sys2Proof.Machine.exec .romVerify s = .next t ∧ loaded t a 0 false) ∧
      (bFirst → s.imageCheck b ≠ 0 → s.imageCheck a ≠ 0 → ∃ t, Sys2Proof.Machine.exec .romVerify s = .next t ∧ waits t (s.imageCheck a) ∧
        bit (t.reg .intcause) 6 = true) ∧
      (¬ bFirst → s.imageCheck a = 0 → ∃ t, Sys2Proof.Machine.exec .romVerify s = .next t ∧ loaded t a 0 false) ∧
      (¬ bFirst → s.imageCheck a ≠ 0 → s.imageCheck b = 0 → ∃ t, Sys2Proof.Machine.exec .romVerify s = .next t ∧ loaded t b 1 false) ∧
      (¬ bFirst → s.imageCheck a ≠ 0 → s.imageCheck b ≠ 0 → ∃ t, Sys2Proof.Machine.exec .romVerify s = .next t ∧ waits t (s.imageCheck b) ∧
        bit (t.reg .intcause) 6 = true)) ∧
    (s.stage = 3 → ∃ t, Sys2Proof.Machine.exec .bootReady s = .next t ∧ t.stage = 4 ∧ bit (t.reg .intcause) 6 = true ∧ t.mem = s.mem ∧
      t.ctxs = s.ctxs) ∧
    (s.stage ≠ 3 → Sys2Proof.Machine.exec .bootReady s = .next s) ∧
    (s.stage = 15 →
      (s.imageCheck rec' = 0 → ∃ t, Sys2Proof.Machine.exec (.bootRetry m) s = .next t ∧ loaded t rec' 0 true) ∧
      (s.imageCheck rec' ≠ 0 → ∃ t, Sys2Proof.Machine.exec (.bootRetry m) s = .next t ∧ waits t (s.imageCheck rec'))) ∧
    (s.stage ≠ 15 → s.isOwner m = true → Sys2Proof.Machine.exec (.bootRetry m) s = .next s) ∧
    (link < 384 → s.linkState link = 0 → s.stage ≠ 2 → ∃ t, Sys2Proof.Machine.exec (.ucieTrainingComplete link up rep) s = .next t ∧
      bits (t.reg (.xlink link)) 1 0 = (if up then 1 else 3) ∧ bits (t.reg (.xlink link)) 6 4 = rep.toNat ∧
      bit (t.reg .intcause) 7 = true ∧ t.mem = s.mem ∧ t.ctxs = s.ctxs) ∧
    (link < 384 → s.linkState link = 0 → s.stage = 2 → (∀ i < 384, i ≠ link → s.linkState i ≠ 0) →
      ∃ t, Sys2Proof.Machine.exec (.ucieTrainingComplete link up rep) s = .next t ∧ t.stage = 3 ∧ t.mem = s.mem ∧
        (∀ st < 4096, t.ctx (groomKey + st) = groomEntry st s.entry Config.firmwareRoot)) ∧
    (s.linkState link ≠ 0 → Sys2Proof.Machine.exec (.ucieTrainingComplete link up rep) s = .next s)

/-- R74, R101, R102: a request of the owner to change the life-cycle state. The first check that fails sets RESULT and changes nothing; a
change that passes is fused and the module is reset, RMA with its identity keys erased; each GO draws LCNONCE again; GO while BUSY is ignored. -/
def Obligations.LifeCycleChanges : Prop :=
  ∀ (s : State) (m : Master) (target : BitVec 3),
    let to' := target.toNat
    let pairs : List (Nat × Nat) := [(0, 1), (1, 2), (1, 3), (2, 3)]
    let named := (s.nv.lcs, to') ∈ pairs
    let keys := if to' = 1 then 0 else 4
    let signed := to' = 2 ∨ (s.lcauthOk to' keys = true ∧ (to' = 1 → m = .bmc))
    let quiet := bit (s.reg .dispctl) 1 = true ∧ ∀ c ∈ s.ctxs, c.1 < groomKey → c.2.resident = false
    let result := fun (n : Nat) => ∃ t, Sys2Proof.Machine.exec (.lifeCycleChange m target) s = .next t ∧ bits (t.reg .lcstate) 7 4 = n ∧
      t.reg .lcnonce = Config.entropy s.fresh ∧ t.nv = s.nv ∧ t.mem = s.mem ∧ t.ctxs = s.ctxs
    (s.isOwner m = true → bit (s.reg .lcstate) 3 = true → Sys2Proof.Machine.exec (.lifeCycleChange m target) s = .next s) ∧
    (s.isOwner m = false → ∃ t, Sys2Proof.Machine.exec (.lifeCycleChange m target) s = .next t ∧ t.nv = s.nv ∧ t.mem = s.mem ∧
      bits (t.reg .hiferr) 15 0 = Nat.min 0xFFFF (bits (s.reg .hiferr) 15 0 + 1)) ∧
    (s.isOwner m = true → bit (s.reg .lcstate) 3 = false →
      (¬ named → result 2) ∧
      (named → ¬ signed → result 3) ∧
      (named → signed → ¬ quiet → result 4) ∧
      (named → signed → quiet → Config.fuseFails s.fresh = true → result 5) ∧
      (Claims.LifeTables s → named → signed → quiet → Config.fuseFails s.fresh = false →
        ∃ t, Sys2Proof.Machine.exec (.lifeCycleChange m target) s = .next t ∧ Claims.Wiped s t ∧ bits (t.reg .lcstate) 7 4 = 1 ∧
          bits (t.reg .lcstate) 2 0 = to' ∧ t.nv = { s.nv with lcs := to', idKeys := s.nv.idKeys && to' != 3 }))

/-- R128: a restart of a die's firmware sets RESTARTED and counts it; every groom context of the die loses its registers and its unlanded
work and enters the image again, and nothing else changes; the watchdog does so when entries wait and CONS has not moved for WDOG µs. -/
def Sys2Proof.Claims.FirmwareRestarts : Prop :=
  ∀ (s : State) (die key : Nat),
    let r := s.reg (.festat die)
    let log := s.reg (.dblstat die)
    let due := bits log 12 0 ≠ bits log 28 16 ∧ s.consAt.getD die 0 + bits r 55 32 * 700 ≤ s.clock
    let restarted := fun (t : State) => bit (t.reg (.festat die)) 1 = true ∧
      bits (t.reg (.festat die)) 31 16 = Nat.min 0xFFFF (bits r 31 16 + 1) ∧ bits (t.reg (.festat die)) 55 32 = bits r 55 32 ∧
      (groomKey ≤ key → s.ctxs.get? key ≠ none → stallQuarter (key - groomKey) = die →
        t.ctxs.get? key = some (groomEntry (key - groomKey) s.entry (s.ctx key).root)) ∧
      (key < groomKey ∨ stallQuarter (key - groomKey) ≠ die → t.ctxs.get? key = s.ctxs.get? key) ∧
      t.mem = s.mem ∧ t.cmds = s.cmds ∧ t.replays = s.replays ∧ t.reg .intcause = s.reg .intcause ∧ t.out = s.out
    (∃ t, Sys2Proof.Machine.exec (.firmwareRestart die) s = .next t ∧ restarted t) ∧
    (due → ∃ t, Sys2Proof.Machine.exec (.watchdogExpiry die) s = .next t ∧ restarted t) ∧
    (¬ due → Sys2Proof.Machine.exec (.watchdogExpiry die) s = .next s)

/-- The boot stages, and the restart of a die's firmware: the statements above together. -/
def Obligations.BootAndFirmwareRestarts : Prop :=
  Claims.BootStages ∧ Claims.FirmwareRestarts

/-- R25 to R31, R34, R124: the steps of the clock, power and credit rules. A ratio change takes the target it began with and then compares
again; held requests follow in their order; CAPEFF takes the least of four caps; CREDIT becomes SHARE; CAPPWR follows the 50 µs average. -/
def Obligations.ClockAndPowerSteps : Prop :=
  ∀ (s : State) (m : Master) (q row st start target : Nat) (v : Word) (w : BitVec 12),
    let r := s.reg (.dramclk q)
    let want := Nat.max (bits r 1 0) (bits r 9 8)
    let p := s.reg .pwrctl
    let cap := bits p 38 32
    let limit := bits p 11 0
    let rp := s.reg (.rowpwr row)
    let derated := ∃ i < 34, s.physState (row * 34 + i) = 1
    let kept := fun (t : State) => t.mem = s.mem ∧ t.ctxs = s.ctxs
    let sends := s.homeWait.map (fun h => Due.xPerform h.1 h.2)
    q < 4 → row < 128 → st < 4096 →
    Sys2Proof.Machine.exec (.dramRefresh st) s = .next s ∧
    (Owns s m → v.toNat % 4 ≠ 3 → ∃ t, Sys2Proof.Machine.exec (.dramclkStepWrite m q v) s = .next t ∧
      bits (t.reg (.dramclk q)) 1 0 = v.toNat % 4 ∧ bits (t.reg (.dramclk q)) 3 2 = bits r 3 2 ∧
      (bit (t.reg (.dramclk q)) 4 = true ↔ bit r 4 = true ∨ Nat.max (v.toNat % 4) (bits r 9 8) ≠ bits r 3 2) ∧ kept t) ∧
    (Owns s m → v.toNat % 4 = 3 → ∃ t, Sys2Proof.Machine.exec (.dramclkStepWrite m q v) s = .next t ∧
      bits (t.reg (.dramclk q)) 1 0 = bits r 1 0 ∧ bit (t.reg (.dramclk q)) 6 = true ∧ t.ratio = s.ratio ∧ kept t) ∧
    (bit r 4 = true ∨ want = bits r 3 2 → Sys2Proof.Machine.exec (.ratioChangeStart q) s = .next s) ∧
    (bit r 4 = false → want ≠ bits r 3 2 → ∃ t, Sys2Proof.Machine.exec (.ratioChangeStart q) s = .next t ∧ bit (t.reg (.dramclk q)) 4 = true ∧
      t.ratio.get? q = some (s.clock, want) ∧ bits (t.reg (.dramclk q)) 3 2 = bits r 3 2 ∧ kept t) ∧
    (s.ratio.get? q = some (start, target) → target < 3 → want = target → ∃ t, Sys2Proof.Machine.exec (.ratioChangeEnd q) s = .next t ∧
      bits (t.reg (.dramclk q)) 3 2 = target ∧ bit (t.reg (.dramclk q)) 4 = false ∧ t.homeWait = [] ∧ t.agenda = sends ++ s.agenda ∧ kept t) ∧
    (s.ratio.get? q = some (start, target) → target < 3 → want ≠ target → ∃ t, Sys2Proof.Machine.exec (.ratioChangeEnd q) s = .next t ∧
      bits (t.reg (.dramclk q)) 3 2 = target ∧ bit (t.reg (.dramclk q)) 4 = true ∧ t.ratio.get? q = some (s.clock, want) ∧ kept t) ∧
    (s.ratio.get? q = none → Sys2Proof.Machine.exec (.ratioChangeEnd q) s = .next s) ∧
    (derated → ∃ t, Sys2Proof.Machine.exec (.capeffUpdate row) s = .next t ∧
      bits (t.reg (.rowpwr row)) 22 16 = Nat.min (Nat.min (bits rp 6 0) (bits rp 14 8)) (Nat.min cap 48) ∧
      bits (t.reg (.rowpwr row)) 14 0 = bits rp 14 0 ∧ kept t) ∧
    (¬ derated → bits rp 14 8 ≤ 64 → ∃ t, Sys2Proof.Machine.exec (.capeffUpdate row) s = .next t ∧
      bits (t.reg (.rowpwr row)) 22 16 = Nat.min (Nat.min (bits rp 6 0) (bits rp 14 8)) cap ∧
      bits (t.reg (.rowpwr row)) 14 0 = bits rp 14 0 ∧ kept t) ∧
    (∃ t, Sys2Proof.Machine.exec (.groomCreditRefill st) s = .next t ∧
      bits (t.reg (.groomshare st)) 12 5 = bits (s.reg (.groomshare st)) 4 0 ∧
      bits (t.reg (.groomshare st)) 4 0 = bits (s.reg (.groomshare st)) 4 0 ∧ kept t) ∧
    (limit < w.toNat → ∃ t, Sys2Proof.Machine.exec (.powerControlTick w) s = .next t ∧ bits (t.reg .pwrctl) 27 16 = w.toNat ∧
      bits (t.reg .pwrctl) 38 32 = Nat.max 8 (cap - 4) ∧ bit (t.reg .pwrctl) 39 = true ∧ bit (t.reg .intcause) 3 = true ∧ kept t) ∧
    (w.toNat + 100 < limit → ∃ t, Sys2Proof.Machine.exec (.powerControlTick w) s = .next t ∧ bits (t.reg .pwrctl) 27 16 = w.toNat ∧
      bits (t.reg .pwrctl) 38 32 = Nat.min 64 (cap + 1) ∧ t.reg .intcause = s.reg .intcause ∧ kept t) ∧
    (w.toNat ≤ limit → limit ≤ w.toNat + 100 → ∃ t, Sys2Proof.Machine.exec (.powerControlTick w) s = .next t ∧
      bits (t.reg .pwrctl) 27 16 = w.toNat ∧ bits (t.reg .pwrctl) 38 32 = cap ∧ bits (t.reg .pwrctl) 11 0 = limit ∧ kept t)

/-- R35: the thermal rules. A conversion stores TEMP and sets VALID; a logic sensor at 110 °C sets ALARM and caps every row of its paddock at 8;
120 °C of logic or SRAM, or 105 °C of DRAM, removes power; every 100 µs CAPTH falls by 4 from 90 °C and rises by 1 below 87 °C, and the DRAM
readings set HOT2X and THERMSTEP. -/
def Obligations.ThermalRules : Prop :=
  ∀ (s : State) (sensor row : Nat) (code : BitVec 12),
    let kind := sensor % 6
    let t0 := code.toNat
    let rows := (List.range 4).map (fun i => sensor / 384 * 32 + sensor / 6 % 64 / 8 * 4 + i)
    let q := row / 32
    let at' := fun (pd k : Nat) => s.reg (.tsense ((q * 64 + pd) * 6 + k))
    let reads := fun (pd k lim : Nat) => bit (at' pd k) 16 = true ∧ lim ≤ bits (at' pd k) 11 0
    let mine := fun (c : Nat) => row % 32 / 4 * 8 + c
    let hotRow := fun (lim : Nat) => ∃ c < 8, reads (mine c) 0 lim
    let hotDram := fun (lim : Nat) => ∃ pd < 64, ∃ l < 4, reads pd (2 + l) lim
    let anyLogic := ∃ c < 8, bit (at' (mine c) 0) 16 = true
    let anyDram := ∃ pd < 64, ∃ l < 4, bit (at' pd (2 + l)) 16 = true
    let fatal := ∃ c < 8, reads (mine c) 0 1472 ∨ reads (mine c) 1 1472 ∨ ∃ l < 4, reads (mine c) (2 + l) 1352
    let cap := bits (s.reg (.rowpwr row)) 14 8
    let step := bits (s.reg (.dramclk q)) 9 8
    let kept := fun (t : State) => t.mem = s.mem ∧ t.ctxs = s.ctxs
    (sensor < 1536 →
      (∃ t, Sys2Proof.Machine.exec (.tempConversion sensor code) s = .next t ∧ bits (t.reg (.tsense sensor)) 11 0 = t0 ∧
        bit (t.reg (.tsense sensor)) 16 = true ∧
        (kind = 0 → 1392 ≤ t0 → bit (t.reg (.tsense sensor)) 17 = true ∧ bit (t.reg .intcause) 2 = true ∧
          ∀ r ∈ rows, bits (t.reg (.rowpwr r)) 14 8 = 8) ∧
        (kind ≠ 0 ∨ t0 < 1392 → t.reg .intcause = s.reg .intcause ∧ ∀ r < 128, t.reg (.rowpwr r) = s.reg (.rowpwr r)) ∧
        ((kind < 2 ∧ 1472 ≤ t0) ∨ (2 ≤ kind ∧ 1352 ≤ t0) → t.powered = false) ∧
        (kind < 2 → t0 < 1472 → t.powered = s.powered) ∧ (2 ≤ kind → t0 < 1352 → t.powered = s.powered) ∧ kept t)) ∧
    (row < 128 → fatal → ∃ t, Sys2Proof.Machine.exec (.thermalControlTick row) s = .next t ∧ t.powered = false ∧ kept t) ∧
    (row < 128 → ¬ fatal → ∃ t, Sys2Proof.Machine.exec (.thermalControlTick row) s = .next t ∧ t.powered = s.powered ∧ kept t ∧
      (hotRow 1232 → bits (t.reg (.rowpwr row)) 14 8 = Nat.max 8 (cap - 4)) ∧
      (¬ hotRow 1208 → anyLogic → bits (t.reg (.rowpwr row)) 14 8 = Nat.min 64 (cap + 1)) ∧
      (hotRow 1208 → ¬ hotRow 1232 → bits (t.reg (.rowpwr row)) 14 8 = cap) ∧
      (¬ anyLogic → bits (t.reg (.rowpwr row)) 14 8 = cap) ∧
      (hotDram 1192 → bit (t.reg (.dramclk q)) 5 = true) ∧
      (hotDram 1312 → bits (t.reg (.dramclk q)) 9 8 = 2) ∧
      (hotDram 1272 → ¬ hotDram 1312 → bits (t.reg (.dramclk q)) 9 8 = (if step = 2 then 2 else 1)) ∧
      (hotDram 1232 → ¬ hotDram 1272 → bits (t.reg (.dramclk q)) 9 8 = Nat.min step 1) ∧
      (¬ hotDram 1232 → anyDram → bits (t.reg (.dramclk q)) 9 8 = 0))

/-- R38, R133 to R138, R307: the ageing monitors. A detection counts and sets its pipe's bit, and a third in a row makes the results of that
cycle lame with cause UE; CLEAR zeroes both, but
for what is detected in its own cycle; a sample raises WEAR and moves STATE forward only; THRESH follows the hours; the life record
takes WEAR and STATE of every position. -/
def Obligations.ShadowAndWear : Prop :=
  ∀ (s : State) (m : Master) (st key pos fa fb em i : Nat) (third : Bool),
    let phys := s.physStall st
    let p := phys.getD 0
    let cnt := s.reg (.shadowcnt p)
    let r := s.reg (.stallwear pos)
    let st0 := bits r 33 32
    let seen := s.shadowSeen.getD pos 0
    let wear := Nat.max (bits r 15 0) (Nat.min 65535 (Nat.max (65535 * Nat.max fa fb / 50000) (65535 * em / 100000)))
    let hours := s.nv.hours + s.clock / 2520000000000
    (st < 4096 → phys = some p →
      (∀ x ∈ [(ShadowPoint.s, 0), (ShadowPoint.v, 1), (ShadowPoint.array, 2), (ShadowPoint.link, 2), (ShadowPoint.x, 3)],
        ∃ t, Sys2Proof.Machine.exec (.shadowLatchDetect st x.1 key third) s = .next t ∧
          bits (t.reg (.shadowcnt p)) 23 0 = Nat.min 0xFFFFFF (bits cnt 23 0 + 1) ∧ bit (t.reg (.shadowcnt p)) (24 + x.2) = true ∧
          t.mem = s.mem ∧ (third = false → t.ctxs = s.ctxs ∧ t.gangs = s.gangs)) ∧
      (∀ x ∈ [(ShadowPoint.s, 0), (ShadowPoint.v, 1), (ShadowPoint.x, 3)],
        ∃ t, Sys2Proof.Machine.exec (.shadowLatchDetect st x.1 key true) s = .next t ∧
          ∀ c, s.ctxs.get? key = some c → ∃ c', t.ctxs.get? key = some c' ∧ c'.land.length = c.land.length ∧ c'.f = c.f ∧
            c'.xq = c.xq.map (fun y => if x.2 = 3 ∧ y.seq / 4 = c.seq then { y with ue := true } else y) ∧
            ∀ n < c.land.length, ∀ e, c.land[n]? = some e →
              (e.seq / 4 = c.seq → (e.word.extractLsb' 28 2).toNat = x.2 →
                ∃ e', c'.land[n]? = some e' ∧ e'.writes = e.writes.map RegWrite.ue) ∧
              (e.seq / 4 ≠ c.seq ∨ (e.word.extractLsb' 28 2).toNat ≠ x.2 → c'.land[n]? = some e)) ∧
      (Owns s m → (∀ d ∈ s.shadowNow, d.1 ≠ p) →
        ∃ t, Sys2Proof.Machine.exec (.shadowcntClear m st) s = .next t ∧ t.reg (.shadowcnt p) = 0 ∧ t.ctxs = s.ctxs ∧ t.mem = s.mem) ∧
      (Owns s m → ∀ b < 4, s.shadowNow = [(p, b)] →
        ∃ t, Sys2Proof.Machine.exec (.shadowcntClear m st) s = .next t ∧ bits (t.reg (.shadowcnt p)) 23 0 = 1 ∧
          bits (t.reg (.shadowcnt p)) 27 24 = 2 ^ b ∧ t.ctxs = s.ctxs ∧ t.mem = s.mem)) ∧
    (phys = none → Sys2Proof.Machine.exec (.shadowLatchDetect st .s key third) s = .next s) ∧
    (pos < 4352 → s.serves pos = true → bit (s.reg (.colmap (pos / 34))) (pos % 34) = false → st0 < 3 →
      ∃ t, Sys2Proof.Machine.exec (.wearSample pos fa fb em) s = .next t ∧ bits (t.reg (.stallwear pos)) 15 0 = wear ∧
        bits (t.reg (.stallwear pos)) 33 32 = (if 61440 ≤ wear then 2 else if 49152 ≤ wear ∨ 64 < seen then Nat.max 1 st0 else st0) ∧
        bits (t.reg (.stallwear pos)) 31 16 = bits r 31 16 ∧ t.mem = s.mem) ∧
    (s.serves pos = false → Sys2Proof.Machine.exec (.wearSample pos fa fb em) s = .next s) ∧
    (i < 4352 → ∃ t, Sys2Proof.Machine.exec .threshUpdate s = .next t ∧
      bits (t.reg (.stallwear i)) 31 16 = Nat.min 65535 (65535 * hours / 61320 + 2048) ∧
      bits (t.reg (.stallwear i)) 15 0 = bits (s.reg (.stallwear i)) 15 0 ∧ t.mem = s.mem ∧ t.ctxs = s.ctxs) ∧
    (i < 4352 → ∃ t, Sys2Proof.Machine.exec .lifeRecordWrite s = .next t ∧ t.nv.wear.getD i 0 = bits (s.reg (.stallwear i)) 15 0 ∧
      t.nv.state.getD i 0 = s.physState i ∧ t.regs = s.regs ∧ t.mem = s.mem ∧ t.ctxs = s.ctxs)

/-! ## Scale-out frames, the domain, checkpoints and UCIe modules -/

/-- The last frame that the module has sent, if any. -/
def Sys2Proof.Claims.lastFrame (s : State) : Option Frame :=
  (s.out.filterMap (fun o => match o with
    | .frame _ f => some f
    | _ => none)).getLast?

/-- The receiving side of the stream of a frame (R50). -/
def Sys2Proof.Claims.inStream (s : State) (f : Frame) : Stream :=
  s.streams.getD (streamKey f.src.toNat f.cls.toNat) {}

/-- A frame of this transport that a port accepts: its EtherType is SOETYPE and it has 9,216 bytes at most (R48, R49, R67). -/
def Sys2Proof.Claims.OfTransport (s : State) (f : Frame) : Prop :=
  f.etype = (s.reg .soetype).setWidth 16 ∧ 50 + f.data.length ≤ 9216

/-- A frame that R49 and R52 let in at a port that is up: of this transport, good FCS, version 1, no reserved bit, for this module, while the
domain is on. -/
def Sys2Proof.Claims.LetIn (s : State) (p : Nat) (f : Frame) : Prop :=
  p < 16 ∧ s.portUp p = true ∧ Claims.OfTransport s f ∧ badFrame f = false ∧ s.domainOn = true ∧ f.dst.toNat = s.myMod

/-- A frame that is let in and is the next of its stream (R50). -/
def Sys2Proof.Claims.InTurn (s : State) (p : Nat) (f : Frame) : Prop :=
  Claims.LetIn s p f ∧ f.seq = (Claims.inStream s f).rxSeq

/-- R49 to R53: what becomes of any frame at a port. A bad one is dropped and counted in DROPS; one that arrives while the domain is off, or for
another module, is dropped; any good one makes its sender reachable and acknowledges; one out of turn is not acted on again; ACK does no more. -/
def Obligations.FramesAtAPort : Prop :=
  ∀ (s : State) (p : Nat) (f : Frame),
    let forms : List (Nat × Instr) := [(0, .read p f), (1, .rdata p f), (2, .write p f), (3, .wdone p f), (4, .atomic p f), (5, .atomrsp p f),
      (6, .ack p f), (7, .nak p f), (8, .ckdata p f), (9, .ckack p f)]
    let mine := Claims.OfTransport s f
    let bad := f.fcsOk = false ∨ f.ver ≠ 1 ∨ f.resv ≠ 0 ∨ f.addr.toNat / 2 ^ 45 ≠ 0 ∨ f.attr.toNat / 2 ^ 11 ≠ 0
    let kept := fun (t : State) => t.mem = s.mem ∧ t.ctxs = s.ctxs ∧ t.outstanding = s.outstanding ∧ t.ckpt = s.ckpt
    let heard := fun (t : State) => f.src.toNat = s.myMod ∨ bit (t.reg .domreach) f.src.toNat = true
    let acked := fun (t : State) => (Claims.inStream t f).unacked =
      (Claims.inStream s f).unacked.filter (fun g => 2 ^ 31 ≤ (f.ackn - g.seq - 1).toNat)
    ∀ i ∈ forms, f.type.toNat = i.1 →
      (p < 16 → s.portUp p = false → Sys2Proof.Machine.exec i.2 s = .next s) ∧
      (p < 16 → ¬ mine → Sys2Proof.Machine.exec i.2 s = .next s) ∧
      (p < 16 → s.portUp p = true → mine → bad → ∃ t, Sys2Proof.Machine.exec i.2 s = .next t ∧
        bits (t.reg (.soport p)) 23 8 = Nat.min 0xFFFF (bits (s.reg (.soport p)) 23 8 + 1) ∧ t.reg .domreach = s.reg .domreach ∧
        t.streams = s.streams ∧ kept t) ∧
      (p < 16 → s.portUp p = true → badFrame f = false → s.domainOn = false ∨ f.dst.toNat ≠ s.myMod →
        Sys2Proof.Machine.exec i.2 s = .next s) ∧
      (Claims.LetIn s p f → i.1 ≠ 6 → f.seq ≠ (Claims.inStream s f).rxSeq → ∃ t, Sys2Proof.Machine.exec i.2 s = .next t ∧ heard t ∧ acked t ∧
        (Claims.inStream t f).rxSeq = (Claims.inStream s f).rxSeq ∧ kept t ∧
        (Claims.lastFrame t).map (fun g => (g.type, g.dst, g.ackn)) = some (6, f.src, (Claims.inStream s f).rxSeq)) ∧
      (Claims.LetIn s p f → i.1 = 6 → ∃ t, Sys2Proof.Machine.exec i.2 s = .next t ∧ heard t ∧ acked t ∧ t.out = s.out ∧ kept t)

/-- R27, R49, R54, R60, R61, R64: requests of other modules. A READ is answered with the bytes of DRAM, with poison, or with a register of the window;
a class-2 READ with a 4,096-byte piece; a WRITE is performed and answered; an ATOMIC is performed and its old value returned; a column
that holds keeps the request; a restore performs no store and counts it. -/
def Obligations.RequestsFromOtherModules : Prop :=
  ∀ (s : State) (p : Nat) (f : Frame) (b : Nat),
    let off := f.addr.toNat % 2 ^ 39
    let n := f.len.toNat
    let len := f.data.length
    let busy := bits (s.reg .ckptstat) 2 0 = 1 ∨ bits (s.reg .ckptstat) 2 0 = 2
    let last := fun (t : State) => (Claims.lastFrame t).map (fun g => (g.type.toNat, g.cls.toNat, g.dst.toNat % 64, g.tag.toNat))
    let lastData := fun (t : State) => (Claims.lastFrame t).map (fun g => g.data)
    let lastPoison := fun (t : State) => (Claims.lastFrame t).map (fun g => g.attr.getLsbD 10)
    let kept := fun (t : State) => t.mem = s.mem ∧ t.ctxs = s.ctxs
    let refused := fun (t : State) => bits (t.reg .ckptstat) 63 48 = Nat.min 0xFFFF (bits (s.reg .ckptstat) 63 48 + 1) ∧ kept t
    let base := 0x7FFC000000
    Claims.InTurn s p f →
    (f.type = 0 → f.cls ≠ 2 → n ≤ 4096 → s.homeHeld off = false → off + n ≤ dramBytes → s.mem.poisoned off n = false →
      ∃ t, Sys2Proof.Machine.exec (.read p f) s = .next t ∧ kept t ∧ last t = some (1, 1, f.src.toNat, f.tag.toNat) ∧
        lastData t = some (s.mem.read off n) ∧ lastPoison t = some false) ∧
    (f.type = 0 → f.cls ≠ 2 → dramBytes < off + n → off < base → (off < dramBytes → s.homeHeld off = false) →
      ∃ t, Sys2Proof.Machine.exec (.read p f) s = .next t ∧ kept t ∧ last t = some (1, 1, f.src.toNat, f.tag.toNat) ∧ lastPoison t = some true) ∧
    (f.type = 0 → f.cls ≠ 2 → s.homeHeld off = false → off + n ≤ dramBytes → s.mem.poisoned off n = true →
      ∃ t, Sys2Proof.Machine.exec (.read p f) s = .next t ∧ kept t ∧ last t = some (1, 1, f.src.toNat, f.tag.toNat) ∧ lastPoison t = some true) ∧
    (f.type = 0 → f.cls ≠ 2 → 4096 < n → off < base → (off < dramBytes → s.homeHeld off = false) →
      ∃ t, Sys2Proof.Machine.exec (.read p f) s = .next t ∧ kept t ∧ last t = some (1, 1, f.src.toNat, f.tag.toNat) ∧ lastPoison t = some true ∧
        lastData t = some []) ∧
    (f.type = 0 → f.cls = 0 → off = base + 0x10 → n = 8 →
      ∃ t, Sys2Proof.Machine.exec (.read p f) s = .next t ∧ kept t ∧ last t = some (1, 1, f.src.toNat, f.tag.toNat) ∧
        lastData t = some (leBytes 8 (setBits (s.reg .owner) 7 6 3).toNat)) ∧
    (f.type = 0 → f.cls = 2 → off + 4096 ≤ dramBytes → off % 4096 = 0 → s.homeHeld off = false →
      ∃ t, Sys2Proof.Machine.exec (.read p f) s = .next t ∧ kept t ∧ last t = some (8, 2, f.src.toNat, f.tag.toNat) ∧
        lastData t = some (s.mem.read off 4096) ∧
        (Claims.lastFrame t).map (fun g => g.pcrc) = some (if off / 4096 % 16 = 15 then crc32c (s.mem.read (off / 65536 * 65536) 65536) else 0)) ∧
    (f.type = 2 → s.homeHeld off = false → off + len ≤ dramBytes → off < dramBytes → ¬ busy →
      ∃ t, Sys2Proof.Machine.exec (.write p f) s = .next t ∧ last t = some (3, 1, f.src.toNat, f.tag.toNat) ∧ lastPoison t = some false ∧
        t.mem.read off len = f.data ∧ (b < off ∨ off + len ≤ b → t.mem.get b = s.mem.get b) ∧ t.ctxs = s.ctxs) ∧
    (f.type = 2 → s.homeHeld off = false → off + len ≤ dramBytes → off < dramBytes → len ≠ 0 → busy → s.ckpt.restore = true →
      ∃ t, Sys2Proof.Machine.exec (.write p f) s = .next t ∧ last t = some (3, 1, f.src.toNat, f.tag.toNat) ∧ refused t) ∧
    (f.type = 4 → s.homeHeld off = false → f.attr.toNat / 64 % 16 = 0 → off + len ≤ dramBytes → off < dramBytes → ¬ busy →
      s.mem.poisoned off len = false → len = 4 ∨ len = 8 →
      ∃ t, Sys2Proof.Machine.exec (.atomic p f) s = .next t ∧ last t = some (5, 1, f.src.toNat, f.tag.toNat) ∧
        lastData t = some (s.mem.read off len) ∧ lastPoison t = some false ∧
        leNat (t.mem.read off len) = (leNat (s.mem.read off len) + leNat f.data) % 2 ^ (8 * len) ∧
        (b < off ∨ off + len ≤ b → t.mem.get b = s.mem.get b) ∧ t.ctxs = s.ctxs) ∧
    (f.type = 4 → s.homeHeld off = false → f.attr.toNat / 64 % 16 ≠ 7 → off + len ≤ dramBytes → off < dramBytes → s.mem.poisoned off len = true →
      ∃ t, Sys2Proof.Machine.exec (.atomic p f) s = .next t ∧ last t = some (5, 1, f.src.toNat, f.tag.toNat) ∧ lastPoison t = some true ∧ kept t) ∧
    (f.type = 0 → off < dramBytes → s.homeHeld off = true → ∃ t, Sys2Proof.Machine.exec (.read p f) s = .next t ∧ kept t ∧
      t.homeWait = s.homeWait ++ [(devKey, s.ids)] ∧ t.devReqs.get? s.ids = some (.frame f)) ∧
    (f.type = 2 → off < dramBytes → s.homeHeld off = true → ∃ t, Sys2Proof.Machine.exec (.write p f) s = .next t ∧ kept t ∧
      t.homeWait = s.homeWait ++ [(devKey, s.ids)] ∧ t.devReqs.get? s.ids = some (.frame f))

/-- R50, R54: responses. RDATA gives the line to the context that asked, with poison when it carries it; WDONE ends the store; ATOMRSP gives the
old value; a response that nothing awaits changes no request. Three microseconds without an acknowledgement send every frame of a stream
again, and after four times, or 16 µs after the
first transmission, the module is unreachable. -/
def Obligations.ResponsesAndRetransmission : Prop :=
  ∀ (s : State) (p : Nat) (f : Frame) (o : Outstanding) (dst : BitVec 6) (cls port : Nat) (x : XCmd),
    let c := s.ctx o.key
    let data := if f.attr.getLsbD 10 then List.replicate 64 0 else f.data ++ List.replicate (64 - f.data.length) 0
    let st := s.streams.getD (streamKey dst.toNat cls) {}
    let late := st.firsts.head?.any (fun n => decide (n + 11200 ≤ s.clock)) = true
    let due := st.unacked ≠ [] ∧ (st.sentAt + 2100 ≤ s.clock ∨ late)
    let named := fun (g : Frame) => ({ g with ackn := st.rxSeq, etype := (s.reg .soetype).setWidth 16, smac := s.nv.macs.getD port 0 } : Frame)
    (Claims.InTurn s p f → s.ctxs.get? o.key = some c →
      (f.type = 1 → s.answered f .read = some o → o.kind = .read →
        ∃ t, Sys2Proof.Machine.exec (.rdata p f) s = .next t ∧ t.mem = s.mem ∧ t.outstanding = s.outstanding.erase o ∧
          (t.ctx o.key).rbuf.length = c.rbuf.length + 1 ∧
          (t.ctx o.key).rbuf.head?.map (fun l => (l.pa, l.bytes, l.poison)) =
            some (2 ^ 52 + o.addr, data, if f.attr.getLsbD 10 then 15 else 0)) ∧
      (f.type = 3 → s.answered f .write = some o → o.kind = .write →
        ∃ t, Sys2Proof.Machine.exec (.wdone p f) s = .next t ∧ t.mem = s.mem ∧ t.outstanding = s.outstanding.erase o ∧ t.ctxs = s.ctxs) ∧
      (f.type = 5 → s.answered f .atomic = some o → o.kind = .atomic → x ∈ c.xq → x.tok = o.tok →
        ∃ t, Sys2Proof.Machine.exec (.atomrsp p f) s = .next t ∧ t.mem = s.mem ∧ t.outstanding = s.outstanding.erase o ∧
          { x with data := some (if f.attr.getLsbD 10 then ⟨0, 3⟩ else ⟨BitVec.ofNat 2112 (leNat f.data), 0⟩) } ∈ (t.ctx o.key).xq)) ∧
    (Claims.InTurn s p f → s.outstanding = [] →
      (∀ i ∈ [((1 : BitVec 4), Instr.rdata p f), (3, .wdone p f), (5, .atomrsp p f)], f.type = i.1 →
        ∃ t, Sys2Proof.Machine.exec i.2 s = .next t ∧ t.mem = s.mem ∧ t.ctxs = s.ctxs ∧ t.outstanding = [] ∧
          (Claims.inStream t f).rxSeq = f.seq + 1)) ∧
    (s.streams.get? (streamKey dst.toNat cls) = some st → cls < 4 →
      (due → st.tries < 4 → ¬ late → s.streamPort (st.port.getD (dst.toNat % 4)) = some port →
        ∃ t, Sys2Proof.Machine.exec (.retransmitTimeout dst cls) s = .next t ∧
          t.out = s.out ++ st.unacked.map (fun g => .frame port (named g)) ∧
          t.streams.get? (streamKey dst.toNat cls) = some { st with tries := st.tries + 1, sentAt := s.clock } ∧ t.mem = s.mem ∧ t.ctxs = s.ctxs) ∧
      (due → 4 ≤ st.tries ∨ late → ∃ t, Sys2Proof.Machine.exec (.retransmitTimeout dst cls) s = .next t ∧ bit (t.reg .domreach) dst.toNat = false ∧
        (∀ r ∈ t.outstanding, r.dst ≠ dst.toNat) ∧
        bits (t.reg .domcfg) 31 16 =
          Nat.min 0xFFFF (bits (s.reg .domcfg) 31 16 + (s.outstanding.filter (fun r => r.dst == dst.toNat && r.kind == .write)).length) ∧
        (t.streams.get? (streamKey dst.toNat cls)).map (fun x => x.unacked) = some [] ∧ t.mem = s.mem) ∧
      (¬ due → Sys2Proof.Machine.exec (.retransmitTimeout dst cls) s = .next s))

/-- R52, R53, R58 to R62, R88: DOMCFG and the checkpoint. GO is accepted only when R59's conditions hold, else STATE is 6; a piece of a restore is written
where it belongs; a page that is acknowledged is done; a rejected page is sent again, and the third rejection ends with STATE 5; a module
that serves as the safe tier writes what it receives and answers for the page. -/
def Obligations.DomainAndCheckpoint : Prop :=
  ∀ (s : State) (m : Master) (v : DWord) (p : Nat) (f : Frame) (piece : Nat),
    let cfg := s.reg .domcfg
    let stat := s.reg .ckptstat
    let state := fun (t : State) => bits (t.reg .ckptstat) 2 0
    let busy := state s = 1 ∨ state s = 2
    let dstMod := bits (s.reg .ckptdst) 44 39
    let reachable := bit cfg 6 = true ∧ (dstMod = bits cfg 5 0 ∨ bit (s.reg .domreach) dstMod = true)
    let paused := bit (s.reg .dispctl) 1 = true ∧ ∀ c ∈ s.ctxs, c.1 < groomKey → c.2.resident = false
    let ports := ∃ i < 16, bit v (16 + i) = true ∧ bit (s.reg (.soport i)) 0 = true
    let accepts := paused ∧ bits (s.reg .ckptdst) 15 0 = 0 ∧ reachable ∧ ports
    let kept := fun (t : State) => t.mem = s.mem ∧ t.ctxs = s.ctxs
    let off := f.addr.toNat % 2 ^ 39
    let page := (off + 2 ^ 39 - bits (s.reg .ckptdst) 38 0) % 2 ^ 39 / 65536
    let at' := ckOffset (piece / 16) + piece % 16 * 4096
    let serving := ¬ (busy ∧ s.ckpt.restore = true)
    let last := fun (t : State) => (Claims.lastFrame t).map (fun g => (g.type.toNat, g.cls.toNat, g.dst.toNat % 64, g.addr.toNat))
    (Owns s m →
      (bit cfg 6 = false → ∃ t, Sys2Proof.Machine.exec (.domcfgWrite m v) s = .next t ∧ bits (t.reg .domcfg) 6 0 = bits v 6 0 ∧
        bits (t.reg .domcfg) 31 16 = bits cfg 31 16 ∧ kept t) ∧
      (bit cfg 6 = true → bit v 6 = true → ∃ t, Sys2Proof.Machine.exec (.domcfgWrite m v) s = .next t ∧ t.reg .domcfg = cfg ∧ kept t) ∧
      (bit cfg 6 = true → bit v 6 = false → ∃ t, Sys2Proof.Machine.exec (.domcfgWrite m v) s = .next t ∧
        bits (t.reg .domcfg) 6 0 = bits cfg 5 0 ∧ t.reg .domreach = 0 ∧ t.outstanding = [] ∧ t.mem = s.mem ∧
        (busy → state t = 5 ∧ bit (t.reg .intcause) 8 = true)) ∧
      (∀ x ∈ [(Instr.checkpointSave m v, false), (.checkpointRestore m v, true)],
        (busy → ∃ t, Sys2Proof.Machine.exec x.1 s = .next t ∧ t.reg .ckptstat = stat ∧ t.ckpt = s.ckpt ∧ kept t) ∧
        (¬ busy → accepts → ∃ t, Sys2Proof.Machine.exec x.1 s = .next t ∧ t.reg .ckptstat = 1 ∧ t.ckpt = { restore := x.2 } ∧
          bits (t.reg .ckptctl) 31 16 = bits v 31 16 ∧ kept t) ∧
        (¬ busy → ¬ accepts → ∃ t, Sys2Proof.Machine.exec x.1 s = .next t ∧ state t = 6 ∧ kept t))) ∧
    (Claims.InTurn s p f → f.type = 8 → busy → s.ckpt.restore = true → f.src.toNat = dstMod → f.data.length = 4096 →
      s.ckpt.pending.find? (fun x => x % 65536 == f.tag.toNat) = some piece → f.attr.getLsbD 10 = false →
      Nat.lor (s.ckpt.arrived.getD (piece / 16) 0 % 65536) (2 ^ (piece % 16)) ≠ 65535 → (at' < dramBytes → s.homeHeld at' = false) →
      ∃ t, Sys2Proof.Machine.exec (.ckdata p f) s = .next t ∧ t.mem = s.mem.write at' f.data ∧ t.mem.read at' 4096 = f.data ∧
        t.ckpt.pending = s.ckpt.pending.erase piece ∧ state t = state s ∧ t.ctxs = s.ctxs) ∧
    (Claims.InTurn s p f → f.type = 8 → (busy ∧ s.ckpt.restore = true ∧ f.src.toNat ≠ dstMod) ∨ (serving ∧ bits f.addr 44 39 ≠ s.myMod) →
      ∃ t, Sys2Proof.Machine.exec (.ckdata p f) s = .next t ∧ bits (t.reg (.soport p)) 23 8 = Nat.min 0xFFFF (bits (s.reg (.soport p)) 23 8 + 1) ∧
        t.ckpt = s.ckpt ∧ kept t) ∧
    (Claims.InTurn s p f → f.type = 8 → serving → bits f.addr 44 39 = s.myMod → s.homeHeld off = false → off + f.data.length ≤ dramBytes → off / 4096 % 16 ≠ 15 →
      ∃ t, Sys2Proof.Machine.exec (.ckdata p f) s = .next t ∧ t.mem.read off f.data.length = f.data ∧ t.ctxs = s.ctxs) ∧
    (Claims.InTurn s p f → f.type = 8 → serving → bits f.addr 44 39 = s.myMod → s.homeHeld off = false → off + f.data.length ≤ dramBytes →
      off / 4096 % 16 = 15 → f.data.length = 4096 →
      ∃ t, Sys2Proof.Machine.exec (.ckdata p f) s = .next t ∧ t.mem.read off 4096 = f.data ∧ t.ctxs = s.ctxs ∧
        last t = some (if crc32c (t.mem.read (off / 65536 * 65536) 65536) = f.pcrc then 9 else 7, 2, f.src.toNat, f.addr.toNat / 65536 * 65536)) ∧
    (Claims.InTurn s p f → busy → s.ckpt.restore = false → f.src.toNat = dstMod →
      (f.type = 9 → ∃ t, Sys2Proof.Machine.exec (.ckack p f) s = .next t ∧ t.ckpt.pending = s.ckpt.pending.erase page ∧
        t.ckpt.todo = s.ckpt.todo ∧ kept t) ∧
      (f.type = 7 → page ∈ s.ckpt.pending → s.ckpt.tries.getD page 0 < 2 → ∃ t, Sys2Proof.Machine.exec (.nak p f) s = .next t ∧
        t.ckpt.todo = page :: s.ckpt.todo ∧ t.ckpt.pending = s.ckpt.pending.erase page ∧
        t.ckpt.tries.get? page = some (s.ckpt.tries.getD page 0 + 1) ∧ kept t) ∧
      (f.type = 7 → page ∈ s.ckpt.pending → 2 ≤ s.ckpt.tries.getD page 0 → ∃ t, Sys2Proof.Machine.exec (.nak p f) s = .next t ∧
        state t = 5 ∧ t.ckpt = {} ∧ bit (t.reg .intcause) 8 = true ∧ kept t))

/-- R42, R45 to R47, R50, R51, R88, R432: the UCIe modules and the ports. A bad flit is discarded and NAKed with its SEQ, and what follows it is
discarded; a good trace flit carries its sums into the array and returns a credit; the fourth NAK in a row retrains; CLEAR zeroes a count. -/
def Obligations.LinksAndPorts : Prop :=
  ∀ (s : State) (m : Master) (l p : Nat) (seq : Byte) (up : Bool) (flit : BitVec 1152) (w : Sums) (g : Gang),
    let d := s.linkDir l
    let n := bits (s.reg (.xlink l)) 23 8
    let state := fun (t : State) => bits (t.reg (.xlink l)) 1 0
    let x := flit.toNat
    let fseq : Byte := BitVec.ofNat 8 (x / 2 ^ 1072)
    let good := (crc32 (leBytes 140 x)).toNat = x / 2 ^ 1120
    let sums := (List.range 32).map (fun j => x / 2 ^ (32 * j) % 2 ^ 32)
    let sumOk := sums.zipIdx.foldl (fun t y => t + (y.2 + 1) * y.1) 0 % (2 ^ 32 - 1) == x / 2 ^ 1024 % 2 ^ 32
    let kept := fun (t : State) => t.mem = s.mem ∧ t.ctxs = s.ctxs
    let cnt := fun (t : State) => bits (t.reg (.soport p)) 23 8
    (d.discarding = true → fseq ≠ d.rxSeq → Sys2Proof.Machine.exec (.traceFlitReceive l flit) s = .next s) ∧
    (d.discarding = false ∨ fseq = d.rxSeq → ¬ good → ∃ t, Sys2Proof.Machine.exec (.traceFlitReceive l flit) s = .next t ∧
      t.out = s.out ++ [.linkNak l fseq] ∧ (t.linkDir l).discarding = true ∧ (t.linkDir l).rxSeq = fseq ∧ t.gangs = s.gangs ∧ kept t) ∧
    (d.discarding = false ∨ fseq = d.rxSeq → good → x / 2 ^ 1080 % 2 = 0 → ∃ t, Sys2Proof.Machine.exec (.traceFlitReceive l flit) s = .next t ∧
      t.out = s.out ++ [.linkCredit l] ∧ (t.linkDir l).discarding = false ∧ (t.linkDir l).rxSeq = fseq + 1 ∧ t.gangs = s.gangs ∧ kept t) ∧
    (d.discarding = false ∨ fseq = d.rxSeq → good → x / 2 ^ 1080 % 2 = 1 →
      s.gangs = [(7, g)] → g.ended = false → traceLink g.row = l → g.flight = [w] → w.wire = true →
      ∃ t, Sys2Proof.Machine.exec (.traceFlitReceive l flit) s = .next t ∧ t.out = s.out ++ [.linkCredit l] ∧ kept t ∧
        ∃ g', t.gangs.get? 7 = some g' ∧
          g'.flight = [{ w with wire := false, sums := sums, poison := (x / 2 ^ 1082 % 2 == 1 || !sumOk) }] ∧ g'.members = g.members) ∧
    (l < 384 → ∃ t, Sys2Proof.Machine.exec (.creditReturn l) s = .next t ∧ (t.linkDir l).credits = Nat.min 16 (d.credits + 1) ∧ t.regs = s.regs ∧ kept t) ∧
    (l < 384 → state s = 1 → (d.nakSeq ≠ seq ∨ d.nakRun ≠ 3) → ∃ t, Sys2Proof.Machine.exec (.linkNak l seq) s = .next t ∧
      bits (t.reg (.xlink l)) 23 8 = Nat.min 0xFFFF (n + 1) ∧ state t = 1 ∧ kept t) ∧
    (l < 384 → state s = 1 → d.nakSeq = seq → d.nakRun = 3 → ∃ t, Sys2Proof.Machine.exec (.linkNak l seq) s = .next t ∧
      bits (t.reg (.xlink l)) 23 8 = Nat.min 0xFFFF (n + 1) ∧ state t = 2 ∧ bit (t.reg .intcause) 7 = true ∧ (t.linkDir l).replay = d.replay ∧ kept t) ∧
    (l < 384 → state s = 2 → ∃ t, Sys2Proof.Machine.exec (.retrainComplete l true) s = .next t ∧ state t = 1 ∧ bit (t.reg .intcause) 7 = true ∧ kept t) ∧
    (l < 384 → state s = 2 → s.gangs = [] → ∃ t, Sys2Proof.Machine.exec (.retrainComplete l false) s = .next t ∧ state t = 3 ∧
      bit (t.reg .intcause) 7 = true ∧ kept t) ∧
    (state s ≠ 2 → Sys2Proof.Machine.exec (.retrainComplete l up) s = .next s) ∧
    (Owns s m → ∃ t, Sys2Proof.Machine.exec (.xlinkClear m l) s = .next t ∧ bits (t.reg (.xlink l)) 23 8 = 0 ∧ state t = state s ∧ kept t) ∧
    (Owns s m → ∃ t, Sys2Proof.Machine.exec (.soportClear m p) s = .next t ∧ cnt t = 0 ∧ t.portUp p = s.portUp p ∧ kept t) ∧
    (p < 16 → s.portUp p ≠ up → (up = true → bit (s.reg (.soport p)) 1 = true) → ∃ t, Sys2Proof.Machine.exec (.portLinkChange p up) s = .next t ∧
      t.portUp p = up ∧ cnt t = cnt s ∧ bit (t.reg .intcause) 7 = true ∧ kept t) ∧
    (s.portUp p = up ∨ (up = true ∧ bit (s.reg (.soport p)) 1 = false) → Sys2Proof.Machine.exec (.portLinkChange p up) s = .next s)

/-! ## Attestation -/

/-- R97, R100, R103: the responder's answers on a connection. The algorithms are those of R97, the slots are served in PROVISIONED and DEPLOYED only, a
certificate is served in portions, and GET_MEASUREMENTS reports the six indices; a request before the negotiation is refused (the message
codes are the model's reading of SPDM 1.3, log entry 27). -/
def Sys2Proof.Claims.AttestationResponses : Prop :=
  ∀ (s : State) (c slot off len i : Nat) (nonce : BitVec 256) (offered : List Word),
    let x := s.conns.getD c {}
    let ready := x.version = true ∧ x.caps = true ∧ x.algs = true
    let present := s.nv.lcs = 1 ∨ s.nv.lcs = 2
    let chain := if slot = 0 then s.nv.chain0 else s.nv.chain1
    let part := (chain.drop off).take (Nat.min len 4088)
    let kept := fun (t : State) => t.mem = s.mem ∧ t.ctxs = s.ctxs ∧ t.regs = s.regs ∧ t.nv = s.nv
    let answers := fun (t : State) (code : Byte) (data : List Byte) => t.out = s.out ++ [.spdm c code data]
    let refuses := fun (t : State) (code : Byte) => t.out = s.out ++ [.spdmError c code]
    let content : List (List Byte) := [hash384 Config.rom, hash384 s.image,
      [BitVec.ofNat 8 s.nv.lcs, BitVec.ofNat 8 s.nv.svnmin, BitVec.ofNat 8 (bits (s.reg .bootstat) 23 16)], hash384 Config.romKeys,
      leBytes 544 (packNat 34 ((List.range 128).map (fun r => bits (s.reg (.colmap r)) 33 0))), leBytes 8 (s.reg .hifid).toNat]
    let random := (List.range 4).flatMap (fun j => leBytes 8 (Config.entropy (s.fresh + j)).toNat)
    let sig := Nat.land 0x200 (offered.getD 0 0).toNat
    let hash := Nat.land 0x2 (offered.getD 1 0).toNat
    (∃ t, Sys2Proof.Machine.exec (.getVersion c) s = .next t ∧ answers t 0x04 [0x00, 0x13] ∧ kept t ∧ (t.conns.getD c {}).version = true ∧
      (t.conns.getD c {}).algs = false) ∧
    (x.version = true → ∃ t, Sys2Proof.Machine.exec (.getCapabilities c) s = .next t ∧
      answers t 0x61 (leBytes 4 (2 ^ 1 + 2 ^ 2 + 2 ^ 4 + 2 ^ 6 + 2 ^ 7 + 2 ^ 9 + 2 ^ 13 + 2 ^ 14) ++ leBytes 4 4096) ∧ kept t ∧ (t.conns.getD c {}).caps = true) ∧
    (x.version = false → ∃ t, Sys2Proof.Machine.exec (.getCapabilities c) s = .next t ∧ refuses t 0x04 ∧ kept t ∧ t.conns = s.conns) ∧
    (x.version = true → x.caps = true → sig ≠ 0 → hash ≠ 0 → ∃ t, Sys2Proof.Machine.exec (.negotiateAlgorithms c offered) s = .next t ∧
      answers t 0x63 (leBytes 4 0x200 ++ leBytes 4 0x2 ++ leBytes 4 (Nat.land 0x10 (offered.getD 2 0).toNat) ++
        leBytes 4 (Nat.land 0x2 (offered.getD 3 0).toNat)) ∧ kept t ∧ (t.conns.getD c {}).algs = true) ∧
    (x.version = true → x.caps = true → sig = 0 ∨ hash = 0 → ∃ t, Sys2Proof.Machine.exec (.negotiateAlgorithms c offered) s = .next t ∧
      refuses t 0x01 ∧ kept t ∧ t.conns = s.conns) ∧
    (¬ ready → ∀ r ∈ [Instr.getDigests c, .getCertificate c slot off len, .challenge c slot nonce, .getMeasurements c i false nonce,
        .keyExchange c slot []],
      ∃ t, Sys2Proof.Machine.exec r s = .next t ∧ refuses t 0x04 ∧ kept t ∧ t.conns = s.conns) ∧
    (ready →
      (present → ∃ t, Sys2Proof.Machine.exec (.getDigests c) s = .next t ∧ answers t 0x01 (3 :: (hash384 s.nv.chain0 ++ hash384 s.nv.chain1)) ∧ kept t) ∧
      (¬ present → ∃ t, Sys2Proof.Machine.exec (.getDigests c) s = .next t ∧ answers t 0x01 [0] ∧ kept t) ∧
      (present → slot < 2 → off ≤ chain.length → ∃ t, Sys2Proof.Machine.exec (.getCertificate c slot off len) s = .next t ∧
        answers t 0x02 ([BitVec.ofNat 8 slot, 0] ++ leBytes 2 part.length ++ leBytes 2 (chain.length - off - part.length) ++ part) ∧ kept t) ∧
      (¬ present ∨ 2 ≤ slot ∨ chain.length < off → ∃ t, Sys2Proof.Machine.exec (.getCertificate c slot off len) s = .next t ∧ refuses t 0x01 ∧ kept t) ∧
      (present → slot = 0 →
        let req := [0x83, 0] ++ leBytes 32 nonce.toNat
        let data := hash384 s.nv.chain0 ++ random
        let h := hash384 (x.transcript ++ req ++ data)
        ∃ t, Sys2Proof.Machine.exec (.challenge c slot nonce) s = .next t ∧ answers t 0x03 (data ++ secretBytes 0 64 h) ∧ kept t ∧
          (t.conns.getD c {}).signed = some h) ∧
      (¬ present ∨ slot ≠ 0 → ∃ t, Sys2Proof.Machine.exec (.challenge c slot nonce) s = .next t ∧ refuses t 0x01 ∧ kept t ∧ t.conns = s.conns) ∧
      (1 ≤ i → i ≤ 6 →
        let b := content.getD (i - 1) []
        let data := 1 :: BitVec.ofNat 8 i :: (leBytes 2 b.length ++ b)
        let h := hash384 (x.transcript ++ [0xE0, BitVec.ofNat 8 i] ++ leBytes 32 nonce.toNat ++ (data ++ random))
        (∃ t, Sys2Proof.Machine.exec (.getMeasurements c i false nonce) s = .next t ∧ answers t 0x60 (data ++ random) ∧ kept t) ∧
        (present → ∃ t, Sys2Proof.Machine.exec (.getMeasurements c i true nonce) s = .next t ∧
          answers t 0x60 (data ++ random ++ secretBytes 0 64 h) ∧ kept t ∧ (t.conns.getD c {}).signed = some h)) ∧
      (∃ t, Sys2Proof.Machine.exec (.getMeasurements c 0 false nonce) s = .next t ∧ answers t 0x60 (6 :: random) ∧ kept t) ∧
      (6 < i → i ≠ 255 → ∃ t, Sys2Proof.Machine.exec (.getMeasurements c i false nonce) s = .next t ∧ refuses t 0x01 ∧ kept t))

/-- R97, R98: at most four sessions at once; FINISH opens a session with the right HMAC and ends it with a wrong one; HEARTBEAT, KEY_UPDATE and
END_SESSION serve an open session only; the second signature is given for the digest signed last on the connection, and for no other request. -/
def Sys2Proof.Claims.AttestationSessions : Prop :=
  ∀ (s : State) (c i : Nat) (key hmac d : List Byte) (op : Byte) (std : BitVec 16) (vendor : Word) (payload : List Byte) (x : Session),
    let k := s.conns.getD c {}
    let ready := k.version = true ∧ k.caps = true ∧ k.algs = true
    let present := s.nv.lcs = 1 ∨ s.nv.lcs = 2
    let kept := fun (t : State) => t.mem = s.mem ∧ t.ctxs = s.ctxs ∧ t.regs = s.regs ∧ t.nv = s.nv
    let taken := fun (j : Nat) => s.sessions.get? j ≠ none
    let random := (List.range 4).flatMap (fun j => leBytes 8 (Config.entropy (s.fresh + j)).toNat)
    let right := secretBytes 3 48 (x.secret ++ hash384 k.transcript)
    (ready → present → (∀ j < 4, taken j) → ∃ t, Sys2Proof.Machine.exec (.keyExchange c 0 key) s = .next t ∧ t.out = s.out ++ [.spdmError c 0x0A] ∧
      t.sessions = s.sessions ∧ kept t) ∧
    (ready → present → i < 4 → ¬ taken i → (∀ j < i, taken j) →
      let data := BitVec.ofNat 8 i :: (random ++ secretBytes 2 96 (key ++ random))
      let h := hash384 (k.transcript ++ ([0xE4, 0] ++ key) ++ data)
      ∃ t, Sys2Proof.Machine.exec (.keyExchange c 0 key) s = .next t ∧ t.out = s.out ++ [.spdm c 0x64 (data ++ secretBytes 0 64 h)] ∧
        (t.conns.getD c {}).signed = some h ∧
        t.sessions.get? i = some { conn := c, secret := secretBytes 2 48 (key ++ random ++ [1]) } ∧ kept t) ∧
    (s.sessions.get? i = some x → x.conn = c → x.established = false → rising (s.sessions.map (fun e => e.1)) = true →
      (hmac = right → ∃ t, Sys2Proof.Machine.exec (.finish c i hmac) s = .next t ∧ t.out = s.out ++ [.spdm c 0x65 []] ∧
        t.sessions.get? i = some { x with established := true } ∧ kept t) ∧
      (hmac ≠ right → ∃ t, Sys2Proof.Machine.exec (.finish c i hmac) s = .next t ∧ t.out = s.out ++ [.spdmError c 0x06] ∧
        t.sessions.get? i = none ∧ kept t)) ∧
    (s.sessions.get? i = some x → x.conn = c → x.established = true → rising (s.sessions.map (fun e => e.1)) = true →
      Sys2Proof.Machine.exec (.heartbeat c i) s = .next (s.emit (.spdm c 0x68 [])) ∧
      (1 ≤ op.toNat → op.toNat ≤ 3 → ∃ t, Sys2Proof.Machine.exec (.keyUpdate c i op) s = .next t ∧ t.out = s.out ++ [.spdm c 0x69 [op]] ∧
        t.sessions.get? i = some { x with updates := x.updates + (if op = 3 then 0 else 1) } ∧ kept t) ∧
      (op = 0 ∨ 3 < op.toNat → ∃ t, Sys2Proof.Machine.exec (.keyUpdate c i op) s = .next t ∧ t.out = s.out ++ [.spdmError c 0x01] ∧
        t.sessions = s.sessions ∧ kept t) ∧
      (∃ t, Sys2Proof.Machine.exec (.endSession c i) s = .next t ∧ t.out = s.out ++ [.spdm c 0x6C []] ∧ t.sessions.get? i = none ∧ kept t)) ∧
    (s.sessions.get? i = none ∨ (s.sessions.get? i = some x ∧ (x.conn ≠ c ∨ x.established = false)) →
      ∀ r ∈ [Instr.heartbeat c i, .keyUpdate c i op, .endSession c i],
        Sys2Proof.Machine.exec r s = .next (s.emit (.spdmError c 0x04))) ∧
    (ready → present → k.signed = some d → d.length = 48 → std = 5 → vendor = 0x00059E41 → payload = 1 :: d →
      Sys2Proof.Machine.exec (.vendorDefinedRequest c std vendor payload) s =
        .next (s.emit (.spdm c 0x7E (0x01 :: (leBytes 2 3309 ++ secretBytes 1 3309 ([0x45, 0x56, 0x45, 0x45, 0x4C, 0x2D, 0x53, 0x50, 0x44, 0x4D] ++ d)))))) ∧
    (ready → std ≠ 5 ∨ vendor ≠ 0x00059E41 ∨ payload.head? ≠ some 1 ∨ k.signed ≠ some (payload.drop 1) →
      Sys2Proof.Machine.exec (.vendorDefinedRequest c std vendor payload) s = .next (s.emit (.spdmError c 0x01)))

/-- SPDM answers and sessions (message codes are PRESUMED: log entry 27): the statements above together. -/
def Obligations.Attestation : Prop :=
  Claims.AttestationResponses ∧ Claims.AttestationSessions

/-! ## The front end: packets and commands -/

/-- A queue may start its next packet: enabled, not halted, no FLAGWAIT pending, and the command before it has started (R76, R78, R80). -/
def Sys2Proof.Claims.MayStart (s : State) (q : Nat) : Prop :=
  bit (s.reg (.qctl q)) 0 = true ∧ bit (s.reg (.qctl q)) 31 = false ∧ (s.engines.getD q {}).flagwait = none ∧
  ∀ x ∈ s.cmds, x.2.queue = q → x.2.waiting = true → x.2.opc = 1

/-- A launch that has just begun (R117, R204): what it runs, and the ASID and ROOT of its queue. -/
def Sys2Proof.Claims.Launches (s t : State) (kind : LaunchKind) (die cmd q : Nat) (node : Option (Nat × Nat)) (bank : List Byte) (prio : Nat)
    (restart : Bool) : Prop :=
  let a := s.reg (.asroot q)
  let total := if kind = .kernel then fieldOf bank 19 16 else fieldOf bank 25 24 * fieldOf bank 27 26
  let args := if kind = .kernel then fieldOf bank 15 8 else fieldOf bank 23 16
  (t.launches.get? s.ids).map (fun l => (l.kind, l.die, l.cmd, l.node, l.bank, l.prio, l.restart)) =
    some (kind, die, cmd, node, bank, prio, restart) ∧
  (t.launches.get? s.ids).map (fun l => (l.asid, l.root, l.aspace, l.total, l.created)) =
    some (bits a 11 0, bits a 38 13, bit a 12, total, total) ∧
  ∀ i < total, (t.ctxs.get? (riderKey die i)).map (fun c => (c.launch, c.index, c.pc, c.prio)) =
      some (s.ids, i, BitVec.ofNat 64 (fieldOf bank 7 0), prio % 8) ∧
    (t.ctxs.get? (riderKey die i)).map (fun c => (rget c.f.s 1, rget c.f.s 2, rget c.f.s 3)) =
      some (⟨BitVec.ofNat 64 args, 0⟩, ⟨BitVec.ofNat 64 i, 0⟩, ⟨BitVec.ofNat 64 total, 0⟩)

/-- A bank whose riders are created one by one on a die with free records: not BOUND, without HITCH, and records enough. -/
def Sys2Proof.Claims.PlainBank (s : State) (kind : LaunchKind) (die : Nat) (bank : List Byte) : Prop :=
  s.recordWait = [] ∧ s.recordsOf die = [] ∧ die < 4 ∧ bankBound kind bank = false ∧ bankHitch kind bank = false ∧
  bankRiders kind bank ≤ 65536

/-- R76 to R82, R126: the chaining engine at the next packet of a queue. A packet that passes starts its command and START moves on; the lowest
of the causes it meets halts the queue at it; WAITPREV waits for every earlier command; a listed packet runs at the next level. -/
def Obligations.PacketsStart : Prop :=
  ∀ (s : State) (q : Nat) (x : Expansion) (rest : List Expansion),
    let c := s.reg (.qctl q)
    let e := s.engines.getD q {}
    let start := bits (s.reg (.feq q)) 63 32
    let adm := bits (s.reg (.feq q)) 31 0
    let addr := bits (s.reg (.qbase q)) 63 12 * 4096 + 16 * (start % 2 ^ bits c 6 2)
    let at' := fun (dram : Bool) (a : Nat) => if dram then s.mem.read a 16 else s.mem.hostRead a 16
    let canRead := fun (dram : Bool) (a : Nat) => (dram = true → a + 16 ≤ dramBytes ∧ s.mem.poisoned a 16 = false) ∧
      (dram = false → s.mem.hostRefuses a 16 = false ∧ s.mem.hostPoisoned a 16 = false)
    let at16 := fun (dram : Bool) (a : Nat) => s.feHeld dram a 16 = false
    let p := at' (bit c 1) addr
    let w := fieldOf p 3 0
    let opc := w % 256
    let ptr := fieldOf p 15 8
    let top := Claims.MayStart s q ∧ e.stack = [] ∧ start ≠ adm ∧ at16 (bit c 1) addr
    let kept := fun (t : State) => t.mem = s.mem ∧ t.ctxs = s.ctxs
    let command := fun (t : State) (pk : List Byte) (level : Nat) (parent : Option Nat) =>
      let v := fieldOf pk 3 0
      (t.cmds.get? s.ids).map (fun y => (y.queue, y.die, y.opc, y.irq, y.prio, y.tag.toNat, y.ptr.toNat)) =
        some (q, bits c 9 8, v % 256, v.testBit 16, if v.testBit 18 then v / 2 ^ 19 % 8 else bits c 12 10, fieldOf pk 7 4, fieldOf pk 15 8) ∧
      (t.cmds.get? s.ids).map (fun y => (y.level, y.parent, y.waiting, y.done, y.space)) = some (level, parent, true, false, v.testBit 22) ∧
      t.ids = s.ids + 1 ∧ kept t
    let halted := fun (t : State) (code level index : Nat) =>
      bits (t.reg (.qerr q)) 7 0 = code ∧ bits (t.reg (.qerr q)) 9 8 = level % 4 ∧ bits (t.reg (.qerr q)) 47 16 = index ∧
      bit (t.reg (.qctl q)) 31 = true ∧ bit (t.reg .intcause) 0 = true ∧ t.reg (.feq q) = s.reg (.feq q) ∧
      (t.engines.getD q {}).stack = [] ∧ kept t
    let refuses := fun (code : Nat) => ∃ t, Sys2Proof.Machine.exec (.packetStart q) s = .next t ∧ halted t code 0 start
    let noHold := ∀ st < 4096, s.homeHeld (st * 65536) = false
    let d := if w.testBit 22 then s.mem.read ptr 16 else s.mem.hostRead ptr 16
    (¬ Claims.MayStart s q ∨ (e.stack = [] ∧ start = adm) → Sys2Proof.Machine.exec (.packetStart q) s = .next s) ∧
    (e.stack = [] → s.feHeld (bit c 1) addr 16 = true → Sys2Proof.Machine.exec (.packetStart q) s = .next s) ∧
    (q < 256 → top → ¬ canRead (bit c 1) addr → refuses 5) ∧
    (q < 256 → top → canRead (bit c 1) addr →
      (7 < opc → refuses 1) ∧
      (opc ≤ 7 → w / 2 ^ 8 % 256 ≠ q → noHold → refuses 2) ∧
      (opc ≤ 7 → w / 2 ^ 8 % 256 = q → 2 ^ 23 ≤ w ∨ ((opc = 5 ∨ opc = 6) ∧ 2 ^ 48 ≤ ptr) → noHold → refuses 3) ∧
      (opc = 7 → w / 2 ^ 8 % 256 = q → w < 2 ^ 23 → ptr % 16 ≠ 0 → noHold → refuses 6) ∧
      (opc = 7 → w / 2 ^ 8 % 256 = q → w < 2 ^ 23 → ptr % 16 = 0 → w.testBit 17 = false → canRead (w.testBit 22) ptr → fieldOf d 7 4 = 0 →
        at16 (w.testBit 22) ptr → fieldOf d 15 8 % 16 = 0 → fieldOf d 3 0 = 0 ∨ 65536 < fieldOf d 3 0 → refuses 8) ∧
      (opc = 7 → w / 2 ^ 8 % 256 = q → w < 2 ^ 23 → ptr % 16 = 0 → w.testBit 17 = false → canRead (w.testBit 22) ptr → fieldOf d 7 4 = 0 →
        at16 (w.testBit 22) ptr → fieldOf d 15 8 % 16 = 0 → 1 ≤ fieldOf d 3 0 → fieldOf d 3 0 ≤ 65536 →
        ∃ t, Sys2Proof.Machine.exec (.packetStart q) s = .next t ∧ command t p 0 none ∧ (t.cmds.get? s.ids).map (fun y => y.desc) = some d ∧
          bits (t.reg (.feq q)) 63 32 = (start + 1) % 2 ^ 32 ∧ t.agenda = s.agenda ++ [.indirect s.ids]) ∧
      (opc = 0 ∨ opc = 5 ∨ opc = 6 → w / 2 ^ 8 % 256 = q → w < 2 ^ 23 → (opc ≠ 0 → ptr < 2 ^ 48) →
        (w.testBit 17 = false ∧ opc ≠ 5) ∨ (∀ y ∈ s.cmds, y.2.queue ≠ q) →
        ∃ t, Sys2Proof.Machine.exec (.packetStart q) s = .next t ∧ command t p 0 none ∧ bits (t.reg (.feq q)) 63 32 = (start + 1) % 2 ^ 32 ∧
          bits (t.reg (.feq q)) 31 0 = adm ∧
          t.agenda = s.agenda ++ [if opc = 0 then .commandNop s.ids else if opc = 5 then .flagset s.ids else .flagwait s.ids]) ∧
      (opc = 0 ∨ opc = 5 ∨ opc = 6 → w / 2 ^ 8 % 256 = q → w < 2 ^ 23 → (opc ≠ 0 → ptr < 2 ^ 48) → w.testBit 17 = true ∨ opc = 5 →
        (∃ y ∈ s.cmds, y.2.queue = q) → Sys2Proof.Machine.exec (.packetStart q) s = .next s)) ∧
    (q < 256 → Claims.MayStart s q → e.stack = x :: rest → at16 x.space (x.addr + 16 * x.next) → canRead x.space (x.addr + 16 * x.next) →
      let pk := at' x.space (x.addr + 16 * x.next)
      let v := fieldOf pk 3 0
      (v % 256 = 7 → v / 2 ^ 8 % 256 = q → v < 2 ^ 23 → x.level = 3 → fieldOf pk 15 8 % 16 = 0 → x.cmd ∉ s.cmds.map (fun y => y.1) →
        rest = [] → at16 (v.testBit 22) (fieldOf pk 15 8) → fieldOf (at' (v.testBit 22) (fieldOf pk 15 8)) 7 4 = 0 →
        ∃ t, Sys2Proof.Machine.exec (.packetStart q) s = .next t ∧ halted t 4 4 ((start + 2 ^ 32 - 1) % 2 ^ 32)) ∧
      (v % 256 = 0 → v / 2 ^ 8 % 256 = q → v < 2 ^ 23 → v.testBit 17 = false → x.cmd < s.ids →
        ∃ t, Sys2Proof.Machine.exec (.packetStart q) s = .next t ∧ command t pk (x.level + 1) (some x.cmd) ∧ t.reg (.feq q) = s.reg (.feq q) ∧
          (t.engines.getD q {}).stack = (if x.next + 1 = x.count then rest else { x with next := x.next + 1 } :: rest)))

/-- R78, R79, R111, R121, R122: what the commands do. NOP is complete at once; FLAGSET writes its word; FLAGWAIT holds its queue until the word has
its value; INDIRECT opens its list; PATCH writes the inactive bank; COPY moves its bytes, or ends with STATUS 1 at a piece that cannot be read or written (log entry 106), and KERNEL launches riders; a completion
writes the record of R111. -/
def Obligations.CommandsAct : Prop :=
  ∀ (s : State) (c : Nat) (x : Cmd) (a : Nat),
    let has := s.cmds.get? c = some x
    let flag := flagAddr (bits x.ptr 15 14) (bits x.ptr 13 0)
    let value := bits x.ptr 47 16
    let fin := fun (t : State) (status : Nat) => t.cmds.get? c = some { x with done := true, waiting := false, status := status } ∧
      t.agenda = s.agenda ++ [.commandComplete c]
    let keptBut := fun (t : State) (lo n : Nat) => ¬ (lo ≤ a ∧ a < lo + n) → t.mem.get a = s.mem.get a
    let d := x.desc
    let node := fieldOf d 17 16
    let h := s.mem.read (nodeAddr x.die node) 32
    let actb := fieldOf h 1 1 / 2 % 2
    let bank := (d.drop 32).take 48
    let inactive := nodeAddr x.die node + 32 + 48 * (1 - actb)
    let cb := (d.drop 16).take 48
    let src := fieldOf cb 7 0
    let dst := fieldOf cb 15 8
    let n := fieldOf cb 23 16
    let sp := fieldOf cb 24 24
    let rec' := leBytes 4 x.tag.toNat ++ [BitVec.ofNat 8 x.status, BitVec.ofNat 8 x.queue] ++ leBytes 2 x.node ++ leBytes 4 x.skipped ++
      leBytes 4 x.wear
    (has → x.opc = 0 → x.waiting = true → ∃ t, Sys2Proof.Machine.exec (.commandNop c) s = .next t ∧ fin t x.status ∧ t.mem = s.mem ∧ t.ctxs = s.ctxs) ∧
    (has → x.opc = 5 → x.waiting = true → ∃ t, Sys2Proof.Machine.exec (.flagset c) s = .next t ∧ fin t x.status ∧
      t.mem.read flag 4 = leBytes 4 value ∧ keptBut t flag 4 ∧ t.ctxs = s.ctxs) ∧
    (has → x.opc = 6 → x.waiting = true → ∃ t, Sys2Proof.Machine.exec (.flagwait c) s = .next t ∧ t.mem = s.mem ∧ t.ctxs = s.ctxs ∧
      (t.engines.getD x.queue {}).flagwait = some c ∧
      (leNat (s.mem.read flag 4) = value → fin t x.status) ∧
      (leNat (s.mem.read flag 4) ≠ value → t.cmds.get? c = some { x with waiting := false } ∧ t.agenda = s.agenda)) ∧
    (has → x.opc = 6 → x.waiting = false → x.done = false → leNat (s.mem.read flag 4) = value →
      ∃ t, Sys2Proof.Machine.exec (.flagwaitSatisfied c) s = .next t ∧ fin t x.status ∧ t.mem = s.mem) ∧
    (has → leNat (s.mem.read flag 4) ≠ value → Sys2Proof.Machine.exec (.flagwaitSatisfied c) s = .next s) ∧
    (has → x.opc = 7 → x.waiting = true → ∃ t, Sys2Proof.Machine.exec (.indirect c) s = .next t ∧
      (t.engines.getD x.queue {}).stack = { cmd := c, level := x.level, space := x.space, addr := fieldOf d 15 8, count := fieldOf d 3 0, next := 0 } ::
        (s.engines.getD x.queue {}).stack ∧
      t.cmds.get? c = some { x with waiting := false, listed := false } ∧ t.mem = s.mem ∧ t.ctxs = s.ctxs) ∧
    (has → x.opc = 2 → x.waiting = true → x.die < 4 → node < 16384 → d.length = 80 → s.patchWaits c x.die node = false →
      ∃ t, Sys2Proof.Machine.exec (.patch c) s = .next t ∧ fin t x.status ∧ t.mem.read inactive 48 = bank ∧
        fieldOf (t.mem.read (nodeAddr x.die node) 32) 1 1 = fieldOf h 1 1 % 2 + 2 * actb + 4 + 8 ∧
        (a ≠ nodeAddr x.die node + 1 → keptBut t inactive 48) ∧ t.ctxs = s.ctxs) ∧
    (has → x.opc = 4 → x.waiting = true → s.copyHeld cb = false → n ≠ 0 →
      s.mem.reaches (sp.testBit 0) src (Nat.min n 64) = false ∨ s.mem.reaches (sp.testBit 1) dst (Nat.min n 64) = false →
      ∃ t, Sys2Proof.Machine.exec (.copy c) s = .next t ∧ fin t (if x.status = 0 then 1 else Nat.min x.status 1) ∧ t.mem = s.mem ∧ t.ctxs = s.ctxs) ∧
    (has → x.opc = 4 → x.waiting = true → s.copyHeld cb = false → sp = 3 → src + n ≤ dramBytes → dst + n ≤ dramBytes → src + n ≤ dst ∨ dst + n ≤ src →
      ∃ t, Sys2Proof.Machine.exec (.copy c) s = .next t ∧ t.mem.read dst n = s.mem.read src n ∧ keptBut t dst n ∧ t.ctxs = s.ctxs ∧
        fin t (if s.mem.poisoned src n then (if x.status = 0 then 3 else Nat.min x.status 3) else x.status)) ∧
    (has → x.opc = 3 → x.waiting = true → Claims.PlainBank s .kernel x.die cb → x.prio < 8 →
      ∃ t, Sys2Proof.Machine.exec (.kernel c) s = .next t ∧ Claims.Launches s t .kernel x.die c x.queue none cb x.prio false ∧ t.mem = s.mem) ∧
    (has → x.done = true → x.irq = false → x.parent = none → rising (s.cmds.map (fun y => y.1)) = true →
      (x.cpl ≠ 0 → x.space = true → s.feHeld true x.cpl 16 = false → x.cpl + 16 ≤ dramBytes → ∃ t, Sys2Proof.Machine.exec (.commandComplete c) s = .next t ∧
        t.cmds.get? c = none ∧ t.mem.read x.cpl 16 = rec' ∧ keptBut t x.cpl 16 ∧ t.ctxs = s.ctxs) ∧
      (x.cpl ≠ 0 → x.space = false → s.mem.hostRefuses x.cpl 16 = false → ∃ t, Sys2Proof.Machine.exec (.commandComplete c) s = .next t ∧ t.cmds.get? c = none ∧
        t.mem.hostRead x.cpl 16 = rec' ∧ t.mem.bytes = s.mem.bytes) ∧
      (x.cpl = 0 → ∃ t, Sys2Proof.Machine.exec (.commandComplete c) s = .next t ∧ t.cmds.get? c = none ∧ t.mem = s.mem ∧ t.ctxs = s.ctxs ∧ t.out = s.out)) ∧
    (has → x.done = false → Sys2Proof.Machine.exec (.commandComplete c) s = .next s)

/-! ## Launch graphs -/

/-- The nodes to which the chosen set of a node leads (R106, R115). -/
def Sys2Proof.Claims.successors (s : State) (die n : Nat) (setB : Bool) : List Nat :=
  let h := s.node die n
  let w := if setB then fieldOf h 11 8 else fieldOf h 7 4
  (List.range (w / 65536 % 2 ^ 13)).map (fun i => leNat (s.mem.read (edgeAddr die (w % 65536 + i)) 2) % 2 ^ 14)

/-- A node of a replay has completed without fault (R115): it no longer runs, LIVE of each node that its set names is lower by the number of its
edges, and a LIVE that has come to 0 makes its node due. -/
def Sys2Proof.Claims.Completed (s t : State) (r n : Nat) (x : Replay) (setB : Bool) : Prop :=
  let succ := Claims.successors s x.die n setB
  (t.replays.get? r).map (fun y => (y.cmd, y.die, y.first, y.count, y.running)) = some (x.cmd, x.die, x.first, x.count, x.running.erase n) ∧
  ∀ m < 16384, (t.replays.get? r).map (fun y => y.live.getD m 0) = some (x.live.getD m 0 - succ.count m) ∧
    (t.replays.get? r).map (fun y => y.due.contains m) =
      some (x.due.contains m || (0 < x.live.getD m 0 && x.live.getD m 0 ≤ succ.count m))

/-- R106, R112 to R114, R120: a GRAPH command waits its turn; an INSTALL writes every node, active bank 0 and valid, and every edge; a replay
changes banks where a PATCH is pending, arms LIVE of each node outside a loop with NPRED, and makes those without predecessor due; it is
complete when no node runs or is due, and the command counts the nodes that never ran. -/
def Obligations.GraphsAndReplays : Prop :=
  ∀ (s : State) (c r i : Nat) (x : Cmd) (y : Replay),
    let d := x.desc
    let first := fieldOf d 17 16
    let count := fieldOf d 19 18
    let ef := fieldOf d 35 32
    let ec := fieldOf d 39 36
    let image := ((d.drop 48).drop (80 * i)).take 80
    let edge := fieldOf ((d.drop 48).drop (80 * count)) (2 * i + 1) (2 * i)
    let has := s.cmds.get? c = some x ∧ x.opc = 1 ∧ x.waiting = true
    let node := fun (t : State) (n : Nat) => t.mem.read (nodeAddr y.die n) 32
    let b1 := fun (t : State) (n : Nat) => fieldOf (node t n) 1 1
    let loops := s.replayLoops y
    let isTop := fun (n : Nat) => loops.all (fun l => !(l.2.1 ≤ n && n ≤ l.2.2))
    let npred := fun (n : Nat) => fieldOf (node s n) 3 2 % 2 ^ 14
    (has → fieldOf d 20 20 ≠ 1 → s.graphTurn c x = true → ∃ t, Sys2Proof.Machine.exec (.graphRun c) s = .next t ∧
      t.replays.get? s.ids = some { cmd := c, die := x.die, first := first, count := count } ∧ t.agenda = s.agenda ++ [.replayStart s.ids] ∧
      t.cmds.get? c = some { x with waiting := false } ∧ t.mem = s.mem ∧ t.ctxs = s.ctxs) ∧
    (has → s.graphTurn c x = false → Sys2Proof.Machine.exec (.graphRun c) s = .next s ∧ Sys2Proof.Machine.exec (.graphInstall c) s = .next s) ∧
    (has → fieldOf d 20 20 = 1 → s.graphTurn c x = true → x.die < 4 → first + count ≤ 16384 → ef + ec ≤ 65536 → s.patches = [] →
      d.length = 48 + 80 * count + 2 * ec →
      ∃ t, Sys2Proof.Machine.exec (.graphInstall c) s = .next t ∧
        t.cmds.get? c = some { x with done := true, waiting := false } ∧ t.ctxs = s.ctxs ∧
        (i < count → t.mem.read (nodeAddr x.die (first + i)) 80 =
          [image.getD 0 0, BitVec.ofNat 8 ((image.getD 1 0).toNat % 2 + 8)] ++ image.drop 2) ∧
        (i < ec → leNat (t.mem.read (edgeAddr x.die (ef + i)) 2) = edge) ∧
        (i < dramBytes → t.mem.get i = s.mem.get i)) ∧
    (s.replays.get? r = some y → y.live = [] → y.count ≠ 0 → y.die < 4 → y.first + y.count ≤ 16384 → s.patches = [] →
      ∃ t, Sys2Proof.Machine.exec (.replayStart r) s = .next t ∧ t.ctxs = s.ctxs ∧
        (y.first ≤ i → i < y.first + y.count →
          b1 t i = (if (b1 s i).testBit 2 then b1 s i % 2 + 2 * (1 - b1 s i / 2 % 2) + 8 else b1 s i) ∧
          (t.replays.get? r).map (fun z => z.live.get? i) = some (if isTop i then some (npred i) else none) ∧
          (t.replays.get? r).map (fun z => z.due.contains i) = some (y.due.contains i || (isTop i && npred i == 0))) ∧
        (i < dramBytes → t.mem.get i = s.mem.get i)) ∧
    (s.replays.get? r = some y → y.live ≠ [] → y.running = [] → y.due = [] → s.cmds.get? y.cmd = some x → rising (s.replays.map (fun z => z.1)) = true →
      ∃ t, Sys2Proof.Machine.exec (.replayComplete r) s = .next t ∧ t.replays.get? r = none ∧ t.mem = s.mem ∧
        t.cmds.get? y.cmd = some { x with done := true, waiting := false, skipped :=
          ((List.range y.count).map (fun j => y.first + j)).countP (fun n => isTop n && !y.launched.contains n) }) ∧
    (s.replays.get? r = some y → y.running ≠ [] ∨ y.due ≠ [] → Sys2Proof.Machine.exec (.replayComplete r) s = .next s)

/-- R108, R115, R116, R118 to R121, R156: the nodes. KERNEL and SURROGATE launch riders; CONDITIONAL chooses its successor set by the flag word; LOOP runs its
body while the test holds, up to ITERMAX, which is status 2; SIGNAL writes its data; COPY copies; a launch that is over completes its
node, with status 1 when it faulted. -/
def Obligations.GraphNodes : Prop :=
  ∀ (s : State) (r n : Nat) (x : Replay) (c : Cmd) (l : Launch) (it m : Nat),
    let h := s.node x.die n
    let kind := fieldOf h 0 0 % 16
    let b := (h.drop (32 + 48 * (fieldOf h 1 1 / 2 % 2))).take 48
    let due := s.replays.get? r = some x ∧ n ∈ x.due ∧ n ∉ x.running ∧ x.die < 4
    let started := fun (z : Replay) => { z with running := z.running ++ [n], due := z.due.erase n }
    let f := fieldOf b 3 0
    let word := leNat (s.mem.read (flagAddr x.die (f % 2 ^ 14)) 4)
    let v := fieldOf b 7 4
    let cap := fieldOf b 11 8
    let test := match f / 2 ^ 16 % 8 with
      | 0 => word == v
      | 1 => word != v
      | 2 => decide (word < v)
      | 3 => decide (v ≤ word)
      | 4 => Nat.land word v != 0
      | _ => Nat.land word v == 0
    let prio := if (fieldOf h 0 0).testBit 4 then fieldOf h 0 0 / 32 else c.prio
    let body := (fieldOf h 13 12 % 2 ^ 14, fieldOf h 15 14 % 2 ^ 14)
    let inside := fun (k : Nat) => x.first ≤ k && k < x.first + x.count && innerLoop (s.replayLoops x) k == some n
    let npred := fun (k : Nat) => fieldOf (s.node x.die k) 3 2 % 2 ^ 14
    let noted := fun (t : State) (code : Nat) => (t.cmds.get? x.cmd).map (fun y => (y.status, y.node)) =
      some (if c.status = 0 then code else Nat.min c.status code, if c.node = 0xFFFF then n else c.node)
    let iterates := fun (t : State) (k : Nat) => (t.replays.get? r).map (fun y => (y.running.contains n, y.loops.get? n)) = some (true, some k) ∧
      (inside m → (t.replays.get? r).map (fun y => (y.live.get? m, y.due.contains m || npred m != 0)) = some (some (npred m), true)) ∧ t.mem = s.mem
    (due → s.cmds.get? x.cmd = some c → prio < 8 →
      (kind = 0 → Claims.PlainBank s .kernel x.die b → ∃ t, Sys2Proof.Machine.exec (.kernelNodeLaunch r n) s = .next t ∧
        Claims.Launches s t .kernel x.die x.cmd c.queue (some (r, n)) b prio ((fieldOf h 1 1).testBit 0) ∧
        (t.replays.get? r).map (fun y => (y.running, y.due, y.runs)) = some (x.running ++ [n], x.due.erase n, x.runs.put n s.ids)) ∧
      (kind = 3 → Claims.PlainBank s .surrogate x.die b → ∃ t, Sys2Proof.Machine.exec (.surrogateNode r n) s = .next t ∧
        Claims.Launches s t .surrogate x.die x.cmd c.queue (some (r, n)) b prio false ∧
        (t.replays.get? r).map (fun y => (y.running, y.due, y.runs)) = some (x.running ++ [n], x.due.erase n, x.runs.put n s.ids))) ∧
    (due → kind = 1 → f / 2 ^ 16 % 8 < 6 → ∃ t, Sys2Proof.Machine.exec (.conditionalNode r n) s = .next t ∧ Claims.Completed s t r n (started x) (!test) ∧
      t.mem = s.mem ∧ t.ctxs = s.ctxs) ∧
    (due → kind = 4 → (fieldOf b 0 0).testBit 1 = true → s.mem.reaches false (fieldOf b 15 8) 8 = false → s.cmds.get? x.cmd = some c →
      ∃ t, Sys2Proof.Machine.exec (.signalNode r n) s = .next t ∧ noted t 1 ∧ t.mem = s.mem ∧ t.ctxs = s.ctxs) ∧
    (due → kind = 4 → (fieldOf b 0 0).testBit 1 = false ∨ s.mem.reaches false (fieldOf b 15 8) 8 = true →
      ∃ t, Sys2Proof.Machine.exec (.signalNode r n) s = .next t ∧ Claims.Completed s t r n (started x) false ∧ t.mem.bytes = s.mem.bytes ∧
      ((fieldOf b 0 0).testBit 1 = true → t.mem.hostRead (fieldOf b 15 8) 8 = (b.drop 16).take 8)) ∧
    (due → kind = 5 → s.copyHeld b = false → fieldOf b 24 24 = 3 → fieldOf b 7 0 + fieldOf b 23 16 ≤ fieldOf b 15 8 → fieldOf b 15 8 + fieldOf b 23 16 ≤ dramBytes →
      ∃ t, Sys2Proof.Machine.exec (.copyNode r n) s = .next t ∧ Claims.Completed s t r n (started x) false ∧
        t.mem.read (fieldOf b 15 8) (fieldOf b 23 16) = s.mem.read (fieldOf b 7 0) (fieldOf b 23 16) ∧ t.ctxs = s.ctxs) ∧
    (due → kind = 2 → f / 2 ^ 16 % 8 < 6 → test = false → ∃ t, Sys2Proof.Machine.exec (.loopNode r n) s = .next t ∧
      Claims.Completed s t r n (started x) false ∧ t.mem = s.mem) ∧
    (due → kind = 2 → f / 2 ^ 16 % 8 < 6 → test = true → ∃ t, Sys2Proof.Machine.exec (.loopNode r n) s = .next t ∧ iterates t 0) ∧
    (s.replays.get? r = some x → n ∈ x.running → x.loops.get? n = some it → (∃ k ∈ x.running ++ x.due, body.1 ≤ k ∧ k ≤ body.2) →
      Sys2Proof.Machine.exec (.loopIterationEnd r n) s = .next s) ∧
    (s.replays.get? r = some x → n ∈ x.running → x.loops.get? n = some it → (∀ k ∈ x.running ++ x.due, k < body.1 ∨ body.2 < k) → x.die < 4 →
      f / 2 ^ 16 % 8 < 6 → s.cmds.get? x.cmd = some c →
      (n ∈ x.loopFault → ∃ t, Sys2Proof.Machine.exec (.loopIterationEnd r n) s = .next t ∧ noted t 1 ∧
        (t.replays.get? r).map (fun y => (y.running, y.live, y.due)) = some (x.running.erase n, x.live, x.due)) ∧
      (n ∉ x.loopFault → cap ≠ 0 → it + 1 = cap → ∃ t, Sys2Proof.Machine.exec (.loopIterationEnd r n) s = .next t ∧ noted t 2 ∧
        Claims.Completed s t r n x false) ∧
      (n ∉ x.loopFault → cap = 0 ∨ it + 1 ≠ cap → test = false → ∃ t, Sys2Proof.Machine.exec (.loopIterationEnd r n) s = .next t ∧
        Claims.Completed s t r n x false) ∧
      (n ∉ x.loopFault → cap = 0 ∨ it + 1 ≠ cap → test = true → ∃ t, Sys2Proof.Machine.exec (.loopIterationEnd r n) s = .next t ∧
        iterates t (it + 1))) ∧
    (s.replays.get? r = some x → n ∈ x.running → x.die < 4 → x.runs.get? n = some 7 → s.launches.get? 7 = some l → l.node = some (r, n) → l.cmd = x.cmd → l.finished = true →
      s.cmds.get? x.cmd = some c →
      (l.fault = false → ∃ t, Sys2Proof.Machine.exec (.nodeComplete r n) s = .next t ∧
        Claims.Completed s t r n x false ∧ t.mem = s.mem) ∧
      (l.fault = true → ∃ t, Sys2Proof.Machine.exec (.nodeComplete r n) s = .next t ∧ noted t 1 ∧
        (t.replays.get? r).map (fun y => (y.running, y.live, y.due)) = some (x.running.erase n, x.live, x.due) ∧ t.mem = s.mem)) ∧
    (s.launches = [] → Sys2Proof.Machine.exec (.nodeComplete r n) s = .next s)

/-! ## The dispatcher and the collector -/

/-- The stall and the user context on which a rider is. -/
def Sys2Proof.Claims.placeOf (s : State) (k : Nat) : Option (Nat × Nat) :=
  match (s.ctx k).loc with
  | .on st slot => some (st, slot)
  | .stopped _ _ _ | .waiting _ | .saved => none

/-- A rider waits for the dispatcher. -/
def Sys2Proof.Claims.Waits (s : State) (k : Nat) : Prop :=
  k < groomKey ∧ (s.ctx k).retiring = false ∧ (s.ctxs.get? k).isSome = true ∧ (match (s.ctx k).loc with
    | .waiting _ => true
    | .on _ _ | .stopped _ _ _ | .saved => false) = true

/-- R117, R140 to R144, R156, R167: the dispatcher. Waiting launches take the free records; a BOUND rider goes to its stall, a rider of priority below 6 to
the least-worn eligible stall of its home paddock that is under its threshold, or of the die once SPILL has passed, one of priority 6 or 7
to its home paddock, else the die, else the module; nothing is placed while the dispatcher is paused. -/
def Obligations.RidersArePlaced : Prop :=
  ∀ (s : State) (k li : Nat) (l : Launch),
    let c := s.ctx k
    let only := s.waiters = [(k, c)] ∧ s.saves = [] ∧ c.nest.gang = none
    let runs := bit (s.reg .dispctl) 0 = false ∧ bits (s.reg .lcstate) 2 0 ≠ 3
    let home := s.homeOf c
    let spill := bits (s.reg .dispctl) 23 16
    let spilled := spill ≠ 0 ∧ c.since + spill * 700 ≤ s.clock
    let fits := fun (st : Nat) => s.eligible st c = true
    let free := fun (st : Nat) => fits st ∧ s.underThresh st = true
    let better := fun (st o : Nat) => s.wearNow st < s.wearNow o ∨ (s.wearNow st = s.wearNow o ∧ st ≤ o)
    let placedIn := fun (t : State) (area : List Nat) => ∃ p, Claims.placeOf t k = some p ∧ p.1 ∈ area ∧ fits p.1 ∧
      p.2 = (if (s.residents p.1).any (fun x => x.2.slot == 0) then 1 else 0)
    let least := fun (t : State) (area : List Nat) => ∃ p, Claims.placeOf t k = some p ∧ p.1 ∈ area ∧ free p.1 ∧
      area.all (fun o => !(decide (free o)) || decide (better p.1 o)) = true
    (s.launches.get? li = some l → s.recordWait = [li] → l.created = 0 → l.exact = [] → Claims.PlainBank { s with recordWait := [] } l.kind l.die l.bank →
      l.total = bankRiders l.kind l.bank → l.total ≠ 0 →
      ∃ t, Sys2Proof.Machine.exec (.riderRecordGrant li) s = .next t ∧ t.recordWait = [] ∧ (t.launches.get? li).map (fun x => x.created) = some l.total ∧
        t.mem = s.mem ∧ ∀ i < l.total, (t.ctxs.get? (riderKey l.die i)).map (fun x => (x.launch, x.index)) = some (li, i)) ∧
    (s.launches.get? li = none → Sys2Proof.Machine.exec (.riderRecordGrant li) s = .next s) ∧
    (only → runs → c.launch = li → s.launches.get? li = none →
      (∀ st, c.bound = some st → fits st → ∃ t, Sys2Proof.Machine.exec (.riderPlace k) s = .next t ∧ placedIn t [st] ∧ t.mem = s.mem ∧ t.regs = s.regs) ∧
      (c.bound = none → c.prio < 6 → ¬ spilled → (∃ st ∈ paddockStalls home, free st) →
        ∃ t, Sys2Proof.Machine.exec (.riderPlace k) s = .next t ∧ least t (paddockStalls home) ∧ placedIn t (paddockStalls home) ∧ t.mem = s.mem ∧
          t.regs = s.regs) ∧
      (c.bound = none → c.prio < 6 → ¬ spilled → (¬ ∃ st ∈ paddockStalls home, free st) → Sys2Proof.Machine.exec (.riderPlace k) s = .next s) ∧
      (c.bound = none → c.prio < 6 → spilled → (∃ st ∈ dieStalls home, free st) →
        ∃ t, Sys2Proof.Machine.exec (.spillExpiry k) s = .next t ∧ least t (dieStalls home) ∧ t.mem = s.mem) ∧
      (¬ spilled → Sys2Proof.Machine.exec (.spillExpiry k) s = .next s) ∧
      (c.bound = none → 6 ≤ c.prio → (∃ st ∈ paddockStalls home, fits st) →
        ∃ t, Sys2Proof.Machine.exec (.riderPlace k) s = .next t ∧ placedIn t (paddockStalls home)) ∧
      (c.bound = none → 6 ≤ c.prio → (¬ ∃ st ∈ paddockStalls home, fits st) → (∃ st ∈ dieStalls home, fits st) →
        ∃ t, Sys2Proof.Machine.exec (.riderPlace k) s = .next t ∧ placedIn t (dieStalls home))) ∧
    (bit (s.reg .dispctl) 0 = true → Sys2Proof.Machine.exec (.riderPlace k) s = .next s)

/-- R143, R148, R149: pre-emption. A rider of priority 6 or 7 that finds no stall after PREEMPTWAIT takes the place of a resident of lower priority: the space
for its image is reserved and the stop is sent; one whose victims another collection holds chooses again as soon as that one is over; one of lower
priority, or one that can be placed, never does. -/
def Sys2Proof.Claims.Preemption : Prop :=
  ∀ (s : State) (k st v : Nat),
    let c := s.ctx k
    let x := s.ctx v
    let wait := bits (s.reg .dispctl) 15 8 * 700
    let t0 := s.clock - c.since
    let again := c.contested.any (fun ci => (s.colls.get? ci).isNone) = true
    let due := again ∨ (c.contested = none ∧ wait ≤ t0 ∧ (wait = 0 ∨ t0 % wait = 0))
    let kept := fun (t : State) => t.ctx k = { c with contested := none } ∧ (∀ j, j ≠ k → t.ctx j = s.ctx j) ∧ t.mem = s.mem
    (c.prio < 6 → c.contested = none → Sys2Proof.Machine.exec (.preemptwaitExpiry k) s = .next s) ∧
    ((s.choose c).isSome = true → c.contested = none → Sys2Proof.Machine.exec (.preemptwaitExpiry k) s = .next s) ∧
    (¬ due → Sys2Proof.Machine.exec (.preemptwaitExpiry k) s = .next s) ∧
    (Claims.Waits s k → due → 6 ≤ c.prio → c.bound = some st → s.eligible st c = false → bit (s.reg .dispctl) 0 = false →
      bits (s.reg .lcstate) 2 0 ≠ 3 → s.residents st = [(v, x)] → x.stoppable = true → v < groomKey → x.prio < c.prio →
      s.eligibleWith st c (fun i => i != v) = true → s.gangs = [] → s.colls = [] →
      ((s.findUnits (stallQuarter x.stall) x.reserveUnits).isSome = true → ∃ t, Sys2Proof.Machine.exec (.preemptwaitExpiry k) s = .next t ∧
        (t.colls.get? s.ids).map (fun y => (y.victims, y.sent, y.waiter, y.limited, y.discard)) = some ([v], true, some k, true, false) ∧
        (t.colls.get? s.ids).map (fun y => (y.start, (y.space.get? v).map (fun p => (p.1, p.2.2)))) =
          some (s.clock, some (stallQuarter x.stall, x.reserveUnits)) ∧ kept t) ∧
      (s.findUnits (stallQuarter x.stall) x.reserveUnits = none →
        ∃ t, Sys2Proof.Machine.exec (.preemptwaitExpiry k) s = .next t ∧ t.colls = [] ∧ kept t))

/-- R149, R152, R154: a collection. Each class acknowledges once it has stopped, and the SCU then issues no further group; COLLECTLIM withdraws the stop;
when every acknowledgement is in, the victim's image is kept, its stall is free and it waits again; a re-execution keeps no image, and
checks its inputs, piece by piece, once none of the first run is left and its writes are performed, and creates every rider again; a second error
or an input that is no longer readable ends the node with a fault. -/
def Sys2Proof.Claims.Collections : Prop :=
  ∀ (s : State) (ci k li : Nat) (cls : EngineClass) (x : Coll) (l : Launch) (d f n : Nat),
    let c := s.ctx k
    let lim := bits (s.reg .dispctl) 47 32 * 700
    let has := s.colls.get? ci = some x ∧ x.sent = true
    let sorted := rising (s.colls.map (fun e => e.1)) = true
    let one := x.victims = [k] ∧ s.ctxs.get? k = some c
    let acked := ∀ e ∈ engineClasses, (k, e) ∈ x.acks
    let calm := c.stash = [] ∧ bits c.csr.baymap 7 0 = 0 ∧ s.gangs = []
    (has → k ∈ x.victims → (k, cls) ∉ x.acks → s.ctxs.get? k = some c →
      (cls = .scu → c.groups = 0 ∨ c.waits ≠ [] → ∃ t, Sys2Proof.Machine.exec (.stopAcknowledge ci k cls) s = .next t ∧
        t.colls.get? ci = some { x with acks := x.acks ++ [(k, cls)] } ∧ t.ctx k = { c with loc := .stopped c.stall c.slot ci } ∧ t.mem = s.mem) ∧
      (cls = .vpipe → (k, .scu) ∈ x.acks → ∃ t, Sys2Proof.Machine.exec (.stopAcknowledge ci k cls) s = .next t ∧
        t.colls.get? ci = some { x with acks := x.acks ++ [(k, cls)] } ∧ t.ctxs = s.ctxs ∧ t.mem = s.mem) ∧
      (cls = .xpipe → (k, .scu) ∈ x.acks → c.xq = [] → s.outstanding = [] → s.homeWait = [] →
        ∃ t, Sys2Proof.Machine.exec (.stopAcknowledge ci k cls) s = .next t ∧
          t.colls.get? ci = some { x with acks := x.acks ++ [(k, cls)] } ∧ t.ctxs = s.ctxs ∧ t.mem = s.mem) ∧
      (cls = .vpipe ∨ cls = .xpipe → (k, .scu) ∉ x.acks → Sys2Proof.Machine.exec (.stopAcknowledge ci k cls) s = .next s) ∧
      (cls = .whiff ∨ (cls = .nest ∧ c.nest.gang = none ∧ c.nest.copy = none) → ∃ t, Sys2Proof.Machine.exec (.stopAcknowledge ci k cls) s = .next t ∧
          t.colls.get? ci = some { x with acks := x.acks ++ [(k, cls)] } ∧ t.ctxs = s.ctxs ∧ t.mem = s.mem)) ∧
    (has → sorted → one → calm → x.limited = true → ¬ acked → x.start + lim ≤ s.clock → c.loc = .stopped d f ci →
      covers (s.featOf d) (c.csr.declfeat.extractLsb' 0 8) = true →
      ∃ t, Sys2Proof.Machine.exec (.collectlimExpiry ci) s = .next t ∧ t.colls.get? ci = none ∧ t.ctx k = { c with loc := .on d f } ∧ t.mem = s.mem) ∧
    (has → x.limited = false ∨ s.clock < x.start + lim → Sys2Proof.Machine.exec (.collectlimExpiry ci) s = .next s) ∧
    (has → sorted → one → calm → acked → x.discard = false → x.space.get? k = some (d, f, n) → c.nest.gang = none →
      k < groomKey → c.retiring = false → c.bound.all (fun b => covers (s.featOf b) (c.csr.declfeat.extractLsb' 0 8)) = true →
      ∃ t, Sys2Proof.Machine.exec (.saveImageComplete ci) s = .next t ∧ t.colls.get? ci = none ∧ Claims.Waits t k ∧
        (t.saves.get? k).map (fun e => (e.1, e.2.1)) = some (d, f) ∧
        (t.ctx k).f = c.f ∧ (t.ctx k).pc = c.pc ∧ (t.ctx k).bays = [] ∧ (t.ctx k).since = s.clock ∧ t.regs = s.regs) ∧
    (has → one → ¬ acked → Sys2Proof.Machine.exec (.saveImageComplete ci) s = .next s) ∧
    (has → sorted → one → calm → acked → x.discard = true → c.nest.gang = none → rising (s.ctxs.map (fun e => e.1)) = true → s.hitches = [] →
      (∀ e ∈ s.ctxs, e.2.stash = []) → s.slices.getD (stallPaddock c.stall) [] = [] →
      ∃ t, Sys2Proof.Machine.exec (.saveImageComplete ci) s = .next t ∧ t.ctxs.get? k = none ∧ t.colls.get? ci = none ∧ t.mem = s.mem) ∧
    (s.launches.get? li = some l → l.stopping = true → (∀ e ∈ s.ctxs, e.1 < groomKey → e.2.launch ≠ li) → s.unsettled devKey = false →
      (l.fault = false → bankRodata l.bank = 0 → Claims.PlainBank s l.kind l.die l.bank → l.total = bankRiders l.kind l.bank → l.exact = [] →
        ∃ t, Sys2Proof.Machine.exec (.restartableReexecution li) s = .next t ∧
          (t.launches.get? li).map (fun y => (y.stopping, y.reexec, y.created, y.fault)) = some (false, true, l.total, l.fault) ∧
          ∀ i < l.total, (t.ctxs.get? (riderKey l.die i)).map (fun y => (y.launch, y.index)) = some (li, i)) ∧
      (l.fault = true ∨ (bankBound l.kind l.bank = false ∧ bankRodata l.bank ≠ 0 ∧ l.scan.1 = 0 ∧ (l.aspace = false ∨
          (l.scan.2 < 8 ∧ s.checkPiece l (bankRodata l.bank + l.scan.2) (8 - l.scan.2) = .bad))) →
        ∃ t, Sys2Proof.Machine.exec (.restartableReexecution li) s = .next t ∧
          t.launches.get? li = some { l with stopping := false, reexec := true, created := l.total, fault := true, input := [] } ∧
          t.ctxs = s.ctxs ∧ t.mem = s.mem) ∧
      (l.fault = false → bankBound l.kind l.bank = false → bankRodata l.bank ≠ 0 → l.aspace = true → l.scan.1 = 0 → l.scan.2 < 8 →
        s.checkPiece l (bankRodata l.bank + l.scan.2) (8 - l.scan.2) = .sound n → ∃ t, Sys2Proof.Machine.exec (.restartableReexecution li) s = .next t ∧
          t.launches.get? li = some { l with scan := (0, l.scan.2 + n) } ∧ t.ctxs = s.ctxs ∧ t.mem = s.mem)) ∧
    (s.launches.get? li = some l → l.stopping = true → s.unsettled devKey = true ∨ (∃ e ∈ s.ctxs, e.1 < groomKey ∧ e.2.launch = li) →
      Sys2Proof.Machine.exec (.restartableReexecution li) s = .next s) ∧
    (s.launches.get? li = some l → l.stopping = false → Sys2Proof.Machine.exec (.restartableReexecution li) s = .next s)

/-- Pre-emption and the collector: the statements above together. -/
def Obligations.PreemptionAndCollections : Prop :=
  Claims.Preemption ∧ Claims.Collections

/-- R111, R116, R156 to R158, R165: the ends. A tile whose GCHECK discarded falls back once; a drained stall whose row has a spare is held for its move, and
the end of the copy retires its position for good; a rider that has nothing left to do gives up its record, and its launch takes its wear or
its fault. -/
def Obligations.RidersAndStallsLeave : Prop :=
  ∀ (s : State) (k li tile st row : Nat) (l : Launch) (mv : Move),
    let c := s.ctx k
    let map := s.reg (.colmap row)
    let old := bits map 33 0
    let spares := fun (r : Nat) => 2 - (List.range 34).countP (fun i => r.testBit i)
    let user := s.ctxs.get? k = some c ∧ k < groomKey
    let clean := s.recordWait = [] ∧ s.reinWait = [] ∧ rising (s.ctxs.map (fun e => e.1)) = true
    let rest := c.land = [] ∧ c.stash = [] ∧ c.guardMax = 0 ∧ c.resident = false
    (s.tileRider li tile = some (k, c) → c.gchecked = some false → s.launches.get? li = some l → l.kind = .surrogate → tile < l.total → tile ∉ l.fell →
      ∃ t, Sys2Proof.Machine.exec (.surrogateFallback li tile) s = .next t ∧ (t.launches.get? li).map (fun y => y.fell.contains tile) = some true ∧
        t.mem = s.mem) ∧
    (s.tileRider li tile = some (k, c) → c.gchecked = some true ∨ (c.gchecked = none ∧ c.retiring = false) →
      Sys2Proof.Machine.exec (.surrogateFallback li tile) s = .next s) ∧
    (st < 4096 → s.stallState st = 2 → ∀ pos, s.physOf st = some pos → s.moves.get? (stallDieRow st) = none →
      0 < sparesOf (bits (s.reg (.colmap (stallDieRow st))) 33 0) → s.ctxs = [] →
      ∃ t, Sys2Proof.Machine.exec (.maintenanceMove st) s = .next t ∧ t.moves.get? (stallDieRow st) = some { col := stallCol st % 32, pos := pos } ∧
        t.mem = s.mem ∧ t.regs = s.regs) ∧
    (s.stallState st ≠ 2 ∨ (s.moves.get? (stallDieRow st)).isSome = true → Sys2Proof.Machine.exec (.maintenanceMove st) s = .next s) ∧
    (row < 128 → s.moves.get? row = some mv → mv.copying = true → mv.since + 3145728 ≤ s.clock → mv.pos < 34 →
      rising (s.moves.map (fun e => e.1)) = true →
      ∃ t, Sys2Proof.Machine.exec (.moveCopyComplete row) s = .next t ∧ bits (t.reg (.colmap row)) 33 0 = Nat.lor old (2 ^ mv.pos) ∧
        bits (t.reg (.colmap row)) 35 34 = spares (Nat.lor old (2 ^ mv.pos)) ∧ t.moves.get? row = none ∧
        t.nv.retired.get? row = some (Nat.lor old (2 ^ mv.pos)) ∧ t.homeWait = [] ∧ (k < dramBytes → t.mem.get k = s.mem.get k)) ∧
    (s.moves.get? row = some mv → mv.copying = false ∨ s.clock < mv.since + 3145728 → Sys2Proof.Machine.exec (.moveCopyComplete row) s = .next s) ∧
    (user → clean → rest → s.mayFree k = true → s.unsettled k = false → s.launches.get? c.launch = some l →
      (c.failed = none → ∃ t, Sys2Proof.Machine.exec (.riderContextFree k) s = .next t ∧ t.ctxs.get? k = none ∧ t.mem = s.mem ∧
        t.launches.get? c.launch = some { l with wear := l.wear + c.csr.wearcnt.toNat }) ∧
      (c.failed ≠ none → l.kind = .kernel → l.restart = false → ∃ t, Sys2Proof.Machine.exec (.riderContextFree k) s = .next t ∧ t.ctxs.get? k = none ∧
        t.mem = s.mem ∧ t.launches.get? c.launch = some { l with wear := l.wear + c.csr.wearcnt.toNat, fault := true })) ∧
    (user → rest → s.mayFree k = true → s.unsettled k = true → ∃ t, Sys2Proof.Machine.exec (.riderContextFree k) s = .next t ∧
      t.ctxs.get? k = some c ∧ t.mem = s.mem ∧ t.launches = s.launches) ∧
    (c.retiring = false ∨ groomKey ≤ k → Sys2Proof.Machine.exec (.riderContextFree k) s = .next s)

/-! ## The steps that come from outside complete -/

/-- Each step that a monitor, a link, a port, the domain, a checkpoint, a queue or an SPDM request brings completes, with its own effect, in every state
and for every operand that meets the rule's conditions: it answers a next state that holds what the rule says (R35, R38, R42, R45 to R47,
R50, R53, R54, R58 to R61, R80, R97, R98, R134 to R136). -/
def Obligations.StepsFromOutsideComplete : Prop :=
  ∀ (s : State) (m : Master) (v : DWord) (n fa fb em : Nat) (code : BitVec 12) (f : Frame) (o : Outstanding) (x : XCmd) (d : BitVec 6)
    (flit : BitVec 1152) (seq : Byte) (up : Bool) (nonce : BitVec 256) (offered : List Word) (key digest : List Byte) (u : Session),
    let off := f.addr.toNat % 2 ^ 39
    let st := s.streams.getD (streamKey d.toNat 0) {}
    let domain := s.reg .domcfg
    let stat := fun (t : State) => bits (t.reg .ckptstat) 2 0
    let busy := stat s = 1 ∨ stat s = 2
    let tier := bits (s.reg .ckptdst) 44 39
    let link := fun (t : State) => bits (t.reg (.xlink n)) 1 0
    let k := s.conns.getD n {}
    let ready := k.version = true ∧ k.caps = true ∧ k.algs = true
    let present := s.nv.lcs = 1 ∨ s.nv.lcs = 2
    let answers := fun (t : State) (c : Byte) => ∃ data, t.out = s.out ++ [.spdm n c data]
    -- sensors, shadow latches and the wear monitor
    (n < 1536 → ∃ t, Sys2Proof.Machine.exec (.tempConversion n code) s = .next t ∧ bits (t.reg (.tsense n)) 11 0 = code.toNat ∧
      bit (t.reg (.tsense n)) 16 = true) ∧
    (n < 128 → (∀ i < 1536, bits (s.reg (.tsense i)) 11 0 < 1208) → bit (s.reg (.tsense ((n / 32 * 64 + n % 32 / 4 * 8) * 6))) 16 = true →
      ∃ t, Sys2Proof.Machine.exec (.thermalControlTick n) s = .next t ∧ t.powered = s.powered ∧
        bits (t.reg (.rowpwr n)) 14 8 = Nat.min 64 (bits (s.reg (.rowpwr n)) 14 8 + 1)) ∧
    (n < 4096 → ∀ p, s.physStall n = some p →
      (∃ t, Sys2Proof.Machine.exec (.shadowLatchDetect n .s 0 false) s = .next t ∧ bit (t.reg (.shadowcnt p)) 24 = true ∧
        bits (t.reg (.shadowcnt p)) 23 0 = Nat.min 0xFFFFFF (bits (s.reg (.shadowcnt p)) 23 0 + 1)) ∧
      (Owns s m → s.shadowNow = [] → ∃ t, Sys2Proof.Machine.exec (.shadowcntClear m n) s = .next t ∧ t.reg (.shadowcnt p) = 0)) ∧
    (n < 4352 → s.serves n = true → bit (s.reg (.colmap (n / 34))) (n % 34) = false → bits (s.reg (.stallwear n)) 33 32 < 3 →
      ∃ t, Sys2Proof.Machine.exec (.wearSample n fa fb em) s = .next t ∧ bits (s.reg (.stallwear n)) 15 0 ≤ bits (t.reg (.stallwear n)) 15 0) ∧
    (n < 4352 → (∃ t, Sys2Proof.Machine.exec .threshUpdate s = .next t ∧ bits (t.reg (.stallwear n)) 31 16 =
        Nat.min 65535 (65535 * (s.nv.hours + s.clock / 2520000000000) / 61320 + 2048)) ∧
      (∃ t, Sys2Proof.Machine.exec .lifeRecordWrite s = .next t ∧ t.nv.state.getD n 0 = s.physState n)) ∧
    -- frames of other modules
    (Claims.InTurn s n f →
      (f.type = 0 → f.cls = 0 → f.len.toNat ≤ 4096 → s.homeHeld off = false → off + f.len.toNat ≤ dramBytes → s.mem.poisoned off f.len.toNat = false →
        ∃ t, Sys2Proof.Machine.exec (.read n f) s = .next t ∧ (Claims.lastFrame t).map (fun g => g.data) = some (s.mem.read off f.len.toNat)) ∧
      (f.type = 2 → s.homeHeld off = false → off + f.data.length ≤ dramBytes → off < dramBytes → ¬ busy →
        ∃ t, Sys2Proof.Machine.exec (.write n f) s = .next t ∧ t.mem.read off f.data.length = f.data) ∧
      (f.type = 4 → s.homeHeld off = false → f.attr.toNat / 64 % 16 = 0 → off + f.data.length ≤ dramBytes → off < dramBytes → ¬ busy →
        s.mem.poisoned off f.data.length = false → f.data.length = 4 ∨ f.data.length = 8 →
        ∃ t, Sys2Proof.Machine.exec (.atomic n f) s = .next t ∧ (Claims.lastFrame t).map (fun g => g.data) = some (s.mem.read off f.data.length)) ∧
      (s.ctxs.get? o.key = some (s.ctx o.key) →
        (f.type = 1 → s.answered f .read = some o → o.kind = .read →
          ∃ t, Sys2Proof.Machine.exec (.rdata n f) s = .next t ∧ t.outstanding = s.outstanding.erase o) ∧
        (f.type = 3 → s.answered f .write = some o → o.kind = .write →
          ∃ t, Sys2Proof.Machine.exec (.wdone n f) s = .next t ∧ t.outstanding = s.outstanding.erase o) ∧
        (f.type = 5 → s.answered f .atomic = some o → o.kind = .atomic → x ∈ (s.ctx o.key).xq → x.tok = o.tok →
          ∃ t, Sys2Proof.Machine.exec (.atomrsp n f) s = .next t ∧ t.outstanding = s.outstanding.erase o)) ∧
      (f.type = 8 → ¬ busy → bits f.addr 44 39 = s.myMod → s.homeHeld off = false → off + f.data.length ≤ dramBytes → off / 4096 % 16 ≠ 15 →
        ∃ t, Sys2Proof.Machine.exec (.ckdata n f) s = .next t ∧ t.mem.read off f.data.length = f.data) ∧
      (busy → s.ckpt.restore = false → f.src.toNat = tier →
        let page := (off + 2 ^ 39 - bits (s.reg .ckptdst) 38 0) % 2 ^ 39 / 65536
        (f.type = 9 → ∃ t, Sys2Proof.Machine.exec (.ckack n f) s = .next t ∧ t.ckpt.pending = s.ckpt.pending.erase page) ∧
        (f.type = 7 → page ∈ s.ckpt.pending → s.ckpt.tries.getD page 0 < 2 →
          ∃ t, Sys2Proof.Machine.exec (.nak n f) s = .next t ∧ t.ckpt.todo = page :: s.ckpt.todo))) ∧
    (Claims.LetIn s n f → f.type = 6 → ∃ t, Sys2Proof.Machine.exec (.ack n f) s = .next t ∧
      (Claims.inStream t f).unacked = (Claims.inStream s f).unacked.filter (fun g => 2 ^ 31 ≤ (f.ackn - g.seq - 1).toNat)) ∧
    (s.streams.get? (streamKey d.toNat 0) = some st → st.unacked ≠ [] → st.sentAt + 2100 ≤ s.clock → 4 ≤ st.tries →
      ∃ t, Sys2Proof.Machine.exec (.retransmitTimeout d 0) s = .next t ∧ bit (t.reg .domreach) d.toNat = false) ∧
    -- the domain and checkpoints
    (Owns s m → bit domain 6 = false → ∃ t, Sys2Proof.Machine.exec (.domcfgWrite m v) s = .next t ∧ bits (t.reg .domcfg) 6 0 = bits v 6 0) ∧
    (Owns s m → ¬ busy → bit (s.reg .dispctl) 1 = true → (∀ c ∈ s.ctxs, c.1 < groomKey → c.2.resident = false) → bits (s.reg .ckptdst) 15 0 = 0 →
      bit domain 6 = true → (tier = bits domain 5 0 ∨ bit (s.reg .domreach) tier = true) →
      (∃ i < 16, bit v (16 + i) = true ∧ bit (s.reg (.soport i)) 0 = true) →
      (∃ t, Sys2Proof.Machine.exec (.checkpointSave m v) s = .next t ∧ stat t = 1 ∧ t.ckpt = { restore := false }) ∧
      (∃ t, Sys2Proof.Machine.exec (.checkpointRestore m v) s = .next t ∧ stat t = 1 ∧ t.ckpt = { restore := true })) ∧
    -- UCIe modules and ports
    ((s.linkDir n).discarding = false → (crc32 (leBytes 140 flit.toNat)).toNat = flit.toNat / 2 ^ 1120 → flit.toNat / 2 ^ 1080 % 2 = 0 →
      ∃ t, Sys2Proof.Machine.exec (.traceFlitReceive n flit) s = .next t ∧ t.out = s.out ++ [.linkCredit n]) ∧
    (n < 384 → ∃ t, Sys2Proof.Machine.exec (.creditReturn n) s = .next t ∧ (t.linkDir n).credits = Nat.min 16 ((s.linkDir n).credits + 1)) ∧
    (n < 384 → link s = 1 → (s.linkDir n).nakRun ≠ 3 → ∃ t, Sys2Proof.Machine.exec (.linkNak n seq) s = .next t ∧
      bits (t.reg (.xlink n)) 23 8 = Nat.min 0xFFFF (bits (s.reg (.xlink n)) 23 8 + 1)) ∧
    (n < 384 → link s = 2 → ∃ t, Sys2Proof.Machine.exec (.retrainComplete n true) s = .next t ∧ link t = 1) ∧
    (Owns s m → (∃ t, Sys2Proof.Machine.exec (.xlinkClear m n) s = .next t ∧ bits (t.reg (.xlink n)) 23 8 = 0) ∧
      (∃ t, Sys2Proof.Machine.exec (.soportClear m n) s = .next t ∧ bits (t.reg (.soport n)) 23 8 = 0)) ∧
    (n < 16 → s.portUp n ≠ up → (up = true → bit (s.reg (.soport n)) 1 = true) →
      ∃ t, Sys2Proof.Machine.exec (.portLinkChange n up) s = .next t ∧ t.portUp n = up) ∧
    -- the chaining engine at a NOP of a ring in DRAM
    (let ctl := s.reg (.qctl n)
     let start := bits (s.reg (.feq n)) 63 32
     let addr := bits (s.reg (.qbase n)) 63 12 * 4096 + 16 * (start % 2 ^ bits ctl 6 2)
     let w := fieldOf (s.mem.read addr 16) 3 0
     n < 256 → Claims.MayStart s n → (s.engines.getD n {}).stack = [] → start ≠ bits (s.reg (.feq n)) 31 0 → bit ctl 1 = true →
      s.feHeld true addr 16 = false → addr + 16 ≤ dramBytes → s.mem.poisoned addr 16 = false → w % 256 = 0 → w / 2 ^ 8 % 256 = n → w < 2 ^ 17 →
      ∃ t, Sys2Proof.Machine.exec (.packetStart n) s = .next t ∧ bits (t.reg (.feq n)) 63 32 = (start + 1) % 2 ^ 32 ∧
        t.agenda = s.agenda ++ [.commandNop s.ids]) ∧
    -- SPDM requests
    (∃ t, Sys2Proof.Machine.exec (.getVersion n) s = .next t ∧ answers t 0x04) ∧
    (k.version = true → ∃ t, Sys2Proof.Machine.exec (.getCapabilities n) s = .next t ∧ answers t 0x61) ∧
    (k.version = true → k.caps = true → Nat.land 0x200 (offered.getD 0 0).toNat ≠ 0 → Nat.land 0x2 (offered.getD 1 0).toNat ≠ 0 →
      ∃ t, Sys2Proof.Machine.exec (.negotiateAlgorithms n offered) s = .next t ∧ answers t 0x63) ∧
    (ready →
      (∃ t, Sys2Proof.Machine.exec (.getDigests n) s = .next t ∧ answers t 0x01) ∧
      (∃ t, Sys2Proof.Machine.exec (.getMeasurements n 0 false nonce) s = .next t ∧ answers t 0x60)) ∧
    (ready → present →
      (∃ t, Sys2Proof.Machine.exec (.getCertificate n 0 0 4096) s = .next t ∧ answers t 0x02) ∧
      (∃ t, Sys2Proof.Machine.exec (.challenge n 0 nonce) s = .next t ∧ answers t 0x03) ∧
      (s.sessions.get? 0 = none → ∃ t, Sys2Proof.Machine.exec (.keyExchange n 0 key) s = .next t ∧ answers t 0x64) ∧
      (k.signed = some digest → digest.length = 48 →
        ∃ t, Sys2Proof.Machine.exec (.vendorDefinedRequest n 5 0x00059E41 (1 :: digest)) s = .next t ∧ answers t 0x7E)) ∧
    (s.sessions.get? 0 = some u → u.conn = n → rising (s.sessions.map (fun e => e.1)) = true →
      (u.established = false → ∃ t, Sys2Proof.Machine.exec (.finish n 0 (secretBytes 3 48 (u.secret ++ hash384 k.transcript))) s = .next t ∧
        answers t 0x65) ∧
      (u.established = true → (∃ t, Sys2Proof.Machine.exec (.heartbeat n 0) s = .next t ∧ answers t 0x68) ∧
        (∃ t, Sys2Proof.Machine.exec (.keyUpdate n 0 1) s = .next t ∧ answers t 0x69) ∧
        (∃ t, Sys2Proof.Machine.exec (.endSession n 0) s = .next t ∧ answers t 0x6C)))

/-! ## The machine as a whole -/

/-- Every instruction has a meaning that goes on in every state; a step stops in one case alone, when power is absent (R35). -/
def Obligations.EveryStepAnswers : Prop :=
  (∀ (i : Instr) (s : State), ∃ t, Sys2Proof.Machine.exec i s = .next t) ∧
  (∀ s : State, s.alive = true → ∃ t, step s = .next t) ∧
  (∀ s : State, s.alive = false → step s = .fault .powerLost)

/-- The bytes listed keep their one canonical form in every step, from every state (log entry 4). -/
def Obligations.MemoryKeepsItsForm : Prop :=
  ∀ s t : State, s.mem.wf = true → step s = .next t → t.mem.wf = true

/-- R11, R30, R33, R49, R58, R91, R123, R144, R162, R182: what reset leaves, in the values that the spec gives: memories that hold zero with
every full bit 0, stage 0, the Reset columns of the registers, and the files and registers of a new rider. -/
def Obligations.ResetState : Prop :=
  let s := State.reset
  s.powered = true ∧ s.mem.bytes = [] ∧ s.mem.full = [] ∧ s.mem.poison = [] ∧ s.mem.wf = true ∧ s.ctxs = [] ∧ s.stage = 0 ∧
  s.ownerValid = false ∧ s.reg .inten = 0 ∧ s.reg .intcause = 0 ∧
  bits (s.reg .pwrctl) 11 0 = 2800 ∧ bits (s.reg .pwrctl) 38 32 = 64 ∧ bit (s.reg .pwrctl) 39 = false ∧ s.reg .soetype = 0x88B5 ∧
  bits (s.reg .ckptctl) 31 16 = 0xFF ∧ s.reg .domcfg = 0 ∧
  bits (s.reg .dispctl) 15 8 = 1 ∧ bits (s.reg .dispctl) 23 16 = 20 ∧ bits (s.reg .dispctl) 47 32 = 20 ∧ bits (s.reg .dispctl) 1 0 = 0 ∧
  (∀ r < 128, bits (s.reg (.rowpwr r)) 6 0 = 64 ∧ bits (s.reg (.rowpwr r)) 14 8 = 64 ∧ bits (s.reg (.rowpwr r)) 22 16 = 64 ∧
    bit (s.reg (.rowpwr r)) 23 = false) ∧
  (∀ st < 4096, bits (s.reg (.groomshare st)) 4 0 = 4 ∧ bits (s.reg (.groomshare st)) 12 5 = 4) ∧
  (∀ d < 4, bits (s.reg (.festat d)) 55 32 = 10000 ∧ bits (s.reg (.festat d)) 31 0 = 0) ∧
  (∀ q < 256, bit (s.reg (.qctl q)) 0 = false) ∧
  (∀ r : RIdx, Ctx.reset.sreg r = ⟨0, 0⟩ ∧ Ctx.reset.areg r = ⟨0, 0⟩ ∧ Ctx.reset.nreg r = ⟨0, 0⟩) ∧
  (∀ j : JIdx, Ctx.reset.jreg j = 0) ∧
  (∀ p : PIdx, Ctx.reset.preg p = ⟨decide (p = 0), 0⟩) ∧
  (∀ k : KIdx, Ctx.reset.kreg k = ⟨if k = 0 then BitVec.allOnes 256 else 0, 0⟩) ∧
  (∀ off, Ctx.reset.vreg off = ⟨zeroV, 0⟩) ∧ Ctx.reset.loops = [] ∧ Ctx.reset.links = [] ∧ Ctx.reset.land = [] ∧ Ctx.reset.chans = [] ∧
  bits Ctx.reset.csr.waitlim 23 0 = 0x100000 ∧ bits Ctx.reset.csr.baymap 7 0 = 0

/-- The first step that is due is the step that runs: a step from outside runs its meaning, with what is due after it left due
(log entry 1). Of OWNREQ writes that arrive together, that of the lowest master goes first (R72). -/
def Obligations.StepRunsWhatIsDue : Prop :=
  (∀ (s : State) (i : Instr) (t : List Due), s.powered = true → s.agenda = .ext i :: t →
    (ownreqMaster (.ext i) = none ∨ ∀ e ∈ t, ownreqMaster e = none) →
      step s = Sys2Proof.Machine.exec i { s with agenda := t }) ∧
  (∀ (s : State) (m n : Master) (rest : List Due), s.powered = true → masterNum n < masterNum m →
    (∀ e ∈ rest, ownreqMaster e = none) → s.agenda = .ext (.claim m) :: .ext (.claim n) :: rest →
      step s = Sys2Proof.Machine.exec (.claim n) { s with agenda := .ext (.claim m) :: rest }) ∧
  (∀ s : State, s.powered = true → s.agenda = [] → s.nextStall s.turn = none → step s = .next s.advance)

/-- A slot that a group of one word takes: stall st, whose contexts have been tried to the state b with the user contexts that are ready, and
context k, whose packet is fetched to the state s, and whose group is the word w followed by x, at index idx, with its sequential successor at
index succ; no containment region ends before it (R172, R175, R304, R314 to R316). -/
structure Sys2Proof.Claims.OneWord (a b s : State) (users : List Nat) (st k idx succ : Nat) (w x : Word) : Prop where
  power : a.powered = true
  idle : a.agenda = []
  turn : a.nextStall a.turn = some st
  next : ({ a with turn := st + 1 } : State).contend st = (b, users, some k)
  fetched : ∃ ws, fetchNext k (b.ctx k) b = (.ok (ws, false), s) ∧
    formGroup ws (s.ctx k).pc = { words := [(idx, w, x)], succ := succ, bad := none }
  calm : ((({ s.modCtx k Ctx.unhold with cur := k } : State).tick k).2 &&
    ((({ s.modCtx k Ctx.unhold with cur := k } : State).tick k).1.ctx k).contain) = false

/-- The state in which a group's words run: its landings have landed (R175). -/
def Sys2Proof.Claims.landed (s : State) (k : Nat) : State := (({ s.modCtx k Ctx.unhold with cur := k } : State).tick k).1

/-- The place of a group of one word: its address, its sequential successor, and what its word may know of it (R290, R314). -/
def Sys2Proof.Claims.groupAt (s : State) (k succ : Nat) (w : Word) : Pos :=
  let c := (Claims.landed s k).ctx k
  { addr := (s.ctx k).pc, group := (s.ctx k).pc, succ := packetOf (s.ctx k).pc + BitVec.ofNat 64 (4 * succ), forced := c.forced,
    withX := pipeOf w == 3 && (c.preg (wordGuard w)).val, limit := bits c.csr.waitlim 23 0 }

/-- The state in which the one word of a group runs: at its place, with its literal beside it. -/
def Sys2Proof.Claims.wordAt (s : State) (k idx succ : Nat) (w x : Word) : State :=
  { Claims.landed s k with
    pos := { Claims.groupAt s k succ w with addr := packetOf (s.ctx k).pc + BitVec.ofNat 64 (4 * idx), idx := BitVec.ofNat 2 idx, word := w, lit := x },
    raised := none, pendPush := none }

/-- What a group of one word leaves beside the effect of its word: its count and wear units, and the stall's turn (R124, R139, R191). -/
def Sys2Proof.Claims.issuedGroup (s : State) (users : List Nat) (st k : Nat) (w : Word) (r : State) : State :=
  let c := (Claims.landed s k).ctx k
  (r.modCtx k (fun d => d.issued (if isGroom k then 0 else wordWeight w * (Claims.landed s k).wearFactor c.stall)
    ((pipeOf w == 0 && w.extractLsb' 24 4 != 0) || c.loops.isEmpty || decide (c.waits.length < (r.ctx k).waits.length)))).tookSlot st k users

/-- A step in which a group of one word issues runs exec of the instruction that its word decodes to, in the state in which the landings of
that group have landed. Around it the step adds: the V result that waited for room, the next address (SEQ for a word of another pipe or a
squashed S word, the selector of an S word), the group's count and wear units, and the stall's turn. A cause it raises is taken at the
group, and a word that is no instruction raises ILLEGAL_ENCODING (R139, R175, R186, R191, R290, R314 to R316, R322, R323, R331). -/
def Obligations.AGroupRunsItsWord : Prop :=
  ∀ (a b s : State) (users : List Nat) (st k idx succ : Nat) (w x : Word), Claims.OneWord a b s users st k idx succ w x →
    let l := Claims.landed s k
    let c := l.ctx k
    let base := Claims.groupAt s k succ w
    let done := Claims.issuedGroup s users st k w
    (∀ e, decodeWord w x = .error e →
      step a = .next (((l.untick k).takeCause k { code := 1, info := w.setWidth 64, word := BitVec.ofNat 2 idx, pipe := pipeOf w }
        (s.ctx k).pc).tookSlot st k users)) ∧
    (∀ (i : Instr) (u : State), decodeWord w x = .ok i → (isDivide i = true → c.land.any (fun e => e.divide) = false) →
      (c.loops = [] ∨ c.groups < 1024) → Sys2Proof.Machine.exec i (Claims.wordAt s k idx succ w x) = .next u →
      let live := isSel i || (u.me.preg (wordGuard w)).val
      let at' := { base with idx := BitVec.ofNat 2 idx, word := w, lit := x }
      let nx := (w.extractLsb' 24 4).toNat
      -- a word of the V or the X pipe, a word of the M pipe
      (pipeOf w = 1 ∨ pipeOf w = 3 → u.raised = none → ∀ v r, servePush u = .ok v → execSeq v = .next r → r.raised = none →
        step a = .next (done r)) ∧
      (pipeOf w = 2 → u.raised = none → ∀ r, execSeq u = .next r → r.raised = none → step a = .next (done r)) ∧
      -- a word of the S pipe that leaves the next address to its selector
      (pipeOf w = 0 → u.raised = none → u.pendPush = none → selfSelects i = false → live = true → ∀ r,
        ((nx = 0 → execSeq { u with pos := at' } = .next r) ∧ (nx = 1 → execLoop { u with pos := at' } = .next r) ∧
         (nx = 2 → execBrk { u with pos := at' } = .next r) ∧ (nx = 3 → execRet { u with pos := at' } = .next r) ∧
         (nx / 4 = 1 → execJmp (w.extractLsb' 24 2) { u with pos := at' } = .next r) ∧
         (nx / 4 = 2 → execCall (w.extractLsb' 24 2) { u with pos := at' } = .next r) ∧
         (nx = 12 → execYield { u with pos := at' } = .next r) ∧ (nx = 13 → execWaitbrk { u with pos := at' } = .next r) ∧
         (nx = 14 → execStop { u with pos := at' } = .next r)) → r.raised = none → step a = .next (done r)) ∧
      -- a squashed word of the S pipe goes on at its successor
      (pipeOf w = 0 → u.raised = none → u.pendPush = none → live = false → nx ≠ 14 → ∀ r,
        execSeq { u with pos := base } = .next r → r.raised = none → step a = .next (done r)) ∧
      -- a word that sets the PC itself, and takes effect
      (pipeOf w = 0 → u.raised = none → u.pendPush = none → selfSelects i = true → live = true → step a = .next (done u)) ∧
      -- a word that raises a cause, where the next address raises none: the group takes no effect, and the cause is taken at it
      (∀ e, u.raised = some (.cause e) → pipeOf w ≠ 0 →
        (∀ r, execSeq { l with pos := base, raised := none } = .next r → r.raised = none) →
        step a = .next (((({ l with pos := base } : State).untick k).takeCause k e (s.ctx k).pc).tookSlot st k users)))

/-- R316, R331, R339, R375, R404, R439, R470: words that the spec writes out decode to the instructions it names; a reserved
opcode and a reserved selector name none. -/
def Obligations.DecodesAsTheSpecWrites : Prop :=
  decodeWord 0x0002A485 0 = .ok (.divu ⟨.stop, .seq, 0⟩ 9 4 5) ∧
  decodeWord 0x007208FC 0 = .ok (.cmplti ⟨.stop, .seq, 3⟩ 2 7 (.field 28)) ∧
  decodeWord 0x00129306 0 = .ok (.plog ⟨.stop, .seq, 0⟩ .andn 4 0 6) ∧
  decodeWord 0xC01A0400 0x000186A0 = .ok (.hbar ⟨.stop, .seq, 0⟩ 1 (.lit 0x186A0)) ∧
  decodeWord 0x10003042 0 = .ok (.vadd ⟨.stop, 0⟩ (.win 3) (.win 1) (.win 2)) ∧
  decodeWord 0x540C3074 0 = .ok (.vfma ⟨.link, 2⟩ 3 (.win 1) (.peek 4)) ∧
  decodeWord 0x10D83060 0 = .ok (.cvte4m3 ⟨.stop, 0⟩ (.win 3) (.win 1) ⟨.fp32, 2⟩) ∧
  decodeWord 0x20019C00 0 = .ok (.nfroms ⟨.stop, 0⟩ 3 7) ∧
  decodeWord 0x20B04802 0 = .ok (.wfetch ⟨.stop, 0⟩ 18 2) ∧
  decodeWord 0x3018A1C0 0 = .ok (.ldd ⟨.stop, 0⟩ (.reg 5) 3 ⟨.rlx, none, none⟩) ∧
  decodeWord 0x3038629A 0 = .ok (.std ⟨.stop, 0⟩ 3 (.reg 5) ⟨.rel, some .module, none⟩) ∧
  decodeWord 0xF1402184 0x004E2019 = .ok (.flgwait ⟨.stop, 0⟩ 1 3 4 ⟨.acq, some .module, .eq, 5000⟩) ∧
  decodeWord 0x3120001A 0 = .ok (.fence ⟨.stop, 0⟩ .rel .module) ∧
  decodeWord 0x001E8000 0 = .error .reservedOpcode ∧ decodeWord 0x0F000000 0 = .error .badSelector

/-- R315 to R330: every well-formed instruction that has an encoding is read back from it, with every operand at every value, whatever word
stands after a word without a literal. -/
def Obligations.EncodingsRoundTrip : Prop :=
  ∀ (i : Instr) (p : Packed) (lit : Option Word) (next : Word), i.wf = true → encodeFields i = some (p, lit) →
    decodeWord (p.pack lit.isSome) (lit.getD next) = .ok i

/-- R315 to R330: a word that decodes has one meaning: its instruction is well formed, and its fields are the word's, with the next word as
its literal when CH is LIT. -/
def Obligations.EveryWordHasOneMeaning : Prop :=
  ∀ (w next : Word) (i : Instr), decodeWord w next = .ok i →
    i.wf = true ∧ ∃ p lit, encodeFields i = some (p, lit) ∧ p.pack lit.isSome = w ∧ (lit = if w.extractLsb' 30 2 = 3 then some next else none)
end

