-- ==== Sys2Proof/Laws/Maps.lean ====
section
/-! SUPPORT. Laws/Maps.lean: what a map and a set of numbers answer after each operation on them, and that they stay in
rising order. -/

namespace Sys2Proof.Machine

variable {α : Type}

@[simp] theorem SMap.get?_nil (i : Nat) : SMap.get? ([] : SMap α) i = none := rfl

@[simp] theorem SMap.get?_put_same (m : SMap α) (i : Nat) (x : α) : (SMap.put m i x).get? i = some x := by
  induction m with
  | nil => simp [SMap.put, SMap.get?]
  | cons h t ih =>
    obtain ⟨k, v⟩ := h
    simp only [SMap.put]
    split
    · simp [SMap.get?]
    · split
      · simp [SMap.get?]
      · simp only [SMap.get?]
        split
        · omega
        · exact ih

theorem SMap.get?_put_ne (m : SMap α) (i j : Nat) (x : α) (h : i ≠ j) : (SMap.put m i x).get? j = m.get? j := by
  induction m with
  | nil => simp [SMap.put, SMap.get?, h]
  | cons a t ih =>
    obtain ⟨k, v⟩ := a
    simp only [SMap.put]
    split
    · simp [SMap.get?, h]
    · split
      · subst_vars
        simp [SMap.get?, h]
      · simp only [SMap.get?]
        split
        · rfl
        · exact ih

theorem SMap.get?_put (m : SMap α) (i j : Nat) (x : α) :
    (SMap.put m i x).get? j = if i = j then some x else m.get? j := by
  split
  · subst_vars; exact SMap.get?_put_same m _ x
  · exact SMap.get?_put_ne m i j x ‹_›

theorem SMap.get?_del_ne (m : SMap α) (i j : Nat) (h : i ≠ j) : (SMap.del m i).get? j = m.get? j := by
  induction m with
  | nil => rfl
  | cons a t ih =>
    obtain ⟨k, v⟩ := a
    simp only [SMap.del]
    split
    · subst_vars
      simp [SMap.get?, h]
    · simp only [SMap.get?]
      split
      · rfl
      · exact ih

@[simp] theorem SMap.put_put (m : SMap α) (i : Nat) (x y : α) : SMap.put (SMap.put m i x) i y = SMap.put m i y := by
  induction m with
  | nil => simp [SMap.put]
  | cons a t ih =>
    obtain ⟨k, v⟩ := a
    simp only [SMap.put]
    split
    · simp [SMap.put]
    · split
      · subst_vars; simp [SMap.put]
      · simp only [SMap.put, *, if_false]

@[simp] theorem SMap.getD_put_same (m : SMap α) (i : Nat) (x d : α) : (SMap.put m i x).getD i d = x := by
  simp [SMap.getD]

theorem SMap.getD_put_ne (m : SMap α) (i j : Nat) (x d : α) (h : i ≠ j) : (SMap.put m i x).getD j d = m.getD j d := by
  simp [SMap.getD, SMap.get?_put_ne m i j x h]

/-! ## Cells -/

theorem cellsGet_put (l : List Host.Cell) (a b : Nat) (x : Byte) :
    cellsGet (cellsPut l a x) b = if a = b then some x else cellsGet l b := by
  induction l with
  | nil => simp [cellsPut, cellsGet]
  | cons h t ih =>
    obtain ⟨k, v⟩ := h
    simp only [cellsPut]
    split
    · simp [cellsGet]
    · split
      · subst_vars
        simp only [cellsGet]
        split <;> rfl
      · simp only [cellsGet, ih]
        split
        · split
          · omega
          · rfl
        · rfl

theorem cellsGet_del (l : List Host.Cell) (a b : Nat) :
    cellsGet (cellsDel l a) b = if a = b then none else cellsGet l b := by
  induction l with
  | nil => simp [cellsDel, cellsGet]
  | cons h t ih =>
    obtain ⟨k, v⟩ := h
    by_cases hk : k = a
    · subst hk
      have : cellsDel ((k, v) :: t) k = cellsDel t k := by simp [cellsDel]
      rw [this, ih]
      simp only [cellsGet]
      split <;> simp_all
    · have : cellsDel ((k, v) :: t) a = (k, v) :: cellsDel t a := by simp [cellsDel, hk]
      rw [this]
      simp only [cellsGet, ih]
      split
      · split
        · omega
        · rfl
      · rfl

/-! ## Rising order -/

theorem rising_cons (a : Nat) (t : List Nat) : rising (a :: t) = true ↔ (∀ b ∈ t, a < b) ∧ rising t = true := by
  simp [rising, List.all_eq_true]

theorem mem_cellsPut (l : List Host.Cell) (a : Nat) (x : Byte) (c : Host.Cell) (h : c ∈ cellsPut l a x) : c = (a, x) ∨ c ∈ l := by
  induction l with
  | nil => simpa [cellsPut] using h
  | cons hd t ih =>
    obtain ⟨k, v⟩ := hd
    simp only [cellsPut] at h
    split at h
    · simp only [List.mem_cons] at h ⊢
      tauto
    · split at h
      · simp only [List.mem_cons] at h ⊢
        tauto
      · simp only [List.mem_cons] at h ⊢
        rcases h with h | h
        · tauto
        · rcases ih h with h | h <;> tauto

theorem rising_cellsPut (l : List Host.Cell) (a : Nat) (x : Byte) (h : rising (l.map (·.1)) = true) :
    rising ((cellsPut l a x).map (·.1)) = true := by
  induction l with
  | nil => rfl
  | cons hd t ih =>
    obtain ⟨k, v⟩ := hd
    simp only [List.map_cons, rising_cons] at h
    simp only [cellsPut]
    split
    · simp only [List.map_cons, rising_cons, List.mem_cons]
      refine ⟨?_, h⟩
      rintro b (rfl | hb)
      · assumption
      · exact lt_trans ‹_› (h.1 b hb)
    · split
      · subst_vars
        simpa only [List.map_cons, rising_cons] using h
      · simp only [List.map_cons, rising_cons]
        refine ⟨?_, ih h.2⟩
        intro b hb
        obtain ⟨c, hc, rfl⟩ := List.mem_map.1 hb
        rcases mem_cellsPut t a x c hc with rfl | hc
        · simp only; omega
        · exact h.1 _ (List.mem_map_of_mem hc)

theorem rising_filter (l : List Nat) (p : Nat → Bool) (h : rising l = true) : rising (l.filter p) = true := by
  induction l with
  | nil => rfl
  | cons a t ih =>
    rw [rising_cons] at h
    simp only [List.filter]
    split
    · rw [rising_cons]
      exact ⟨fun b hb => h.1 b (List.mem_of_mem_filter hb), ih h.2⟩
    · exact ih h.2

theorem rising_map_filter (l : List Host.Cell) (p : Host.Cell → Bool) (h : rising (l.map (·.1)) = true) :
    rising ((l.filter p).map (·.1)) = true := by
  induction l with
  | nil => rfl
  | cons a t ih =>
    simp only [List.map_cons, rising_cons] at h
    simp only [List.filter]
    split
    · simp only [List.map_cons, rising_cons]
      refine ⟨?_, ih h.2⟩
      intro b hb
      obtain ⟨c, hc, rfl⟩ := List.mem_map.1 hb
      exact h.1 _ (List.mem_map_of_mem (List.mem_of_mem_filter hc))
    · exact ih h.2

theorem mem_setAdd (l : List Nat) (a b : Nat) : b ∈ setAdd l a ↔ b = a ∨ b ∈ l := by
  induction l with
  | nil => simp [setAdd]
  | cons k t ih =>
    simp only [setAdd]
    split
    · simp
    · split
      · subst_vars; simp
      · simp only [List.mem_cons, ih]
        tauto

theorem rising_setAdd (l : List Nat) (a : Nat) (h : rising l = true) : rising (setAdd l a) = true := by
  induction l with
  | nil => rfl
  | cons k t ih =>
    rw [rising_cons] at h
    simp only [setAdd]
    split
    · rw [rising_cons, rising_cons]
      refine ⟨?_, h⟩
      intro b hb
      rcases List.mem_cons.1 hb with rfl | hb
      · assumption
      · exact lt_trans ‹_› (h.1 b hb)
    · split
      · rwa [rising_cons]
      · rw [rising_cons]
        refine ⟨?_, ih h.2⟩
        intro b hb
        rcases (mem_setAdd t a b).1 hb with rfl | hb
        · omega
        · exact h.1 b hb

theorem rising_foldl_setAdd (l : List Nat) : ∀ (r : List Nat), rising r = true → rising (l.foldl setAdd r) = true := by
  induction l with
  | nil => intro r h; exact h
  | cons a t ih => intro r h; exact ih _ (rising_setAdd r a h)

theorem rising_setAddRange (l : List Nat) (a n : Nat) (h : rising l = true) : rising (setAddRange l a n) = true := by
  unfold setAddRange
  induction n with
  | zero => simpa
  | succ n ih => rw [List.range_succ, List.foldl_append]; exact rising_setAdd _ _ ih

end Sys2Proof.Machine
end

