-- ==== Sys2Proof/Laws/Mem.lean ====
section
/-! SUPPORT. Laws/Mem.lean: what a read of one byte answers after each memory operation, and that every memory operation
keeps the canonical form. -/

namespace Sys2Proof.Machine

theorem Mem.get_set (m : Mem) (a b : Nat) (x : Byte) : (m.set a x).get b = if a = b then x else m.get b := by
  simp only [Mem.get, Mem.set]
  split
  · rw [cellsGet_del]
    split <;> simp_all
  · rw [cellsGet_put]
    split <;> simp

theorem Mem.get_store (l : List Byte) : ∀ (m : Mem) (a b : Nat),
    (m.store a l).get b = if h : a ≤ b ∧ b < a + l.length then l[b - a]'(by omega) else m.get b := by
  induction l with
  | nil => intro m a b; simp only [Mem.store, List.length_nil, Nat.add_zero]; rw [dif_neg (by omega)]
  | cons x t ih =>
    intro m a b
    simp only [Mem.store, ih, Mem.get_set, List.length_cons]
    by_cases h : a = b
    · subst h
      rw [dif_neg (by omega), dif_pos (by omega)]
      simp
    · by_cases h2 : a + 1 ≤ b ∧ b < a + 1 + t.length
      · rw [dif_pos h2, dif_pos (by omega)]
        have : b - a = (b - (a + 1)) + 1 := by omega
        simp only [this, List.getElem_cons_succ]
      · rw [dif_neg h2, dif_neg (by omega), if_neg h]

/-- A write changes the bytes it covers and no other. -/
theorem Mem.get_write (m : Mem) (a b : Nat) (l : List Byte) :
    (m.write a l).get b = if h : a ≤ b ∧ b < a + l.length then l[b - a]'(by omega) else m.get b := by
  have : (m.write a l).get b = (m.store a l).get b := rfl
  rw [this, Mem.get_store]

@[simp] theorem Mem.get_taint (m : Mem) (a n b : Nat) : (m.taint a n).get b = m.get b := rfl
@[simp] theorem Mem.get_fill (m : Mem) (a n b : Nat) : (m.fill a n).get b = m.get b := rfl
@[simp] theorem Mem.get_drain (m : Mem) (a n b : Nat) : (m.drain a n).get b = m.get b := rfl

theorem Mem.hostWrite_bytes (l : List Byte) : ∀ (m : Mem) (a : Nat), (m.hostWrite a l).bytes = m.bytes := by
  induction l with
  | nil => intro m a; rfl
  | cons x t ih => intro m a; simp [Mem.hostWrite, ih]

@[simp] theorem Mem.get_hostWrite (m : Mem) (a b : Nat) (l : List Byte) : (m.hostWrite a l).get b = m.get b := by
  simp [Mem.get, Mem.hostWrite_bytes]

theorem Mem.read_write (m : Mem) (a : Nat) (l : List Byte) : (m.write a l).read a l.length = l := by
  have key : ∀ (k : Nat) (m' : Mem) (b : Nat) (r : List Byte),
      (∀ i (h : i < r.length), m'.get (b + i) = r[i]) → k = r.length → m'.read b k = r := by
    intro k
    induction k with
    | zero => intro m' b r _ h; rw [List.length_eq_zero_iff.1 h.symm]; rfl
    | succ k ih =>
      intro m' b r hr hk
      cases r with
      | nil => simp at hk
      | cons x t =>
        simp only [Mem.read]
        rw [ih m' (b + 1) t]
        · have := hr 0 (by simp)
          simp only [Nat.add_zero, List.getElem_cons_zero] at this
          rw [this]
        · intro i hi
          have := hr (i + 1) (by simp; omega)
          simpa [Nat.add_assoc, Nat.add_comm 1 i] using this
        · simpa using hk
  apply key _ _ _ _ _ rfl
  intro i hi
  rw [Mem.get_write, dif_pos (by omega)]
  simp

/-! ## The canonical form -/

theorem Mem.wf_iff (m : Mem) : m.wf = true ↔
    rising (m.bytes.map (·.1)) = true ∧ (∀ c ∈ m.bytes, c.2 ≠ 0) ∧ rising (m.host.map (·.1)) = true ∧
    rising m.poison = true ∧ rising m.full = true ∧ rising m.hostPoison = true ∧ rising m.hostGone = true := by
  simp only [Mem.wf, Bool.and_eq_true, List.all_eq_true, bne_iff_ne, and_assoc]

theorem Mem.wf_set (m : Mem) (a : Nat) (x : Byte) (h : m.wf = true) : (m.set a x).wf = true := by
  rw [Mem.wf_iff] at h ⊢
  obtain ⟨h1, h2, h3, h45⟩ := h
  refine ⟨?_, ?_, h3, h45⟩
  · simp only [Mem.set]
    split
    · exact rising_map_filter _ _ h1
    · exact rising_cellsPut _ _ _ h1
  · simp only [Mem.set]
    split
    · intro c hc
      exact h2 c (List.mem_of_mem_filter hc)
    · intro c hc
      rcases mem_cellsPut _ _ _ _ hc with rfl | hc
      · assumption
      · exact h2 c hc

theorem Mem.wf_store (l : List Byte) : ∀ (m : Mem) (a : Nat), m.wf = true → (m.store a l).wf = true := by
  induction l with
  | nil => intro m a h; exact h
  | cons x t ih => intro m a h; exact ih _ _ (Mem.wf_set m a x h)

theorem Mem.wf_write (m : Mem) (a : Nat) (l : List Byte) (h : m.wf = true) : (m.write a l).wf = true := by
  have h' := Mem.wf_store l m a h
  rw [Mem.wf_iff] at h h' ⊢
  exact ⟨h'.1, h'.2.1, h'.2.2.1, rising_filter _ _ h.2.2.2.1, h'.2.2.2.2.1, h'.2.2.2.2.2⟩

theorem Mem.wf_taint (m : Mem) (a n : Nat) (h : m.wf = true) : (m.taint a n).wf = true := by
  rw [Mem.wf_iff] at h ⊢
  exact ⟨h.1, h.2.1, h.2.2.1, rising_setAddRange _ _ _ h.2.2.2.1, h.2.2.2.2⟩

theorem Mem.wf_fill (m : Mem) (a n : Nat) (h : m.wf = true) : (m.fill a n).wf = true := by
  rw [Mem.wf_iff] at h ⊢
  exact ⟨h.1, h.2.1, h.2.2.1, h.2.2.2.1, rising_setAddRange _ _ _ h.2.2.2.2.1, h.2.2.2.2.2⟩

theorem Mem.wf_drain (m : Mem) (a n : Nat) (h : m.wf = true) : (m.drain a n).wf = true := by
  rw [Mem.wf_iff] at h ⊢
  exact ⟨h.1, h.2.1, h.2.2.1, h.2.2.2.1, rising_filter _ _ h.2.2.2.2.1, h.2.2.2.2.2⟩

theorem Mem.wf_wipe (m : Mem) (a n : Nat) (h : m.wf = true) : (m.wipe a n).wf = true := by
  rw [Mem.wf_iff] at h ⊢
  exact ⟨rising_map_filter _ _ h.1, fun c hc => h.2.1 c (List.mem_of_mem_filter hc), h.2.2.1, rising_filter _ _ h.2.2.2.1,
    rising_filter _ _ h.2.2.2.2.1, h.2.2.2.2.2⟩

theorem Mem.wf_hostWrite (l : List Byte) : ∀ (m : Mem) (a : Nat), m.wf = true → (m.hostWrite a l).wf = true := by
  induction l with
  | nil => intro m a h; exact h
  | cons x t ih =>
    intro m a h
    refine ih _ _ ?_
    rw [Mem.wf_iff] at h ⊢
    exact ⟨h.1, h.2.1, rising_cellsPut _ _ _ h.2.2.1, h.2.2.2.1, h.2.2.2.2⟩

/-- A write of host memory, with or without poison, keeps the form. -/
theorem Mem.wf_hostPut (m : Mem) (a : Nat) (l : List Byte) (p : Bool) (h : m.wf = true) : (m.hostPut a l p).wf = true := by
  have h' := Mem.wf_hostWrite l m a h
  have hp : rising m.hostPoison = true := ((Mem.wf_iff m).1 h).2.2.2.2.2.1
  rw [Mem.wf_iff] at h'
  unfold Mem.hostPut
  split
  · exact h
  · rw [Mem.wf_iff]
    refine ⟨h'.1, h'.2.1, h'.2.2.1, h'.2.2.2.1, h'.2.2.2.2.1, ?_, h'.2.2.2.2.2.2⟩
    dsimp only
    split
    · exact rising_setAddRange _ _ _ (rising_filter _ _ hp)
    · exact rising_filter _ _ hp

theorem Mem.wf_marks (m : Mem) (full bad : List Nat) (h : m.wf = true) :
    ({ m with full := full.foldl setAdd m.full, poison := bad.foldl setAdd m.poison } : Mem).wf = true := by
  rw [Mem.wf_iff] at h ⊢
  exact ⟨h.1, h.2.1, h.2.2.1, rising_foldl_setAdd _ _ h.2.2.2.1, rising_foldl_setAdd _ _ h.2.2.2.2.1, h.2.2.2.2.2⟩

theorem Mem.wf_restoreBay (m : Mem) (src dst : Nat) (h : m.wf = true) : (m.restoreBay src dst).wf = true := by
  unfold Mem.restoreBay
  exact Mem.wf_marks _ _ _ (Mem.wf_store _ _ dst (Mem.wf_wipe m dst _ h))

theorem Mem.wf_remapRow (m : Mem) (row old new : Nat) (dram : Bool) (h : m.wf = true) : (m.remapRow row old new dram).wf = true := by
  rw [Mem.wf_iff] at h ⊢
  have key : ∀ (f : Nat → Option Nat) (l r : List Host.Cell), (∀ c ∈ l, c.2 ≠ 0) → (∀ c ∈ r, c.2 ≠ 0) →
      rising (r.map (·.1)) = true →
      rising ((l.foldl (fun l c => match f c.1 with
        | some a => cellsPut l a c.2
        | none => l) r).map (·.1)) = true ∧
      ∀ c ∈ l.foldl (fun l c => match f c.1 with
        | some a => cellsPut l a c.2
        | none => l) r, c.2 ≠ 0 := by
    intro f l
    induction l with
    | nil => intro r _ hr hs; exact ⟨hs, hr⟩
    | cons c t ih =>
      intro r hl hr hs
      simp only [List.foldl_cons]
      have ht : ∀ c ∈ t, c.2 ≠ 0 := fun c hc => hl c (List.mem_cons_of_mem _ hc)
      split
      · refine ih _ ht ?_ (rising_cellsPut _ _ _ hs)
        intro d hd
        rcases mem_cellsPut _ _ _ _ hd with rfl | hd
        · exact hl c (List.mem_cons_self ..)
        · exact hr d hd
      · exact ih _ ht hr hs
  obtain ⟨k1, k2⟩ := key (remapAddr row old new dram) m.bytes [] h.2.1 (by simp) rfl
  exact ⟨k1, k2, h.2.2.1, rising_foldl_setAdd _ _ rfl, rising_foldl_setAdd _ _ rfl, h.2.2.2.2.2⟩

/-- The memory after reset has the canonical form. -/
theorem Mem.wf_reset : State.reset.mem.wf = true := rfl

end Sys2Proof.Machine
end

