-- ==== Sys2Proof/Laws/State.lean ====
section
/-! SUPPORT. Laws/State.lean: what each named update of the state leaves and what it sets, field by field. -/

namespace Sys2Proof.Machine

/-! ## setCtx -/

@[simp] theorem State.setCtx_powered (s : State) (k : Nat) (c : Ctx) : (s.setCtx k c).powered = s.powered := rfl
@[simp] theorem State.setCtx_clock (s : State) (k : Nat) (c : Ctx) : (s.setCtx k c).clock = s.clock := rfl
@[simp] theorem State.setCtx_agenda (s : State) (k : Nat) (c : Ctx) : (s.setCtx k c).agenda = s.agenda := rfl
@[simp] theorem State.setCtx_turn (s : State) (k : Nat) (c : Ctx) : (s.setCtx k c).turn = s.turn := rfl
@[simp] theorem State.setCtx_cur (s : State) (k : Nat) (c : Ctx) : (s.setCtx k c).cur = s.cur := rfl
@[simp] theorem State.setCtx_pos (s : State) (k : Nat) (c : Ctx) : (s.setCtx k c).pos = s.pos := rfl
@[simp] theorem State.setCtx_raised (s : State) (k : Nat) (c : Ctx) : (s.setCtx k c).raised = s.raised := rfl
@[simp] theorem State.setCtx_pendPush (s : State) (k : Nat) (c : Ctx) : (s.setCtx k c).pendPush = s.pendPush := rfl
@[simp] theorem State.setCtx_fresh (s : State) (k : Nat) (c : Ctx) : (s.setCtx k c).fresh = s.fresh := rfl
@[simp] theorem State.setCtx_ids (s : State) (k : Nat) (c : Ctx) : (s.setCtx k c).ids = s.ids := rfl
@[simp] theorem State.setCtx_out (s : State) (k : Nat) (c : Ctx) : (s.setCtx k c).out = s.out := rfl
@[simp] theorem State.setCtx_mem (s : State) (k : Nat) (c : Ctx) : (s.setCtx k c).mem = s.mem := rfl
@[simp] theorem State.setCtx_l0 (s : State) (k : Nat) (c : Ctx) : (s.setCtx k c).l0 = s.l0 := rfl
@[simp] theorem State.setCtx_slices (s : State) (k : Nat) (c : Ctx) : (s.setCtx k c).slices = s.slices := rfl
@[simp] theorem State.setCtx_stallTlb (s : State) (k : Nat) (c : Ctx) : (s.setCtx k c).stallTlb = s.stallTlb := rfl
@[simp] theorem State.setCtx_paddockTlb (s : State) (k : Nat) (c : Ctx) : (s.setCtx k c).paddockTlb = s.paddockTlb := rfl
@[simp] theorem State.setCtx_regs (s : State) (k : Nat) (c : Ctx) : (s.setCtx k c).regs = s.regs := rfl
@[simp] theorem State.setCtx_nv (s : State) (k : Nat) (c : Ctx) : (s.setCtx k c).nv = s.nv := rfl
@[simp] theorem State.setCtx_gens (s : State) (k : Nat) (c : Ctx) : (s.setCtx k c).gens = s.gens := rfl
@[simp] theorem State.setCtx_stalls (s : State) (k : Nat) (c : Ctx) : (s.setCtx k c).stalls = s.stalls := rfl
@[simp] theorem State.setCtx_hitches (s : State) (k : Nat) (c : Ctx) : (s.setCtx k c).hitches = s.hitches := rfl
@[simp] theorem State.setCtx_launches (s : State) (k : Nat) (c : Ctx) : (s.setCtx k c).launches = s.launches := rfl
@[simp] theorem State.setCtx_recordWait (s : State) (k : Nat) (c : Ctx) : (s.setCtx k c).recordWait = s.recordWait := rfl
@[simp] theorem State.setCtx_cmds (s : State) (k : Nat) (c : Ctx) : (s.setCtx k c).cmds = s.cmds := rfl
@[simp] theorem State.setCtx_engines (s : State) (k : Nat) (c : Ctx) : (s.setCtx k c).engines = s.engines := rfl
@[simp] theorem State.setCtx_replays (s : State) (k : Nat) (c : Ctx) : (s.setCtx k c).replays = s.replays := rfl
@[simp] theorem State.setCtx_patches (s : State) (k : Nat) (c : Ctx) : (s.setCtx k c).patches = s.patches := rfl
@[simp] theorem State.setCtx_headWas (s : State) (k : Nat) (c : Ctx) : (s.setCtx k c).headWas = s.headWas := rfl
@[simp] theorem State.setCtx_colls (s : State) (k : Nat) (c : Ctx) : (s.setCtx k c).colls = s.colls := rfl
@[simp] theorem State.setCtx_saves (s : State) (k : Nat) (c : Ctx) : (s.setCtx k c).saves = s.saves := rfl
@[simp] theorem State.setCtx_moves (s : State) (k : Nat) (c : Ctx) : (s.setCtx k c).moves = s.moves := rfl
@[simp] theorem State.setCtx_homeWait (s : State) (k : Nat) (c : Ctx) : (s.setCtx k c).homeWait = s.homeWait := rfl
@[simp] theorem State.setCtx_devReqs (s : State) (k : Nat) (c : Ctx) : (s.setCtx k c).devReqs = s.devReqs := rfl
@[simp] theorem State.setCtx_ratio (s : State) (k : Nat) (c : Ctx) : (s.setCtx k c).ratio = s.ratio := rfl
@[simp] theorem State.setCtx_gangs (s : State) (k : Nat) (c : Ctx) : (s.setCtx k c).gangs = s.gangs := rfl
@[simp] theorem State.setCtx_acc (s : State) (k : Nat) (c : Ctx) : (s.setCtx k c).acc = s.acc := rfl
@[simp] theorem State.setCtx_links (s : State) (k : Nat) (c : Ctx) : (s.setCtx k c).links = s.links := rfl
@[simp] theorem State.setCtx_streams (s : State) (k : Nat) (c : Ctx) : (s.setCtx k c).streams = s.streams := rfl
@[simp] theorem State.setCtx_outstanding (s : State) (k : Nat) (c : Ctx) : (s.setCtx k c).outstanding = s.outstanding := rfl
@[simp] theorem State.setCtx_reinWait (s : State) (k : Nat) (c : Ctx) : (s.setCtx k c).reinWait = s.reinWait := rfl
@[simp] theorem State.setCtx_timed (s : State) (k : Nat) (c : Ctx) : (s.setCtx k c).timed = s.timed := rfl
@[simp] theorem State.setCtx_ckpt (s : State) (k : Nat) (c : Ctx) : (s.setCtx k c).ckpt = s.ckpt := rfl
@[simp] theorem State.setCtx_faults (s : State) (k : Nat) (c : Ctx) : (s.setCtx k c).faults = s.faults := rfl
@[simp] theorem State.setCtx_faultBatch (s : State) (k : Nat) (c : Ctx) : (s.setCtx k c).faultBatch = s.faultBatch := rfl
@[simp] theorem State.setCtx_reported (s : State) (k : Nat) (c : Ctx) : (s.setCtx k c).reported = s.reported := rfl
@[simp] theorem State.setCtx_faultSerial (s : State) (k : Nat) (c : Ctx) : (s.setCtx k c).faultSerial = s.faultSerial := rfl
@[simp] theorem State.setCtx_spl (s : State) (k : Nat) (c : Ctx) : (s.setCtx k c).spl = s.spl := rfl
@[simp] theorem State.setCtx_conns (s : State) (k : Nat) (c : Ctx) : (s.setCtx k c).conns = s.conns := rfl
@[simp] theorem State.setCtx_sessions (s : State) (k : Nat) (c : Ctx) : (s.setCtx k c).sessions = s.sessions := rfl
@[simp] theorem State.setCtx_heldSignals (s : State) (k : Nat) (c : Ctx) : (s.setCtx k c).heldSignals = s.heldSignals := rfl
@[simp] theorem State.setCtx_msixOn (s : State) (k : Nat) (c : Ctx) : (s.setCtx k c).msixOn = s.msixOn := rfl
@[simp] theorem State.setCtx_msixHeld (s : State) (k : Nat) (c : Ctx) : (s.setCtx k c).msixHeld = s.msixHeld := rfl
@[simp] theorem State.setCtx_ideKeys (s : State) (k : Nat) (c : Ctx) : (s.setCtx k c).ideKeys = s.ideKeys := rfl
@[simp] theorem State.setCtx_ideOn (s : State) (k : Nat) (c : Ctx) : (s.setCtx k c).ideOn = s.ideOn := rfl
@[simp] theorem State.setCtx_req0 (s : State) (k : Nat) (c : Ctx) : (s.setCtx k c).req0 = s.req0 := rfl
@[simp] theorem State.setCtx_lcauth (s : State) (k : Nat) (c : Ctx) : (s.setCtx k c).lcauth = s.lcauth := rfl
@[simp] theorem State.setCtx_hot2x (s : State) (k : Nat) (c : Ctx) : (s.setCtx k c).hot2x = s.hot2x := rfl
@[simp] theorem State.setCtx_shadowSeen (s : State) (k : Nat) (c : Ctx) : (s.setCtx k c).shadowSeen = s.shadowSeen := rfl
@[simp] theorem State.setCtx_shadowNow (s : State) (k : Nat) (c : Ctx) : (s.setCtx k c).shadowNow = s.shadowNow := rfl
@[simp] theorem State.setCtx_sramErrAt (s : State) (k : Nat) (c : Ctx) : (s.setCtx k c).sramErrAt = s.sramErrAt := rfl
@[simp] theorem State.setCtx_rowLag (s : State) (k : Nat) (c : Ctx) : (s.setCtx k c).rowLag = s.rowLag := rfl
@[simp] theorem State.setCtx_stretched (s : State) (k : Nat) (c : Ctx) : (s.setCtx k c).stretched = s.stretched := rfl
@[simp] theorem State.setCtx_stretchNext (s : State) (k : Nat) (c : Ctx) : (s.setCtx k c).stretchNext = s.stretchNext := rfl
@[simp] theorem State.setCtx_entry (s : State) (k : Nat) (c : Ctx) : (s.setCtx k c).entry = s.entry := rfl
@[simp] theorem State.setCtx_consAt (s : State) (k : Nat) (c : Ctx) : (s.setCtx k c).consAt = s.consAt := rfl
@[simp] theorem State.setCtx_image (s : State) (k : Nat) (c : Ctx) : (s.setCtx k c).image = s.image := rfl

/-! ## modCtx -/

@[simp] theorem State.modCtx_powered (s : State) (k : Nat) (f : Ctx → Ctx) : (s.modCtx k f).powered = s.powered := rfl
@[simp] theorem State.modCtx_clock (s : State) (k : Nat) (f : Ctx → Ctx) : (s.modCtx k f).clock = s.clock := rfl
@[simp] theorem State.modCtx_agenda (s : State) (k : Nat) (f : Ctx → Ctx) : (s.modCtx k f).agenda = s.agenda := rfl
@[simp] theorem State.modCtx_turn (s : State) (k : Nat) (f : Ctx → Ctx) : (s.modCtx k f).turn = s.turn := rfl
@[simp] theorem State.modCtx_cur (s : State) (k : Nat) (f : Ctx → Ctx) : (s.modCtx k f).cur = s.cur := rfl
@[simp] theorem State.modCtx_pos (s : State) (k : Nat) (f : Ctx → Ctx) : (s.modCtx k f).pos = s.pos := rfl
@[simp] theorem State.modCtx_raised (s : State) (k : Nat) (f : Ctx → Ctx) : (s.modCtx k f).raised = s.raised := rfl
@[simp] theorem State.modCtx_pendPush (s : State) (k : Nat) (f : Ctx → Ctx) : (s.modCtx k f).pendPush = s.pendPush := rfl
@[simp] theorem State.modCtx_fresh (s : State) (k : Nat) (f : Ctx → Ctx) : (s.modCtx k f).fresh = s.fresh := rfl
@[simp] theorem State.modCtx_ids (s : State) (k : Nat) (f : Ctx → Ctx) : (s.modCtx k f).ids = s.ids := rfl
@[simp] theorem State.modCtx_out (s : State) (k : Nat) (f : Ctx → Ctx) : (s.modCtx k f).out = s.out := rfl
@[simp] theorem State.modCtx_mem (s : State) (k : Nat) (f : Ctx → Ctx) : (s.modCtx k f).mem = s.mem := rfl
@[simp] theorem State.modCtx_l0 (s : State) (k : Nat) (f : Ctx → Ctx) : (s.modCtx k f).l0 = s.l0 := rfl
@[simp] theorem State.modCtx_slices (s : State) (k : Nat) (f : Ctx → Ctx) : (s.modCtx k f).slices = s.slices := rfl
@[simp] theorem State.modCtx_stallTlb (s : State) (k : Nat) (f : Ctx → Ctx) : (s.modCtx k f).stallTlb = s.stallTlb := rfl
@[simp] theorem State.modCtx_paddockTlb (s : State) (k : Nat) (f : Ctx → Ctx) : (s.modCtx k f).paddockTlb = s.paddockTlb := rfl
@[simp] theorem State.modCtx_regs (s : State) (k : Nat) (f : Ctx → Ctx) : (s.modCtx k f).regs = s.regs := rfl
@[simp] theorem State.modCtx_nv (s : State) (k : Nat) (f : Ctx → Ctx) : (s.modCtx k f).nv = s.nv := rfl
@[simp] theorem State.modCtx_gens (s : State) (k : Nat) (f : Ctx → Ctx) : (s.modCtx k f).gens = s.gens := rfl
@[simp] theorem State.modCtx_stalls (s : State) (k : Nat) (f : Ctx → Ctx) : (s.modCtx k f).stalls = s.stalls := rfl
@[simp] theorem State.modCtx_hitches (s : State) (k : Nat) (f : Ctx → Ctx) : (s.modCtx k f).hitches = s.hitches := rfl
@[simp] theorem State.modCtx_launches (s : State) (k : Nat) (f : Ctx → Ctx) : (s.modCtx k f).launches = s.launches := rfl
@[simp] theorem State.modCtx_recordWait (s : State) (k : Nat) (f : Ctx → Ctx) : (s.modCtx k f).recordWait = s.recordWait := rfl
@[simp] theorem State.modCtx_cmds (s : State) (k : Nat) (f : Ctx → Ctx) : (s.modCtx k f).cmds = s.cmds := rfl
@[simp] theorem State.modCtx_engines (s : State) (k : Nat) (f : Ctx → Ctx) : (s.modCtx k f).engines = s.engines := rfl
@[simp] theorem State.modCtx_replays (s : State) (k : Nat) (f : Ctx → Ctx) : (s.modCtx k f).replays = s.replays := rfl
@[simp] theorem State.modCtx_patches (s : State) (k : Nat) (f : Ctx → Ctx) : (s.modCtx k f).patches = s.patches := rfl
@[simp] theorem State.modCtx_headWas (s : State) (k : Nat) (f : Ctx → Ctx) : (s.modCtx k f).headWas = s.headWas := rfl
@[simp] theorem State.modCtx_colls (s : State) (k : Nat) (f : Ctx → Ctx) : (s.modCtx k f).colls = s.colls := rfl
@[simp] theorem State.modCtx_saves (s : State) (k : Nat) (f : Ctx → Ctx) : (s.modCtx k f).saves = s.saves := rfl
@[simp] theorem State.modCtx_moves (s : State) (k : Nat) (f : Ctx → Ctx) : (s.modCtx k f).moves = s.moves := rfl
@[simp] theorem State.modCtx_homeWait (s : State) (k : Nat) (f : Ctx → Ctx) : (s.modCtx k f).homeWait = s.homeWait := rfl
@[simp] theorem State.modCtx_devReqs (s : State) (k : Nat) (f : Ctx → Ctx) : (s.modCtx k f).devReqs = s.devReqs := rfl
@[simp] theorem State.modCtx_ratio (s : State) (k : Nat) (f : Ctx → Ctx) : (s.modCtx k f).ratio = s.ratio := rfl
@[simp] theorem State.modCtx_gangs (s : State) (k : Nat) (f : Ctx → Ctx) : (s.modCtx k f).gangs = s.gangs := rfl
@[simp] theorem State.modCtx_acc (s : State) (k : Nat) (f : Ctx → Ctx) : (s.modCtx k f).acc = s.acc := rfl
@[simp] theorem State.modCtx_links (s : State) (k : Nat) (f : Ctx → Ctx) : (s.modCtx k f).links = s.links := rfl
@[simp] theorem State.modCtx_streams (s : State) (k : Nat) (f : Ctx → Ctx) : (s.modCtx k f).streams = s.streams := rfl
@[simp] theorem State.modCtx_outstanding (s : State) (k : Nat) (f : Ctx → Ctx) : (s.modCtx k f).outstanding = s.outstanding := rfl
@[simp] theorem State.modCtx_reinWait (s : State) (k : Nat) (f : Ctx → Ctx) : (s.modCtx k f).reinWait = s.reinWait := rfl
@[simp] theorem State.modCtx_timed (s : State) (k : Nat) (f : Ctx → Ctx) : (s.modCtx k f).timed = s.timed := rfl
@[simp] theorem State.modCtx_ckpt (s : State) (k : Nat) (f : Ctx → Ctx) : (s.modCtx k f).ckpt = s.ckpt := rfl
@[simp] theorem State.modCtx_faults (s : State) (k : Nat) (f : Ctx → Ctx) : (s.modCtx k f).faults = s.faults := rfl
@[simp] theorem State.modCtx_faultBatch (s : State) (k : Nat) (f : Ctx → Ctx) : (s.modCtx k f).faultBatch = s.faultBatch := rfl
@[simp] theorem State.modCtx_reported (s : State) (k : Nat) (f : Ctx → Ctx) : (s.modCtx k f).reported = s.reported := rfl
@[simp] theorem State.modCtx_faultSerial (s : State) (k : Nat) (f : Ctx → Ctx) : (s.modCtx k f).faultSerial = s.faultSerial := rfl
@[simp] theorem State.modCtx_spl (s : State) (k : Nat) (f : Ctx → Ctx) : (s.modCtx k f).spl = s.spl := rfl
@[simp] theorem State.modCtx_conns (s : State) (k : Nat) (f : Ctx → Ctx) : (s.modCtx k f).conns = s.conns := rfl
@[simp] theorem State.modCtx_sessions (s : State) (k : Nat) (f : Ctx → Ctx) : (s.modCtx k f).sessions = s.sessions := rfl
@[simp] theorem State.modCtx_heldSignals (s : State) (k : Nat) (f : Ctx → Ctx) : (s.modCtx k f).heldSignals = s.heldSignals := rfl
@[simp] theorem State.modCtx_msixOn (s : State) (k : Nat) (f : Ctx → Ctx) : (s.modCtx k f).msixOn = s.msixOn := rfl
@[simp] theorem State.modCtx_msixHeld (s : State) (k : Nat) (f : Ctx → Ctx) : (s.modCtx k f).msixHeld = s.msixHeld := rfl
@[simp] theorem State.modCtx_ideKeys (s : State) (k : Nat) (f : Ctx → Ctx) : (s.modCtx k f).ideKeys = s.ideKeys := rfl
@[simp] theorem State.modCtx_ideOn (s : State) (k : Nat) (f : Ctx → Ctx) : (s.modCtx k f).ideOn = s.ideOn := rfl
@[simp] theorem State.modCtx_req0 (s : State) (k : Nat) (f : Ctx → Ctx) : (s.modCtx k f).req0 = s.req0 := rfl
@[simp] theorem State.modCtx_lcauth (s : State) (k : Nat) (f : Ctx → Ctx) : (s.modCtx k f).lcauth = s.lcauth := rfl
@[simp] theorem State.modCtx_hot2x (s : State) (k : Nat) (f : Ctx → Ctx) : (s.modCtx k f).hot2x = s.hot2x := rfl
@[simp] theorem State.modCtx_shadowSeen (s : State) (k : Nat) (f : Ctx → Ctx) : (s.modCtx k f).shadowSeen = s.shadowSeen := rfl
@[simp] theorem State.modCtx_shadowNow (s : State) (k : Nat) (f : Ctx → Ctx) : (s.modCtx k f).shadowNow = s.shadowNow := rfl
@[simp] theorem State.modCtx_sramErrAt (s : State) (k : Nat) (f : Ctx → Ctx) : (s.modCtx k f).sramErrAt = s.sramErrAt := rfl
@[simp] theorem State.modCtx_rowLag (s : State) (k : Nat) (f : Ctx → Ctx) : (s.modCtx k f).rowLag = s.rowLag := rfl
@[simp] theorem State.modCtx_stretched (s : State) (k : Nat) (f : Ctx → Ctx) : (s.modCtx k f).stretched = s.stretched := rfl
@[simp] theorem State.modCtx_stretchNext (s : State) (k : Nat) (f : Ctx → Ctx) : (s.modCtx k f).stretchNext = s.stretchNext := rfl
@[simp] theorem State.modCtx_entry (s : State) (k : Nat) (f : Ctx → Ctx) : (s.modCtx k f).entry = s.entry := rfl
@[simp] theorem State.modCtx_consAt (s : State) (k : Nat) (f : Ctx → Ctx) : (s.modCtx k f).consAt = s.consAt := rfl
@[simp] theorem State.modCtx_image (s : State) (k : Nat) (f : Ctx → Ctx) : (s.modCtx k f).image = s.image := rfl

/-! ## modMe -/

@[simp] theorem State.modMe_powered (s : State) (f : Ctx → Ctx) : (s.modMe f).powered = s.powered := rfl
@[simp] theorem State.modMe_clock (s : State) (f : Ctx → Ctx) : (s.modMe f).clock = s.clock := rfl
@[simp] theorem State.modMe_agenda (s : State) (f : Ctx → Ctx) : (s.modMe f).agenda = s.agenda := rfl
@[simp] theorem State.modMe_turn (s : State) (f : Ctx → Ctx) : (s.modMe f).turn = s.turn := rfl
@[simp] theorem State.modMe_cur (s : State) (f : Ctx → Ctx) : (s.modMe f).cur = s.cur := rfl
@[simp] theorem State.modMe_pos (s : State) (f : Ctx → Ctx) : (s.modMe f).pos = s.pos := rfl
@[simp] theorem State.modMe_raised (s : State) (f : Ctx → Ctx) : (s.modMe f).raised = s.raised := rfl
@[simp] theorem State.modMe_pendPush (s : State) (f : Ctx → Ctx) : (s.modMe f).pendPush = s.pendPush := rfl
@[simp] theorem State.modMe_fresh (s : State) (f : Ctx → Ctx) : (s.modMe f).fresh = s.fresh := rfl
@[simp] theorem State.modMe_ids (s : State) (f : Ctx → Ctx) : (s.modMe f).ids = s.ids := rfl
@[simp] theorem State.modMe_out (s : State) (f : Ctx → Ctx) : (s.modMe f).out = s.out := rfl
@[simp] theorem State.modMe_mem (s : State) (f : Ctx → Ctx) : (s.modMe f).mem = s.mem := rfl
@[simp] theorem State.modMe_l0 (s : State) (f : Ctx → Ctx) : (s.modMe f).l0 = s.l0 := rfl
@[simp] theorem State.modMe_slices (s : State) (f : Ctx → Ctx) : (s.modMe f).slices = s.slices := rfl
@[simp] theorem State.modMe_stallTlb (s : State) (f : Ctx → Ctx) : (s.modMe f).stallTlb = s.stallTlb := rfl
@[simp] theorem State.modMe_paddockTlb (s : State) (f : Ctx → Ctx) : (s.modMe f).paddockTlb = s.paddockTlb := rfl
@[simp] theorem State.modMe_regs (s : State) (f : Ctx → Ctx) : (s.modMe f).regs = s.regs := rfl
@[simp] theorem State.modMe_nv (s : State) (f : Ctx → Ctx) : (s.modMe f).nv = s.nv := rfl
@[simp] theorem State.modMe_gens (s : State) (f : Ctx → Ctx) : (s.modMe f).gens = s.gens := rfl
@[simp] theorem State.modMe_stalls (s : State) (f : Ctx → Ctx) : (s.modMe f).stalls = s.stalls := rfl
@[simp] theorem State.modMe_hitches (s : State) (f : Ctx → Ctx) : (s.modMe f).hitches = s.hitches := rfl
@[simp] theorem State.modMe_launches (s : State) (f : Ctx → Ctx) : (s.modMe f).launches = s.launches := rfl
@[simp] theorem State.modMe_recordWait (s : State) (f : Ctx → Ctx) : (s.modMe f).recordWait = s.recordWait := rfl
@[simp] theorem State.modMe_cmds (s : State) (f : Ctx → Ctx) : (s.modMe f).cmds = s.cmds := rfl
@[simp] theorem State.modMe_engines (s : State) (f : Ctx → Ctx) : (s.modMe f).engines = s.engines := rfl
@[simp] theorem State.modMe_replays (s : State) (f : Ctx → Ctx) : (s.modMe f).replays = s.replays := rfl
@[simp] theorem State.modMe_patches (s : State) (f : Ctx → Ctx) : (s.modMe f).patches = s.patches := rfl
@[simp] theorem State.modMe_headWas (s : State) (f : Ctx → Ctx) : (s.modMe f).headWas = s.headWas := rfl
@[simp] theorem State.modMe_colls (s : State) (f : Ctx → Ctx) : (s.modMe f).colls = s.colls := rfl
@[simp] theorem State.modMe_saves (s : State) (f : Ctx → Ctx) : (s.modMe f).saves = s.saves := rfl
@[simp] theorem State.modMe_moves (s : State) (f : Ctx → Ctx) : (s.modMe f).moves = s.moves := rfl
@[simp] theorem State.modMe_homeWait (s : State) (f : Ctx → Ctx) : (s.modMe f).homeWait = s.homeWait := rfl
@[simp] theorem State.modMe_devReqs (s : State) (f : Ctx → Ctx) : (s.modMe f).devReqs = s.devReqs := rfl
@[simp] theorem State.modMe_ratio (s : State) (f : Ctx → Ctx) : (s.modMe f).ratio = s.ratio := rfl
@[simp] theorem State.modMe_gangs (s : State) (f : Ctx → Ctx) : (s.modMe f).gangs = s.gangs := rfl
@[simp] theorem State.modMe_acc (s : State) (f : Ctx → Ctx) : (s.modMe f).acc = s.acc := rfl
@[simp] theorem State.modMe_links (s : State) (f : Ctx → Ctx) : (s.modMe f).links = s.links := rfl
@[simp] theorem State.modMe_streams (s : State) (f : Ctx → Ctx) : (s.modMe f).streams = s.streams := rfl
@[simp] theorem State.modMe_outstanding (s : State) (f : Ctx → Ctx) : (s.modMe f).outstanding = s.outstanding := rfl
@[simp] theorem State.modMe_reinWait (s : State) (f : Ctx → Ctx) : (s.modMe f).reinWait = s.reinWait := rfl
@[simp] theorem State.modMe_timed (s : State) (f : Ctx → Ctx) : (s.modMe f).timed = s.timed := rfl
@[simp] theorem State.modMe_ckpt (s : State) (f : Ctx → Ctx) : (s.modMe f).ckpt = s.ckpt := rfl
@[simp] theorem State.modMe_faults (s : State) (f : Ctx → Ctx) : (s.modMe f).faults = s.faults := rfl
@[simp] theorem State.modMe_faultBatch (s : State) (f : Ctx → Ctx) : (s.modMe f).faultBatch = s.faultBatch := rfl
@[simp] theorem State.modMe_reported (s : State) (f : Ctx → Ctx) : (s.modMe f).reported = s.reported := rfl
@[simp] theorem State.modMe_faultSerial (s : State) (f : Ctx → Ctx) : (s.modMe f).faultSerial = s.faultSerial := rfl
@[simp] theorem State.modMe_spl (s : State) (f : Ctx → Ctx) : (s.modMe f).spl = s.spl := rfl
@[simp] theorem State.modMe_conns (s : State) (f : Ctx → Ctx) : (s.modMe f).conns = s.conns := rfl
@[simp] theorem State.modMe_sessions (s : State) (f : Ctx → Ctx) : (s.modMe f).sessions = s.sessions := rfl
@[simp] theorem State.modMe_heldSignals (s : State) (f : Ctx → Ctx) : (s.modMe f).heldSignals = s.heldSignals := rfl
@[simp] theorem State.modMe_msixOn (s : State) (f : Ctx → Ctx) : (s.modMe f).msixOn = s.msixOn := rfl
@[simp] theorem State.modMe_msixHeld (s : State) (f : Ctx → Ctx) : (s.modMe f).msixHeld = s.msixHeld := rfl
@[simp] theorem State.modMe_ideKeys (s : State) (f : Ctx → Ctx) : (s.modMe f).ideKeys = s.ideKeys := rfl
@[simp] theorem State.modMe_ideOn (s : State) (f : Ctx → Ctx) : (s.modMe f).ideOn = s.ideOn := rfl
@[simp] theorem State.modMe_req0 (s : State) (f : Ctx → Ctx) : (s.modMe f).req0 = s.req0 := rfl
@[simp] theorem State.modMe_lcauth (s : State) (f : Ctx → Ctx) : (s.modMe f).lcauth = s.lcauth := rfl
@[simp] theorem State.modMe_hot2x (s : State) (f : Ctx → Ctx) : (s.modMe f).hot2x = s.hot2x := rfl
@[simp] theorem State.modMe_shadowSeen (s : State) (f : Ctx → Ctx) : (s.modMe f).shadowSeen = s.shadowSeen := rfl
@[simp] theorem State.modMe_shadowNow (s : State) (f : Ctx → Ctx) : (s.modMe f).shadowNow = s.shadowNow := rfl
@[simp] theorem State.modMe_sramErrAt (s : State) (f : Ctx → Ctx) : (s.modMe f).sramErrAt = s.sramErrAt := rfl
@[simp] theorem State.modMe_rowLag (s : State) (f : Ctx → Ctx) : (s.modMe f).rowLag = s.rowLag := rfl
@[simp] theorem State.modMe_stretched (s : State) (f : Ctx → Ctx) : (s.modMe f).stretched = s.stretched := rfl
@[simp] theorem State.modMe_stretchNext (s : State) (f : Ctx → Ctx) : (s.modMe f).stretchNext = s.stretchNext := rfl
@[simp] theorem State.modMe_entry (s : State) (f : Ctx → Ctx) : (s.modMe f).entry = s.entry := rfl
@[simp] theorem State.modMe_consAt (s : State) (f : Ctx → Ctx) : (s.modMe f).consAt = s.consAt := rfl
@[simp] theorem State.modMe_image (s : State) (f : Ctx → Ctx) : (s.modMe f).image = s.image := rfl

/-! ## land -/

@[simp] theorem State.land_powered (s : State) (e : Landing) : (s.land e).powered = s.powered := rfl
@[simp] theorem State.land_clock (s : State) (e : Landing) : (s.land e).clock = s.clock := rfl
@[simp] theorem State.land_agenda (s : State) (e : Landing) : (s.land e).agenda = s.agenda := rfl
@[simp] theorem State.land_turn (s : State) (e : Landing) : (s.land e).turn = s.turn := rfl
@[simp] theorem State.land_cur (s : State) (e : Landing) : (s.land e).cur = s.cur := rfl
@[simp] theorem State.land_pos (s : State) (e : Landing) : (s.land e).pos = s.pos := rfl
@[simp] theorem State.land_raised (s : State) (e : Landing) : (s.land e).raised = s.raised := rfl
@[simp] theorem State.land_pendPush (s : State) (e : Landing) : (s.land e).pendPush = s.pendPush := rfl
@[simp] theorem State.land_fresh (s : State) (e : Landing) : (s.land e).fresh = s.fresh := rfl
@[simp] theorem State.land_ids (s : State) (e : Landing) : (s.land e).ids = s.ids := rfl
@[simp] theorem State.land_out (s : State) (e : Landing) : (s.land e).out = s.out := rfl
@[simp] theorem State.land_mem (s : State) (e : Landing) : (s.land e).mem = s.mem := rfl
@[simp] theorem State.land_l0 (s : State) (e : Landing) : (s.land e).l0 = s.l0 := rfl
@[simp] theorem State.land_slices (s : State) (e : Landing) : (s.land e).slices = s.slices := rfl
@[simp] theorem State.land_stallTlb (s : State) (e : Landing) : (s.land e).stallTlb = s.stallTlb := rfl
@[simp] theorem State.land_paddockTlb (s : State) (e : Landing) : (s.land e).paddockTlb = s.paddockTlb := rfl
@[simp] theorem State.land_regs (s : State) (e : Landing) : (s.land e).regs = s.regs := rfl
@[simp] theorem State.land_nv (s : State) (e : Landing) : (s.land e).nv = s.nv := rfl
@[simp] theorem State.land_gens (s : State) (e : Landing) : (s.land e).gens = s.gens := rfl
@[simp] theorem State.land_stalls (s : State) (e : Landing) : (s.land e).stalls = s.stalls := rfl
@[simp] theorem State.land_hitches (s : State) (e : Landing) : (s.land e).hitches = s.hitches := rfl
@[simp] theorem State.land_launches (s : State) (e : Landing) : (s.land e).launches = s.launches := rfl
@[simp] theorem State.land_recordWait (s : State) (e : Landing) : (s.land e).recordWait = s.recordWait := rfl
@[simp] theorem State.land_cmds (s : State) (e : Landing) : (s.land e).cmds = s.cmds := rfl
@[simp] theorem State.land_engines (s : State) (e : Landing) : (s.land e).engines = s.engines := rfl
@[simp] theorem State.land_replays (s : State) (e : Landing) : (s.land e).replays = s.replays := rfl
@[simp] theorem State.land_patches (s : State) (e : Landing) : (s.land e).patches = s.patches := rfl
@[simp] theorem State.land_headWas (s : State) (e : Landing) : (s.land e).headWas = s.headWas := rfl
@[simp] theorem State.land_colls (s : State) (e : Landing) : (s.land e).colls = s.colls := rfl
@[simp] theorem State.land_saves (s : State) (e : Landing) : (s.land e).saves = s.saves := rfl
@[simp] theorem State.land_moves (s : State) (e : Landing) : (s.land e).moves = s.moves := rfl
@[simp] theorem State.land_homeWait (s : State) (e : Landing) : (s.land e).homeWait = s.homeWait := rfl
@[simp] theorem State.land_devReqs (s : State) (e : Landing) : (s.land e).devReqs = s.devReqs := rfl
@[simp] theorem State.land_ratio (s : State) (e : Landing) : (s.land e).ratio = s.ratio := rfl
@[simp] theorem State.land_gangs (s : State) (e : Landing) : (s.land e).gangs = s.gangs := rfl
@[simp] theorem State.land_acc (s : State) (e : Landing) : (s.land e).acc = s.acc := rfl
@[simp] theorem State.land_links (s : State) (e : Landing) : (s.land e).links = s.links := rfl
@[simp] theorem State.land_streams (s : State) (e : Landing) : (s.land e).streams = s.streams := rfl
@[simp] theorem State.land_outstanding (s : State) (e : Landing) : (s.land e).outstanding = s.outstanding := rfl
@[simp] theorem State.land_reinWait (s : State) (e : Landing) : (s.land e).reinWait = s.reinWait := rfl
@[simp] theorem State.land_timed (s : State) (e : Landing) : (s.land e).timed = s.timed := rfl
@[simp] theorem State.land_ckpt (s : State) (e : Landing) : (s.land e).ckpt = s.ckpt := rfl
@[simp] theorem State.land_faults (s : State) (e : Landing) : (s.land e).faults = s.faults := rfl
@[simp] theorem State.land_faultBatch (s : State) (e : Landing) : (s.land e).faultBatch = s.faultBatch := rfl
@[simp] theorem State.land_reported (s : State) (e : Landing) : (s.land e).reported = s.reported := rfl
@[simp] theorem State.land_faultSerial (s : State) (e : Landing) : (s.land e).faultSerial = s.faultSerial := rfl
@[simp] theorem State.land_spl (s : State) (e : Landing) : (s.land e).spl = s.spl := rfl
@[simp] theorem State.land_conns (s : State) (e : Landing) : (s.land e).conns = s.conns := rfl
@[simp] theorem State.land_sessions (s : State) (e : Landing) : (s.land e).sessions = s.sessions := rfl
@[simp] theorem State.land_heldSignals (s : State) (e : Landing) : (s.land e).heldSignals = s.heldSignals := rfl
@[simp] theorem State.land_msixOn (s : State) (e : Landing) : (s.land e).msixOn = s.msixOn := rfl
@[simp] theorem State.land_msixHeld (s : State) (e : Landing) : (s.land e).msixHeld = s.msixHeld := rfl
@[simp] theorem State.land_ideKeys (s : State) (e : Landing) : (s.land e).ideKeys = s.ideKeys := rfl
@[simp] theorem State.land_ideOn (s : State) (e : Landing) : (s.land e).ideOn = s.ideOn := rfl
@[simp] theorem State.land_req0 (s : State) (e : Landing) : (s.land e).req0 = s.req0 := rfl
@[simp] theorem State.land_lcauth (s : State) (e : Landing) : (s.land e).lcauth = s.lcauth := rfl
@[simp] theorem State.land_hot2x (s : State) (e : Landing) : (s.land e).hot2x = s.hot2x := rfl
@[simp] theorem State.land_shadowSeen (s : State) (e : Landing) : (s.land e).shadowSeen = s.shadowSeen := rfl
@[simp] theorem State.land_shadowNow (s : State) (e : Landing) : (s.land e).shadowNow = s.shadowNow := rfl
@[simp] theorem State.land_sramErrAt (s : State) (e : Landing) : (s.land e).sramErrAt = s.sramErrAt := rfl
@[simp] theorem State.land_rowLag (s : State) (e : Landing) : (s.land e).rowLag = s.rowLag := rfl
@[simp] theorem State.land_stretched (s : State) (e : Landing) : (s.land e).stretched = s.stretched := rfl
@[simp] theorem State.land_stretchNext (s : State) (e : Landing) : (s.land e).stretchNext = s.stretchNext := rfl
@[simp] theorem State.land_entry (s : State) (e : Landing) : (s.land e).entry = s.entry := rfl
@[simp] theorem State.land_consAt (s : State) (e : Landing) : (s.land e).consAt = s.consAt := rfl
@[simp] theorem State.land_image (s : State) (e : Landing) : (s.land e).image = s.image := rfl

/-! ## push -/

@[simp] theorem State.push_powered (s : State) (l : List Due) : (s.push l).powered = s.powered := rfl
@[simp] theorem State.push_clock (s : State) (l : List Due) : (s.push l).clock = s.clock := rfl
@[simp] theorem State.push_turn (s : State) (l : List Due) : (s.push l).turn = s.turn := rfl
@[simp] theorem State.push_cur (s : State) (l : List Due) : (s.push l).cur = s.cur := rfl
@[simp] theorem State.push_pos (s : State) (l : List Due) : (s.push l).pos = s.pos := rfl
@[simp] theorem State.push_raised (s : State) (l : List Due) : (s.push l).raised = s.raised := rfl
@[simp] theorem State.push_pendPush (s : State) (l : List Due) : (s.push l).pendPush = s.pendPush := rfl
@[simp] theorem State.push_fresh (s : State) (l : List Due) : (s.push l).fresh = s.fresh := rfl
@[simp] theorem State.push_ids (s : State) (l : List Due) : (s.push l).ids = s.ids := rfl
@[simp] theorem State.push_out (s : State) (l : List Due) : (s.push l).out = s.out := rfl
@[simp] theorem State.push_mem (s : State) (l : List Due) : (s.push l).mem = s.mem := rfl
@[simp] theorem State.push_l0 (s : State) (l : List Due) : (s.push l).l0 = s.l0 := rfl
@[simp] theorem State.push_slices (s : State) (l : List Due) : (s.push l).slices = s.slices := rfl
@[simp] theorem State.push_stallTlb (s : State) (l : List Due) : (s.push l).stallTlb = s.stallTlb := rfl
@[simp] theorem State.push_paddockTlb (s : State) (l : List Due) : (s.push l).paddockTlb = s.paddockTlb := rfl
@[simp] theorem State.push_regs (s : State) (l : List Due) : (s.push l).regs = s.regs := rfl
@[simp] theorem State.push_nv (s : State) (l : List Due) : (s.push l).nv = s.nv := rfl
@[simp] theorem State.push_ctxs (s : State) (l : List Due) : (s.push l).ctxs = s.ctxs := rfl
@[simp] theorem State.push_gens (s : State) (l : List Due) : (s.push l).gens = s.gens := rfl
@[simp] theorem State.push_stalls (s : State) (l : List Due) : (s.push l).stalls = s.stalls := rfl
@[simp] theorem State.push_hitches (s : State) (l : List Due) : (s.push l).hitches = s.hitches := rfl
@[simp] theorem State.push_launches (s : State) (l : List Due) : (s.push l).launches = s.launches := rfl
@[simp] theorem State.push_recordWait (s : State) (l : List Due) : (s.push l).recordWait = s.recordWait := rfl
@[simp] theorem State.push_cmds (s : State) (l : List Due) : (s.push l).cmds = s.cmds := rfl
@[simp] theorem State.push_engines (s : State) (l : List Due) : (s.push l).engines = s.engines := rfl
@[simp] theorem State.push_replays (s : State) (l : List Due) : (s.push l).replays = s.replays := rfl
@[simp] theorem State.push_patches (s : State) (l : List Due) : (s.push l).patches = s.patches := rfl
@[simp] theorem State.push_headWas (s : State) (l : List Due) : (s.push l).headWas = s.headWas := rfl
@[simp] theorem State.push_colls (s : State) (l : List Due) : (s.push l).colls = s.colls := rfl
@[simp] theorem State.push_saves (s : State) (l : List Due) : (s.push l).saves = s.saves := rfl
@[simp] theorem State.push_moves (s : State) (l : List Due) : (s.push l).moves = s.moves := rfl
@[simp] theorem State.push_homeWait (s : State) (l : List Due) : (s.push l).homeWait = s.homeWait := rfl
@[simp] theorem State.push_devReqs (s : State) (l : List Due) : (s.push l).devReqs = s.devReqs := rfl
@[simp] theorem State.push_ratio (s : State) (l : List Due) : (s.push l).ratio = s.ratio := rfl
@[simp] theorem State.push_gangs (s : State) (l : List Due) : (s.push l).gangs = s.gangs := rfl
@[simp] theorem State.push_acc (s : State) (l : List Due) : (s.push l).acc = s.acc := rfl
@[simp] theorem State.push_links (s : State) (l : List Due) : (s.push l).links = s.links := rfl
@[simp] theorem State.push_streams (s : State) (l : List Due) : (s.push l).streams = s.streams := rfl
@[simp] theorem State.push_outstanding (s : State) (l : List Due) : (s.push l).outstanding = s.outstanding := rfl
@[simp] theorem State.push_reinWait (s : State) (l : List Due) : (s.push l).reinWait = s.reinWait := rfl
@[simp] theorem State.push_timed (s : State) (l : List Due) : (s.push l).timed = s.timed := rfl
@[simp] theorem State.push_ckpt (s : State) (l : List Due) : (s.push l).ckpt = s.ckpt := rfl
@[simp] theorem State.push_faults (s : State) (l : List Due) : (s.push l).faults = s.faults := rfl
@[simp] theorem State.push_faultBatch (s : State) (l : List Due) : (s.push l).faultBatch = s.faultBatch := rfl
@[simp] theorem State.push_reported (s : State) (l : List Due) : (s.push l).reported = s.reported := rfl
@[simp] theorem State.push_faultSerial (s : State) (l : List Due) : (s.push l).faultSerial = s.faultSerial := rfl
@[simp] theorem State.push_spl (s : State) (l : List Due) : (s.push l).spl = s.spl := rfl
@[simp] theorem State.push_conns (s : State) (l : List Due) : (s.push l).conns = s.conns := rfl
@[simp] theorem State.push_sessions (s : State) (l : List Due) : (s.push l).sessions = s.sessions := rfl
@[simp] theorem State.push_heldSignals (s : State) (l : List Due) : (s.push l).heldSignals = s.heldSignals := rfl
@[simp] theorem State.push_msixOn (s : State) (l : List Due) : (s.push l).msixOn = s.msixOn := rfl
@[simp] theorem State.push_msixHeld (s : State) (l : List Due) : (s.push l).msixHeld = s.msixHeld := rfl
@[simp] theorem State.push_ideKeys (s : State) (l : List Due) : (s.push l).ideKeys = s.ideKeys := rfl
@[simp] theorem State.push_ideOn (s : State) (l : List Due) : (s.push l).ideOn = s.ideOn := rfl
@[simp] theorem State.push_req0 (s : State) (l : List Due) : (s.push l).req0 = s.req0 := rfl
@[simp] theorem State.push_lcauth (s : State) (l : List Due) : (s.push l).lcauth = s.lcauth := rfl
@[simp] theorem State.push_hot2x (s : State) (l : List Due) : (s.push l).hot2x = s.hot2x := rfl
@[simp] theorem State.push_shadowSeen (s : State) (l : List Due) : (s.push l).shadowSeen = s.shadowSeen := rfl
@[simp] theorem State.push_shadowNow (s : State) (l : List Due) : (s.push l).shadowNow = s.shadowNow := rfl
@[simp] theorem State.push_sramErrAt (s : State) (l : List Due) : (s.push l).sramErrAt = s.sramErrAt := rfl
@[simp] theorem State.push_rowLag (s : State) (l : List Due) : (s.push l).rowLag = s.rowLag := rfl
@[simp] theorem State.push_stretched (s : State) (l : List Due) : (s.push l).stretched = s.stretched := rfl
@[simp] theorem State.push_stretchNext (s : State) (l : List Due) : (s.push l).stretchNext = s.stretchNext := rfl
@[simp] theorem State.push_entry (s : State) (l : List Due) : (s.push l).entry = s.entry := rfl
@[simp] theorem State.push_consAt (s : State) (l : List Due) : (s.push l).consAt = s.consAt := rfl
@[simp] theorem State.push_image (s : State) (l : List Due) : (s.push l).image = s.image := rfl

/-! ## emit -/

@[simp] theorem State.emit_powered (s : State) (o : Out) : (s.emit o).powered = s.powered := rfl
@[simp] theorem State.emit_clock (s : State) (o : Out) : (s.emit o).clock = s.clock := rfl
@[simp] theorem State.emit_agenda (s : State) (o : Out) : (s.emit o).agenda = s.agenda := rfl
@[simp] theorem State.emit_turn (s : State) (o : Out) : (s.emit o).turn = s.turn := rfl
@[simp] theorem State.emit_cur (s : State) (o : Out) : (s.emit o).cur = s.cur := rfl
@[simp] theorem State.emit_pos (s : State) (o : Out) : (s.emit o).pos = s.pos := rfl
@[simp] theorem State.emit_raised (s : State) (o : Out) : (s.emit o).raised = s.raised := rfl
@[simp] theorem State.emit_pendPush (s : State) (o : Out) : (s.emit o).pendPush = s.pendPush := rfl
@[simp] theorem State.emit_fresh (s : State) (o : Out) : (s.emit o).fresh = s.fresh := rfl
@[simp] theorem State.emit_ids (s : State) (o : Out) : (s.emit o).ids = s.ids := rfl
@[simp] theorem State.emit_mem (s : State) (o : Out) : (s.emit o).mem = s.mem := rfl
@[simp] theorem State.emit_l0 (s : State) (o : Out) : (s.emit o).l0 = s.l0 := rfl
@[simp] theorem State.emit_slices (s : State) (o : Out) : (s.emit o).slices = s.slices := rfl
@[simp] theorem State.emit_stallTlb (s : State) (o : Out) : (s.emit o).stallTlb = s.stallTlb := rfl
@[simp] theorem State.emit_paddockTlb (s : State) (o : Out) : (s.emit o).paddockTlb = s.paddockTlb := rfl
@[simp] theorem State.emit_regs (s : State) (o : Out) : (s.emit o).regs = s.regs := rfl
@[simp] theorem State.emit_nv (s : State) (o : Out) : (s.emit o).nv = s.nv := rfl
@[simp] theorem State.emit_ctxs (s : State) (o : Out) : (s.emit o).ctxs = s.ctxs := rfl
@[simp] theorem State.emit_gens (s : State) (o : Out) : (s.emit o).gens = s.gens := rfl
@[simp] theorem State.emit_stalls (s : State) (o : Out) : (s.emit o).stalls = s.stalls := rfl
@[simp] theorem State.emit_hitches (s : State) (o : Out) : (s.emit o).hitches = s.hitches := rfl
@[simp] theorem State.emit_launches (s : State) (o : Out) : (s.emit o).launches = s.launches := rfl
@[simp] theorem State.emit_recordWait (s : State) (o : Out) : (s.emit o).recordWait = s.recordWait := rfl
@[simp] theorem State.emit_cmds (s : State) (o : Out) : (s.emit o).cmds = s.cmds := rfl
@[simp] theorem State.emit_engines (s : State) (o : Out) : (s.emit o).engines = s.engines := rfl
@[simp] theorem State.emit_replays (s : State) (o : Out) : (s.emit o).replays = s.replays := rfl
@[simp] theorem State.emit_patches (s : State) (o : Out) : (s.emit o).patches = s.patches := rfl
@[simp] theorem State.emit_headWas (s : State) (o : Out) : (s.emit o).headWas = s.headWas := rfl
@[simp] theorem State.emit_colls (s : State) (o : Out) : (s.emit o).colls = s.colls := rfl
@[simp] theorem State.emit_saves (s : State) (o : Out) : (s.emit o).saves = s.saves := rfl
@[simp] theorem State.emit_moves (s : State) (o : Out) : (s.emit o).moves = s.moves := rfl
@[simp] theorem State.emit_homeWait (s : State) (o : Out) : (s.emit o).homeWait = s.homeWait := rfl
@[simp] theorem State.emit_devReqs (s : State) (o : Out) : (s.emit o).devReqs = s.devReqs := rfl
@[simp] theorem State.emit_ratio (s : State) (o : Out) : (s.emit o).ratio = s.ratio := rfl
@[simp] theorem State.emit_gangs (s : State) (o : Out) : (s.emit o).gangs = s.gangs := rfl
@[simp] theorem State.emit_acc (s : State) (o : Out) : (s.emit o).acc = s.acc := rfl
@[simp] theorem State.emit_links (s : State) (o : Out) : (s.emit o).links = s.links := rfl
@[simp] theorem State.emit_streams (s : State) (o : Out) : (s.emit o).streams = s.streams := rfl
@[simp] theorem State.emit_outstanding (s : State) (o : Out) : (s.emit o).outstanding = s.outstanding := rfl
@[simp] theorem State.emit_reinWait (s : State) (o : Out) : (s.emit o).reinWait = s.reinWait := rfl
@[simp] theorem State.emit_timed (s : State) (o : Out) : (s.emit o).timed = s.timed := rfl
@[simp] theorem State.emit_ckpt (s : State) (o : Out) : (s.emit o).ckpt = s.ckpt := rfl
@[simp] theorem State.emit_faults (s : State) (o : Out) : (s.emit o).faults = s.faults := rfl
@[simp] theorem State.emit_faultBatch (s : State) (o : Out) : (s.emit o).faultBatch = s.faultBatch := rfl
@[simp] theorem State.emit_reported (s : State) (o : Out) : (s.emit o).reported = s.reported := rfl
@[simp] theorem State.emit_faultSerial (s : State) (o : Out) : (s.emit o).faultSerial = s.faultSerial := rfl
@[simp] theorem State.emit_spl (s : State) (o : Out) : (s.emit o).spl = s.spl := rfl
@[simp] theorem State.emit_conns (s : State) (o : Out) : (s.emit o).conns = s.conns := rfl
@[simp] theorem State.emit_sessions (s : State) (o : Out) : (s.emit o).sessions = s.sessions := rfl
@[simp] theorem State.emit_heldSignals (s : State) (o : Out) : (s.emit o).heldSignals = s.heldSignals := rfl
@[simp] theorem State.emit_msixOn (s : State) (o : Out) : (s.emit o).msixOn = s.msixOn := rfl
@[simp] theorem State.emit_msixHeld (s : State) (o : Out) : (s.emit o).msixHeld = s.msixHeld := rfl
@[simp] theorem State.emit_ideKeys (s : State) (o : Out) : (s.emit o).ideKeys = s.ideKeys := rfl
@[simp] theorem State.emit_ideOn (s : State) (o : Out) : (s.emit o).ideOn = s.ideOn := rfl
@[simp] theorem State.emit_req0 (s : State) (o : Out) : (s.emit o).req0 = s.req0 := rfl
@[simp] theorem State.emit_lcauth (s : State) (o : Out) : (s.emit o).lcauth = s.lcauth := rfl
@[simp] theorem State.emit_hot2x (s : State) (o : Out) : (s.emit o).hot2x = s.hot2x := rfl
@[simp] theorem State.emit_shadowSeen (s : State) (o : Out) : (s.emit o).shadowSeen = s.shadowSeen := rfl
@[simp] theorem State.emit_shadowNow (s : State) (o : Out) : (s.emit o).shadowNow = s.shadowNow := rfl
@[simp] theorem State.emit_sramErrAt (s : State) (o : Out) : (s.emit o).sramErrAt = s.sramErrAt := rfl
@[simp] theorem State.emit_rowLag (s : State) (o : Out) : (s.emit o).rowLag = s.rowLag := rfl
@[simp] theorem State.emit_stretched (s : State) (o : Out) : (s.emit o).stretched = s.stretched := rfl
@[simp] theorem State.emit_stretchNext (s : State) (o : Out) : (s.emit o).stretchNext = s.stretchNext := rfl
@[simp] theorem State.emit_entry (s : State) (o : Out) : (s.emit o).entry = s.entry := rfl
@[simp] theorem State.emit_consAt (s : State) (o : Out) : (s.emit o).consAt = s.consAt := rfl
@[simp] theorem State.emit_image (s : State) (o : Out) : (s.emit o).image = s.image := rfl

/-! ## setReg -/

@[simp] theorem State.setReg_powered (s : State) (r : Reg) (v : DWord) : (s.setReg r v).powered = s.powered := rfl
@[simp] theorem State.setReg_clock (s : State) (r : Reg) (v : DWord) : (s.setReg r v).clock = s.clock := rfl
@[simp] theorem State.setReg_agenda (s : State) (r : Reg) (v : DWord) : (s.setReg r v).agenda = s.agenda := rfl
@[simp] theorem State.setReg_turn (s : State) (r : Reg) (v : DWord) : (s.setReg r v).turn = s.turn := rfl
@[simp] theorem State.setReg_cur (s : State) (r : Reg) (v : DWord) : (s.setReg r v).cur = s.cur := rfl
@[simp] theorem State.setReg_pos (s : State) (r : Reg) (v : DWord) : (s.setReg r v).pos = s.pos := rfl
@[simp] theorem State.setReg_raised (s : State) (r : Reg) (v : DWord) : (s.setReg r v).raised = s.raised := rfl
@[simp] theorem State.setReg_pendPush (s : State) (r : Reg) (v : DWord) : (s.setReg r v).pendPush = s.pendPush := rfl
@[simp] theorem State.setReg_fresh (s : State) (r : Reg) (v : DWord) : (s.setReg r v).fresh = s.fresh := rfl
@[simp] theorem State.setReg_ids (s : State) (r : Reg) (v : DWord) : (s.setReg r v).ids = s.ids := rfl
@[simp] theorem State.setReg_out (s : State) (r : Reg) (v : DWord) : (s.setReg r v).out = s.out := rfl
@[simp] theorem State.setReg_mem (s : State) (r : Reg) (v : DWord) : (s.setReg r v).mem = s.mem := rfl
@[simp] theorem State.setReg_l0 (s : State) (r : Reg) (v : DWord) : (s.setReg r v).l0 = s.l0 := rfl
@[simp] theorem State.setReg_slices (s : State) (r : Reg) (v : DWord) : (s.setReg r v).slices = s.slices := rfl
@[simp] theorem State.setReg_stallTlb (s : State) (r : Reg) (v : DWord) : (s.setReg r v).stallTlb = s.stallTlb := rfl
@[simp] theorem State.setReg_paddockTlb (s : State) (r : Reg) (v : DWord) : (s.setReg r v).paddockTlb = s.paddockTlb := rfl
@[simp] theorem State.setReg_nv (s : State) (r : Reg) (v : DWord) : (s.setReg r v).nv = s.nv := rfl
@[simp] theorem State.setReg_ctxs (s : State) (r : Reg) (v : DWord) : (s.setReg r v).ctxs = s.ctxs := rfl
@[simp] theorem State.setReg_gens (s : State) (r : Reg) (v : DWord) : (s.setReg r v).gens = s.gens := rfl
@[simp] theorem State.setReg_stalls (s : State) (r : Reg) (v : DWord) : (s.setReg r v).stalls = s.stalls := rfl
@[simp] theorem State.setReg_hitches (s : State) (r : Reg) (v : DWord) : (s.setReg r v).hitches = s.hitches := rfl
@[simp] theorem State.setReg_launches (s : State) (r : Reg) (v : DWord) : (s.setReg r v).launches = s.launches := rfl
@[simp] theorem State.setReg_recordWait (s : State) (r : Reg) (v : DWord) : (s.setReg r v).recordWait = s.recordWait := rfl
@[simp] theorem State.setReg_cmds (s : State) (r : Reg) (v : DWord) : (s.setReg r v).cmds = s.cmds := rfl
@[simp] theorem State.setReg_engines (s : State) (r : Reg) (v : DWord) : (s.setReg r v).engines = s.engines := rfl
@[simp] theorem State.setReg_replays (s : State) (r : Reg) (v : DWord) : (s.setReg r v).replays = s.replays := rfl
@[simp] theorem State.setReg_patches (s : State) (r : Reg) (v : DWord) : (s.setReg r v).patches = s.patches := rfl
@[simp] theorem State.setReg_headWas (s : State) (r : Reg) (v : DWord) : (s.setReg r v).headWas = s.headWas := rfl
@[simp] theorem State.setReg_colls (s : State) (r : Reg) (v : DWord) : (s.setReg r v).colls = s.colls := rfl
@[simp] theorem State.setReg_saves (s : State) (r : Reg) (v : DWord) : (s.setReg r v).saves = s.saves := rfl
@[simp] theorem State.setReg_moves (s : State) (r : Reg) (v : DWord) : (s.setReg r v).moves = s.moves := rfl
@[simp] theorem State.setReg_homeWait (s : State) (r : Reg) (v : DWord) : (s.setReg r v).homeWait = s.homeWait := rfl
@[simp] theorem State.setReg_devReqs (s : State) (r : Reg) (v : DWord) : (s.setReg r v).devReqs = s.devReqs := rfl
@[simp] theorem State.setReg_ratio (s : State) (r : Reg) (v : DWord) : (s.setReg r v).ratio = s.ratio := rfl
@[simp] theorem State.setReg_gangs (s : State) (r : Reg) (v : DWord) : (s.setReg r v).gangs = s.gangs := rfl
@[simp] theorem State.setReg_acc (s : State) (r : Reg) (v : DWord) : (s.setReg r v).acc = s.acc := rfl
@[simp] theorem State.setReg_links (s : State) (r : Reg) (v : DWord) : (s.setReg r v).links = s.links := rfl
@[simp] theorem State.setReg_streams (s : State) (r : Reg) (v : DWord) : (s.setReg r v).streams = s.streams := rfl
@[simp] theorem State.setReg_outstanding (s : State) (r : Reg) (v : DWord) : (s.setReg r v).outstanding = s.outstanding := rfl
@[simp] theorem State.setReg_reinWait (s : State) (r : Reg) (v : DWord) : (s.setReg r v).reinWait = s.reinWait := rfl
@[simp] theorem State.setReg_timed (s : State) (r : Reg) (v : DWord) : (s.setReg r v).timed = s.timed := rfl
@[simp] theorem State.setReg_ckpt (s : State) (r : Reg) (v : DWord) : (s.setReg r v).ckpt = s.ckpt := rfl
@[simp] theorem State.setReg_faults (s : State) (r : Reg) (v : DWord) : (s.setReg r v).faults = s.faults := rfl
@[simp] theorem State.setReg_faultBatch (s : State) (r : Reg) (v : DWord) : (s.setReg r v).faultBatch = s.faultBatch := rfl
@[simp] theorem State.setReg_reported (s : State) (r : Reg) (v : DWord) : (s.setReg r v).reported = s.reported := rfl
@[simp] theorem State.setReg_faultSerial (s : State) (r : Reg) (v : DWord) : (s.setReg r v).faultSerial = s.faultSerial := rfl
@[simp] theorem State.setReg_spl (s : State) (r : Reg) (v : DWord) : (s.setReg r v).spl = s.spl := rfl
@[simp] theorem State.setReg_conns (s : State) (r : Reg) (v : DWord) : (s.setReg r v).conns = s.conns := rfl
@[simp] theorem State.setReg_sessions (s : State) (r : Reg) (v : DWord) : (s.setReg r v).sessions = s.sessions := rfl
@[simp] theorem State.setReg_heldSignals (s : State) (r : Reg) (v : DWord) : (s.setReg r v).heldSignals = s.heldSignals := rfl
@[simp] theorem State.setReg_msixOn (s : State) (r : Reg) (v : DWord) : (s.setReg r v).msixOn = s.msixOn := rfl
@[simp] theorem State.setReg_msixHeld (s : State) (r : Reg) (v : DWord) : (s.setReg r v).msixHeld = s.msixHeld := rfl
@[simp] theorem State.setReg_ideKeys (s : State) (r : Reg) (v : DWord) : (s.setReg r v).ideKeys = s.ideKeys := rfl
@[simp] theorem State.setReg_ideOn (s : State) (r : Reg) (v : DWord) : (s.setReg r v).ideOn = s.ideOn := rfl
@[simp] theorem State.setReg_req0 (s : State) (r : Reg) (v : DWord) : (s.setReg r v).req0 = s.req0 := rfl
@[simp] theorem State.setReg_lcauth (s : State) (r : Reg) (v : DWord) : (s.setReg r v).lcauth = s.lcauth := rfl
@[simp] theorem State.setReg_hot2x (s : State) (r : Reg) (v : DWord) : (s.setReg r v).hot2x = s.hot2x := rfl
@[simp] theorem State.setReg_shadowSeen (s : State) (r : Reg) (v : DWord) : (s.setReg r v).shadowSeen = s.shadowSeen := rfl
@[simp] theorem State.setReg_shadowNow (s : State) (r : Reg) (v : DWord) : (s.setReg r v).shadowNow = s.shadowNow := rfl
@[simp] theorem State.setReg_sramErrAt (s : State) (r : Reg) (v : DWord) : (s.setReg r v).sramErrAt = s.sramErrAt := rfl
@[simp] theorem State.setReg_rowLag (s : State) (r : Reg) (v : DWord) : (s.setReg r v).rowLag = s.rowLag := rfl
@[simp] theorem State.setReg_stretched (s : State) (r : Reg) (v : DWord) : (s.setReg r v).stretched = s.stretched := rfl
@[simp] theorem State.setReg_stretchNext (s : State) (r : Reg) (v : DWord) : (s.setReg r v).stretchNext = s.stretchNext := rfl
@[simp] theorem State.setReg_entry (s : State) (r : Reg) (v : DWord) : (s.setReg r v).entry = s.entry := rfl
@[simp] theorem State.setReg_consAt (s : State) (r : Reg) (v : DWord) : (s.setReg r v).consAt = s.consAt := rfl
@[simp] theorem State.setReg_image (s : State) (r : Reg) (v : DWord) : (s.setReg r v).image = s.image := rfl

/-! ## setField -/

@[simp] theorem State.setField_powered (s : State) (r : Reg) (h l v : Nat) : (s.setField r h l v).powered = s.powered := rfl
@[simp] theorem State.setField_clock (s : State) (r : Reg) (h l v : Nat) : (s.setField r h l v).clock = s.clock := rfl
@[simp] theorem State.setField_agenda (s : State) (r : Reg) (h l v : Nat) : (s.setField r h l v).agenda = s.agenda := rfl
@[simp] theorem State.setField_turn (s : State) (r : Reg) (h l v : Nat) : (s.setField r h l v).turn = s.turn := rfl
@[simp] theorem State.setField_cur (s : State) (r : Reg) (h l v : Nat) : (s.setField r h l v).cur = s.cur := rfl
@[simp] theorem State.setField_pos (s : State) (r : Reg) (h l v : Nat) : (s.setField r h l v).pos = s.pos := rfl
@[simp] theorem State.setField_raised (s : State) (r : Reg) (h l v : Nat) : (s.setField r h l v).raised = s.raised := rfl
@[simp] theorem State.setField_pendPush (s : State) (r : Reg) (h l v : Nat) : (s.setField r h l v).pendPush = s.pendPush := rfl
@[simp] theorem State.setField_fresh (s : State) (r : Reg) (h l v : Nat) : (s.setField r h l v).fresh = s.fresh := rfl
@[simp] theorem State.setField_ids (s : State) (r : Reg) (h l v : Nat) : (s.setField r h l v).ids = s.ids := rfl
@[simp] theorem State.setField_out (s : State) (r : Reg) (h l v : Nat) : (s.setField r h l v).out = s.out := rfl
@[simp] theorem State.setField_mem (s : State) (r : Reg) (h l v : Nat) : (s.setField r h l v).mem = s.mem := rfl
@[simp] theorem State.setField_l0 (s : State) (r : Reg) (h l v : Nat) : (s.setField r h l v).l0 = s.l0 := rfl
@[simp] theorem State.setField_slices (s : State) (r : Reg) (h l v : Nat) : (s.setField r h l v).slices = s.slices := rfl
@[simp] theorem State.setField_stallTlb (s : State) (r : Reg) (h l v : Nat) : (s.setField r h l v).stallTlb = s.stallTlb := rfl
@[simp] theorem State.setField_paddockTlb (s : State) (r : Reg) (h l v : Nat) : (s.setField r h l v).paddockTlb = s.paddockTlb := rfl
@[simp] theorem State.setField_nv (s : State) (r : Reg) (h l v : Nat) : (s.setField r h l v).nv = s.nv := rfl
@[simp] theorem State.setField_ctxs (s : State) (r : Reg) (h l v : Nat) : (s.setField r h l v).ctxs = s.ctxs := rfl
@[simp] theorem State.setField_gens (s : State) (r : Reg) (h l v : Nat) : (s.setField r h l v).gens = s.gens := rfl
@[simp] theorem State.setField_stalls (s : State) (r : Reg) (h l v : Nat) : (s.setField r h l v).stalls = s.stalls := rfl
@[simp] theorem State.setField_hitches (s : State) (r : Reg) (h l v : Nat) : (s.setField r h l v).hitches = s.hitches := rfl
@[simp] theorem State.setField_launches (s : State) (r : Reg) (h l v : Nat) : (s.setField r h l v).launches = s.launches := rfl
@[simp] theorem State.setField_recordWait (s : State) (r : Reg) (h l v : Nat) : (s.setField r h l v).recordWait = s.recordWait := rfl
@[simp] theorem State.setField_cmds (s : State) (r : Reg) (h l v : Nat) : (s.setField r h l v).cmds = s.cmds := rfl
@[simp] theorem State.setField_engines (s : State) (r : Reg) (h l v : Nat) : (s.setField r h l v).engines = s.engines := rfl
@[simp] theorem State.setField_replays (s : State) (r : Reg) (h l v : Nat) : (s.setField r h l v).replays = s.replays := rfl
@[simp] theorem State.setField_patches (s : State) (r : Reg) (h l v : Nat) : (s.setField r h l v).patches = s.patches := rfl
@[simp] theorem State.setField_headWas (s : State) (r : Reg) (h l v : Nat) : (s.setField r h l v).headWas = s.headWas := rfl
@[simp] theorem State.setField_colls (s : State) (r : Reg) (h l v : Nat) : (s.setField r h l v).colls = s.colls := rfl
@[simp] theorem State.setField_saves (s : State) (r : Reg) (h l v : Nat) : (s.setField r h l v).saves = s.saves := rfl
@[simp] theorem State.setField_moves (s : State) (r : Reg) (h l v : Nat) : (s.setField r h l v).moves = s.moves := rfl
@[simp] theorem State.setField_homeWait (s : State) (r : Reg) (h l v : Nat) : (s.setField r h l v).homeWait = s.homeWait := rfl
@[simp] theorem State.setField_devReqs (s : State) (r : Reg) (h l v : Nat) : (s.setField r h l v).devReqs = s.devReqs := rfl
@[simp] theorem State.setField_ratio (s : State) (r : Reg) (h l v : Nat) : (s.setField r h l v).ratio = s.ratio := rfl
@[simp] theorem State.setField_gangs (s : State) (r : Reg) (h l v : Nat) : (s.setField r h l v).gangs = s.gangs := rfl
@[simp] theorem State.setField_acc (s : State) (r : Reg) (h l v : Nat) : (s.setField r h l v).acc = s.acc := rfl
@[simp] theorem State.setField_links (s : State) (r : Reg) (h l v : Nat) : (s.setField r h l v).links = s.links := rfl
@[simp] theorem State.setField_streams (s : State) (r : Reg) (h l v : Nat) : (s.setField r h l v).streams = s.streams := rfl
@[simp] theorem State.setField_outstanding (s : State) (r : Reg) (h l v : Nat) : (s.setField r h l v).outstanding = s.outstanding := rfl
@[simp] theorem State.setField_reinWait (s : State) (r : Reg) (h l v : Nat) : (s.setField r h l v).reinWait = s.reinWait := rfl
@[simp] theorem State.setField_timed (s : State) (r : Reg) (h l v : Nat) : (s.setField r h l v).timed = s.timed := rfl
@[simp] theorem State.setField_ckpt (s : State) (r : Reg) (h l v : Nat) : (s.setField r h l v).ckpt = s.ckpt := rfl
@[simp] theorem State.setField_faults (s : State) (r : Reg) (h l v : Nat) : (s.setField r h l v).faults = s.faults := rfl
@[simp] theorem State.setField_faultBatch (s : State) (r : Reg) (h l v : Nat) : (s.setField r h l v).faultBatch = s.faultBatch := rfl
@[simp] theorem State.setField_reported (s : State) (r : Reg) (h l v : Nat) : (s.setField r h l v).reported = s.reported := rfl
@[simp] theorem State.setField_faultSerial (s : State) (r : Reg) (h l v : Nat) : (s.setField r h l v).faultSerial = s.faultSerial := rfl
@[simp] theorem State.setField_spl (s : State) (r : Reg) (h l v : Nat) : (s.setField r h l v).spl = s.spl := rfl
@[simp] theorem State.setField_conns (s : State) (r : Reg) (h l v : Nat) : (s.setField r h l v).conns = s.conns := rfl
@[simp] theorem State.setField_sessions (s : State) (r : Reg) (h l v : Nat) : (s.setField r h l v).sessions = s.sessions := rfl
@[simp] theorem State.setField_heldSignals (s : State) (r : Reg) (h l v : Nat) : (s.setField r h l v).heldSignals = s.heldSignals := rfl
@[simp] theorem State.setField_msixOn (s : State) (r : Reg) (h l v : Nat) : (s.setField r h l v).msixOn = s.msixOn := rfl
@[simp] theorem State.setField_msixHeld (s : State) (r : Reg) (h l v : Nat) : (s.setField r h l v).msixHeld = s.msixHeld := rfl
@[simp] theorem State.setField_ideKeys (s : State) (r : Reg) (h l v : Nat) : (s.setField r h l v).ideKeys = s.ideKeys := rfl
@[simp] theorem State.setField_ideOn (s : State) (r : Reg) (h l v : Nat) : (s.setField r h l v).ideOn = s.ideOn := rfl
@[simp] theorem State.setField_req0 (s : State) (r : Reg) (h l v : Nat) : (s.setField r h l v).req0 = s.req0 := rfl
@[simp] theorem State.setField_lcauth (s : State) (r : Reg) (h l v : Nat) : (s.setField r h l v).lcauth = s.lcauth := rfl
@[simp] theorem State.setField_hot2x (s : State) (r : Reg) (h l v : Nat) : (s.setField r h l v).hot2x = s.hot2x := rfl
@[simp] theorem State.setField_shadowSeen (s : State) (r : Reg) (h l v : Nat) : (s.setField r h l v).shadowSeen = s.shadowSeen := rfl
@[simp] theorem State.setField_shadowNow (s : State) (r : Reg) (h l v : Nat) : (s.setField r h l v).shadowNow = s.shadowNow := rfl
@[simp] theorem State.setField_sramErrAt (s : State) (r : Reg) (h l v : Nat) : (s.setField r h l v).sramErrAt = s.sramErrAt := rfl
@[simp] theorem State.setField_rowLag (s : State) (r : Reg) (h l v : Nat) : (s.setField r h l v).rowLag = s.rowLag := rfl
@[simp] theorem State.setField_stretched (s : State) (r : Reg) (h l v : Nat) : (s.setField r h l v).stretched = s.stretched := rfl
@[simp] theorem State.setField_stretchNext (s : State) (r : Reg) (h l v : Nat) : (s.setField r h l v).stretchNext = s.stretchNext := rfl
@[simp] theorem State.setField_entry (s : State) (r : Reg) (h l v : Nat) : (s.setField r h l v).entry = s.entry := rfl
@[simp] theorem State.setField_consAt (s : State) (r : Reg) (h l v : Nat) : (s.setField r h l v).consAt = s.consAt := rfl
@[simp] theorem State.setField_image (s : State) (r : Reg) (h l v : Nat) : (s.setField r h l v).image = s.image := rfl

/-! ## The fields that change -/

@[simp] theorem State.push_agenda (s : State) (l : List Due) : (s.push l).agenda = s.agenda ++ l := rfl
@[simp] theorem State.emit_out (s : State) (o : Out) : (s.emit o).out = s.out ++ [o] := rfl
@[simp] theorem State.setCtx_ctxs (s : State) (k : Nat) (c : Ctx) : (s.setCtx k c).ctxs = s.ctxs.put k c := rfl

@[simp] theorem State.setCtx_ctx (s : State) (k : Nat) (c : Ctx) : (s.setCtx k c).ctx k = c := by
  simp [State.ctx]

theorem State.setCtx_ctx_ne (s : State) (k j : Nat) (c : Ctx) (h : k ≠ j) : (s.setCtx k c).ctx j = s.ctx j := by
  simp [State.ctx, SMap.get?_put_ne _ _ _ _ h]

@[simp] theorem State.modCtx_ctx (s : State) (k : Nat) (f : Ctx → Ctx) : (s.modCtx k f).ctx k = f (s.ctx k) := by
  simp [State.modCtx]

theorem State.modCtx_ctx_ne (s : State) (k j : Nat) (f : Ctx → Ctx) (h : k ≠ j) : (s.modCtx k f).ctx j = s.ctx j :=
  State.setCtx_ctx_ne s k j _ h

@[simp] theorem State.modMe_me (s : State) (f : Ctx → Ctx) : (s.modMe f).me = f s.me := by
  simp [State.modMe, State.me, State.modCtx, State.setCtx, State.ctx]

theorem State.modMe_ctx_ne (s : State) (j : Nat) (f : Ctx → Ctx) (h : s.cur ≠ j) : (s.modMe f).ctx j = s.ctx j :=
  State.modCtx_ctx_ne s _ j f h

@[simp] theorem State.setCtx_setCtx (s : State) (k : Nat) (c d : Ctx) : (s.setCtx k c).setCtx k d = s.setCtx k d := by
  simp [State.setCtx]

@[simp] theorem State.modMe_modMe (s : State) (f g : Ctx → Ctx) : (s.modMe f).modMe g = s.modMe (fun c => g (f c)) := by
  simp [State.modMe, State.modCtx, State.setCtx_setCtx]

/-- A change of a context depends on nothing but what it makes of that context. -/
theorem State.modMe_congr (s : State) (f g : Ctx → Ctx) (h : f s.me = g s.me) : s.modMe f = s.modMe g := by
  simp only [State.modMe, State.modCtx, State.me] at *
  rw [h]

theorem State.land_me (s : State) (e : Landing) : (s.land e).me = { s.me with land := insertLanding s.me.land e } := by
  simp [State.land]

@[simp] theorem State.setReg_reg (s : State) (r : Reg) (v : DWord) : (s.setReg r v).reg r = v := by
  simp [State.reg, State.setReg]

theorem State.setReg_reg_ne (s : State) (r q : Reg) (v : DWord) (h : r.key ≠ q.key) : (s.setReg r v).reg q = s.reg q := by
  simp [State.reg, State.setReg, SMap.getD_put_ne _ _ _ _ _ h]

@[simp] theorem State.setField_reg (s : State) (r : Reg) (h l v : Nat) : (s.setField r h l v).reg r = setBits (s.reg r) h l v := by
  simp [State.setField]

@[simp] theorem State.setCtx_reg (s : State) (k : Nat) (c : Ctx) (r : Reg) : (s.setCtx k c).reg r = s.reg r := rfl
@[simp] theorem State.modCtx_reg (s : State) (k : Nat) (f : Ctx → Ctx) (r : Reg) : (s.modCtx k f).reg r = s.reg r := rfl
@[simp] theorem State.modMe_reg (s : State) (f : Ctx → Ctx) (r : Reg) : (s.modMe f).reg r = s.reg r := rfl
@[simp] theorem State.push_reg (s : State) (l : List Due) (r : Reg) : (s.push l).reg r = s.reg r := rfl
@[simp] theorem State.emit_reg (s : State) (o : Out) (r : Reg) : (s.emit o).reg r = s.reg r := rfl
@[simp] theorem State.push_ctx (s : State) (l : List Due) (k : Nat) : (s.push l).ctx k = s.ctx k := rfl
@[simp] theorem State.emit_ctx (s : State) (o : Out) (k : Nat) : (s.emit o).ctx k = s.ctx k := rfl
@[simp] theorem State.setReg_ctx (s : State) (r : Reg) (v : DWord) (k : Nat) : (s.setReg r v).ctx k = s.ctx k := rfl
@[simp] theorem State.setReg_me (s : State) (r : Reg) (v : DWord) : (s.setReg r v).me = s.me := rfl
@[simp] theorem State.push_me (s : State) (l : List Due) : (s.push l).me = s.me := rfl

end Sys2Proof.Machine
end

