-- ==== Sys2Proof/Laws/Words.lean ====
section
/-! SUPPORT. Laws/Words.lean: how the effect of a word is read off: each primitive under a bind, what a guard makes of a word,
and what a word's result comes to. -/

namespace Sys2Proof.Machine

variable {α β : Type}

/-! ## Primitives under a bind -/

@[simp] theorem W.pure_apply (x : α) (s : State) : (pure x : W α) s = .ok (x, s) := rfl
@[simp] theorem W.getS_bind (f : State → W β) (s : State) : (getS >>= f) s = f s s := rfl
@[simp] theorem W.getMe_bind (f : Ctx → W β) (s : State) : (getMe >>= f) s = f s.me s := rfl
@[simp] theorem W.modS_bind (g : State → State) (f : Unit → W β) (s : State) : (modS g >>= f) s = f () (g s) := rfl
@[simp] theorem W.modMe_bind (g : Ctx → Ctx) (f : Unit → W β) (s : State) : (modMe g >>= f) s = f () (s.modMe g) := rfl
@[simp] theorem W.modS_apply (g : State → State) (s : State) : modS g s = .ok ((), g s) := rfl
@[simp] theorem W.modMe_apply (g : Ctx → Ctx) (s : State) : modMe g s = .ok ((), s.modMe g) := rfl
@[simp] theorem W.getS_apply (s : State) : getS s = .ok (s, s) := rfl
@[simp] theorem W.getMe_apply (s : State) : getMe s = .ok (s.me, s) := rfl
@[simp] theorem W.land_apply (n : Nat) (ws : List RegWrite) (s : State) : land n ws s = .ok ((), s.land (landing s n ws)) := rfl
@[simp] theorem W.land_bind (n : Nat) (ws : List RegWrite) (f : Unit → W β) (s : State) :
    (land n ws >>= f) s = f () (s.land (landing s n ws)) := rfl
@[simp] theorem W.raise_bind (c i : Nat) (l : Lame) (f : α → W β) (s : State) : ((raise c i l : W α) >>= f) s = (raise c i l : W β) s := rfl
@[simp] theorem W.hold_bind (f : α → W β) (s : State) : ((hold : W α) >>= f) s = (hold : W β) s := rfl
@[simp] theorem W.illegalEncoding_bind (f : α → W β) (s : State) :
    ((illegalEncoding : W α) >>= f) s = (illegalEncoding : W β) s := rfl
theorem W.ite_bind (p : Prop) [Decidable p] (a b : W α) (f : α → W β) (s : State) :
    ((if p then a else b) >>= f) s = if p then (a >>= f) s else (b >>= f) s := by split <;> rfl
theorem W.ite_apply (p : Prop) [Decidable p] (a b : W α) (s : State) : (if p then a else b) s = if p then a s else b s := by
  split <;> rfl

/-- What a bind answers when its first part goes on. -/
theorem W.bind_ok {m : W α} {f : α → W β} {s t : State} {x : α} (h : m s = .ok (x, t)) : (m >>= f) s = f x t := by
  simp only [bind, StateT.bind, h, Except.bind]

/-- What a bind answers when its first part stops. -/
theorem W.bind_error {m : W α} {f : α → W β} {s : State} {e : Stop} (h : m s = .error e) : (m >>= f) s = .error e := by
  simp only [bind, StateT.bind, h, Except.bind]

/-- A bind goes on exactly when both of its parts do. -/
theorem W.bind_eq_ok {m : W α} {f : α → W β} {s t : State} {y : β} :
    (m >>= f) s = .ok (y, t) ↔ ∃ x u, m s = .ok (x, u) ∧ f x u = .ok (y, t) := by
  simp only [bind, StateT.bind]
  constructor
  · intro h
    match hm : m s with
    | .ok (x, u) => rw [hm] at h; exact ⟨x, u, rfl, h⟩
    | .error e => rw [hm] at h; cases h
  · rintro ⟨x, u, hm, hf⟩
    rw [hm]; exact hf

/-! ## Sources -/

@[simp] theorem sSrc_bind (r : RIdx) (f : Lamed DWord → W β) (s : State) : (sSrc r >>= f) s = f (s.me.sreg r) s := rfl

theorem consume_ok {i : Nat} {l : Lame} (h : l = 0) (s : State) : consume i l s = .ok ((), s) := by
  subst h; rfl

theorem consume_raise {i : Nat} {l : Lame} (h : l ≠ 0) : consume i l = raise 7 (l.toNat + 256 * i) l := by
  unfold consume
  rw [if_neg h]

/-- A consuming use of a scalar that is not lame reads its value. -/
theorem sUse_bind {r : RIdx} {s : State} (h : (s.me.sreg r).lame = 0) (f : DWord → W β) : (sUse r >>= f) s = f (s.me.sreg r).val s := by
  apply W.bind_ok; simp [sUse, consume, h]

/-- A consuming use of a scalar that is lame raises UNCORRECTABLE. -/
theorem sUse_bind_lame {r : RIdx} {s : State} (h : (s.me.sreg r).lame ≠ 0) (f : DWord → W β) :
    (sUse r >>= f) s = (raise 7 ((s.me.sreg r).lame.toNat + 256 * r.toNat) (s.me.sreg r).lame : W β) s := by
  simp only [sUse, consume_raise h, bind_assoc, W.getMe_bind, W.raise_bind]

theorem aUse_bind {r : RIdx} {s : State} (h : (s.me.areg r).lame = 0) (f : DWord → W β) : (aUse r >>= f) s = f (s.me.areg r).val s := by
  apply W.bind_ok; simp [aUse, consume, h]

theorem nUse_bind {r : RIdx} {s : State} (h : (s.me.nreg r).lame = 0) (f : DWord → W β) : (nUse r >>= f) s = f (s.me.nreg r).val s := by
  apply W.bind_ok; simp [nUse, consume, h]

theorem windowOf_bind {i : RIdx} {s : State} (h : s.me.window i < s.me.vregs) (f : Nat → W β) :
    (windowOf i >>= f) s = f (s.me.window i) s := by
  apply W.bind_ok; simp [windowOf, h]

theorem wSrc_bind {i : RIdx} {s : State} (h : s.me.window i < s.me.vregs) (f : Lamed VReg → W β) :
    (wSrc i >>= f) s = f (s.me.vreg (s.me.window i)) s := by
  apply W.bind_ok
  simp only [wSrc]
  rw [windowOf_bind h]; rfl

/-! ## Guards -/

/-- A word whose guard reads 1 takes its effect. -/
theorem runWord_live {s : State} {g : PIdx} (h : s.me.preg g = ⟨true, 0⟩) (b : W Unit) : runWord g b s = .next (settle s (b s)) := by
  simp only [runWord, guarded, W.getMe_bind, h]; rfl

/-- A word whose guard reads 0 has no effect. -/
theorem runWord_squashed {s : State} {g : PIdx} (h : s.me.preg g = ⟨false, 0⟩) (b : W Unit) :
    runWord g b s = .next { s with raised := none } := by
  simp only [runWord, guarded, W.getMe_bind, h]; rfl

/-- A word whose guard reads 0 and is lame is a consuming use. -/
theorem runWord_lame {s : State} {g : PIdx} {l : Lame} (hl : l ≠ 0) (h : s.me.preg g = ⟨false, l⟩) (b : W Unit) :
    runWord g b s = .next (settle s ((raise 7 (l.toNat + 256 * (108 + g.toNat)) l : W Unit) s)) := by
  have hg : guardUse g s = (raise 7 (l.toNat + 256 * (108 + g.toNat)) l : W Unit) s := by
    simp only [guardUse, W.getMe_bind, h, consume_raise hl]
  simp only [runWord, guarded, W.getMe_bind, h, hl, if_false, Bool.false_eq_true, hg]

/-! ## Results -/

@[simp] theorem settle_ok (s t : State) : settle s (.ok ((), t)) = { t with raised := none } := rfl

/-- A word that raises a cause leaves the state in which that cause has been taken at its group. -/
theorem settle_cause (s : State) (c : Cause) :
    settle s (.error (.cause c)) = { s.takeCause s.cur c s.pos.group with raised := some (.cause c) } := rfl

@[simp] theorem settle_held (s : State) : settle s (.error .held) = { s with raised := some .held } := rfl

end Sys2Proof.Machine
end

