-- ==== Sys2Proof/Tests/Slice0.lean ====
section
/-! SUPPORT. Tests/Slice0.lean: what the checks of WellFormed refuse, words written out from the spec's encodings, a few results that
the spec works out, and for every statement a state and operands that meet its hypotheses. -/

namespace Sys2Proof.Tests
open Sys2Proof Sys2Proof.Machine Sys2Proof.Claims

-- one theorem after another: every check here runs in the kernel, and many waiting threads would take much memory
set_option Elab.async false

/-! ## Ill-formed terms, one for each check -/

theorem test_wf_scalar_destination : (Instr.add {} 26 0 0).wf = false ∧ (Instr.add {} 25 0 0).wf = true := by decide
theorem test_wf_literal_ends_group : (Instr.addi { ch := .link } 1 1 (.lit 7)).wf = false ∧ (Instr.addi { ch := .link } 1 1 (.field 7)).wf = true := by decide
theorem test_wf_movl_needs_stop : (Instr.movl { ch := .pad } 1 7).wf = false := by decide
theorem test_wf_loopr_selector : (Instr.loopr { nx := .loop } 1 1).wf = false := by decide
theorem test_wf_tret_selector : (Instr.tret { nx := .stop }).wf = false := by decide
theorem test_wf_csr_number : (Instr.csrr {} 1 0x00C).wf = false ∧ (Instr.csrw {} 1 0x300).wf = false ∧ (Instr.csrr {} 1 0x2FF).wf = true := by decide
theorem test_wf_cvt_part : (Instr.cvtf32 {} (.win 0) (.win 0) ⟨.e4m3, 3⟩).wf = true ∧ (Instr.cvtf32 {} (.win 0) (.win 0) ⟨.bf16, 2⟩).wf = false := by decide
theorem test_wf_load_order : (Instr.ldw {} (.reg 1) 2 { ord := .rel }).wf = false := by decide
theorem test_wf_store_order : (Instr.stw {} 1 (.reg 2) { ord := .acq }).wf = false := by decide
theorem test_wf_send_order : (Instr.rsend {} 1 ⟨2, false⟩ .acq .module).wf = false := by decide
theorem test_wf_fence_order : (Instr.fence {} .rlx .module).wf = false := by decide
theorem test_wf_flgwait_order : (Instr.flgwait {} 1 2 3 { ord := .rlx }).wf = false := by decide
theorem test_wf_offset_ends_group : (Instr.ldw { ch := .pad } (.reg 1) 2 { off := some 4 }).wf = false := by decide
theorem test_wf_acas_pair : (Instr.acas {} 31 2 {}).wf = false ∧ (Instr.acas {} 30 2 {}).wf = true := by decide
theorem test_wf_places : (Instr.doorbell .host 256 0 4 0).wf = false ∧ (Instr.watchdogExpiry 4).wf = false ∧ (Instr.dramRefresh 4096).wf = false ∧
    (Instr.thermalControlTick 128).wf = false ∧ (Instr.creditReturn 384).wf = false ∧ (Instr.portLinkChange 16 true).wf = false ∧
    (Instr.wearSample 4352 0 0 0).wf = false ∧ (Instr.bar4Read .host 1 0 8).wf = false := by decide

/-! ## Words of the spec's own encodings (R331, R339, R375, R404, R439, R470) -/

theorem test_decode_group_R331 : decodeWord 0x540C3074 0 = .ok (.vfma ⟨.link, 2⟩ 3 (.win 1) (.peek 4)) ∧
    decodeWord 0x010A14A8 0 = .ok (.addi ⟨.stop, .loop, 0⟩ 5 5 (.field 8)) ∧ decodeWord 0xC00E1C00 0x00123456 = .ok (.movl {} 7 0x00123456) := by decide
theorem test_decode_scalar_R339 : decodeWord 0x0002A485 0 = .ok (.divu {} 9 4 5) ∧ decodeWord 0x007208FC 0 = .ok (.cmplti ⟨.stop, .seq, 3⟩ 2 7 (.field 28)) ∧
    decodeWord 0x00129306 0 = .ok (.plog {} .andn 4 0 6) ∧ decodeWord 0x001B8121 0 = .ok (.setvt {} 1 4 false 2) ∧
    decodeWord 0xC01A0400 0x000186A0 = .ok (.hbar {} 1 (.lit 100000)) ∧ decodeWord 0x801400A1 0 = .ok (.loopr ⟨.pad, .seq, 0⟩ 5 1) ∧
    decodeWord 0x00191421 0 = .ok (.hitchJoin {} 5 1) ∧ decodeWord 0x00178000 0 = .ok (.tret {}) := by decide
theorem test_decode_vector_R375 : decodeWord 0x10003042 0 = .ok (.vadd {} (.win 3) (.win 1) (.win 2)) ∧
    decodeWord 0x100C7884 0 = .ok (.vfma {} 7 (.pop 2) (.win 4)) ∧ decodeWord 0x1A702277 0 = .ok (.vclt ⟨.stop, 5⟩ 2 (.win 9) (.peek 7)) ∧
    decodeWord 0xD05C5140 0xFFFFFFFF = .ok (.vaddi {} (.win 5) (.win 5) (.lit 0xFFFFFFFF)) ∧ decodeWord 0x10901028 0 = .ok (.kset {} 1 (.field 40)) ∧
    decodeWord 0x109E5080 0 = .ok (.vrsum {} (.push 5) (.win 2)) ∧ decodeWord 0x11083184 0 = .ok (.vdefer {} 3 (.win 6) 4) := by decide
theorem test_decode_conversions_R404 : decodeWord 0x10D83060 0 = .ok (.cvte4m3 {} (.win 3) (.win 1) ⟨.fp32, 2⟩) ∧
    decodeWord 0x10CC8893 0 = .ok (.cvtf32 {} (.win 8) (.pop 2) ⟨.e4m3, 1⟩) ∧ decodeWord 0x10F45084 0 = .ok (.mxq {} (.win 5) (.win 2) ⟨.e2m1, 0, false⟩) ∧
    decodeWord 0x10F86138 0 = .ok (.mxdq {} (.win 6) (.win 4) ⟨.e4m3, 3, true⟩) ∧ decodeWord 0x10FC9140 0 = .ok (.mxgets {} (.win 9) (.win 5)) ∧
    decodeWord 0x11005240 0 = .ok (.mxsets {} 5 (.win 9)) ∧ decodeWord 0x11047001 0 = .ok (.vrand {} (.win 7) true) := by decide
theorem test_decode_matrix_R439 : decodeWord 0x20019C00 0 = .ok (.nfroms {} 3 7) ∧ decodeWord 0x201000FF 0 = .ok (.nseti {} 0 (.field 255)) ∧
    decodeWord 0x20200005 0 = .ok (.ngo {} 5) ∧ decodeWord 0xE0308000 0x000186A0 = .ok (.nwait {} 1 (.lit 100000)) ∧
    decodeWord 0x204A0000 0 = .ok (.nstat {} 20) ∧ decodeWord 0x20600000 0 = .ok (.nthaw {}) ∧ decodeWord 0x207043FF 0 = .ok (.ndrain {} 16 1023) ∧
    decodeWord 0x209A8000 0 = .ok (.npos {} 21) ∧ decodeWord 0x20A04400 0 = .ok (.nseek {} 17) ∧ decodeWord 0x20B04802 0 = .ok (.wfetch {} 18 2) ∧
    decodeWord 0x20C00001 0 = .ok (.wswap {} true) ∧ decodeWord 0x20D04DFF 0 = .ok (.aclr {} 19 511) ∧ decodeWord 0x20E02000 0 = .ok (.epicfg {} 8 0) ∧
    decodeWord 0x20FB5C00 0 = .ok (.cksum {} 22 23) ∧ decodeWord 0x21000001 0 = .ok (.ncutAbandon {}) := by decide
theorem test_decode_access_R470 : decodeWord 0x3018A1C0 0 = .ok (.ldd {} (.reg 5) 3 {}) ∧
    decodeWord 0x3038629A 0 = .ok (.std {} 3 (.reg 5) ⟨.rel, some .module, none⟩) ∧
    decodeWord 0xF0406200 0x00000340 = .ok (.ldv {} (.win 3) 4 ⟨.rlx, none, some ⟨.p4, true, 0⟩⟩) ∧ decodeWord 0x30680213 0 = .ok (.tdesc {} 4 3 true) ∧
    decodeWord 0x3084440C 0 = .ok (.tgather {} 2 8 12) ∧ decodeWord 0x30B05264 0 = .ok (.chwaitf {} 2 ⟨4, false⟩ (.field 100)) ∧
    decodeWord 0x30D8C113 0 = .ok (.aadd {} 6 2 ⟨.acqrel, some .die⟩) ∧ decodeWord 0x3120001A 0 = .ok (.fence {} .rel .module) ∧
    decodeWord 0xF1402184 0x004E2019 = .ok (.flgwait {} 1 3 4 ⟨.acq, some .module, .eq, 5000⟩) ∧
    decodeWord 0x31606398 0 = .ok (.gcheck {} 3 7 .module false) ∧ decodeWord 0x31692480 0 = .ok (.afroms {} 9 9) ∧
    decodeWord 0x31708270 0 = .ok (.aaddi {} 4 4 (.field 0x70)) := by decide
theorem test_decode_refuses : decodeWord 0x001E8000 0 = .error .reservedOpcode ∧ decodeWord 0x0F000000 0 = .error .badSelector := by decide
theorem test_table_word : decodeTableWord 32 0x0002A485 = some (.divu {} 9 4 5) ∧ decodeTableWord 64 0x000186A0C01A0400 = some (.hbar {} 1 (.lit 100000)) := by decide
theorem test_encode_round_trip : encode (.hbar {} 1 (.lit 100000)) = [0xC01A0400, 0x000186A0] ∧ encode (.divu {} 9 4 5) = [0x0002A485] := by decide

/-! ## Small states -/

/-- A rider on user context 0 of stall 0 with eight vector registers and two bays, changed as f says. -/
def on0 (f : Ctx → Ctx) : State := State.reset.setCtx 0 (f { f := Files.reset, loc := .on 0 0, vregs := 8, nbays := 2, bays := [0, 1] })
/-- A module that has booted and that the host owns. -/
def booted : State := ((State.reset.setReg .bootstat 4).setReg .owner 4)
/-- Registers of a context set. -/
def withS (r : RIdx) (v : DWord) (c : Ctx) (l : Lame := 0) : Ctx := { c with f := { c.f with s := rset c.f.s r ⟨v, l⟩ } }
def withA (r : RIdx) (v : DWord) (c : Ctx) (l : Lame := 0) : Ctx := { c with f := { c.f with a := rset c.f.a r ⟨v, l⟩ } }
def withCsr (f : Csrs → Csrs) (c : Ctx) : Ctx := { c with csr := f c.csr }

/-! ## One step -/

/-- The placed word is fetched, decoded and run: ADDI s5, s5, 8 queues its result one group on. -/
theorem test_step_runs_placed_word : ((match step (State.reset.withFetchWord 32 0x000A14A8) with
    | .next t => some (t.me.land.map (fun e => e.writes), t.me.pc)
    | _ => none) = some ([[.s 5 ⟨8, 0⟩]], 0x10004)) := by decide +kernel
/-- A reserved opcode takes ILLEGAL_ENCODING; TRAPVEC is zero, so the rider ends. -/
theorem test_step_illegal_word : ((match step (State.reset.withFetchWord 32 0x001E8000) with
    | .next t => (t.ctx 0).failed.map (fun c => c.code)
    | _ => none) = some 1) := by decide +kernel
theorem test_step_without_power : step { State.reset with powered := false } = .fault .powerLost := rfl

/-! ## States and operands that meet the hypotheses of the statements -/

/-- A landing entry of a divide. -/
def dividing : Landing := { seq := 0, remain := 5, writes := [], divide := true }
/-- A loop entry with a count. -/
def loopOf (n : DWord) : LoopEntry := { count := n, head := 0x40, exit := 0x80, init := n }
/-- A wait. -/
def waitOf (k : WaitKind) (p : Option PIdx) (deadline : Nat) : Wait := { kind := k, pred := p, limit := 1, deadline := deadline }
/-- A rider whose j1 is lame. -/
def lameJ : State := on0 fun c => { c with f := { c.f with j := jset c.f.j 1 ⟨0x40, 3⟩ } }
/-- A state whose word under way is of the groom context of stall 0. -/
def groom0 : State := { State.reset with cur := groomKey }

theorem test_hyp_ScalarResults : Live (on0 id) 0 ∧ (on0 id).me.land.any (fun e => e.divide) = false ∧
    (on0 fun c => { c with land := [dividing] }).me.land.any (fun e => e.divide) = true ∧ ((on0 id).me.sreg 5).val.toNat = 0 := by
  unfold Live; decide +kernel

theorem test_hyp_PredicatesAndCopies : Live (on0 id) 0 ∧ (on0 id).me.window 7 < (on0 id).me.vregs ∧ (0x07F : BitVec 10).toNat < 0x80 ∧
    (0x80 ≤ (0x080 : BitVec 10).toNat ∧ (on0 id).cur < groomKey) ∧ groomKey ≤ groom0.cur := by
  unfold Live; decide +kernel

theorem test_hyp_SelectorsAndLoops :
    (lameJ.me.jlame 1 ≠ 0 ∧ lameJ.me.links.length < 8) ∧
    ((on0 fun c => { c with links := List.replicate 7 0x40 }).me.jlame 1 = 0 ∧ (on0 fun c => { c with links := List.replicate 7 0x40 }).me.links.length < 8) ∧ 8 ≤ (on0 fun c => { c with links := List.replicate 8 0x40 }).me.links.length ∧
    (on0 fun c => { c with links := [0x40] }).me.links = 0x40 :: [] ∧ (on0 id).me.links = [] ∧
    ((on0 fun c => { c with loops := [loopOf 2] }).me.loops = loopOf 2 :: [] ∧ 2 ≤ (loopOf 2).count.toNat) ∧
    ((on0 fun c => { c with loops := [loopOf 1] }).me.loops = loopOf 1 :: [] ∧ (loopOf 1).count.toNat ≤ 1) ∧ (on0 id).me.loops = [] ∧
    (on0 id).reg .lcstate &&& 7 ≠ 2 ∧ ((on0 id).setReg .lcstate 2).reg .lcstate &&& 7 = 2 ∧
    (on0 id).me.nest.owes = none ∧ (on0 fun c => { c with nest := { owes := some 7 } }).me.nest.owes = some 7 ∧
    (Live (on0 id) 0 ∧ (on0 id).me.sreg 5 = ⟨0, 0⟩ ∧ (on0 id).me.jlame 1 = 0) ∧
    ((on0 fun c => withS 5 1 { c with loops := List.replicate 5 (loopOf 2) }).me.sreg 5 = ⟨1, 0⟩ ∧
      (on0 fun c => withS 5 1 { c with loops := List.replicate 5 (loopOf 2) }).me.jlame 1 = 0 ∧
      (on0 fun c => withS 5 1 { c with loops := List.replicate 5 (loopOf 2) }).me.loops.length < 6) ∧
    (((on0 fun c => withS 5 1 { c with loops := List.replicate 6 (loopOf 2) }).me.sreg 5).val = 1 ∧
      6 ≤ (on0 fun c => withS 5 1 { c with loops := List.replicate 6 (loopOf 2) }).me.loops.length) ∧
    (((on0 fun c => withS 5 1 c 3).me.sreg 5).lame ≠ 0 ∧ (on0 fun c => withS 5 1 c 3).me.loops.length < 6) := by
  unfold Live; decide +kernel

theorem test_hyp_ControlRegistersAndVectorSetUp : (Live (on0 id) 0 ∧ (on0 id).cur < groomKey ∧ (on0 id).me.sreg 5 = ⟨0, 0⟩) ∧
    bits (0x30 : DWord) 6 4 ≠ 4 ∧ (bits (0x40 : DWord) 6 4 = 4 ∧ (on0 id).me.csr.declfeat.getLsbD 3 = false) ∧
    (on0 fun c => withCsr (fun r => { r with declfeat := 8 }) c).me.csr.declfeat.getLsbD 3 = true ∧
    (on0 fun c => withCsr (fun r => { r with status := 8 }) c).me.csr.status.getLsbD 3 = true ∧ (on0 id).me.csr.status.getLsbD 3 = false ∧
    (0x080 : BitVec 10) ≤ 0x080 ∧ ((on0 fun c => withS 5 1 c 3).me.sreg 5).lame ≠ 0 ∧
    (immU (.lit 2047 : Imm 10)).toNat ≤ 2047 ∧ 2047 < (immU (.lit 2048 : Imm 10)).toNat ∧ (3 : BitVec 3) ≠ 4 := by
  unfold Live; decide +kernel

/-- A rider with a handler at 0x1000, in the modes that STATUS names. -/
def handled (status : DWord) (f : Ctx → Ctx := id) : State := on0 fun c => f (withCsr (fun r => { r with trapvec := 0x1000, status := status }) c)
/-- A frame that TRET accepts, with SSW zero. -/
def goodFrame : Frame' := { replay := [], loops := [loopOf 2], links := [], vwb := 0, vrot := 0, guarded := false }
/-- A snapshot of a containment region. -/
def snap0 : Snapshot := { s := Files.reset.s, loops := [], links := [], vwb := 0, vrot := 0, target := 0x100 }

theorem test_hyp_TrapsAndReturns :
    (0 < groomKey ∧ ((handled 0).ctx 0).csr.status.getLsbD 3 = false ∧ ((handled 0).ctx 0).csr.trapvec ≠ 0 ∧ ({ code := 7 } : Cause).code ≠ 4 ∧
      ({ code := 7 } : Cause).code ≠ 8 ∧ ((handled 0).ctx 0).csr.status.getLsbD 4 = false) ∧
    (((handled 8).ctx 0).csr.status.getLsbD 3 = true ∧ ((on0 id).ctx 0).csr.trapvec = 0) ∧
    (({ code := 7 } : Cause).code = 7 ∧ ((handled 16 fun c => { c with snap := some snap0 }).ctx 0).csr.status.getLsbD 3 = false ∧
      ((handled 16 fun c => { c with snap := some snap0 }).ctx 0).csr.status.getLsbD 4 = true ∧
      ((handled 16 fun c => { c with snap := some snap0 }).ctx 0).xq = [] ∧ ((handled 16 fun c => { c with snap := some snap0 }).ctx 0).snap = some snap0) ∧
    (groomKey ≤ groomKey ∧ (groom0.ctx groomKey).csr.trapvec = 0) ∧
    (Live (on0 id) 0 ∧ ({} : SHead).nx = .seq ∧ (on0 id).me.waits = [] ∧ (on0 id).me.pendingTrap = none) ∧ ({ nx := .jmp 1 } : SHead).nx = .jmp 1 ∧
    (on0 fun c => { c with waits := [waitOf .nwait (some 1) 9] }).me.waits ≠ [] ∧ (({ nx := .stop } : SHead).nx = .stop ∧ (on0 id).me.nest.owes = none) ∧
    (let c := (handled 8 fun c => { c with frame := some goodFrame }).me
     c.csr.status.getLsbD 3 = true ∧ c.frame = some goodFrame ∧ bits c.csr.ssw 15 9 = 0 ∧ bits c.csr.ssw 63 24 = 0 ∧ c.csr.ssw.getLsbD 3 = false ∧
      c.csr.ssw.toNat % 8 ≤ goodFrame.loops.length ∧ c.csr.ssw.getLsbD 5 = goodFrame.guarded ∧ bits c.csr.ssw 8 6 = bits c.csr.riderid 50 48 ∧
      c.csr.ssw.getLsbD 4 = false ∧ bits c.csr.ssw 23 16 < Nat.max 1 (bits goodFrame.vrot 5 0) ∧ bits c.csr.trappc 1 0 = 0 ∧
      bits c.csr.trappc 63 49 = 0 ∧ c.land = []) ∧
    (let c := (handled 8 fun c => withCsr (fun r => { r with ssw := 8 }) { c with frame := some goodFrame }).me
     c.frame = some goodFrame ∧ c.csr.ssw.getLsbD 3 = true) := by
  unfold Live; decide +kernel

/-- A rider alone in the hitch of entry 0 of die 0. -/
def hitched : State := { on0 id with hitches := [(0, { gen := 3, members := [0], live := true })] }
/-- The same hitch, with another rider in it. -/
def hitchNear : State := { on0 (fun c => withS 5 (hitchId 0 3) c) with hitches := [(0, { gen := 3, members := [8], live := true })] }

/-- A launch of die 0 that waits for records with its hitch entry. -/
def holder : Launch :=
  { kind := .kernel, die := 0, cmd := 1, bank := [], prio := 0, asid := 0, root := 0, aspace := true, total := 1, hitch := some 4 }

theorem test_hyp_HitchesAndSpawn :
    (Live (on0 id) 0 ∧ (on0 id).cur < groomKey ∧ (on0 id).hitchOf 0 = none ∧ (on0 id).freeHitch 0 = some 0) ∧ (hitched.hitchOf 0).isSome = true ∧
    (hitchNear.hitchOf 0 = none ∧ hitchNear.me.sreg 5 = ⟨hitchId 0 3, 0⟩ ∧ hitchNear.liveHitch (hitchId 0 3) = some (0, { gen := 3, members := [8], live := true }) ∧
      ({ gen := 3, members := [8] } : Hitch).members.length < 4096) ∧ (on0 id).liveHitch 0x40000 = none ∧
    (hitched.cur < groomKey ∧ hitched.hitchOf hitched.cur = some 0) ∧ groomKey ≤ groom0.cur ∧
    ((on0 id).me.csr.status.getLsbD 5 = false ∧ (on0 id).me.sreg 5 = ⟨0, 0⟩ ∧ (on0 id).recordsHeld 0 = false ∧ (on0 id).freeRecord 0 = some 1 ∧
      riderKey 0 1 ≠ (on0 id).cur) ∧
    { on0 id with recordWait := [7], launches := [(7, { holder with bank := List.replicate 23 0 ++ [2] })] }.recordsHeld 0 = true := by
  unfold Live; decide +kernel

theorem test_hyp_ContainmentRegions :
    (Live (handled 0) 0 ∧ (handled 0).me.csr.status.getLsbD 4 = false ∧ (handled 0).me.csr.status.getLsbD 3 = false) ∧
    (handled 16).me.csr.status.getLsbD 4 = true ∧ (handled 8).me.csr.status.getLsbD 3 = true := by
  unfold Live; decide +kernel

theorem test_hyp_VectorLayoutAndRounding : (255 < EType.int8.lanes ∧ 7 < 8 ∧ (List.replicate 256 255).length = EType.int8.lanes ∧
    (∀ x ∈ List.replicate 256 255, x < 2 ^ EType.int8.width)) ∧ (Fmt.e4m3 ≠ .mxi8 ∧ 0x7E < 2 ^ Fmt.e4m3.bits ∧ 0xFFFFFFFF < 2 ^ 32 ∧
    (decode .e4m3 0x7E).isNan = false) := by decide +kernel

theorem test_hyp_VectorArithmeticResults : (Live (on0 id) 0 ∧ InWindow (on0 id) 7 ∧ InWindow (on0 id) 0) ∧
    (on0 fun c => withCsr (fun r => { r with declfeat := 16 }) c).me.csr.declfeat.getLsbD 4 = true ∧ (on0 id).me.csr.declfeat.getLsbD 4 = false := by
  unfold Live InWindow; decide +kernel

theorem test_hyp_VectorBitsComparesMasks : Live (on0 id) 0 ∧ InWindow (on0 id) 7 ∧ InWindow (on0 id) 0 := by unfold Live InWindow; decide +kernel

theorem test_hyp_VectorReductionsAndMoves : (Live (on0 id) 0 ∧ InWindow (on0 id) 7 ∧ InWindow (on0 id) 0) ∧ (on0 id).me.vt.etype.isInt = false ∧
    (let s := on0 fun c => withCsr (fun r => { r with vtype := 3 }) c
     s.me.vt.etype.isInt = true ∧ s.me.vt.sat = false) := by unfold Live InWindow; decide +kernel

theorem test_hyp_DeferralQueue : let c := (on0 id).me
    (Live (on0 id) 0 ∧ InWindow (on0 id) 7) ∧ c.deferBase % 16 = 0 ∧ c.deferCount ≤ 4096 ∧ c.inScratch c.deferBase 65536 = true ∧
    c.hitsRing c.deferBase 65536 = false ∧ c.hitsStash c.deferBase 65536 = false ∧ wLame (on0 id) 7 = 0 ∧ (c.kreg 1).lame = 0 ∧
    Nat.min c.deferCount c.vt.etype.lanes = 0 ∧ (on0 id).deferMeets ((List.range 64).map (c.deferCount + ·)) = false := by
  unfold Live InWindow wLame; decide +kernel

theorem test_hyp_ConversionsAndBlockScaling : (Live (on0 id) 0 ∧ InWindow (on0 id) 7) ∧
    (on0 fun c => withCsr (fun r => { r with declfeat := 8 }) c).me.csr.declfeat.getLsbD 3 = true ∧ (on0 id).me.csr.declfeat.getLsbD 3 = false := by
  unfold Live InWindow; decide +kernel

/-- A channel of one FREE page of one record that its rider fills. -/
def ring (scal : Bool) : Chan := { base := 0x1000, rpp := 1, prod := .rider, array := false, scal := scal, scope := 0, pages := List.replicate 4 {} }
/-- The same with a FILLED head page. -/
def ringFull (scal : Bool) : Chan := { ring scal with pages := ({ st := .filled, res := 1, wr := 1 } : Page) :: List.replicate 3 {} }
/-- a1 and a2 hold an address and a datum, and channel 5 is a ring. -/
def access (a1 a2 : DWord) (ch : Chan) (f : Ctx → Ctx := id) : State := on0 fun c => f (withA 1 a1 (withA 2 a2 { c with chans := [(5, ch)] }))
/-- The last 8 and the last 256 bytes of two bays. -/
def end8 : DWord := 0x100000000007FFF8
def end256 : DWord := 0x100000000007FF00
/-- The last flag word. -/
def endFlag : DWord := 0x300000000003FFFC

theorem test_hyp_LoadsAndStoresEnterTheQueue :
    (Enters (access end8 0 (ring true)) 0 ∧ (access end8 0 (ring true)).me.xq.length = 0 ∧ ((access end8 0 (ring true)).me.areg 1).lame = 0 ∧
      PlainAddress (access end8 0 (ring true)) (sumAddr end8 (offBytes ({} : MemCtl).off)) 8 ∧ (sumAddr end8 (offBytes ({} : MemCtl).off)).toNat % 8 = 0 ∧
      RoomIn (access end8 0 (ring true)) 5 true (ring true) 0) ∧
    (FlagAddress (sumAddr endFlag (offBytes ({} : MemCtl).off)) ∧ (sumAddr endFlag (offBytes ({} : MemCtl).off)).toNat % 4 = 0) ∧
    (PlainAddress (access end256 0 (ring false)) (sumAddr end256 (vecOff {})) (vecBytes {}) ∧ (sumAddr end256 (vecOff {})).toNat % 16 = 0 ∧
      InWindow (access end256 0 (ring false)) 7 ∧ RoomIn (access end256 0 (ring false)) 5 false (ring false) 0 ∧ wLame (access end256 0 (ring false)) 7 = 0) ∧
    (PlainAddress (access end8 0 (ring true)) (sumAddr end8 (ldfeOff {})) 8 ∧ tagOf (sumAddr end8 (ldfeOff {})) ≠ 0 ∧
      (sumAddr end8 (ldfeOff {})).toNat % 8 = 0) ∧ Free (access end8 0 (ring true)) ∧
    (let s := access end256 0x100 (ring true)
     PlainAddress s (sumAddr end256 0) 0x100 ∧ tagOf (sumAddr end256 0) ≠ 0 ∧ (0x100 : DWord).toNat % 16 = 0 ∧ (0x100 : DWord).toNat < 2 ^ 21 ∧
      (s.me.areg 2).val = 0x100) ∧
    (let s := fun n => access 0x1FFFFFFFFFFF8 0 (ring true) (fun c => withCsr (fun r => { r with status := 32 }) { c with guardMax := 32, guardUsed := n })
     (s 0).me.csr.status.getLsbD 5 = true ∧ (s 0).me.xq.any (fun x => x.commit) = false ∧ PlainAddress (s 0) 0x1FFFFFFFFFFF8 8 ∧
      tagOf 0x1FFFFFFFFFFF8 ≠ 1 ∧ (s 0).me.guardUsed + 32 ≤ (s 0).me.guardMax ∧ (s 1).me.guardMax < (s 1).me.guardUsed + 32) := by
  unfold Enters Live PlainAddress InBays FlagAddress RoomIn InWindow wLame Free; and_intros <;> decide +kernel

theorem test_hyp_AddressChecks : (let s := access end8 0 (ring true)
      Enters s 0 ∧ (s.me.areg 1).lame = 0 ∧ (s.me.areg 2).lame = 0 ∧ Free s) ∧
    4 ≤ tagOf 0x4000000000000000 ∧ (tagOf 0x2000000000000 = 0 ∧ bits 0x2000000000000 59 49 ≠ 0) ∧
    (tagOf 0x1000000000200000 = 1 ∧ bits 0x1000000000200000 59 21 ≠ 0) ∧
    (tagOf 0x2000200000000000 = 2 ∧ bits 0x2000200000000000 59 45 ≠ 0) ∧ (tagOf (endFlag + 2) = 3 ∧ bits (endFlag + 2) 1 0 ≠ 0) ∧
    (tagOf end8 = 1 ∧ (access end8 0 (ring true)).me.nbays * 2 ^ 18 < bits (end8 + 1) 59 0 + 8) ∧
    (PlainAddress (access end8 0 (ring true)) (end8 - 1) 8 ∧ (end8 - 1).toNat % 8 ≠ 0) ∧ FlagAddress endFlag := by
  unfold Enters Live PlainAddress InBays FlagAddress Free; decide +kernel

theorem test_hyp_AtomicTensorAndReinWords :
    (let s := access end8 0 (ring true)
     Enters s 0 ∧ (s.me.areg 1).lame = 0 ∧ (s.me.areg 2).lame = 0 ∧ (s.me.areg 3).lame = 0 ∧ Free s ∧ PlainAddress s end8 8 ∧ end8.toNat % 8 = 0 ∧ tagOf end8 ≠ 3 ∧
      PlainAddress s end8 0 ∧ s.me.csr.declfeat.getLsbD 5 = false) ∧
    (FlagAddress endFlag ∧ endFlag.toNat % 4 = 0 ∧ tagOf endFlag = 3) ∧
    (access end8 0 (ring true) (withCsr fun r => { r with declfeat := 32 })).me.csr.declfeat.getLsbD 5 = true ∧
    (tagOf 0x1FFFFFFFFFFF0 = 0 ∧ bits 0x1FFFFFFFFFFF0 59 49 = 0 ∧ (0x1FFFFFFFFFFF0 : DWord).toNat % 16 = 0 ∧ (0xFFFFFFFFFF : DWord).toNat < 2 ^ 40) ∧
    RoomIn (access 0 0 (ring false)) 5 false (ring false) 0 ∧ RecordIn (access 0 0 (ringFull false)) 5 false (ringFull false) 0 ∧
    (let s := access 0 0 (ringFull false)
     s.me.chans.get? 5 = some (ringFull false) ∧ ((ringFull false).page (ringFull false).head).st = .filled ∧
      s.pageLame s.cur (ringFull false) (ringFull false).head = 0 ∧ s.me.xq.any (fun x => x.drains 5) = false) ∧
    (((ring false).page (ring false).head).st ≠ .filled ∧ (access 0 0 (ring false)).pos.forced = false) := by
  unfold Enters Live PlainAddress InBays FlagAddress RoomIn RecordIn Free; and_intros <;> decide +kernel

/-- A descriptor of four pages of one scalar record at 0x2000, as CHCFG reads it (R447). -/
def ringWord : DWord := 0x602000
/-- The ring with its open page opened. -/
def ringOpen : Chan := { ring true with pages := ({ st := .open, res := 1, wr := 1 } : Page) :: List.replicate 3 {} }

theorem test_hyp_ChannelsInBothPipes :
    (let s := access ringWord 0 (ring true)
     ∃ ch, chanFrom ringWord = some ch ∧ Enters s 0 ∧ (s.me.areg 1).lame = 0 ∧ s.me.chans.get? 6 = none ∧ (s.me.chans.get? 5).isSome = true ∧
      s.me.inScratch ch.base (ch.pages.length * ch.pageBytes) = true ∧ s.me.hitsRing ch.base (ch.pages.length * ch.pageBytes) = false ∧
      s.me.hitsStash ch.base (ch.pages.length * ch.pageBytes) = false ∧ s.me.hitsDefer ch.base (ch.pages.length * ch.pageBytes) = false ∧
      s.reinTaken s.cur 6 = false) ∧
    chanFrom 0 = none ∧ ((ringOpen.page ringOpen.openIx).st = .open ∧ (ringOpen.page ringOpen.openIx).closed = false) ∧
    ((ringFull true).page 0).st = .filled ∧ ((ring true).page 0).st = .free ∧
    (Live (access 0 0 (ring false)) 0 ∧ InWindow (access 0 0 (ring false)) 7 ∧ (ring false).ready = none) ∧
    RecordIn (access 0 0 (ringFull false)) 5 false (ringFull false) 0 ∧ RoomIn (access 0 0 (ring false)) 5 false (ring false) 0 ∧
    (let full := { ring false with pages := List.replicate 4 { st := .filled, res := 1, wr := 1 } }
     full.room = none ∧ (access 0 0 full).pos.withX = false) := by
  unfold Enters Live RoomIn RecordIn InWindow
  refine ⟨⟨_, rfl, ?_⟩, ?_⟩ <;> decide +kernel

/-- a1 = the last 4 KiB of scratch, a2 = the last virtual page, a3 = 4 KiB, a4 = 2. -/
def maps (f : Ctx → Ctx := id) : State :=
  on0 fun c => f (withA 1 0x100000000007F000 (withA 2 0x1FFFFFFFFF000 (withA 3 0x1000 (withA 4 2 c))))

theorem test_hyp_ScratchWordsAndAddressArithmetic :
    Enters maps 0 ∧ ((maps.me.areg 1).lame = 0 ∧ (maps.me.areg 2).lame = 0 ∧ (maps.me.areg 3).lame = 0) ∧
    (let D := (maps.me.areg 1).val
     let A := (maps.me.areg 2).val
     let B := (maps.me.areg 3).val
     tagOf D = 1 ∧ tagOf A = 0 ∧ bits D 59 21 = 0 ∧ bits A 59 49 = 0 ∧ D.toNat % 4096 = 0 ∧ A.toNat % 4096 = 0 ∧ B.toNat % 4096 = 0 ∧ B ≠ 0 ∧
      InBays maps.me (bits D 59 0) B.toNat ∧ maps.me.stash.length < 8 ∧ maps.me.hitsStash (bits D 59 0) B.toNat = false ∧
      maps.me.hitsRing (bits D 59 0) B.toNat = false ∧ maps.me.hitsDefer (bits D 59 0) B.toNat = false ∧
      maps.me.stash.any (fun t => overlaps t.va t.len A.toNat B.toNat) = false) ∧
    8 ≤ (maps fun c => { c with stash := List.replicate 8 { off := 0, va := 0, len := 4096, lines := [] } }).me.stash.length ∧
    (∀ i < 8, ((maps.me.areg 4).val.toNat % 256).testBit i = true → i < maps.me.nbays ∧ (maps.me.csr.baymap.getLsbD i = true ∨
      (maps.me.hitsRing (i * 2 ^ 18) (2 ^ 18) = false ∧ maps.me.hitsStash (i * 2 ^ 18) (2 ^ 18) = false ∧
        maps.me.hitsDefer (i * 2 ^ 18) (2 ^ 18) = false))) ∧
    ((4 : Nat).testBit 2 = true ∧ maps.me.nbays ≤ 2) ∧
    (let s := maps (withCsr fun r => { r with declfeat := 64 })
     s.me.csr.declfeat.getLsbD 6 = true ∧ Free s) ∧
    (let s := maps (withCsr fun r => { r with declfeat := 64, status := 32 })
     s.me.csr.declfeat.getLsbD 6 = true ∧ s.me.csr.status.getLsbD 5 = true ∧ s.me.xq.any (fun x => x.commit) = false) ∧
    maps.me.csr.declfeat.getLsbD 6 = false := by
  unfold Enters Live InBays Free; and_intros <;> decide +kernel

/-- A result for s5 that is due one group on. -/
def due5 : Landing := { seq := 0, remain := 1, writes := [.s 5 ⟨7, 0⟩] }

theorem test_hyp_LandingQueue : (let c := (on0 fun c => { c with land := [due5] }).ctx 0
      (c.land.map (fun e => { e with remain := e.remain - 1 })).filter (fun e => decide (e.remain = 0)) = [] ++ { due5 with remain := 0 } :: [] ∧
      due5.writes = [.s 5 ⟨7, 0⟩] ∧ (5 : RIdx) ≠ 0) ∧ ((on0 id).ctx 0).land = [] := by decide +kernel

/-- p1 reads 0 and is lame with cause l. -/
def squash (l : Lame) : State := on0 fun c => { c with f := { c.f with p := pset c.f.p 1 ⟨false, l⟩ } }

theorem test_hyp_GuardedWords : (guardOf (.add { g := 1 } 5 6 7) = some 1 ∧ Squashed (squash 0) 1 ∧ (squash 0).me.nest.owes = none ∧
      isDivide (.add { g := 1 } 5 6 7) = false) ∧ (guardOf (.ncutEnd { g := 1 }) = some 1 ∧ (squash 3).me.preg 1 = ⟨false, 3⟩ ∧ (3 : Lame) ≠ 0) ∧
    (guardOf (.divu { g := 1 } 5 6 7) = some 1 ∧ (squash 0).me.land.any (fun e => e.divide) = false) := by
  unfold Squashed; decide +kernel

/-- A word answers a next state in which it has raised nothing. -/
def quiet (i : Instr) (s : State) : Prop := ∃ t, exec i s = .next t ∧ t.raised = none
theorem quiet_of (i : Instr) (s : State) (h : (match exec i s with | .next t => t.raised == none | _ => false) = true) : quiet i s := by
  cases e : exec i s with
  | next t => rw [e] at h; exact ⟨t, e, by simpa using h⟩
  | _ => rw [e] at h; cases h
theorem test_hyp_WordFrames : (onlyLands (.add {} 5 6 7) = true ∧ quiet (.add {} 5 6 7) (on0 id)) ∧
    (isVWord (.vadd {} (.win 1) (.win 2) (.win 3)) = true ∧ quiet (.vadd {} (.win 1) (.win 2) (.win 3)) (on0 id)) ∧
    (isXWord (.ldd {} (.reg 5) 1 {}) = true ∧ quiet (.ldd {} (.reg 5) 1 {}) (access end8 0 (ring true))) :=
  ⟨⟨rfl, quiet_of _ _ (by decide +kernel)⟩, ⟨rfl, quiet_of _ _ (by decide +kernel)⟩, rfl, quiet_of _ _ (by decide +kernel)⟩

/-- The configuration of a nest of one pass over stall 0, with n rows to a pass. -/
def cfg0 (n : DWord) : List DWord := [n - 1, 0, 0, 0, 0, 0, 0]
/-- A member on stall 0 for the rider of context 0. -/
def mem0 : Member := { key := 0, stall := 0 }
/-- A gang of that one member, with n rows to a pass. -/
def gang0 (n : DWord) : Gang := { row := 0, members := [mem0], cfg := cfg0 n, epi := List.replicate 8 0, mode := 0, depth := 2 }
/-- A state whose rider has a nest, in a gang or in none, with NEST declared. -/
def nested (n : Nest) (g : List (Nat × Gang)) (f : Ctx → Ctx := id) : State :=
  { on0 (fun c => f (withCsr (fun r => { r with declfeat := 0x87 }) { c with nest := n })) with gangs := g }
/-- A nest of one row in a state, of gang 1. -/
def nest0 (st : NestSt) : Nest := { st := st, cfg := cfg0 1, gang := some 1, epi := List.replicate 8 0 }

theorem test_hyp_NestWords :
    (NestWord (nested {} []) 0 ∧ (nested {} []).me.nest.port = [] ∧ (nested {} []).me.nreg 0 = ⟨0, 0⟩ ∧ ({} : Nest).gang = none) ∧
    (NestWord (nested (nest0 .running) [(1, gang0 1)]) 0 ∧ (nested (nest0 .running) [(1, gang0 1)]).me.nest.st = .running) ∧
    (let n := fun k => ({ copy := some (.freeze, 9), port := List.replicate k .thaw } : Nest)
     (n 2).copy.isSome = true ∧ (n 2).port.length < 3 ∧ 4 ≤ (n 3).port.length + (n 3).copy.toList.length ∧ NestWord (nested (n 3) []) 0 ∧
      (nested (n 3) []).pos.forced = false) ∧
    (Live (on0 id) 0 ∧ (on0 id).me.csr.declfeat.getLsbD 0 = false ∧ (on0 id).me.nest.owes = none) ∧
    (Live (nested { owes := some 7 } []) 0 ∧ (nested { owes := some 7 } []).me.csr.declfeat &&& 0x87 = 0x87) ∧
    (PortIdle (nested {} []) ∧ ({} : Nest).st = .idle ∧ (∀ k : RIdx, k ∈ [0, 1, 2, 3, 4, 5, 6, 7] → ((nested {} []).me.nreg k).lame = 0)) ∧
    (PortIdle (nested (nest0 .running) [(1, gang0 1)]) ∧ (nested (nest0 .running) [(1, gang0 1)]).gangs.get? 1 = some (gang0 1)) ∧
    (PortIdle (nested { st := .armed } []) ∧ ({ st := .armed } : Nest).gathered = false) ∧
    (let s := nested (nest0 .frozen) [(1, gang0 1)]
     PortIdle s ∧ (gang0 1).byCollector = false ∧ (gang0 1).saved = none ∧ s.copying (gang0 1) = false ∧ (s.gangOf s.cur).any (fun g => g.2.saved.isSome) = false ∧
      0 < nestP (gang0 1).cfg ∧ nestP (gang0 1).cfg ≤ 1) ∧
    (let n := { nest0 .frozen with mode := 2 }
     n.mode.getLsbD 1 = true ∧ n.wfetch = none ∧ n.fetched = false ∧ { n with fetched := true }.fetched = true) ∧
    (nest0 .frozen).mode.getLsbD 1 = false ∧
    (let s := nested (nest0 .frozen) [(1, gang0 1)]
     (!s.me.nest.cfg.isEmpty && nestTail s.me.nest.cfg == s.me.stall) = true ∧ bits 0x000003FF0007FF80 41 32 + 1 ≤ 1024 ∧
      bits 0x000003FF0007FF80 20 0 % 128 = 0 ∧ s.me.inScratch (bits 0x000003FF0007FF80 20 0) 128 = true ∧ s.me.xq = []) ∧
    ((!({} : Nest).cfg.isEmpty && nestTail ({} : Nest).cfg == 0) = false ∧ 1024 < bits 0x000003FF0007FF80 41 32 + 2) := by
  unfold NestWord PortIdle Live; and_intros <;> decide +kernel

/-- Sums of row 0 that have reached the whiffletree. -/
def sums0 : Sums := { pass := 0, row := 0, sums := List.replicate 32 0x3F800000, poison := false, next := 1, ready := 0 }
/-- A nest with an accumulator copy under way. -/
def copying (w : PortWord) : Nest := { nest0 .frozen with gang := none, copy := some (w, 0) }
/-- The last 128 bytes of scratch, with the last entry. -/
def endEntry : DWord := 0x000003FF0007FF80

theorem test_hyp_AccumulatorEntries :
    (let g := { gang0 2 with flight := [sums0] }
     (nested (nest0 .running) [(1, g)]).gangs.get? 1 = some g ∧
      g.flight.find? (fun f => f.next == g.members.length && decide (f.ready ≤ (nested (nest0 .running) [(1, g)]).clock)) = some sums0 ∧
      sums0.row + 1 ≠ nestC0 g.cfg) ∧ (nested {} []).gangs.get? 1 = none ∧
    (let c := (nested (copying (.aclr endEntry 1)) []).ctx 0
     rising ((nested (copying (.aclr endEntry 1)) []).acc.map (·.1)) = true ∧ c.nest.copy = some (.aclr endEntry 1, 0) ∧ c.nest.port = [] ∧ c.xq = [] ∧
      c.nest.gang = none) ∧
    (let s := nested (copying (.move true endEntry 1 0)) []
     let c := s.ctx 0
     c.nest.copy = some (.move true endEntry 1 0, 0) ∧ c.loc = .on c.stall 0 ∧ bits endEntry 20 0 % 128 = 0 ∧
      c.inScratch (bits endEntry 20 0) 128 = true ∧ c.hitsRing (bits endEntry 20 0) 128 = false ∧ c.hitsStash (bits endEntry 20 0) 128 = false ∧
      c.hitsDefer (bits endEntry 20 0) 128 = false ∧ (s.accGet (stallDieRow (nestTail c.nest.cfg)) 1023).poison = false ∧
      (s.accGet (stallDieRow (nestTail c.nest.cfg)) 1023).vals.length = 32) ∧
    (let s := nested (copying (.move false endEntry 1 0)) []
     (s.ctx 0).nest.copy = some (.move false endEntry 1 0, 0) ∧ s.mem.poisoned ((s.ctx 0).scratch (bits endEntry 20 0)) 128 = false) ∧
    ((nested {} []).ctx 0).nest.copy = none := by decide +kernel

/-- A gang in a state whose members hold bank 0 full and a row in their input channel. -/
def gangAt (st : NestSt) (g : Gang) : State :=
  { nested (nest0 st) [(1, g)] (fun c => { c with chans := [(0, ringFull false)] }) with stalls := [(0, { latch0 := { full := true } })] }

theorem test_hyp_NestsAndGangs :
    (let s := gangAt .running (gang0 2)
     rising (s.gangs.map (·.1)) = true ∧ s.gangs.get? 1 = some (gang0 2) ∧ (gang0 2).members[0]? = some mem0 ∧
      (s.stepReady (gang0 2) 0 mem0).isSome = true ∧ stallCol mem0.stall ≠ 31 ∧ mem0.step + 1 ≠ nestC0 (gang0 2).cfg ∧
      mem0.step + 1 = nestC0 (gang0 1).cfg) ∧
    (gangAt .frozen { gang0 2 with frozen := true }).stepReady { gang0 2 with frozen := true } 0 mem0 = none ∧
    ({ mem0 with fillAt := some 0 }.fillAt.any (fun t => t ≤ (gangAt .running (gang0 2)).clock) = true ∧ (gang0 2).manual = false ∧ mem0.fill < nestP (gang0 2).cfg ∧ mem0.fill = mem0.pass ∧
      ((gangAt .running (gang0 2)).ctx 0).slots.get? (nestWslot ((gangAt .running (gang0 2)).ctx 0).nest.cfg) = none) ∧
    (mem0.fillAt = none ∧ mem0.halted = none ∧ bit ((gangAt .running (gang0 2)).reg (.dramclk (stallQuarter mem0.stall))) 4 = false ∧
      mem0.freeAt (passBank mem0.fill) ≤ (gangAt .running (gang0 2)).clock) ∧
    ((gang0 2).ended = false ∧ (gang0 2).still = false ∧ (gang0 2).saved = none ∧ (gang0 2).ending = none ∧ (gang0 2).atBoundary = true ∧
      mem0.key < groomKey ∧ ((gangAt .running (gang0 2)).ctx 0).nest.gang = some 1 ∧ (gang0 2).cpend = none ∧ (gang0 2).stopping = false ∧
      (gang0 2).fpend = false ∧ (gangAt .running (gang0 2)).gangOrphan (gang0 2) = false ∧ (gang0 2).stores = []) ∧
    ({ gang0 2 with stores := [{ group := 0 }], bias := some none }.stores.head? = some { group := 0 } ∧
      { gang0 2 with bias := some none }.bias.isSome = true ∧ (gang0 2).halted = none) ∧
    ({ gang0 2 with byCollector := true }.byCollector = true ∧
      (gang0 2).members.any (fun m => ((gangAt .running (gang0 2)).ctx m.key).nest.copy.isSome) = false) ∧
    (let s := gangAt .running { gang0 2 with byCollector := true, saved := some [] }
     ∃ w, s.waiting.find? (fun w => w.gang == some 1) = some w ∧ s.mayStart w = true) ∧
    (gangAt .running (gang0 2)).waiting.find? (fun w => w.gang == some 1) = none ∧
    ((on0 id).physStall 0 = some 0 ∧ (on0 id).physState 0 < 2) ∧
    (let s := nested { st := .armed, cfg := cfg0 1, gathered := true, arm := 7, epi := List.replicate 8 0 } []
     ∃ w, s.waiting.find? (fun w => w.order == 7 && w.gang.isNone) = some w ∧ s.mayStart w = true ∧
      epiMode (s.ctx (w.keys.getLastD 0)).nest.epi ≠ 2 ∧ bit (cfgW (s.ctx (w.keys.getLastD 0)).nest.epi 0) 13 = false ∧
      (s.ctx (w.keys.getLastD 0)).nest.mode.getLsbD 2 = false) := by
  and_intros <;> decide +kernel

/-- A rider whose X command queue holds one command. -/
def waiting1 (i : Instr) (ea : DWord) (f : XCmd → XCmd := id) (g : Ctx → Ctx := id) : State :=
  on0 fun c => g { c with xq := [f { tok := 7, i := i, ea := ea }], chans := [(5, ring false)] }

theorem test_hyp_AccessesPerformed :
    (let x := ({ tok := 7, i := .ldd {} (.reg 5) 1 {}, ea := end8 } : XCmd)
     Alone (waiting1 (.ldd {} (.reg 5) 1 {}) end8) 0 x 0 0 ∧ InScratch (waiting1 (.ldd {} (.reg 5) 1 {}) end8) 0 end8 8 ∧
      (waiting1 (.ldd {} (.reg 5) 1 {}) end8).mem.poisoned ((on0 id).me.scratch (bits end8 59 0)) 8 = false) ∧
    ((on0 id).mem.isFull ((on0 id).me.scratch (bits end8 59 0)) = false ∧
      ({ full := [(on0 id).me.scratch (bits end8 59 0) / 16] } : Mem).isFull ((on0 id).me.scratch (bits end8 59 0)) = true) ∧
    (let e := ({ seq := 0, remain := 5, writes := [.a 5 ⟨0, 1⟩], tok := some 7 } : Landing)
     let c := (waiting1 (.ldd {} (.reg 5) 1 {}) end8 (fun x => { x with data := some ⟨9, 0⟩ }) (fun c => { c with land := [e] })).ctx 0
     c.xq = [{ tok := 7, i := .ldd {} (.reg 5) 1 {}, ea := end8, data := some ⟨9, 0⟩ }] ∧ c.land = [e] ∧ e.tok = some 7) ∧
    (let p := ({ st := .open, res := 1, closed := true } : Page)
     let ch := { ring false with pages := [{}, p, {}, {}] }
     let x := ({ tok := 7, i := .tread {} 5 1 2, org := [0, 0, 0], room := some (5, 1, 0) } : XCmd)
     let s := on0 fun c => { c with xq := [x], chans := [(5, ch)] }
     Alone s 0 x 0 0 ∧ (s.ctx 0).slots.get? 2 = none ∧ (s.ctx 0).chans.get? 5 = some ch ∧ (ch.page 1).closed = true ∧ (ch.page 1).res = (ch.page 1).wr + 1 ∧
      (ch.page 1).st = .open ∧ 0 + 1 = (ch.page 1).res ∧ (ch.page 1).absent = [] ∧ 1 ≠ ch.head) ∧
    (Alone (waiting1 (.fence {} .sc .stall) 0) 0 { tok := 7, i := .fence {} .sc .stall } 0 0 ∧ (waiting1 (.fence {} .sc .stall) 0).onTheWay 0 = false) ∧
    ((on0 id).ctx 0).xq = [] := by
  unfold Alone InScratch InBays; and_intros <;> decide +kernel

/-- A rider that is blocked in a wait. -/
def blocked (w : Wait) (f : Ctx → Ctx := id) : State := on0 fun c => f { c with waits := [w] }

theorem test_hyp_WaitsEnd :
    (let s := blocked (waitOf .nwait (some 1) 0)
     (s.ctx 0).waits = [waitOf .nwait (some 1) 0] ∧ (s.ctx 0).pendingTrap = none ∧ (s.ctx 0).loc = .on 0 0 ∧ s.colls = [] ∧
      (waitOf .nwait (some 1) 0).deadline ≤ s.clock ∧ (waitOf .nwait (some 1) 0).kind ≠ .hbar ∧ s.clock < (waitOf .nwait (some 1) 1).deadline) ∧
    (((ringFull false).page (ringFull false).head).st = .filled ∧ (ringFull false).prod = .rider ∧ ((ring false).page (ring false).head).st = .free ∧
      ({ ring false with pages := List.replicate 4 { st := .filled } } : Chan).pages.all (fun p => p.st == .filled) = true) ∧
    (let s := blocked (waitOf (.flg endFlag .geu 0 (some .die)) (some 1) 9)
     (s.ctx 0).xq = [] ∧ tagOf endFlag = 3 ∧ bits endFlag 59 18 = 0 ∧ s.mem.poisoned (eaFlag endFlag) 4 = false ∧
      (0 : Word).toNat ≤ leNat (s.mem.read (eaFlag endFlag) 4) ∧ leNat (s.mem.read (eaFlag endFlag) 4) < (1 : Word).toNat) ∧
    (let s := blocked (waitOf (.baysplit 2) (some 1) 9)
     (s.ctx 0).xq = [] ∧ (s.ctx 0).csr.baymap.toNat % 256 = 0) ∧
    (waiting1 (.fence {} .sc .stall) 0 id (fun c => { c with waits := [waitOf (.baysplit 2) (some 1) 9] })).me.xq ≠ [] ∧
    (let s := fun l => { blocked (waitOf .hbar (some 1) 9) with hitches := [(0, { gen := 3, members := [0], arrived := l })] }
     (s [0]).hitches.get? 0 = some { gen := 3, members := [0], arrived := [0] } ∧ (s []).hitches.get? 0 = some { gen := 3, members := [0] }) ∧
    ((waitOf .held none 0).pred = none ∧ (waitOf .held none 0).deadline ≤ (on0 id).clock ∧ (waitOf .waitbrk none 0).kind = .waitbrk) ∧
    (let x := ({ tok := 7, i := .ldfe {} (.reg 5) 1 {}, ea := end8, st := .empty } : XCmd)
     let s := waiting1 (.ldfe {} (.reg 5) 1 {}) end8 (fun x => { x with st := .empty }) (fun c => { c with waits := [waitOf (.ldfe 7) none 9] })
     (s.ctx 0).xq = [x] ∧ (s.ctx 0).stash = [] ∧ (s.ctx 0).nest.port = [] ∧ (s.ctx 0).nest.copy = none ∧ InScratch s 0 end8 8 ∧
      s.mem.poisoned ((s.ctx 0).scratch (bits end8 59 0)) 8 = false) := by
  unfold InScratch InBays; and_intros <;> decide +kernel

/-- Page tables of one leaf of 1 GiB at virtual address 0: the root at 8192 and the next table at 0x4000. -/
def tables : Mem := (({} : Mem).write 8192 (leBytes 8 0x4001)).write 0x4000 (leBytes 8 0x4000000F)
/-- A translation fault that arrived in cycle 0. -/
def fault0 : PFault := { asid := 0, page := 1, kind := 1, access := 1, count := 1, arrived := 0 }

theorem test_hyp_FaultUnit :
    (((on0 id).ctx 0).aspace = false ∧ ((on0 id).ctx 0).dead = [] ∧ (on0 id).faults = [] ∧ (on0 id).faultBatch = [] ∧ (on0 id).reported = []) ∧
    (let s := { on0 (fun c => { c with aspace := true, root := 1 }) with mem := tables }
     (s.ctx 0).aspace = true ∧ s.stallTlb = [] ∧ s.paddockTlb = [] ∧
      ((s.walk (s.ctx 0).asid (s.ctx 0).root 0).toOption.map (fun e => permFault e 2)) = some none) ∧
    (fault0.arrived + 14000 ≤ { State.reset with clock := 14000 }.clock ∧ State.reset.clock < fault0.arrived + 14000) ∧
    ((State.reset.setReg .fltbase 1).reg .fltbase).getLsbD 0 = true ∧ (State.reset.reg .fltbase).getLsbD 0 = false ∧
    (let s := fun (p : DWord) => (State.reset.setReg .fltbase 1).setReg .fltptr p
     let n := 2 ^ bits ((s 0).reg .fltbase) 5 1
     (bits ((s 0).reg .fltptr) 31 0 + 2 ^ 32 - bits ((s 0).reg .fltptr) 63 32) % 2 ^ 32 < n ∧
      n ≤ (bits ((s 0xFFFFFFFF).reg .fltptr) 31 0 + 2 ^ 32 - bits ((s 0xFFFFFFFF).reg .fltptr) 63 32) % 2 ^ 32) ∧
    (let s := { booted with ctxs := (waiting1 (.ldd {} (.reg 5) 1 {}) 0x10000 (fun x => { x with st := .halted 0x10000 1 1 })).ctxs }
     (s.ctxs.get? 0).isSome = true ∧ (s.ctx 0).waits = [] ∧ (s.ctx 0).nest.copyHalt = none ∧ s.gangs = [] ∧ bits (0x10000 : DWord) 11 0 = (s.ctx 0).asid ∧
      bits (0x10000 : DWord) 48 16 ≤ 0x10000 / 65536 ∧ 0x10000 / 65536 ≤ bits (0x10000 : DWord) 48 16 + bits (0x10000 : DWord) 63 49 ∧
      Owns s .host) := by
  unfold Owns; and_intros <;> decide +kernel

/-- A splinter of the leaf at address 0 into a table at 0x10000, at its first stage or with its leaf read. -/
def splinter0 (leaf : Option (Nat × DWord)) (written : Bool := false) : Splinter :=
  { asid := 0, va := 0, small := 1, table := 0x10000, leaf := leaf, written := written }
/-- A module with those tables in which a splinter is under way. -/
def splintering (x : Splinter) : State := { booted.setReg (.asroot 0) 0x3000 with mem := tables, spl := some x }

theorem test_hyp_OwnersPagingWrites :
    Owns booted .host ∧ bit (booted.reg .splctl) 1 = false ∧ bit ((booted.setReg .splctl 2).reg .splctl) 1 = true ∧
    ((booted.rootOf 0).map (fun r => booted.leafAt 0 2 [3, 2, 1, 0] (r * 8192)) = none ∧ (splinter0 none).leaf = none) ∧
    (let s := splintering (splinter0 none)
     s.spl = some (splinter0 none) ∧ (s.rootOf 0).map (fun r => s.leafAt 0 2 [3, 2, 1, 0] (r * 8192)) = some (some (some (0x4000, 0x4000000F))) ∧
      0x10000 % tableBytes 1 = 0 ∧ s.reservedRange 0x10000 (tableBytes 1) = false ∧ 0x10008 % tableBytes 1 ≠ 0) ∧
    (let s := splintering (splinter0 (some (0x4000, 0x4000000F)))
     s.spl = some (splinter0 (some (0x4000, 0x4000000F))) ∧ s.homeHeld 0x10000 = false ∧ 511 < levelEntries 1) ∧
    (let s := splintering (splinter0 (some (0x4000, 0x4000000F)) true)
     (splinter0 (some (0x4000, 0x4000000F)) true).written = true ∧ s.homeHeld 0x4000 = false ∧ s.mem.read 0x4000 8 = leBytes 8 (0x4000000F : DWord).toNat ∧
      s.mem.read 0x4000 8 ≠ leBytes 8 (0x4000000B : DWord).toNat) ∧
    booted.isOwner .host2 = false ∧ State.reset.stage ≠ 4 := by
  unfold Owns; and_intros <;> decide +kernel

/-- A free bit of either value meets the hypotheses of the write of the table. -/
theorem test_hyp_SplinterWrites (f : Nat → Bool) : f State.reset.fresh = true ∨ f State.reset.fresh = false := by
  cases f State.reset.fresh <;> decide

/-- The cache line of address 0. -/
def line0 (dirty : BitVec 64) : Line := { pa := 0, bytes := List.replicate 64 7, dirty := dirty, filled := 0 }
/-- A flit for channel 5 at the offset 8, without its CRC. -/
def flit5 : BitVec 512 := BitVec.ofNat 512 (5 * 2 ^ 270 + 8 * 2 ^ 274)

theorem test_hyp_LinesAndFlits :
    (let s := fun d => { State.reset with slices := [(0, [line0 d])] }
     (s 0).ctxs.all (fun c => c.2.stash.isEmpty) = true ∧ findLine ((s 0).slices.getD 0 []) 0 = some (line0 0) ∧ (line0 0).pa = 0 ∧ 0 < remoteKey ∧
      (line0 (BitVec.allOnes 64)).dirty = BitVec.allOnes 64 ∧ (line0 0).bytes.length = 64 ∧ 0 % 64 = 0 ∧ (s 0).homeHeld 0 = false ∧
      { s 0 with clock := 699 }.clock < (line0 0).filled + 700 ∧ 0 = stallPaddock 0 ∧
      ((s 0).slices.getD 0 []).all (fun y => y.pa != 0 || y == line0 0) = true) ∧
    (State.reset.reinWait = [] ∧ State.reset.reinOwner 0 5 = none) ∧
    (let ch := { ring false with prod := .rein }
     let s := on0 fun c => { c with chans := [(5, ch)] }
     s.reinOwner 0 (flitBits flit5 273 270) = some (0, ch) ∧ (ch.page ch.openIx).st = .free ∧ flitBits flit5 291 274 * 32 < ch.pageBytes ∧
      flitBits flit5 293 292 = 0 ∧ (ch.page ch.head).st = .free) ∧
    ((State.reset.linkDir 0).discarding = false ∧ flitGood flit5 = false) ∧
    (let x := ({ tok := 7, i := .gcheck {} 1 2 .stall false, commit := true } : XCmd)
     let s := waiting1 (.gcheck {} 1 2 .stall false) 0 (fun x => { x with commit := true })
     Alone s 0 x 0 0 ∧ (s.ctx 0).guard = [] ∧ s.onTheWay 0 = false) ∧ ((on0 id).ctx 0).xq = [] := by
  unfold Alone; and_intros <;> decide +kernel

theorem test_hyp_Ownership :
    State.reset.ownerValid = false ∧ masterNum .bmc = 2 ∧ (booted.ownerValid = true ∧ masterNum .host2 ≠ 2) ∧
    (booted.isOwner .host = true ∧ (3 : BitVec 2).toNat ≠ masterNum .host ∧ (0 : BitVec 2).toNat = masterNum .host ∧ masterNum .host < 2) ∧
    (bit ((booted.setReg .owner 0x1C).reg .owner) 3 = true ∧ bits ((booted.setReg .owner 0x1C).reg .owner) 5 4 = masterNum .host2) ∧
    (bit (booted.reg .owner) 3 = false ∧ bits ((booted.setReg .owner 0x1C).reg .owner) 5 4 ≠ masterNum .bmc) ∧
    booted.isOwner .host2 = false := by decide +kernel

theorem test_hyp_AccessesFromOutside :
    (booted.isOwner .host = true ∧ Owns booted .host ∧ 0x3FFF8 < 0x40000 ∧ 0x3FFF8 % 8 = 0) ∧ booted.isOwner .host2 = false ∧ State.reset.stage ≠ 4 ∧
    ((2 ≠ 4 ∧ 2 ≠ 8) ∧ 4 % 8 ≠ 0 ∧ 2 ^ 26 < 2 ^ 26 - 7 + 8) ∧
    (hasBars .host = true ∧ (4 : BitVec 3) ≠ 0 ∧ (4 : BitVec 3) ≠ 2 ∧ NothingCached booted ∧ dramBytes - 8 + 8 ≤ dramBytes ∧ booted.stage = 4 ∧
      dramBytes < dramBytes - 7 + 8 ∧ dramBytes - 8 + (List.replicate 8 (7 : Byte)).length ≤ dramBytes) ∧ NothingCached State.reset := by
  unfold Owns NothingCached; and_intros <;> decide +kernel

/-- A booted module with queue q enabled at a ring of 16 slots, its TAIL at t and the PROD and CONS of its log as p says. -/
def queued (q : Nat) (t p : DWord) : State := ((booted.setReg (.qctl q) 0x11).setReg (.qptr q) t).setReg (.dblstat 0) p

theorem test_hyp_QueuesAndDoorbells :
    255 < 256 ∧ Owns (queued 255 0 0) .host ∧ hasBars .host = true ∧ bit ((queued 255 0 0).reg (.qctl 255)) 0 = true ∧
    (let s := queued 255 0xFFFFFFF8FFFFFFF8 0
     let head := bits (s.reg (.qptr 255)) 63 32
     let dist := fun (i : Nat) => (i + 2 ^ 32 - s.headWas.getD 255 head) % 2 ^ 32
     dist 8 ≤ 2 ^ bits (s.reg (.qctl 255)) 6 2 ∧ dist (bits (s.reg (.qptr 255)) 31 0) ≤ dist 8 ∧ ¬ dist 9 ≤ 2 ^ bits (s.reg (.qctl 255)) 6 2) ∧
    (let log := fun (p : DWord) => (queued 255 0 p).reg (.dblstat (bits ((queued 255 0 0).reg (.qctl 255)) 9 8))
     (bits (log 4095) 12 0 + 8192 - bits (log 4095) 28 16) % 8192 ≠ 4096 ∧ (bits (log 4096) 12 0 + 8192 - bits (log 4096) 28 16) % 8192 = 4096) ∧
    (bit (booted.reg (.qctl 255)) 0 = false ∧ (queued 255 0 0).engines = [] ∧ bit ((booted.setReg (.qctl 255) 0x80000011).reg (.qctl 255)) 31 = true) ∧
    (booted.isOwner .host2 = false ∧ booted.stage = 4) := by
  unfold Owns; and_intros <;> decide +kernel

theorem test_hyp_GroomWrites :
    (let s := (queued 255 8 0).setReg (.feq 255) 0x0000000200000004
     let dist := fun (i : Nat) => (i + 2 ^ 32 - bits (s.reg (.qptr 255)) 63 32) % 2 ^ 32
     bits (s.reg (.qctl 255)) 9 8 = 0 ∧ dist (bits (s.reg (.feq 255)) 31 0) ≤ dist 8 ∧ dist 8 ≤ dist (bits (s.reg (.qptr 255)) 31 0) ∧
      dist 3 < dist (bits (s.reg (.feq 255)) 31 0) ∧ dist (bits (s.reg (.qptr 255)) 31 0) < dist 9 ∧ dist 2 ≤ dist (bits (s.reg (.feq 255)) 63 32) ∧
      dist (bits (s.reg (.feq 255)) 63 32) < dist 3 ∧ bits (s.reg (.qctl 255)) 9 8 ≠ 3) ∧
    (let s := on0 fun c => { c with loc := .on 4095 1, waits := [waitOf .waitbrk none 9] }
     s.ctxs.get? 0 = some (s.ctx 0) ∧ 0 < groomKey ∧ (s.ctx 0).loc = .on 4095 1 ∧ (s.ctx 0).waits = [waitOf .waitbrk none 9] ∧
      bits (0x3FFF : DWord) 11 0 = 4095 ∧ bit 0x3FFF 12 = true ∧ bit 0x3FFF 13 = true ∧ bit 0x1FFF 13 = false) ∧
    (4351 < 4352 ∧ bit (State.reset.reg (.colmap (4351 / 34))) (4351 % 34) = false ∧
      bits (State.reset.reg (.stallwear 4351)) 33 32 < bits (0x200000000 : DWord) 33 32 ∧ bits (0x200000000 : DWord) 33 32 < 3 ∧
      bits (0x300000000 : DWord) 33 32 = 3 ∧ bits (State.reset.reg (.stallwear 4351)) 33 32 < 3) ∧
    ((on0 id).gselRow (groomKey + 0) < 128 ∧ bits (1 : DWord) 33 0 ≠ bits ((on0 id).reg (.colmap ((on0 id).gselRow (groomKey + 0)))) 33 0 ∧
      (on0 id).rowBusy ((on0 id).gselRow (groomKey + 0)) = true) ∧
    (bits (0x10000000000 : DWord) 33 0 = bits (State.reset.reg (.colmap 0)) 33 0 ∧ bit 0x10000000000 40 = true) ∧
    (let s := State.reset.setReg (.stallwear 0) 0x200000000
     s.gselRow groomKey = 0 ∧ bits (s.reg (.colmap 0)) 33 0 = 0 ∧ s.rowBusy 0 = false ∧ s.physState (0 * 34) = 2 ∧ s.mem = {}) := by
  and_intros <;> decide +kernel

theorem test_hyp_Resets : LifeTables State.reset ∧ State.reset.ownerValid = false ∧ booted.isOwner .host = true ∧
    (booted.isOwner .host2 = false ∧ booted.ownerValid = true) ∧ (State.reset.req0.getD 7 = 7 ∧ { booted with req0 := some 1 }.req0.getD 7 ≠ 7) := by
  unfold LifeTables; and_intros <;> decide +kernel

/-- A slot of one header with an SVN and a wrong magic. -/
def slotOf (svn : Byte) : List Byte := List.replicate 7 0 ++ svn :: List.replicate 4088 0
/-- A firmware header with an empty body, whose digest is given, with signatures of zeros. -/
def imageOf (digest : List Byte) : List Byte :=
  [0x53, 0x41, 0x4C, 0x4D, 1, 0, 1, 3] ++ List.replicate 8 0 ++ digest ++ List.replicate 4016 0

theorem test_hyp_BootAndFirmwareRestarts : LifeTables State.reset ∧
    (State.reset.stage = 0 ∧ 4096 ≤ (slotOf 1).length ∧ fieldOf (slotOf 1) 7 7 < fieldOf (slotOf 2) 7 7 ∧ State.reset.imageCheck (slotOf 2) ≠ 0 ∧
      State.reset.imageCheck (slotOf 1) ≠ 0 ∧ ¬ (4096 ≤ State.reset.nv.slotA.length) ∧ State.reset.imageCheck [] ≠ 0) ∧
    (State.reset.setReg .bootstat 3).stage = 3 ∧ booted.stage ≠ 3 ∧
    ((State.reset.setReg .bootstat 15).stage = 15 ∧ booted.isOwner .host = true ∧ State.reset.linkState 383 = 0 ∧ State.reset.stage ≠ 2) ∧
    (booted.setReg (.xlink 383) 1).linkState 383 ≠ 0 ∧
    (let s := fun c => { (State.reset.setReg (.dblstat 3) 1) with clock := c }
     bits ((s 0).reg (.dblstat 3)) 12 0 ≠ bits ((s 0).reg (.dblstat 3)) 28 16 ∧
      (s 7000000).consAt.getD 3 0 + bits ((s 0).reg (.festat 3)) 55 32 * 700 ≤ (s 7000000).clock ∧
      ¬ (s 6999999).consAt.getD 3 0 + bits ((s 0).reg (.festat 3)) 55 32 * 700 ≤ (s 6999999).clock) := by
  unfold LifeTables; and_intros <;> decide +kernel

/-- An image is accepted where the digest over its body is the one in its header and its signatures verify. -/
theorem test_hyp_ImageAccepted (hd : Config.digest512 [] = List.replicate 64 7) (hv : ∀ k m g, Config.verifies k m g = true) :
    State.reset.imageCheck (imageOf (List.replicate 64 7)) = 0 := by
  have hb : imgBody (imageOf (List.replicate 64 7)) = [] := by decide +kernel
  have h1 : ((imageOf (List.replicate 64 7)).length < 4096 || imgMagic (imageOf (List.replicate 64 7)) != 0x4D4C4153 ||
    imgVer (imageOf (List.replicate 64 7)) != 1) = false := by decide +kernel
  have h2 : (imgLen (imageOf (List.replicate 64 7)) % 16 != 0 || decide (2 ^ 26 < imgLen (imageOf (List.replicate 64 7))) ||
    !zeroes (imageOf (List.replicate 64 7)) 15 12 || !zeroes (imageOf (List.replicate 64 7)) 4095 3453) = false := by decide +kernel
  have h3 : keysetOk State.reset.nv.lcs (imgKeyset (imageOf (List.replicate 64 7))) = true := by decide +kernel
  have h4 : ¬ imgSvn (imageOf (List.replicate 64 7)) < State.reset.nv.svnmin := by decide +kernel
  have h5 : ((imageOf (List.replicate 64 7)).drop 16).take 64 = List.replicate 64 7 := by decide +kernel
  have h6 : ¬ 2 ^ 23 < imgLen (imageOf (List.replicate 64 7)) := by decide +kernel
  simp only [State.imageCheck, h1, h2, h3, h4, h5, h6, hb, hd, hv]
  simp

theorem test_hyp_LifeCycleChanges :
    (booted.isOwner .host = true ∧ bit ((booted.setReg .lcstate 8).reg .lcstate) 3 = true ∧ bit (booted.reg .lcstate) 3 = false ∧
      booted.isOwner .host2 = false) ∧
    ((1, 7) ∉ [((0 : Nat), (1 : Nat)), (1, 2), (1, 3), (2, 3)] ∧ booted.nv.lcs = 1 ∧ (booted.nv.lcs, 2) ∈ [((0 : Nat), (1 : Nat)), (1, 2), (1, 3), (2, 3)]) ∧
    (booted.lcauthOk 3 4 = false ∧ bit (booted.reg .dispctl) 1 = false ∧ bit ((booted.setReg .dispctl 2).reg .dispctl) 1 = true ∧
      (∀ c ∈ booted.ctxs, c.1 < groomKey → c.2.resident = false) ∧ LifeTables booted) := by
  unfold LifeTables; and_intros <;> decide +kernel

theorem test_hyp_ClockAndPowerSteps :
    (3 < 4 ∧ 127 < 128 ∧ 4095 < 4096 ∧ Owns booted .host ∧ (2 : Word).toNat % 4 ≠ 3 ∧ (7 : Word).toNat % 4 = 3) ∧
    (bit ((booted.setReg (.dramclk 3) 0x10).reg (.dramclk 3)) 4 = true ∧ bit (booted.reg (.dramclk 3)) 4 = false ∧
      Nat.max (bits ((booted.setReg (.dramclk 3) 2).reg (.dramclk 3)) 1 0) (bits ((booted.setReg (.dramclk 3) 2).reg (.dramclk 3)) 9 8) ≠
        bits ((booted.setReg (.dramclk 3) 2).reg (.dramclk 3)) 3 2) ∧
    (let s := { booted.setReg (.dramclk 3) 0x12 with ratio := [(3, (0, 2))] }
     s.ratio.get? 3 = some (0, 2) ∧ 2 < 3 ∧ Nat.max (bits (s.reg (.dramclk 3)) 1 0) (bits (s.reg (.dramclk 3)) 9 8) = 2) ∧ booted.ratio.get? 3 = none ∧
    ((∃ i < 34, (booted.setReg (.stallwear (127 * 34 + 33)) 0x100000000).physState (127 * 34 + i) = 1) ∧
      (¬ ∃ i < 34, booted.physState (127 * 34 + i) = 1) ∧ bits (booted.reg (.rowpwr 127)) 14 8 ≤ 64) ∧
    (bits (booted.reg .pwrctl) 11 0 < (2801 : BitVec 12).toNat ∧ (2699 : BitVec 12).toNat + 100 < bits (booted.reg .pwrctl) 11 0 ∧
      (2700 : BitVec 12).toNat ≤ bits (booted.reg .pwrctl) 11 0 ∧ bits (booted.reg .pwrctl) 11 0 ≤ (2700 : BitVec 12).toNat + 100) := by
  unfold Owns; and_intros <;> decide +kernel

/-- A state in which one sensor of the last paddock of quarter 3 reads a code. -/
def sensed (k : Nat) (code : DWord) : State := booted.setReg (.tsense ((3 * 64 + 63) * 6 + k)) (0x10000 + code)
/-- That sensor has a valid reading of at least lim. -/
def readsAt (s : State) (k lim : Nat) : Bool :=
  bit (s.reg (.tsense ((3 * 64 + 63) * 6 + k))) 16 && decide (lim ≤ bits (s.reg (.tsense ((3 * 64 + 63) * 6 + k))) 11 0)

theorem test_hyp_ThermalRules :
    (1535 < 1536 ∧ 1530 % 6 = 0 ∧ 1392 ≤ (1392 : BitVec 12).toNat ∧ (1391 : BitVec 12).toNat < 1392 ∧ 1531 % 6 < 2 ∧ 1472 ≤ (1472 : BitVec 12).toNat ∧
      2 ≤ 1535 % 6 ∧ 1352 ≤ (1352 : BitVec 12).toNat) ∧
    (127 < 128 ∧ 127 % 32 / 4 * 8 + 7 = 63 ∧ readsAt (sensed 0 1472) 0 1472 = true ∧ readsAt (sensed 1 1472) 1 1472 = true ∧
      readsAt (sensed 5 1352) 5 1352 = true) ∧
    (readsAt (sensed 0 1232) 0 1232 = true ∧ readsAt (sensed 0 1231) 0 1232 = false ∧ readsAt (sensed 0 1207) 0 1208 = false ∧
      readsAt (sensed 0 1207) 0 0 = true ∧ readsAt (sensed 5 1192) 5 1192 = true ∧ readsAt (sensed 5 1312) 5 1312 = true ∧
      readsAt (sensed 5 1311) 5 1272 = true ∧ readsAt (sensed 5 1311) 5 1312 = false ∧ readsAt (sensed 5 1231) 5 1232 = false) := by
  and_intros <;> decide +kernel

theorem test_hyp_ShadowAndWear :
    (4095 < 4096 ∧ State.reset.physStall 4095 = some (127 * 34 + 31) ∧ Owns booted .host) ∧
    ((State.reset.setReg (.colmap 127) 0x3FFFFFFFF).physStall 4095 = none ∧ (State.reset.setReg (.colmap 127) 0x3FFFFFFFF).serves 4351 = false) ∧
    (State.reset.serves (127 * 34 + 31) = true ∧ bit (State.reset.reg (.colmap 127)) 31 = false ∧
      bits (State.reset.reg (.stallwear (127 * 34 + 31))) 33 32 < 3) := by
  unfold Owns; and_intros <;> decide +kernel

/-- A module in a domain, with number 5 and port 15 up. -/
def joined : State := (booted.setReg .domcfg 0x45).setReg (.soport 15) 3
/-- A frame from module 9, of a type and a class. -/
def frameOf (type : BitVec 4) (cls : BitVec 8) (addr : BitVec 64) (data : List Byte := []) (len : BitVec 16 := 8) : Frame :=
  { type := type, cls := cls, len := len, src := 9, dst := 5, tag := 77, seq := 0, ackn := 0, addr := addr, attr := 0, pcrc := 0, data := data }

theorem test_hyp_FramesAtAPort :
    ((frameOf 6 0 0).type.toNat = 6 ∧ 15 < 16 ∧ booted.portUp 15 = false ∧ joined.portUp 15 = true ∧ { frameOf 6 0 0 with ver := 2 }.ver ≠ 1 ∧
      badFrame (frameOf 6 0 0) = false ∧ (booted.setReg (.soport 15) 3).domainOn = false) ∧
    (LetIn joined 15 (frameOf 9 2 0) ∧ { frameOf 9 2 0 with seq := 4 }.seq ≠ (inStream joined (frameOf 9 2 0)).rxSeq) ∧
    LetIn joined 15 (frameOf 6 0 0) ∧ (OfTransport joined (frameOf 6 0 0) ∧ ¬ OfTransport joined { frameOf 6 0 0 with etype := 0x0800 }) := by
  unfold LetIn OfTransport; and_intros <;> decide +kernel

theorem test_hyp_RequestsFromOtherModules :
    (InTurn joined 15 (frameOf 0 0 0x5FFFFFFFF8) ∧ joined.homeHeld (dramBytes - 8) = false ∧ dramBytes - 8 + 8 ≤ dramBytes ∧
      (frameOf 0 0 0x5FFFFFFFF8).addr.toNat % 2 ^ 39 = dramBytes - 8 ∧ joined.mem.poisoned (dramBytes - 8) 8 = false ∧
      ({ poison := [0x5FFFFFFFF] } : Mem).poisoned (dramBytes - 8) 8 = true) ∧
    (InTurn joined 15 (frameOf 0 0 0x6000000000) ∧ dramBytes < 0x6000000000 + 8 ∧ 0x6000000000 < 0x7FFC000000) ∧
    (InTurn joined 15 (frameOf 0 0 0x5FFFFFFFF8 [] 4097) ∧ 4096 < (frameOf 0 0 0x5FFFFFFFF8 [] 4097).len.toNat ∧ 0x5FFFFFFFF8 < 0x7FFC000000) ∧
    (InTurn joined 15 (frameOf 0 0 0x7FFC000010) ∧ (frameOf 0 0 0x7FFC000010).len.toNat = 8) ∧
    (InTurn joined 15 (frameOf 0 2 0x5FFFFFF000) ∧ 0x5FFFFFF000 + 4096 ≤ dramBytes ∧ 0x5FFFFFF000 % 4096 = 0) ∧
    (InTurn joined 15 (frameOf 2 0 0x5FFFFFFFF8 (List.replicate 8 7)) ∧
      ¬ (bits (joined.reg .ckptstat) 2 0 = 1 ∨ bits (joined.reg .ckptstat) 2 0 = 2)) ∧
    (let s := { joined.setReg .ckptstat 1 with ckpt := { restore := true } }
     InTurn s 15 (frameOf 2 0 0x5FFFFFFFF8 (List.replicate 8 7)) ∧ bits (s.reg .ckptstat) 2 0 = 1) ∧
    (InTurn joined 15 (frameOf 4 0 0x5FFFFFFFF8 (List.replicate 8 7)) ∧ (frameOf 4 0 0).attr.toNat / 64 % 16 = 0) ∧
    (let s := joined.setReg (.dramclk (stallQuarter (homeStall 0))) 0x10
     InTurn s 15 (frameOf 0 0 0) ∧ s.homeHeld 0 = true) := by
  unfold InTurn LetIn OfTransport; and_intros <;> decide +kernel

/-- A request that module 9 has still to answer. -/
def asked (kind : ReqKind) : Outstanding := { dst := 9, tag := 77, addr := 0x1000, kind := kind, key := 0, tok := 7 }
/-- The state in which the rider of context 0 has asked. -/
def asking (kind : ReqKind) : State :=
  { joined with outstanding := [asked kind], ctxs := (waiting1 (.aadd {} 5 1 {}) 0x1000).ctxs }

/-- A stream that has sent one frame and retransmitted it t times, and a state at cycle c with it. -/
def stream (t : Nat) : Stream := { unacked := [frameOf 2 0 0], firsts := [0], tries := t, port := some 0 }
def streaming (t c : Nat) : State := { joined with streams := [(streamKey 63 3, stream t)], clock := c }

theorem test_hyp_ResponsesAndRetransmission :
    (InTurn (asking .read) 15 (frameOf 1 1 0) ∧ (asking .read).ctxs.get? 0 = some ((asking .read).ctx 0) ∧
      (asking .read).answered (frameOf 1 1 0) .read = some (asked .read)) ∧
    (InTurn (asking .write) 15 (frameOf 3 1 0) ∧ (asking .write).answered (frameOf 3 1 0) .write = some (asked .write)) ∧
    (InTurn (asking .atomic) 15 (frameOf 5 1 0) ∧ (asking .atomic).answered (frameOf 5 1 0) .atomic = some (asked .atomic) ∧
      ({ tok := 7, i := .aadd {} 5 1 {}, ea := 0x1000 } : XCmd) ∈ ((asking .atomic).ctx 0).xq) ∧
    (InTurn joined 15 (frameOf 1 1 0) ∧ joined.outstanding = []) ∧
    (streaming 3 2100).streams.get? (streamKey 63 3) = some (stream 3) ∧
    ((stream 3).unacked ≠ [] ∧ (stream 3).sentAt + 2100 ≤ (streaming 3 2100).clock ∧ (stream 3).tries < 4) ∧
    ((streaming 3 2100).streamPort ((stream 3).port.getD 3) = some 15 ∧ 4 ≤ (stream 4).tries) ∧
    (stream 3).firsts.head?.any (fun n => decide (n + 11200 ≤ (streaming 3 11200).clock)) = true ∧
    ((stream 3).firsts.head?.any (fun n => decide (n + 11200 ≤ (streaming 3 2100).clock)) = false ∧ ¬ (stream 3).sentAt + 2100 ≤ (streaming 3 2099).clock) := by
  unfold InTurn LetIn OfTransport; and_intros <;> decide +kernel

theorem test_hyp_DomainAndCheckpoint :
    (Owns joined .host ∧ bit (booted.reg .domcfg) 6 = false ∧ bit (joined.reg .domcfg) 6 = true ∧ bit 0x40 6 = true ∧ bit 0x3F 6 = false ∧
      bits ((joined.setReg .ckptstat 2).reg .ckptstat) 2 0 = 2) ∧
    (let s := (joined.setReg .dispctl 2).setReg .ckptdst 0x28000000000
     bit (s.reg .dispctl) 1 = true ∧ (∀ c ∈ s.ctxs, c.1 < groomKey → c.2.resident = false) ∧ bits (s.reg .ckptdst) 15 0 = 0 ∧
      bit (s.reg .domcfg) 6 = true ∧ bits (s.reg .ckptdst) 44 39 = bits (s.reg .domcfg) 5 0 ∧
      (bit 0x80000000 (16 + 15) = true ∧ bit (s.reg (.soport 15)) 0 = true) ∧ Owns s .host ∧ bit (joined.reg .dispctl) 1 = false) ∧
    (let s := { (joined.setReg .ckptstat 1).setReg .ckptdst 0x48000000000 with ckpt := { restore := true, pending := [77] } }
     InTurn s 15 (frameOf 8 2 0 (List.replicate 4096 7)) ∧ (frameOf 8 2 0).src.toNat = bits (s.reg .ckptdst) 44 39 ∧
      s.ckpt.pending.find? (fun x => x % 65536 == (frameOf 8 2 0).tag.toNat) = some 77 ∧ (frameOf 8 2 0).attr.getLsbD 10 = false ∧
      Nat.lor (s.ckpt.arrived.getD (77 / 16) 0 % 65536) (2 ^ (77 % 16)) ≠ 65535 ∧ s.homeHeld (ckOffset (77 / 16) + 77 % 16 * 4096) = false) ∧
    (let s := { joined.setReg .ckptstat 1 with ckpt := { restore := true } }
     InTurn s 15 (frameOf 8 2 0) ∧ (frameOf 8 2 0).src.toNat ≠ bits (s.reg .ckptdst) 44 39) ∧
    (InTurn joined 15 (frameOf 8 2 0x28000000000 (List.replicate 8 7)) ∧ bits (0x28000000000 : DWord) 44 39 = joined.myMod ∧ joined.homeHeld 0 = false ∧
      0xF000 / 4096 % 16 = 15 ∧ 0 / 4096 % 16 ≠ 15 ∧ bits (0 : DWord) 44 39 ≠ joined.myMod) ∧
    (let s := fun t => { (joined.setReg .ckptstat 1).setReg .ckptdst 0x48000000000 with ckpt := { pending := [0], tries := [(0, t)] } }
     InTurn (s 1) 15 (frameOf 9 2 0) ∧ InTurn (s 1) 15 (frameOf 7 2 0) ∧ 0 ∈ (s 1).ckpt.pending ∧ (s 1).ckpt.tries.getD 0 0 < 2 ∧
      2 ≤ (s 2).ckpt.tries.getD 0 0 ∧ bits ((s 1).reg .ckptstat) 2 0 = 1 ∧ (s 1).ckpt.restore = false) := by
  unfold Owns InTurn LetIn OfTransport; and_intros <;> decide +kernel

/-- A trace flit whose checksum and CRC are right, and the same without a sum in it. -/
def goodFlit : BitVec 1152 := traceFlit sums0 0 0 false
def emptyFlit : BitVec 1152 := BitVec.ofNat 1152 ((crc32 (List.replicate 140 0)).toNat * 2 ^ 1120)

theorem test_hyp_LinksAndPorts :
    (({ discarding := true, rxSeq := 4 } : LinkDir).rxSeq ≠ BitVec.ofNat 8 (goodFlit.toNat / 2 ^ 1072) ∧ (booted.linkDir 383).discarding = false) ∧
    ((crc32 (leBytes 140 goodFlit.toNat)).toNat = goodFlit.toNat / 2 ^ 1120 ∧ goodFlit.toNat / 2 ^ 1080 % 2 = 1 ∧
      ¬ (crc32 (leBytes 140 (goodFlit ^^^ 1).toNat)).toNat = (goodFlit ^^^ 1).toNat / 2 ^ 1120) ∧
    ((crc32 (leBytes 140 emptyFlit.toNat)).toNat = emptyFlit.toNat / 2 ^ 1120 ∧ emptyFlit.toNat / 2 ^ 1080 % 2 = 0) ∧
    (let w := { sums0 with wire := true }
     let g := { gang0 1 with row := 63, flight := [w] }
     g.ended = false ∧ traceLink g.row < 384 ∧ g.flight = [w] ∧ w.wire = true) ∧
    (383 < 384 ∧ bits ((booted.setReg (.xlink 383) 1).reg (.xlink 383)) 1 0 = 1 ∧ bits ((booted.setReg (.xlink 383) 2).reg (.xlink 383)) 1 0 = 2 ∧
      (booted.linkDir 383).nakRun ≠ 3 ∧ booted.gangs = [] ∧ bits (booted.reg (.xlink 383)) 1 0 ≠ 2 ∧ Owns booted .host) ∧
    (15 < 16 ∧ joined.portUp 15 ≠ false ∧ (booted.setReg (.soport 15) 2).portUp 15 ≠ true ∧ bit ((booted.setReg (.soport 15) 2).reg (.soport 15)) 1 = true ∧
      booted.portUp 15 = false ∧ bit (booted.reg (.soport 15)) 1 = false) := by
  unfold Owns; and_intros <;> decide +kernel

/-- A connection that has negotiated, whose last signature covered a digest of zeros. -/
def met : Conn := { version := true, caps := true, algs := true, signed := some (List.replicate 48 0) }
/-- A state with that connection and n sessions of it. -/
def inSession (n : Nat) (established : Bool) : State :=
  { booted with conns := [(2, met)], sessions := (List.range n).map (fun i => (i, { conn := 2, established := established })) }

theorem test_hyp_Attestation :
    (booted.conns.getD 2 {}).version = false ∧ ((inSession 0 true).conns.getD 2 {}) = met ∧ (booted.nv.lcs = 1 ∨ booted.nv.lcs = 2) ∧
    (Nat.land 0x200 (([0x200, 0x2, 0x10, 0x2] : List Word).getD 0 0).toNat ≠ 0 ∧ Nat.land 0x2 (([0x200, 0x2, 0x10, 0x2] : List Word).getD 1 0).toNat ≠ 0 ∧
      Nat.land 0x200 (([0x100] : List Word).getD 0 0).toNat = 0) ∧
    ¬ ({ booted.nv with lcs := 3 }.lcs = 1 ∨ { booted.nv with lcs := 3 }.lcs = 2) ∧
    ((∀ j < 4, (inSession 4 true).sessions.get? j ≠ none) ∧ (inSession 3 true).sessions.get? 3 = none ∧
      (∀ j < 3, (inSession 3 true).sessions.get? j ≠ none)) ∧
    ((inSession 4 false).sessions.get? 3 = some { conn := 2 } ∧ rising ((inSession 4 false).sessions.map (fun e => e.1)) = true ∧
      (inSession 4 true).sessions.get? 3 = some { conn := 2, established := true }) ∧
    ((∀ x : Session, ([] : List Byte) ≠ secretBytes 3 48 (x.secret ++ hash384 met.transcript))) ∧
    (met.signed = some (List.replicate 48 0) ∧ (List.replicate 48 (0 : Byte)).length = 48) := by
  and_intros
  all_goals first
    | decide +kernel
    | (intro x h; have n := congrArg List.length h; simp [secretBytes] at n)

/-- A packet of a queue: its first word, its TAG and its PTR. -/
def packet (w ptr : Nat) : List Byte := leBytes 4 w ++ leBytes 4 0x1234 ++ leBytes 8 ptr
/-- A booted module whose queue 255 has its ring of 16 slots at DRAM address 0, with one packet admitted and what follows it at 0x100. -/
def ringing (w ptr : Nat) (l : List Byte := []) : State :=
  { ((booted.setReg (.qctl 255) 0x13).setReg (.feq 255) 1) with mem := (({} : Mem).write 0 (packet w ptr)).write 0x100 l }
/-- A command of a queue. -/
def cmdOf (q opc : Nat) : Cmd := { queue := q, die := 0, opc := opc, irq := false, prio := 0, space := true, tag := 7, ptr := 0, level := 0 }
/-- The first word of the packet that a state admits. -/
def firstWord (s : State) : Nat := fieldOf (s.mem.read 0 16) 3 0

/-- Where no clock changes and no column is copied, no home column holds a request. -/
theorem none_held (s : State) (m : s.moves = []) (h : (List.range 4).all (fun q => !bit (s.reg (.dramclk q)) 4) = true) (o : Nat) :
    s.homeHeld o = false := by
  have lt : stallQuarter (homeStall o) < 4 := by unfold stallQuarter; split <;> split <;> decide
  have q := List.all_eq_true.1 h _ (List.mem_range.2 lt)
  simp only [Bool.not_eq_true'] at q
  simp [State.homeHeld, m, q]

theorem test_hyp_PacketsStart :
    (∀ w p : Nat, (ringing w p).moves = []) ∧ (∀ st < 4096, (ringing 0 0).homeHeld (st * 65536) = false) ∧
    (let s := (ringing 0 0).setReg (.dramclk (stallQuarter (homeStall 0))) 0x10
     (s.engines.getD 255 {}).stack = [] ∧ s.feHeld true 0 16 = true ∧ (ringing 0 0).feHeld true 0 16 = false) ∧
    ((ringing 0 0).mem.hostRefuses 0x1000 16 = false ∧ (ringing 0 0).mem.hostPoisoned 0x1000 16 = false ∧ (ringing 0 0).feHeld false 0x1000 16 = false) ∧
    (MayStart (ringing 0 0) 255 ∧ ((ringing 0 0).engines.getD 255 {}).stack = [] ∧
      bits ((ringing 0 0).reg (.feq 255)) 63 32 ≠ bits ((ringing 0 0).reg (.feq 255)) 31 0 ∧ ¬ MayStart booted 255 ∧ 255 < 256) ∧
    (let s := (ringing 0 0).setReg (.qbase 255) (BitVec.ofNat 64 dramBytes)
     MayStart s 255 ∧ ¬ bits (s.reg (.qbase 255)) 63 12 * 4096 + 16 ≤ dramBytes ∧ s.feHeld true dramBytes 16 = false) ∧
    ((ringing 0 0).mem.poisoned 0 16 = false ∧ 7 < firstWord (ringing 0xFF08 0) % 256 ∧ firstWord (ringing 0xFE07 0) / 2 ^ 8 % 256 ≠ 255 ∧
      2 ^ 23 ≤ firstWord (ringing 0x80FF07 0)) ∧
    (firstWord (ringing 0xFF07 8) % 256 = 7 ∧ firstWord (ringing 0xFF07 8) / 2 ^ 8 % 256 = 255 ∧ firstWord (ringing 0xFF07 8) < 2 ^ 23 ∧ 8 % 16 ≠ 0) ∧
    (let s := fun n => ringing 0x40FF07 0x100 (leBytes 4 n ++ List.replicate 12 0)
     (firstWord (s 0)).testBit 22 = true ∧ (firstWord (s 0)).testBit 17 = false ∧ fieldOf ((s 0).mem.read 0 16) 15 8 = 0x100 ∧
      fieldOf ((s 0).mem.read 0x100 16) 3 0 = 0 ∧ 65536 < fieldOf ((s 65537).mem.read 0x100 16) 3 0 ∧ fieldOf ((s 65536).mem.read 0x100 16) 3 0 ≤ 65536 ∧
      fieldOf ((s 1).mem.read 0x100 16) 7 4 = 0 ∧ fieldOf ((s 1).mem.read 0x100 16) 15 8 % 16 = 0 ∧ MayStart (s 1) 255 ∧
      (s 1).feHeld true 0x100 16 = false ∧ (s 1).mem.poisoned 0x100 16 = false) ∧
    (firstWord (ringing 0x2FF05 0xFFFFFFFFFFFF) % 256 = 5 ∧ fieldOf ((ringing 0x2FF05 0xFFFFFFFFFFFF).mem.read 0 16) 15 8 < 2 ^ 48 ∧
      (firstWord (ringing 0x2FF05 0)).testBit 17 = true ∧ (∀ y ∈ (ringing 0x2FF05 0).cmds, y.2.queue ≠ 255)) ∧
    (let s := { ringing 0x2FF05 0 with cmds := [(3, { cmdOf 255 6 with waiting := false })] }
     MayStart s 255 ∧ ∃ y ∈ s.cmds, y.2.queue = 255) ∧
    (let x := fun n => ({ cmd := 3, level := n, space := true, addr := 0x100, count := 2, next := 1 } : Expansion)
     let s := fun n w => { ringing 0 0 (packet 0 0 ++ packet w (if n = 3 then 0x200 else 0)) with engines := [(255, { stack := [x n] })], ids := 4 }
     MayStart (s 3 0x40FF07) 255 ∧ ((s 3 0x40FF07).engines.getD 255 {}).stack = x 3 :: [] ∧
      fieldOf ((s 3 0x40FF07).mem.read (0x100 + 16 * 1) 16) 3 0 = 0x40FF07 ∧ 3 ∉ (s 3 0x40FF07).cmds.map (fun y => y.1) ∧
      fieldOf ((s 2 0xFF00).mem.read (0x100 + 16 * 1) 16) 3 0 = 0xFF00 ∧ 3 < (s 2 0xFF00).ids ∧ (s 3 0x40FF07).feHeld true (0x100 + 16 * 1) 16 = false ∧
      fieldOf ((s 3 0x40FF07).mem.read 0x200 16) 7 4 = 0 ∧ (s 3 0x40FF07).feHeld true 0x200 16 = false) := by
  refine ⟨fun _ _ => rfl, fun st _ => none_held _ rfl (by decide +kernel) _, ?_⟩
  unfold MayStart; and_intros <;> decide +kernel

/-- A bank of a kernel of n riders. -/
def bankOf (n : Nat) : List Byte := List.replicate 16 0 ++ leBytes 4 n ++ List.replicate 28 0
/-- A state with command 7. -/
def commanded (c : Cmd) : State := { booted with cmds := [(7, c)] }

theorem test_hyp_CommandsAct :
    ((commanded (cmdOf 255 5)).cmds.get? 7 = some (cmdOf 255 5) ∧ (cmdOf 255 5).opc = 5 ∧ (cmdOf 255 5).waiting = true ∧ (cmdOf 255 6).done = false) ∧
    (leNat ((commanded (cmdOf 255 6)).mem.read (flagAddr 0 0) 4) = bits (cmdOf 255 6).ptr 47 16 ∧
      leNat ((commanded (cmdOf 255 6)).mem.read (flagAddr 0 0) 4) ≠ bits { cmdOf 255 6 with ptr := 0x10000 }.ptr 47 16) ∧
    (let c := { cmdOf 255 2 with desc := List.replicate 16 0 ++ [0xFF, 0x3F] ++ List.replicate 62 0 }
     c.die < 4 ∧ fieldOf c.desc 17 16 = 16383 ∧ c.desc.length = 80 ∧ (commanded c).patchWaits 7 c.die 16383 = false) ∧
    (let cb := leBytes 8 0 ++ leBytes 8 (dramBytes - 8) ++ leBytes 8 8 ++ [3]
     fieldOf cb 24 24 = 3 ∧ fieldOf cb 7 0 + fieldOf cb 23 16 ≤ dramBytes ∧ fieldOf cb 15 8 + fieldOf cb 23 16 ≤ dramBytes ∧
      fieldOf cb 7 0 + fieldOf cb 23 16 ≤ fieldOf cb 15 8 ∧ (commanded (cmdOf 255 4)).copyHeld cb = false) ∧
    (let cb := leBytes 8 dramBytes ++ leBytes 8 0 ++ leBytes 8 8 ++ [3]
     fieldOf cb 23 16 ≠ 0 ∧ booted.copyHeld cb = false ∧ booted.mem.reaches true (fieldOf cb 7 0) 8 = false) ∧
    (PlainBank (commanded (cmdOf 255 3)) .kernel 3 (bankOf 65536) ∧ (cmdOf 255 3).prio < 8) ∧
    (let c := { cmdOf 255 0 with done := true, cpl := dramBytes - 16 }
     c.done = true ∧ c.irq = false ∧ c.parent = none ∧ rising ((commanded c).cmds.map (fun y => y.1)) = true ∧ c.cpl ≠ 0 ∧ c.space = true ∧
      c.cpl + 16 ≤ dramBytes ∧ { c with space := false }.space = false ∧ { c with cpl := 0 }.cpl = 0 ∧
      (commanded c).feHeld true c.cpl 16 = false ∧ (commanded c).mem.hostRefuses c.cpl 16 = false) := by
  unfold PlainBank; and_intros <;> decide +kernel

/-- A GRAPH descriptor: node FIRST and COUNT, the install bit, and one edge from the last on. -/
def graphOf (first count install : Nat) : List Byte :=
  List.replicate 16 0 ++ leBytes 2 first ++ leBytes 2 count ++ [BitVec.ofNat 8 install] ++ List.replicate 11 0 ++ leBytes 4 65535 ++ leBytes 4 1 ++
    List.replicate 8 0 ++ List.replicate (80 * count + 2) 0
/-- A replay of one node. -/
def replayOf (n : Nat) : Replay := { cmd := 7, die := 0, first := n, count := 1 }

theorem test_hyp_GraphsAndReplays :
    (let c := { cmdOf 255 1 with desc := graphOf 16383 1 1 }
     (commanded c).cmds.get? 7 = some c ∧ c.opc = 1 ∧ c.waiting = true ∧ fieldOf c.desc 20 20 = 1 ∧ fieldOf (graphOf 16383 1 0) 20 20 ≠ 1 ∧
      (commanded c).graphTurn 7 c = true ∧ c.die < 4 ∧ fieldOf c.desc 17 16 + fieldOf c.desc 19 18 ≤ 16384 ∧
      fieldOf c.desc 35 32 + fieldOf c.desc 39 36 ≤ 65536 ∧ (commanded c).patches = [] ∧
      c.desc.length = 48 + 80 * fieldOf c.desc 19 18 + 2 * fieldOf c.desc 39 36 ∧
      { commanded c with replays := [(5, replayOf 16383)] }.graphTurn 7 c = false) ∧
    ((replayOf 16383).live = [] ∧ (replayOf 16383).count ≠ 0 ∧ (replayOf 16383).die < 4 ∧ (replayOf 16383).first + (replayOf 16383).count ≤ 16384) ∧
    (let y := { replayOf 16383 with live := [(16383, 0)] }
     let s := { commanded (cmdOf 255 1) with replays := [(5, y)] }
     s.replays.get? 5 = some y ∧ y.live ≠ [] ∧ y.running = [] ∧ y.due = [] ∧ s.cmds.get? y.cmd = some (cmdOf 255 1) ∧
      rising (s.replays.map (fun z => z.1)) = true ∧ { y with running := [16383] }.running ≠ []) := by
  and_intros <;> decide +kernel

/-- A node whose bank 0 is given. -/
def nodeOf (kind : Nat) (bank : List Byte) : List Byte := [BitVec.ofNat 8 kind, 8] ++ List.replicate 30 0 ++ bank
/-- A replay of node 16383 in a state that holds it. -/
def replaying (x : Replay) (node : List Byte) : State :=
  { commanded (cmdOf 255 1) with replays := [(5, x)], mem := ({} : Mem).write (nodeAddr 0 16383) node }
/-- A test of flag 0 against a value, with an ITERMAX. -/
def testBank (v cap : Nat) : List Byte := leBytes 4 0 ++ leBytes 4 v ++ leBytes 4 cap ++ List.replicate 36 0
/-- Bank 0 of the node. -/
def bank0 (s : State) : List Byte := ((s.node 0 16383).drop (32 + 48 * (fieldOf (s.node 0 16383) 1 1 / 2 % 2))).take 48

theorem test_hyp_GraphNodes :
    (let x := { replayOf 16383 with live := [(16383, 0)], due := [16383] }
     let s := replaying x (nodeOf 0 (bankOf 4))
     s.replays.get? 5 = some x ∧ 16383 ∈ x.due ∧ 16383 ∉ x.running ∧ x.die < 4 ∧ s.cmds.get? x.cmd = some (cmdOf 255 1) ∧ (cmdOf 255 1).prio < 8 ∧
      fieldOf (s.node 0 16383) 0 0 % 16 = 0 ∧ PlainBank s .kernel x.die (bank0 s) ∧ (fieldOf (s.node 0 16383) 0 0).testBit 4 = false) ∧
    (let s := replaying (replayOf 16383) (nodeOf 3 (List.replicate 48 0))
     fieldOf (s.node 0 16383) 0 0 % 16 = 3 ∧ PlainBank s .surrogate 0 (bank0 s)) ∧
    (let s := replaying (replayOf 16383) (nodeOf 1 (testBank 0 0))
     fieldOf (s.node 0 16383) 0 0 % 16 = 1 ∧ fieldOf (bank0 s) 3 0 / 2 ^ 16 % 8 < 6) ∧
    (let s := replaying (replayOf 16383) (nodeOf 4 [2])
     fieldOf (s.node 0 16383) 0 0 % 16 = 4 ∧ (fieldOf (bank0 s) 0 0).testBit 1 = true ∧ s.mem.reaches false (fieldOf (bank0 s) 15 8) 8 = true ∧
      { s.mem with hostGone := [0] }.reaches false (fieldOf (bank0 s) 15 8) 8 = false ∧ s.cmds.get? 7 = some (cmdOf 255 1)) ∧
    (let s := replaying (replayOf 16383) (nodeOf 5 (leBytes 8 0 ++ leBytes 8 (dramBytes - 8) ++ leBytes 8 8 ++ [3]))
     fieldOf (s.node 0 16383) 0 0 % 16 = 5 ∧ fieldOf (bank0 s) 24 24 = 3 ∧ fieldOf (bank0 s) 7 0 + fieldOf (bank0 s) 23 16 ≤ fieldOf (bank0 s) 15 8 ∧
      fieldOf (bank0 s) 15 8 + fieldOf (bank0 s) 23 16 ≤ dramBytes ∧ s.copyHeld (bank0 s) = false) ∧
    (let x := { replayOf 16383 with live := [(16383, 0)], running := [16383], loops := [(16383, 2)] }
     let s := fun v => replaying x (nodeOf 2 (testBank v 3))
     fieldOf ((s 0).node 0 16383) 0 0 % 16 = 2 ∧ leNat ((s 0).mem.read (flagAddr 0 0) 4) = fieldOf (bank0 (s 0)) 7 4 ∧
      leNat ((s 1).mem.read (flagAddr 0 0) 4) ≠ fieldOf (bank0 (s 1)) 7 4 ∧ x.loops.get? 16383 = some 2 ∧ 2 + 1 = fieldOf (bank0 (s 0)) 11 8 ∧
      (∀ k ∈ x.running ++ x.due, k < 0 ∨ 0 < k) ∧ (∃ k ∈ x.running ++ (0 :: x.due), 0 ≤ k ∧ k ≤ 0) ∧ 16383 ∈ x.running ∧ 16383 ∉ x.loopFault ∧
      16383 ∈ { x with loopFault := [16383] }.loopFault) ∧
    (let l := { holder with node := some (5, 16383), cmd := 7, finished := true }
     let x := { replayOf 16383 with running := [16383], runs := [(16383, 7)] }
     let s := { replaying x (nodeOf 0 (bankOf 4)) with launches := [(7, l)] }
     s.replays.get? 5 = some x ∧ 16383 ∈ x.running ∧ x.runs.get? 16383 = some 7 ∧ s.launches.get? 7 = some l ∧ l.node = some (5, 16383) ∧ l.cmd = (replayOf 16383).cmd ∧ l.finished = true ∧ l.fault = false ∧ { l with fault := true }.fault = true) ∧
    booted.launches = [] := by
  unfold PlainBank; and_intros <;> decide +kernel

/-- A state in which one rider waits for the dispatcher. -/
def arrived (f : Ctx → Ctx) : State := { booted with ctxs := [(8, f { loc := .waiting 0, f := Files.reset, vregs := 8, nbays := 2, launch := 9 })] }

/-- The stalls of the home paddock of the waiting rider drained. -/
def homeDrained (s : State) : State :=
  (paddockStalls (s.homeOf (s.ctx 8))).foldl (fun s st => s.setReg (.stallwear ((s.physStall st).getD 0)) 0x200000000) s

theorem test_hyp_RidersArePlaced :
    (let l := { holder with bank := bankOf 4, total := 4 }
     let s := { booted with launches := [(9, l)], recordWait := [9] }
     s.launches.get? 9 = some l ∧ l.created = 0 ∧ l.exact = [] ∧ PlainBank { s with recordWait := [] } l.kind l.die l.bank ∧
      l.total = bankRiders l.kind l.bank ∧ l.total ≠ 0) ∧ booted.launches.get? 9 = none ∧
    (let s := arrived id
     let c := s.ctx 8
     s.waiters = [(8, c)] ∧ s.saves = [] ∧ c.nest.gang = none ∧ bit (s.reg .dispctl) 0 = false ∧ bits (s.reg .lcstate) 2 0 ≠ 3 ∧ c.launch = 9 ∧
      c.bound = none ∧ c.prio < 6 ∧ ¬ (c.since + bits (s.reg .dispctl) 23 16 * 700 ≤ s.clock)) ∧
    (let s := arrived (fun c => { c with bound := some 4095 })
     (s.ctx 8).bound = some 4095 ∧ s.eligible 4095 (s.ctx 8) = true) ∧
    (let s := arrived id
     ∃ st ∈ paddockStalls (s.homeOf (s.ctx 8)), s.eligible st (s.ctx 8) = true ∧ s.underThresh st = true) ∧
    (let s := arrived (fun c => { c with vregs := 4096 })
     ¬ ∃ st ∈ paddockStalls (s.homeOf (s.ctx 8)), s.eligible st (s.ctx 8) = true ∧ s.underThresh st = true) ∧
    (let s := { arrived id with clock := 14000 }
     bits (s.reg .dispctl) 23 16 ≠ 0 ∧ (s.ctx 8).since + bits (s.reg .dispctl) 23 16 * 700 ≤ s.clock) ∧
    (let s := arrived (fun c => withCsr (fun r => { r with status := 0x180 }) c)
     6 ≤ (s.ctx 8).prio ∧ ∃ st ∈ paddockStalls (s.homeOf (s.ctx 8)), s.eligible st (s.ctx 8) = true) ∧
    (let s := homeDrained (arrived (withCsr fun r => { r with status := 0x180 }))
     6 ≤ (s.ctx 8).prio ∧ (¬ ∃ st ∈ paddockStalls (s.homeOf (s.ctx 8)), s.eligible st (s.ctx 8) = true) ∧
      ∃ st ∈ dieStalls (s.homeOf (s.ctx 8)), s.eligible st (s.ctx 8) = true) ∧
    (∃ st ∈ dieStalls ((arrived id).homeOf ((arrived id).ctx 8)), (arrived id).eligible st ((arrived id).ctx 8) = true ∧ (arrived id).underThresh st = true) ∧
    bit ((booted.setReg .dispctl 1).reg .dispctl) 0 = true := by
  unfold PlainBank; and_intros <;> decide +kernel

/-- A state in which a resident rider of priority 0 is to be stopped by collection 3. -/
def stopping (acks : List EngineClass) (f : Coll → Coll) (g : Ctx → Ctx) : State :=
  { on0 g with colls := [(3, f { victims := [0], sent := true, acks := acks.map (fun e => (0, e)) })] }

theorem test_hyp_PreemptionAndCollections :
    (let s := { arrived (fun c => withCsr (fun r => { r with status := 0x180 }) { c with bound := some 0 }) with clock := 700 }
     let v : Ctx := { f := Files.reset, loc := .on 0 0, vregs := 2048, nbays := 8, bays := List.range 8 }
     let t := ({ s with ctxs := (4, v) :: s.ctxs } : State).setReg (.savepool 0) 0x00FFFF0000000000
     Waits t 8 ∧ ((t.ctx 8).contested = none ∧ bits (t.reg .dispctl) 15 8 * 700 ≤ t.clock - (t.ctx 8).since ∧
        (t.clock - (t.ctx 8).since) % (bits (t.reg .dispctl) 15 8 * 700) = 0) ∧ 6 ≤ (t.ctx 8).prio ∧ (t.ctx 8).bound = some 0 ∧
      t.eligible 0 (t.ctx 8) = false ∧ t.residents 0 = [(4, t.ctx 4)] ∧ (t.ctx 4).stoppable = true ∧ (t.ctx 4).prio < (t.ctx 8).prio ∧
      t.eligibleWith 0 (t.ctx 8) (fun i => i != 4) = true ∧ (t.findUnits 0 (t.ctx 4).reserveUnits).isSome = true ∧
      ({ s with ctxs := (4, v) :: s.ctxs } : State).findUnits 0 (t.ctx 4).reserveUnits = none ∧ t.colls = [] ∧ t.gangs = [] ∧
      ((some 5 : Option Nat).any (fun ci => (t.colls.get? ci).isNone)) = true) ∧ ((arrived id).ctx 8).contested = none ∧
    ((arrived id).ctx 8).prio < 6 ∧ ((arrived (fun c => { c with bound := some 0 })).choose ((arrived (fun c => { c with bound := some 0 })).ctx 8)).isSome = true ∧
    (let s := stopping [] id id
     (s.colls.get? 3).isSome = true ∧ (s.ctx 0).groups = 0 ∧ s.ctxs.get? 0 = some (s.ctx 0) ∧ (s.ctx 0).xq = [] ∧ s.outstanding = [] ∧ s.homeWait = [] ∧
      (s.ctx 0).nest.gang = none ∧ (s.ctx 0).nest.copy = none ∧ (s.ctx 0).stash = [] ∧ bits (s.ctx 0).csr.baymap 7 0 = 0 ∧ s.gangs = [] ∧ (∀ e ∈ s.ctxs, e.2.stash = []) ∧ (∀ p < 256, s.slices.getD p [] = []) ∧
      rising (s.colls.map (fun e => e.1)) = true ∧ rising (s.ctxs.map (fun e => e.1)) = true ∧ s.hitches = []) ∧
    (let s := { stopping [.scu] id (fun c => { c with loc := .stopped 0 0 3 }) with clock := 14000 }
     (0, .scu) ∈ [EngineClass.scu].map (fun e => ((0 : Nat), e)) ∧ ¬ (∀ e ∈ engineClasses, ((0 : Nat), e) ∈ [((0 : Nat), EngineClass.scu)]) ∧
      0 + bits (s.reg .dispctl) 47 32 * 700 ≤ s.clock ∧ (s.ctx 0).loc = .stopped 0 0 3 ∧
      covers (s.featOf 0) ((s.ctx 0).csr.declfeat.extractLsb' 0 8) = true ∧ State.reset.clock < 0 + bits (State.reset.reg .dispctl) 47 32 * 700) ∧
    ((∀ e ∈ engineClasses, ((0 : Nat), e) ∈ engineClasses.map (fun e => ((0 : Nat), e))) ∧
      ((stopping engineClasses (fun c => { c with space := [(0, (0, 3, 4))] }) id).colls.get? 3).map (fun c => c.space.get? 0) = some (some (0, 3, 4))) ∧
    (let l := { holder with bank := bankOf 4, total := 4, stopping := true }
     let s := { booted with launches := [(9, l)] }
     s.launches.get? 9 = some l ∧ l.stopping = true ∧ (∀ e ∈ s.ctxs, e.1 < groomKey → e.2.launch ≠ 9) ∧ s.unsettled devKey = false ∧
      l.fault = false ∧ bankRodata l.bank = 0 ∧ PlainBank s l.kind l.die l.bank ∧ l.total = bankRiders l.kind l.bank ∧ l.exact = []) ∧
    (let l := { holder with bank := List.replicate 40 0 ++ leBytes 8 8, stopping := true, root := 1 }
     let s := { booted with launches := [(9, l)], mem := tables }
     s.launches.get? 9 = some l ∧ bankBound l.kind l.bank = false ∧ bankRodata l.bank ≠ 0 ∧ l.scan.1 = 0 ∧ l.scan.2 < 8 ∧ l.aspace = true ∧
      { l with aspace := false }.aspace = false ∧ s.checkPiece l (bankRodata l.bank + l.scan.2) (8 - l.scan.2) = .sound 8 ∧
      booted.checkPiece l (bankRodata l.bank + l.scan.2) (8 - l.scan.2) = .bad ∧ { l with fault := true }.fault = true) ∧ holder.stopping = false ∧
    (let s := { booted with devReqs := [(4, .back devKey 0 [] false)] }
     s.unsettled devKey = true) := by
  unfold Waits PlainBank; and_intros <;> decide +kernel

theorem test_hyp_RidersAndStallsLeave :
    (let s := fun g => { on0 (fun c => { c with guardMax := 32, gchecked := g, launch := 9, index := 3 }) with
       launches := [(9, { holder with kind := .surrogate, total := 4 })] }
     (s (some false)).tileRider 9 3 = some (0, (s (some false)).ctx 0) ∧ ((s (some false)).ctx 0).gchecked = some false ∧ 3 < 4 ∧
      3 ∉ holder.fell ∧ ((s (some true)).ctx 0).gchecked = some true ∧ ((s none).ctx 0).gchecked = none ∧ ((s none).ctx 0).retiring = false) ∧
    (let s := booted.setReg (.stallwear (127 * 34 + 31)) 0x200000000
     s.stallState 4095 = 2 ∧ s.physOf 4095 = some 31 ∧ s.moves.get? (stallDieRow 4095) = none ∧
      0 < sparesOf (bits (s.reg (.colmap (stallDieRow 4095))) 33 0) ∧ s.ctxs = []) ∧ booted.stallState 4095 ≠ 2 ∧
    (let mv := ({ col := 31, pos := 33, copying := true } : Move)
     let s := { booted with moves := [(127, mv)], clock := 3145728 }
     s.moves.get? 127 = some mv ∧ mv.copying = true ∧ mv.since + 3145728 ≤ s.clock ∧ mv.pos < 34 ∧ rising (s.moves.map (fun e => e.1)) = true ∧
      ({ col := 31, pos := 33 } : Move).copying = false) ∧
    (let s := { on0 (fun c => { c with retiring := true, loc := .waiting 0, launch := 9 }) with launches := [(9, holder)] }
     s.ctxs.get? 0 = some (s.ctx 0) ∧ 0 < groomKey ∧ s.recordWait = [] ∧ s.reinWait = [] ∧ rising (s.ctxs.map (fun e => e.1)) = true ∧ (s.ctx 0).land = [] ∧
      (s.ctx 0).stash = [] ∧ (s.ctx 0).guardMax = 0 ∧ (s.ctx 0).resident = false ∧ s.mayFree 0 = true ∧ s.unsettled 0 = false ∧
      ({ s with devReqs := [(4, .back (paddockKey 0) 0 [] false)] } : State).unsettled 0 = true ∧ s.launches.get? (s.ctx 0).launch = some holder ∧
      (s.ctx 0).failed = none ∧ holder.kind = .kernel ∧ holder.restart = false) ∧ ((on0 id).ctx 0).retiring = false := by
  and_intros <;> decide +kernel

theorem test_hyp_StepsFromOutsideComplete :
    (let s := booted.setReg (.tsense ((3 * 64 + 56) * 6)) 0x10007
     (∀ i < 1536, bits (s.reg (.tsense i)) 11 0 < 1208) ∧ bit (s.reg (.tsense ((127 / 32 * 64 + 127 % 32 / 4 * 8) * 6))) 16 = true) ∧
    (booted.physStall 4095 = some (127 * 34 + 31) ∧ Owns booted .host ∧ booted.shadowNow = [] ∧ booted.serves (127 * 34 + 31) = true ∧
      bit (booted.reg (.colmap ((127 * 34 + 31) / 34))) ((127 * 34 + 31) % 34) = false ∧ bits (booted.reg (.stallwear (127 * 34 + 31))) 33 32 < 3) ∧
    (∀ y ∈ [frameOf 0 0 0x5FFFFFFFF8, frameOf 2 0 0x5FFFFFFFF8 (List.replicate 8 7), frameOf 4 0 0x5FFFFFFFF8 (List.replicate 8 7),
        frameOf 8 2 0x28000000000 (List.replicate 8 7)], InTurn joined 15 y) ∧
    (joined.homeHeld (dramBytes - 8) = false ∧ joined.mem.poisoned (dramBytes - 8) 8 = false ∧ joined.homeHeld 0 = false ∧
      bits (joined.reg .ckptstat) 2 0 = 0 ∧ bits (0x28000000000 : DWord) 44 39 = joined.myMod) ∧
    (InTurn (asking .read) 15 (frameOf 1 1 0) ∧ (asking .read).answered (frameOf 1 1 0) .read = some (asked .read) ∧
      (asking .write).answered (frameOf 3 1 0) .write = some (asked .write) ∧ (asking .atomic).answered (frameOf 5 1 0) .atomic = some (asked .atomic) ∧
      ({ tok := 7, i := .aadd {} 5 1 {}, ea := 0x1000 } : XCmd) ∈ ((asking .atomic).ctx 0).xq) ∧
    (let s := { (joined.setReg .ckptstat 1).setReg .ckptdst 0x48000000000 with ckpt := { pending := [0] } }
     InTurn s 15 (frameOf 9 2 0x48000000000) ∧ InTurn s 15 (frameOf 7 2 0x48000000000) ∧ (9 : Nat) = bits (s.reg .ckptdst) 44 39 ∧ s.ckpt.restore = false ∧
      (0x48000000000 % 2 ^ 39 + 2 ^ 39 - bits (s.reg .ckptdst) 38 0) % 2 ^ 39 / 65536 ∈ s.ckpt.pending) ∧ LetIn joined 15 (frameOf 6 0 0) ∧
    (let s := { joined with streams := [(streamKey 63 0, stream 4)], clock := 2100 }
     s.streams.get? (streamKey 63 0) = some (stream 4) ∧ (stream 4).unacked ≠ [] ∧ (stream 4).sentAt + 2100 ≤ s.clock ∧ 4 ≤ (stream 4).tries) ∧
    (let s := (joined.setReg .dispctl 2).setReg .ckptdst 0x28000000000
     Owns s .host ∧ bit (s.reg .dispctl) 1 = true ∧ s.ctxs = [] ∧ bits (s.reg .ckptdst) 44 39 = bits (s.reg .domcfg) 5 0 ∧
      (∃ i < 16, bit 0x80000000 (16 + i) = true ∧ bit (s.reg (.soport i)) 0 = true) ∧ bit (booted.reg .domcfg) 6 = false) ∧
    ((booted.linkDir 383).discarding = false ∧ (crc32 (leBytes 140 emptyFlit.toNat)).toNat = emptyFlit.toNat / 2 ^ 1120 ∧
      emptyFlit.toNat / 2 ^ 1080 % 2 = 0 ∧ bits ((booted.setReg (.xlink 383) 1).reg (.xlink 383)) 1 0 = 1 ∧ (booted.linkDir 383).nakRun ≠ 3 ∧
      bits ((booted.setReg (.xlink 383) 2).reg (.xlink 383)) 1 0 = 2 ∧ joined.portUp 15 ≠ false) ∧
    (let s := ringing 0xFF00 0
     MayStart s 255 ∧ bits (s.reg (.feq 255)) 63 32 ≠ bits (s.reg (.feq 255)) 31 0 ∧ bit (s.reg (.qctl 255)) 1 = true ∧ s.feHeld true 0 16 = false ∧
      bits (s.reg (.qbase 255)) 63 12 * 4096 = 0 ∧ s.mem.poisoned 0 16 = false ∧ firstWord s % 256 = 0 ∧ firstWord s / 2 ^ 8 % 256 = 255 ∧
      firstWord s < 2 ^ 17) ∧
    ((inSession 0 true).conns.getD 2 {} = met ∧ booted.nv.lcs = 1 ∧ (inSession 0 true).sessions.get? 0 = none ∧
      met.signed = some (List.replicate 48 0) ∧ (inSession 1 false).sessions.get? 0 = some { conn := 2 } ∧
      (inSession 1 true).sessions.get? 0 = some { conn := 2, established := true } ∧ rising ((inSession 1 true).sessions.map (fun e => e.1)) = true) := by
  unfold InTurn LetIn OfTransport MayStart Owns; and_intros <;> decide +kernel

theorem test_hyp_MachineAsAWhole : State.reset.alive = true ∧ ({ State.reset with powered := false } : State).alive = false ∧ State.reset.mem.wf = true ∧
    (∃ i, ({ State.reset with agenda := [.ext i] } : State).agenda = .ext i :: [] ∧ ownreqMaster (.ext i) = none) ∧
    masterNum .host < masterNum .bmc ∧ ({ State.reset with agenda := [] } : State).nextStall State.reset.turn = none := by
  refine ⟨?_, ?_, ?_, ⟨.powerOnReset, rfl, ?_⟩, ?_⟩
  all_goals decide +kernel

/-- ADDI s5, s5, 8 at the place of the first fetch. -/
def placed : State := State.reset.withFetchWord 32 0x000A14A8
/-- The state in which the contexts of stall 0 have been tried. -/
def tried : State := (({ placed with turn := 0 + 1 } : State).contend 0).1
theorem test_hyp_AGroupRunsItsWord : ∃ s users st k idx succ x, OneWord placed tried s users st k idx succ 0x000A14A8 x ∧
    decodeWord 0x000A14A8 x = .ok (.addi {} 5 5 (.field 8)) ∧ isDivide (.addi {} 5 5 (.field 8)) = false ∧ ((landed s k).ctx k).loops = [] := by
  refine ⟨(fetchNext 0 (tried.ctx 0) tried).2, [0], 0, 0, 0, 1, 0, ⟨?_, ?_, ?_, Prod.ext rfl ?_, ⟨[0x000A14A8, 0, 0, 0], Prod.ext ?_ rfl, ?_⟩, ?_⟩, ?_⟩
  all_goals first
    | decide +kernel
    | rfl

theorem test_hyp_EncodingsRoundTrip : (Instr.addi {} 25 0 (.lit 0x80000000)).wf = true ∧
    (encodeFields (.addi {} 25 0 (.lit 0x80000000))).map (fun p => p.2) = some (some 0x80000000) ∧
    decodeWord 0x000A14A8 0 = .ok (.addi {} 5 5 (.field 8)) := by decide +kernel

end Sys2Proof.Tests
end

section
/-! SUPPORT. The canonical form of memory (log entry 4) as a predicate on states, on the outcomes of a step, and on the two kinds of
computation; the rules by which it passes through each. -/

namespace Sys2Proof.Machine

variable {α β : Type}

/-- The memory of a state has the canonical form. -/
def State.Formed (s : State) : Prop := s.mem.wf = true

/-- An outcome that goes on goes on with a formed memory. -/
def FormedAfter : Host.Outcome State Fault Refusal → Prop
  | .next t => t.Formed
  | .fault _ | .refused _ => True

/-- A word's effect keeps the form, where it takes effect. -/
def W.Keeps (m : W α) : Prop := ∀ s x t, s.Formed → m s = .ok (x, t) → t.Formed

/-- An access keeps the form, whether it ends or halts. -/
def A.Keeps (m : A α) : Prop := ∀ s, s.Formed → (m s).2.Formed

/-! ## Memories -/

theorem Mem.wf_ite {p : Prop} [Decidable p] {a b : Mem} (ha : a.wf = true) (hb : b.wf = true) : (if p then a else b).wf = true := by
  split <;> assumption

theorem Mem.wf_foldl {f : Mem → α → Mem} {l : List α} (hf : ∀ m x, m.wf = true → (f m x).wf = true) :
    ∀ {m : Mem}, m.wf = true → (l.foldl f m).wf = true := by
  induction l with
  | nil => exact id
  | cons x t ih => exact fun h => ih (hf _ x h)

/-- A set of numbers that rises still does when numbers have been added to it one by one. -/
theorem rising_foldl_setAdd_map (f : α → Nat) (l : List α) : ∀ (r : List Nat), rising r = true →
    rising (l.foldl (fun p x => setAdd p (f x)) r) = true := by
  induction l with
  | nil => exact fun _ h => h
  | cons x t ih => exact fun r h => ih _ (rising_setAdd r (f x) h)

/-- Granules marked poisoned one by one keep the form. -/
theorem Mem.wf_poison (m : Mem) (f : α → Nat) (l : List α) (h : m.wf = true) :
    ({ m with poison := l.foldl (fun p x => setAdd p (f x)) m.poison } : Mem).wf = true := by
  rw [Mem.wf_iff] at h ⊢
  obtain ⟨hb, hz, hh, hp, hr⟩ := h
  exact ⟨hb, hz, hh, rising_foldl_setAdd_map f l _ hp, hr⟩

theorem Mem.wf_hostOnly {m : Mem} (h : m.wf = true) : m.hostOnly.wf = true := by
  rw [Mem.wf_iff] at h ⊢
  obtain ⟨_, _, hh, _, _, hp, hg⟩ := h
  exact ⟨rfl, by simp [Mem.hostOnly], hh, rfl, rfl, hp, hg⟩

theorem wf_copyPiece {m : Mem} {srcDram dstDram : Bool} {src dst n : Nat} (h : m.wf = true) :
    (copyPiece m srcDram dstDram src dst n).wf = true := by
  unfold copyPiece
  dsimp only
  split
  · exact Mem.wf_hostPut _ _ _ _ h
  · exact Mem.wf_foldl (fun _ _ hm => Mem.wf_ite (Mem.wf_taint _ _ _ hm) hm) (Mem.wf_write _ _ _ h)

theorem wf_copyPieces {srcDram dstDram : Bool} {src dst fuel n : Nat} {x : Copied} (h : x.mem.wf = true) :
    (copyPieces srcDram dstDram src dst fuel n x).mem.wf = true := by
  induction fuel generalizing src dst n x with
  | zero => exact h
  | succ fuel ih =>
    dsimp only [copyPieces]
    split
    · exact h
    · split
      · exact h
      · exact ih (wf_copyPiece h)

/-! ## States -/

/-- A state with the memory of one that has it formed. -/
theorem State.Formed.same {s t : State} (hs : s.Formed) (e : t.mem = s.mem) : t.Formed := by
  unfold State.Formed
  rwa [e]

theorem State.Formed.of_mem {s : State} (h : s.mem.wf = true) : s.Formed := h

theorem State.Formed.ite {p : Prop} [Decidable p] {s t : State} (hs : s.Formed) (ht : t.Formed) : (if p then s else t).Formed := by
  split <;> assumption

theorem State.Formed.foldl {f : State → α → State} {l : List α} (hf : ∀ s x, s.Formed → (f s x).Formed) :
    ∀ {s : State}, s.Formed → (l.foldl f s).Formed := by
  induction l with
  | nil => exact id
  | cons x t ih => exact fun h => ih (hf _ x h)

/-- The state of a pair with a formed memory, once the pair has been taken apart. -/
theorem State.Formed.of_fst {p : State × α} {t : State} {x : α} (h : p.1.Formed) (e : p = (t, x)) : t.Formed := by
  subst e
  exact h

theorem State.Formed.of_snd {p : α × State} {t : State} {x : α} (h : p.2.Formed) (e : p = (x, t)) : t.Formed := by
  subst e
  exact h

/-! ## Optional states -/

/-- A state, where there is one, has a formed memory. -/
def FormedIf : Option State → Prop
  | some t => t.Formed
  | none => True

theorem FormedIf.some {s : State} (h : s.Formed) : FormedIf (some s) := h
theorem FormedIf.none : FormedIf none := trivial

theorem FormedIf.ite {p : Prop} [Decidable p] {a b : Option State} (ha : FormedIf a) (hb : FormedIf b) : FormedIf (if p then a else b) := by
  split <;> assumption

theorem FormedIf.get {o : Option State} {t : State} (h : FormedIf o) (e : o = Option.some t) : t.Formed := by
  subst e
  exact h

/-- An optional state, or another in its place. -/
theorem State.Formed.getD {o : Option State} {s : State} (ho : FormedIf o) (hs : s.Formed) : (o.getD s).Formed := by
  cases o with
  | none => exact hs
  | some t => exact ho

/-! ## Outcomes -/

theorem FormedAfter.next {s : State} (h : s.Formed) : FormedAfter (.next s) := h

theorem FormedAfter.ite {p : Prop} [Decidable p] {a b : Host.Outcome State Fault Refusal} (ha : FormedAfter a) (hb : FormedAfter b) :
    FormedAfter (if p then a else b) := by
  split <;> assumption

/-! ## The effect of a word -/

theorem W.Keeps.pure {x : α} : (Pure.pure x : W α).Keeps := by
  intro s y t h e
  cases e
  exact h

theorem W.Keeps.bind {m : W α} {f : α → W β} (hm : m.Keeps) (hf : ∀ x, (f x).Keeps) : (m >>= f).Keeps := by
  intro s y t h e
  obtain ⟨x, u, hx, hy⟩ := W.bind_eq_ok.1 e
  exact hf x _ _ _ (hm _ _ _ h hx) hy

/-- The state that a word's effect leaves, where it takes effect. -/
theorem W.Keeps.next {m : W α} (hm : m.Keeps) {s t : State} {x : α} (h : s.Formed) (e : m s = .ok (x, t)) : t.Formed := hm s x t h e

theorem W.Keeps.ite {p : Prop} [Decidable p] {a b : W α} (ha : a.Keeps) (hb : b.Keeps) : (if p then a else b).Keeps := by
  split <;> assumption

/-- An effect that only reads the state, or stops. -/
theorem W.Keeps.of_same {m : W α} (hm : ∀ {s x t}, m s = .ok (x, t) → t = s) : m.Keeps := fun _ _ _ h e => hm e ▸ h

/-- An effect that always stops. -/
theorem W.Keeps.of_error {m : W α} (hm : ∀ s, ∃ e, m s = .error e) : m.Keeps := by
  intro s x t _ e
  obtain ⟨r, hr⟩ := hm s
  rw [hr] at e
  cases e

theorem W.Keeps.getS : getS.Keeps := .of_same fun e => by cases e; rfl
theorem W.Keeps.getMe : getMe.Keeps := .of_same fun e => by cases e; rfl

/-- What is done with the state read may rest on its form. -/
theorem W.Keeps.getS_bind {f : State → W β} (hf : ∀ s, s.Formed → (f s).Keeps) : (Machine.getS >>= f).Keeps :=
  fun s _ _ h e => hf s h s _ _ h e

theorem W.Keeps.modS {f : State → State} (hf : ∀ s, s.Formed → (f s).Formed) : (modS f).Keeps := by
  intro s x t h e
  cases e
  exact hf s h

theorem W.Keeps.modMe {f : Ctx → Ctx} : (modMe f).Keeps := by
  intro s x t h e
  cases e
  exact h

theorem W.Keeps.raise {c i : Nat} {l : Lame} : (raise c i l : W α).Keeps := .of_error fun _ => ⟨_, rfl⟩
theorem W.Keeps.hold : (hold : W α).Keeps := .of_error fun _ => ⟨_, rfl⟩
theorem W.Keeps.illegalEncoding : (illegalEncoding : W α).Keeps := .of_error fun _ => ⟨_, rfl⟩

theorem W.Keeps.mapM {f : α → W β} (hf : ∀ x, (f x).Keeps) (l : List α) : (l.mapM f).Keeps := by
  induction l with
  | nil => exact .pure
  | cons x t ih =>
    rw [List.mapM_cons]
    exact .bind (hf x) fun _ => .bind ih fun _ => .pure

/-- The checks of a word leave the state as it is. -/
theorem W.Keeps.lowest {l : List (W Unit)} : (lowest l).Keeps := .of_same fun {s x t} e => by
  unfold Machine.lowest at e
  split at e
  · cases e; rfl
  · cases e

theorem W.Keeps.land {n : Nat} {ws : List RegWrite} : (land n ws).Keeps := .modS fun _ h => h

/-! ## Accesses -/

theorem A.Keeps.pure {x : α} : (Pure.pure x : A α).Keeps := fun _ h => h

theorem A.Keeps.bind {m : A α} {f : α → A β} (hm : m.Keeps) (hf : ∀ x, (f x).Keeps) : (m >>= f).Keeps := by
  intro s h
  have hs : (m >>= f) s = match m s with
    | (.ok x, t) => f x t
    | (.error e, t) => (.error e, t) := by
    simp only [Bind.bind, ExceptT.bind, ExceptT.mk, StateT.bind]
    rcases m s with ⟨r, t⟩
    cases r <;> rfl
  have ht := hm s h
  rw [hs]
  split
  · rename_i x t e
    rw [e] at ht
    exact hf x t ht
  · rename_i e
    rw [e] at ht
    exact ht

theorem A.Keeps.ite {p : Prop} [Decidable p] {a b : A α} (ha : a.Keeps) (hb : b.Keeps) : (if p then a else b).Keeps := by
  split <;> assumption

theorem A.Keeps.aGet : aGet.Keeps := fun _ h => h
theorem A.Keeps.aFault {va kind : Nat} {acc : BitVec 4} : (aFault va kind acc : A α).Keeps := fun _ h => h
theorem A.Keeps.aRefused : (aRefused : A α).Keeps := fun _ h => h
theorem A.Keeps.aWait : (aWait : A α).Keeps := fun _ h => h
theorem A.Keeps.aMod {f : State → State} (hf : ∀ s, s.Formed → (f s).Formed) : (aMod f).Keeps := fun _ h => hf _ h

/-- What is done with the state read may rest on its form. -/
theorem A.Keeps.aGet_bind {f : State → A β} (hf : ∀ s, s.Formed → (f s).Keeps) : (Machine.aGet >>= f).Keeps := fun s h => hf s h s h

/-- The state that an access leaves, once it has answered. -/
theorem A.Keeps.next {m : A α} (hm : m.Keeps) {s t : State} {r : Except Halt α} (h : s.Formed) (e : m s = (r, t)) : t.Formed := by
  have := hm s h
  rwa [e] at this

theorem A.Keeps.mapM {f : α → A β} (hf : ∀ x, (f x).Keeps) (l : List α) : (l.mapM f).Keeps := by
  induction l with
  | nil => exact .pure
  | cons x t ih =>
    rw [List.mapM_cons]
    exact .bind (hf x) fun _ => .bind ih fun _ => .pure

theorem A.Keeps.forIn {f : α → β → A (ForInStep β)} (hf : ∀ x b, (f x b).Keeps) (l : List α) :
    ∀ b, (ForIn.forIn l b f).Keeps := by
  induction l with
  | nil => exact fun b => .pure
  | cons x t ih =>
    intro b
    rw [List.forIn_cons]
    refine .bind (hf x b) fun r => ?_
    cases r with
    | done b => exact .pure
    | yield b => exact ih b

/-! ## Registers -/

theorem State.Formed.setReg {s : State} {r : Reg} {v : DWord} (hs : s.Formed) : (s.setReg r v).Formed := hs

theorem State.Formed.setField {s : State} {r : Reg} {h l v : Nat} (hs : s.Formed) : (s.setField r h l v).Formed := hs

/-! ## Operations on the state -/

theorem State.Formed.setCtx {s : State} {k : Nat} {c : Ctx} (hs : s.Formed) : (s.setCtx k c).Formed := hs

theorem State.Formed.modCtx {s : State} {k : Nat} {f : Ctx → Ctx} (hs : s.Formed) : (s.modCtx k f).Formed := hs

theorem State.Formed.push {s : State} {l : List Due} (hs : s.Formed) : (s.push l).Formed := hs

theorem State.Formed.emit {s : State} {o : Out} (hs : s.Formed) : (s.emit o).Formed := hs

theorem W.Keeps.illegalContext {α : Type} : (illegalContext : W α).Keeps := .raise

theorem W.Keeps.protection {α : Type} {i : Nat} : (protection i : W α).Keeps := .raise

theorem W.Keeps.channelConfig {α : Type} {c : CIdx} : (channelConfig c : W α).Keeps := .raise

theorem W.Keeps.hitchCause {α : Type} {i : Nat} : (hitchCause i : W α).Keeps := .raise

theorem W.Keeps.consume {i : Nat} {l : Lame} : (consume i l).Keeps := .ite .pure .raise

theorem State.Formed.freePage {s : State} {k : Nat} {c : CIdx} {i : Nat} (hs : s.Formed) : (s.freePage k c i).Formed := by
  dsimp only [State.freePage]
  split
  · exact hs
  · exact Mem.wf_drain _ _ _ hs

theorem State.Formed.skipEmpty {s : State} {k : Nat} {c : CIdx} {n : Nat} (hs : s.Formed) : (s.skipEmpty k c n).Formed := by
  induction n generalizing s with
  | zero => exact hs
  | succ n ih =>
    dsimp only [State.skipEmpty]
    split
    · exact hs
    · exact .ite (ih (.freePage hs)) hs

theorem State.Formed.settlePage {s : State} {k : Nat} {c : CIdx} {i : Nat} (hs : s.Formed) : (s.settlePage k c i).Formed := by
  dsimp only [State.settlePage]
  split
  · exact hs
  · exact .skipEmpty hs

theorem State.Formed.writeRecord {s : State} {k : Nat} {c : CIdx} {page rec : Nat} {bytes : List Byte} {lame : Lame} (hs : s.Formed) :
    (s.writeRecord k c page rec bytes lame).Formed := by
  dsimp only [State.writeRecord]
  split
  · exact hs
  · exact .settlePage (Mem.wf_ite (Mem.wf_taint _ _ _ (Mem.wf_fill _ _ _ (Mem.wf_write _ _ _ hs))) (Mem.wf_fill _ _ _ (Mem.wf_write _ _ _
      hs)))

theorem State.Formed.dropRecord {s : State} {k : Nat} {c : CIdx} {page rec : Nat} (hs : s.Formed) : (s.dropRecord k c page rec).Formed := by
  dsimp only [State.dropRecord]
  split
  · exact hs
  · exact .settlePage hs

theorem State.Formed.landEffect {s : State} {k : Nat} {w : RegWrite} (hs : s.Formed) : (s.landEffect k w).Formed := by
  dsimp only [State.landEffect]
  split
  · exact .ite hs hs
  · exact .writeRecord hs
  all_goals exact hs

theorem State.Formed.landOne {s : State} {k : Nat} {e : Landing} (hs : s.Formed) : (s.landOne k e).Formed :=
  .foldl (fun _ _ hs1 => .landEffect hs1) hs

theorem State.Formed.tick {s : State} {k : Nat} (hs : s.Formed) : (s.tick k).1.Formed := .foldl (fun _ _ hs1 => .landOne hs1) hs

theorem State.Formed.discardX {s : State} {k : Nat} (hs : s.Formed) : (s.discardX k).Formed := by
  dsimp only [State.discardX]
  refine .foldl (fun _ _ hs1 => ?_) hs
  split
  · exact .dropRecord hs1
  · exact hs1

theorem State.Formed.hitchCheck {s : State} {h : Nat} (hs : s.Formed) : (s.hitchCheck h).Formed := by
  dsimp only [State.hitchCheck]
  split
  · exact hs
  · exact .ite hs hs

theorem State.Formed.leaveHitch {s : State} {k : Nat} (hs : s.Formed) : (s.leaveHitch k).Formed := by
  dsimp only [State.leaveHitch]
  split
  · exact hs
  · split
    · exact hs
    · exact .hitchCheck hs

theorem State.Formed.failRider {s : State} {k : Nat} {cause : Cause} (hs : s.Formed) : (s.failRider k cause).Formed :=
  .leaveHitch (.discardX hs)

theorem State.Formed.dropPushes {s : State} {k : Nat} (hs : s.Formed) : (s.dropPushes k).Formed := by
  dsimp only [State.dropPushes]
  refine .foldl (fun _ _ hs1 => ?_) hs
  split
  · exact .dropRecord hs1
  all_goals exact hs1

theorem State.Formed.unwind {s : State} {k : Nat} {pc : DWord} {cause : Lame} {use : Bool} (hs : s.Formed) :
    (s.unwind k pc cause use).Formed :=
  .discardX (.dropPushes hs)

theorem State.Formed.featureAbsent {s : State} {k : Nat} {t : Cause} {pc : DWord} (hs : s.Formed) : (s.featureAbsent k t pc).Formed := by
  dsimp only [State.featureAbsent]
  split
  · exact hs
  · split
    · exact .failRider hs
    · split <;> exact hs

theorem State.Formed.takeCause {s : State} {k : Nat} {t : Cause} {pc : DWord} (hs : s.Formed) : (s.takeCause k t pc).Formed :=
  .ite (.unwind (.ite hs hs)) (.ite (.ite (.ite hs hs) (.ite hs hs)) (.ite (.featureAbsent (.ite hs hs)) (.ite (.failRider (.ite hs hs))
    (.ite (.failRider (.ite hs hs)) (.ite hs hs)))))

theorem State.Formed.tret {s : State} {k : Nat} {f : Frame'} (hs : s.Formed) : (s.tret k f).Formed :=
  .foldl (fun _ _ hs1 => .landOne hs1) hs

theorem W.Keeps.guardUse {g : PIdx} : (guardUse g).Keeps := .bind .getMe fun _ => .consume

theorem W.Keeps.guarded {g : PIdx} {body : W Unit} (hbody : body.Keeps) : (guarded g body).Keeps :=
  .bind .getMe fun _ => .ite (.ite hbody .pure) (.ite .lowest .guardUse)

theorem W.Keeps.settle {s : State} {m : W Unit} (hm : m.Keeps) (hs : s.Formed) : (Machine.settle s (m s)).Formed := by
  unfold Machine.settle
  split
  next t e => exact (hm s _ t hs e : t.Formed)
  · exact State.Formed.takeCause hs
  · exact hs

theorem FormedAfter.runWord {g : PIdx} {body : W Unit} {s : State} (hb : body.Keeps) (hs : s.Formed) : FormedAfter (runWord g body s) :=
  W.Keeps.settle (W.Keeps.guarded hb) hs

theorem FormedAfter.runBare {body : W Unit} {s : State} (hb : body.Keeps) (hs : s.Formed) : FormedAfter (runBare body s) :=
  W.Keeps.settle hb hs

theorem W.Keeps.needFeature {b : Nat} : (needFeature b).Keeps := .bind .getMe fun _ => .ite .pure .raise

/-! ## Frames and their way -/

theorem State.Formed.sendOut {s : State} {p : Nat} {f : Frame} (hs : s.Formed) : (s.sendOut p f).Formed := hs

theorem State.Formed.sendFrom {s : State} {pin dst cls : Nat} {f : Frame} (hs : s.Formed) : (s.sendFrom pin dst cls f).Formed := by
  dsimp only [State.sendFrom]
  split <;> exact hs

theorem State.Formed.sendFrame {s : State} {q dst cls : Nat} {f : Frame} (hs : s.Formed) : (s.sendFrame q dst cls f).Formed := .sendFrom hs

theorem State.Formed.giveLine {s : State} {key : Nat} {l : Line} (hs : s.Formed) : (s.giveLine key l).Formed := .ite hs hs

theorem State.Formed.answer {s : State} {o : Outstanding} {data : List Byte} {poison : BitVec 4} (hs : s.Formed) :
    (s.answer o data poison).Formed := by
  dsimp only [State.answer]
  split
  · exact .giveLine hs
  · exact hs
  · exact .ite hs hs

theorem State.Formed.lost {s : State} {o : Outstanding} (hs : s.Formed) : (s.lost o).Formed := by
  dsimp only [State.lost]
  split <;> exact .answer hs

theorem State.Formed.request {s : State} {q addr : Nat} {kind : ReqKind} {len : Nat} {attr : BitVec 16} {data : List Byte} {key tok : Nat}
    (hs : s.Formed) : (s.request q addr kind len attr data key tok).Formed :=
  .ite (.sendFrame hs) (.lost hs)

/-! ## Lines, slices and stashes -/

theorem State.Formed.homeWrite {s : State} {q pk : Nat} {l : List Byte} {poison : Bool} {attr key tok : Nat} (hs : s.Formed) :
    (s.homeWrite q pk l poison attr key tok).Formed :=
  .ite (.ite hs (Mem.wf_ite (Mem.wf_taint _ _ _ (Mem.wf_write _ _ _ hs)) (Mem.wf_write _ _ _ hs))) (.ite (.request hs) (Mem.wf_hostPut _ _
    _ _ hs))

theorem State.Formed.writeBackLine {s : State} {st : Nat} {l : Line} (hs : s.Formed) : (s.writeBackLine st l).Formed :=
  .foldl (fun _ _ hs1 => .homeWrite hs1) hs

theorem State.Formed.modL0 {s : State} {st : Nat} {f : List Line → List Line} (hs : s.Formed) : (s.modL0 st f).Formed := hs

theorem State.Formed.cleanLine {s : State} {p pk : Nat} (hs : s.Formed) : (s.cleanLine p pk).Formed := by
  dsimp only [State.cleanLine]
  split
  · exact hs
  · exact .ite hs (.writeBackLine hs)

theorem State.Formed.flushLine {s : State} {p pk : Nat} (hs : s.Formed) : (s.flushLine p pk).Formed := .cleanLine hs

theorem State.Formed.putSlice {s : State} {p : Nat} {x : Line} (hs : s.Formed) : (s.putSlice p x).Formed := by
  dsimp only [State.putSlice]
  split
  · exact hs
  · split
    · exact .flushLine hs
    · exact hs

theorem State.Formed.markStash {s : State} {k o n : Nat} {poison : Bool} (hs : s.Formed) : (s.markStash k o n poison).Formed := by
  dsimp only [State.markStash]
  split
  · exact hs
  · refine .foldl (fun _ _ hs1 => ?_) hs
    split
    · exact hs1
    · split
      · exact hs1
      · exact .ite hs1 hs1

theorem State.Formed.cleanStash {s : State} {k i b : Nat} (hs : s.Formed) : (s.cleanStash k i b).Formed := by
  dsimp only [State.cleanStash]
  split
  · exact hs
  · exact .ite (Mem.wf_foldl (fun _ _ hm2 => Mem.wf_ite (Mem.wf_fill _ _ _ hm2) hm2) (State.Formed.writeBackLine hs)) hs

theorem State.Formed.dropStash {s : State} {k i b : Nat} (hs : s.Formed) : (s.dropStash k i b).Formed := .cleanStash hs

theorem State.Formed.dropStashes {s : State} {k : Nat} (hs : s.Formed) : (s.dropStashes k).Formed :=
  .foldl (fun _ _ hs1 => .foldl (fun _ _ hs2 => .dropStash hs2) hs1) hs

theorem State.Formed.writeBackPaddock {s : State} {p : Nat} (hs : s.Formed) : (s.writeBackPaddock p).Formed :=
  .foldl (fun _ _ hs1 => .foldl (fun _ _ hs2 => .foldl (fun _ _ hs3 => .cleanStash hs3) hs2) hs1) (.foldl (fun _ _ hs1 => .cleanLine hs1)
    hs)

theorem State.Formed.cleanSlice {s : State} {st : Nat} (hs : s.Formed) : (s.cleanSlice st).Formed :=
  .foldl (fun _ _ hs1 => .cleanLine hs1) hs

theorem State.Formed.flushSlice {s : State} {st : Nat} (hs : s.Formed) : (s.flushSlice st).Formed :=
  .foldl (fun _ _ hs1 => .flushLine hs1) hs

theorem State.Formed.acquireAt {s : State} {st scope : Nat} (hs : s.Formed) : (s.acquireAt st scope).Formed :=
  .ite hs (.ite hs (.foldl (fun _ _ hs1 => .dropStashes hs1) hs))

/-! ## Operands -/

theorem W.Keeps.sSrc {r : RIdx} : (sSrc r).Keeps := .bind .getMe fun _ => .pure

theorem W.Keeps.sUse {r : RIdx} : (sUse r).Keeps := .bind .getMe fun _ => .bind .consume fun _ => .pure

theorem W.Keeps.aUse {r : RIdx} : (aUse r).Keeps := .bind .getMe fun _ => .bind .consume fun _ => .pure

theorem W.Keeps.jUse {r : JIdx} : (jUse r).Keeps := .bind .getMe fun _ => .bind .consume fun _ => .pure

theorem W.Keeps.nUse {r : RIdx} : (nUse r).Keeps := .bind .getMe fun _ => .bind .consume fun _ => .pure

theorem W.Keeps.windowOf {i : RIdx} : (windowOf i).Keeps := .bind .getMe fun _ => .ite .pure .raise

theorem W.Keeps.wSrc {i : RIdx} : (wSrc i).Keeps := .bind .windowOf fun _ => .bind .getMe fun _ => .pure

theorem W.Keeps.chanOf {c : CIdx} : (chanOf c).Keeps := by
  dsimp only [Machine.chanOf]
  refine .bind .getMe fun _ => ?_
  split
  · exact .pure
  · exact .channelConfig

theorem W.Keeps.chanSource {c : CIdx} {scal : Bool} : (chanSource c scal).Keeps := .bind .chanOf fun _ => .ite .channelConfig .pure

theorem W.Keeps.chanDest {c : CIdx} {scal : Bool} : (chanDest c scal).Keeps := .bind .chanOf fun _ => .ite .channelConfig .pure

theorem State.Formed.readRecord {s : State} {k : Nat} {c : CIdx} {ch : Chan} {rec : Nat} {peek : Bool} (hs : s.Formed) :
    (s.readRecord k c ch rec peek).Formed :=
  .skipEmpty (.ite (.acquireAt hs) hs)

theorem W.Keeps.takeRecord {c : CIdx} {peek scal : Bool} : (takeRecord c peek scal).Keeps := by
  dsimp only [Machine.takeRecord]
  refine .bind .chanSource fun _ => .bind .getS fun _ => ?_
  split
  · exact .bind (.modS (fun _ hs1 => .readRecord hs1)) fun _ => .pure
  · exact .ite .pure .hold

theorem W.Keeps.takeRoom {c : CIdx} {scal : Bool} : (takeRoom c scal).Keeps := by
  dsimp only [Machine.takeRoom]
  refine .bind .chanDest fun _ => .bind .getS fun _ => ?_
  split
  · exact .bind .modMe fun _ => .pure
  · exact .ite .pure .hold

theorem W.Keeps.checkVSrc {a : VSrc} : (checkVSrc a).Keeps := by
  dsimp only [Machine.checkVSrc]
  split
  · exact .bind .windowOf fun _ => .pure
  · exact .bind .chanSource fun _ => .pure
  · exact .bind .chanSource fun _ => .pure

theorem W.Keeps.checkVDst {a : VDst} : (checkVDst a).Keeps := by
  dsimp only [Machine.checkVDst]
  split
  · exact .bind .windowOf fun _ => .pure
  · exact .bind .chanDest fun _ => .pure

theorem W.Keeps.vSrc {a : VSrc} : (vSrc a).Keeps := by
  dsimp only [Machine.vSrc]
  split
  · exact .wSrc
  · exact .bind .takeRecord fun _ => .pure
  · exact .bind .takeRecord fun _ => .pure

theorem W.Keeps.pushV {c : CIdx} {n : Nat} {flags : BitVec 6} {x : Lamed VReg} {more : List RegWrite} : (pushV c n flags x more).Keeps := by
  dsimp only [Machine.pushV]
  refine .bind .consume fun _ => .bind .getS fun _ => .bind .chanDest fun _ => ?_
  split
  · exact .modS fun _ hs => hs
  · refine .bind .takeRoom fun _ => ?_
    split <;> exact .modS fun _ hs1 => hs1

theorem W.Keeps.landV {d : VDst} {n : Nat} {flags : BitVec 6} {x : Lamed VReg} {more : List RegWrite} : (landV d n flags x more).Keeps := by
  dsimp only [Machine.landV]
  split
  · exact .bind .windowOf fun _ => .modS fun _ hs1 => hs1
  · exact .pushV

theorem State.Formed.servePush {s t : State} (hs : s.Formed) (e : servePush s = .ok t) : t.Formed := by
  unfold Machine.servePush at e
  split at e
  · cases e
    exact hs
  · split at e
    next u e1 =>
      have hu : u.Formed := W.Keeps.takeRoom.next (s := { s with pendPush := none }) hs e1
      cases e
      exact hu
    next u e1 =>
      have hu : u.Formed := W.Keeps.takeRoom.next (s := { s with pendPush := none }) hs e1
      cases e
      exact hu
    · cases e

theorem W.Keeps.xDatum {a : XSrc} : (xDatum a).Keeps := by
  dsimp only [Machine.xDatum]
  split
  · exact .aUse
  · exact .bind .takeRecord fun _ => .bind .consume fun _ => .pure
  · exact .bind .takeRecord fun _ => .bind .consume fun _ => .pure

/-! ## Scalar words -/

theorem W.Keeps.sOp2 {n : Nat} {d a b : RIdx} {f : DWord → DWord → DWord} : (sOp2 n d a b f).Keeps :=
  .bind .sSrc fun _ => .bind .sSrc fun _ => .land

theorem W.Keeps.sOp1 {n : Nat} {d a : RIdx} {f : DWord → DWord} : (sOp1 n d a f).Keeps := .bind .sSrc fun _ => .land

theorem W.Keeps.pOp2 {p : PIdx} {a b : RIdx} {f : DWord → DWord → Bool} : (pOp2 p a b f).Keeps :=
  .bind .sSrc fun _ => .bind .sSrc fun _ => .land

theorem W.Keeps.pOp1 {p : PIdx} {a : RIdx} {f : DWord → Bool} : (pOp1 p a f).Keeps := .bind .sSrc fun _ => .land

theorem W.Keeps.divideFree : divideFree.Keeps := .bind .getMe fun _ => .ite .illegalEncoding .pure

theorem W.Keeps.divide {d a b : RIdx} {f : DWord → DWord → DWord} : (divide d a b f).Keeps :=
  .bind .sSrc fun _ => .bind .sSrc fun _ => .modS fun _ hs => hs

theorem W.Keeps.selWord {g : PIdx} {d a b : RIdx} : (selWord g d a b).Keeps :=
  .bind .sSrc fun _ => .bind .sSrc fun _ => .bind .getMe fun _ => .land

theorem W.Keeps.plogWord {fn : PFn} {p a b : PIdx} : (plogWord fn p a b).Keeps := .bind .getMe fun _ => .land

theorem W.Keeps.setjWord {j : JIdx} {i : Imm 10} : (setjWord j i).Keeps := .bind .getS fun _ => .land

theorem W.Keeps.sfromaWord {d a : RIdx} : (sfromaWord d a).Keeps := .bind .getMe fun _ => .land

theorem W.Keeps.sfromnWord {d n : RIdx} : (sfromnWord d n).Keeps := .bind .getMe fun _ => .land

theorem W.Keeps.sfromvWord {d w b : RIdx} : (sfromvWord d w b).Keeps :=
  .bind .wSrc fun _ => .bind .sSrc fun _ => .bind .getMe fun _ => .land

theorem W.Keeps.rdcycWord {d : RIdx} : (rdcycWord d).Keeps := .bind .getS fun _ => .land

/-! ## Selectors -/

theorem W.Keeps.goOn : goOn.Keeps := .bind .getS fun _ => .modMe

theorem W.Keeps.loopWord : loopWord.Keeps := by
  dsimp only [Machine.loopWord]
  refine .bind .getMe fun _ => ?_
  split
  · exact .illegalContext
  · exact .ite .modMe (.bind .goOn fun _ => .modMe)

theorem W.Keeps.brkWord : brkWord.Keeps := by
  dsimp only [Machine.brkWord]
  refine .bind .getMe fun _ => ?_
  split
  · exact .illegalContext
  · exact .modMe

theorem W.Keeps.retWord : retWord.Keeps := by
  dsimp only [Machine.retWord]
  refine .bind .getMe fun _ => ?_
  split
  · exact .illegalContext
  · exact .modMe

theorem W.Keeps.jmpWord {j : JIdx} : (jmpWord j).Keeps := .bind .jUse fun _ => .modMe

theorem W.Keeps.callWord {j : JIdx} : (callWord j).Keeps :=
  .bind .getS fun _ => .ite (.bind .illegalContext fun _ => .bind .jUse fun _ => .modMe) (.bind .jUse fun _ => .modMe)

theorem W.Keeps.yieldWord : yieldWord.Keeps := .bind .goOn fun _ => .modS fun _ hs => hs

theorem W.Keeps.waitbrkWord : waitbrkWord.Keeps := .bind .goOn fun _ => .bind .getS fun _ => .ite (.modS (fun _ hs => hs)) .pure

theorem W.Keeps.nestCheckOwed : nestCheckOwed.Keeps := by
  dsimp only [Machine.nestCheckOwed]
  refine .bind .getMe fun _ => ?_
  split
  · exact .raise
  · exact .pure

theorem FormedAfter.execNestOwed {s : State} (hs : s.Formed) : FormedAfter (execNestOwed s) :=
  .runBare (.bind .nestCheckOwed fun _ => .goOn) hs

theorem W.Keeps.stopWord : stopWord.Keeps := .bind .nestCheckOwed fun _ => .bind (.modS (fun _ hs => .leaveHitch hs)) fun _ => .modMe

/-! ## Registers of the groom -/

theorem State.Formed.collect {s : State} {victims : List Nat} {limited : Bool} {waiter : Option Nat} {discard : Bool} (hs : s.Formed) :
    (s.collect victims limited waiter discard).Formed :=
  .ite hs hs

theorem State.Formed.evict {s : State} {keys : List Nat} (hs : s.Formed) : (s.evict keys).Formed := .collect hs

theorem State.Formed.lifeRecord {s : State} (hs : s.Formed) : s.lifeRecord.Formed := by
  dsimp only [State.lifeRecord, State.Formed]
  exact hs

theorem State.Formed.stateChanged {s : State} {p n : Nat} (hs : s.Formed) : (s.stateChanged p n).Formed := by
  unfold State.stateChanged
  extract_lets s1
  have h1 : s1.Formed := .lifeRecord hs
  clear_value s1
  split
  · exact .ite (h1.same rfl) h1
  · exact h1

theorem State.Formed.writeWear {s : State} {p : Nat} {v : DWord} (hs : s.Formed) : (s.writeWear p v).Formed := .ite (.stateChanged hs) hs

theorem State.Formed.writeFeat {s : State} {p : Nat} {v : DWord} (hs : s.Formed) : (s.writeFeat p v).Formed := by
  dsimp only [State.writeFeat]
  split
  · exact hs
  · exact .evict hs

theorem State.Formed.writeColmap {s : State} {row : Nat} {v : DWord} (hs : s.Formed) : (s.writeColmap row v).Formed :=
  .ite hs (.ite (Mem.wf_remapRow _ _ _ _ _ hs) hs)

theorem State.Formed.writeSavepool {s : State} {die : Nat} {v : DWord} (hs : s.Formed) : (s.writeSavepool die v).Formed := hs

theorem State.Formed.writeAdmit {s : State} {die q : Nat} {v : DWord} (hs : s.Formed) : (s.writeAdmit die q v).Formed :=
  .ite hs (.ite hs hs)

theorem State.Formed.writeHead {s : State} {die q : Nat} {v : DWord} (hs : s.Formed) : (s.writeHead die q v).Formed := .ite hs (.ite hs hs)

theorem State.Formed.writeDblstat {s : State} {die : Nat} {v : DWord} (hs : s.Formed) : (s.writeDblstat die v).Formed := .ite hs hs

theorem State.Formed.writeBrkend {s : State} {die : Nat} {v : DWord} (hs : s.Formed) : (s.writeBrkend die v).Formed := .ite hs hs

theorem State.Formed.writeMcbsel {s : State} {k : Nat} {v : DWord} (hs : s.Formed) : (s.writeMcbsel k v).Formed := .ite hs hs

/-! ## Riders -/

theorem State.Formed.spawnRider {s t : State} {k : Nat} {pc s1 s2 id : DWord} (hs : s.Formed) (e : s.spawnRider k pc s1 s2 = some (id, t)) :
    t.Formed := by
  dsimp only [State.spawnRider] at e
  split at e
  · cases e
  · split at e
    · cases e
    · cases e
      exact hs

theorem State.Formed.afterWait {s : State} {k : Nat} (hs : s.Formed) : (s.afterWait k).Formed := by
  dsimp only [State.afterWait]
  split
  · exact .ite (.takeCause hs) hs
  · exact hs

/-! ## System words -/

theorem W.Keeps.looprWord {a : RIdx} {j : JIdx} : (looprWord a j).Keeps := by
  refine .bind .getMe fun c => .bind .getS fun s => ?_
  extract_lets n rest
  have hrest : ∀ u, (rest u).Keeps := fun _ => .bind .sUse fun _ => .bind .jUse fun _ => .ite .modMe (.bind .goOn fun _ => .modMe)
  exact .ite (.bind .illegalContext hrest) (hrest ())

theorem W.Keeps.csrrWord {d : RIdx} {csr : BitVec 10} : (csrrWord d csr).Keeps :=
  .bind .getS fun _ => .ite (.bind .protection fun _ => .land) .land

theorem State.Formed.groomWrite {s : State} {k n : Nat} {v : DWord} (hs : s.Formed) : (s.groomWrite k n v).Formed := by
  dsimp only [State.groomWrite]
  split
  · split
    · exact .writeFeat hs
    · exact hs
  · split
    · exact .writeWear hs
    · exact hs
  · exact hs
  · split
    · exact .writeWear hs
    · exact hs
  · split
    · exact .writeFeat hs
    · exact hs
  · exact hs
  · exact hs
  · exact hs
  · exact .writeDblstat hs
  · exact .writeMcbsel hs
  · exact hs
  · exact .writeColmap hs
  · exact .writeBrkend hs
  · exact .ite (.writeHead hs) (.ite (.writeAdmit hs) hs)

theorem W.Keeps.csrwCheck {c : Ctx} {groom : Bool} {n : Nat} {v : DWord} : (csrwCheck c groom n v).Keeps :=
  .ite .illegalContext (.ite .needFeature (.ite .protection .pure))

theorem W.Keeps.csrwWord {d : RIdx} {csr : BitVec 10} : (csrwWord d csr).Keeps :=
  .bind .getS fun _ => .bind .csrwCheck fun _ => .bind .sUse fun _ => .bind .modMe fun _ => .ite (.modS (fun _ hs => .groomWrite hs)) .pure

theorem W.Keeps.selectFor {a : Nx} : (selectFor a).Keeps := by
  dsimp only [Machine.selectFor]
  split
  · exact .goOn
  · exact .goOn
  · exact .goOn
  · exact .loopWord
  · exact .brkWord
  · exact .retWord
  · exact .jmpWord
  · exact .callWord
  · exact .stopWord

theorem W.Keeps.trapWord {nx : Nx} {i : BitVec 10} : (trapWord nx i).Keeps :=
  .bind .selectFor fun _ => .ite .pure (.modS (fun _ hs => .afterWait hs))

theorem W.Keeps.tretWord : tretWord.Keeps := by
  refine .bind .getMe fun c => ?_
  extract_lets rest
  have hrest : ∀ u, (rest u).Keeps := by
    intro u
    dsimp only [rest]
    split
    · exact .illegalContext
    · exact .ite .modMe (.modS fun _ h => .tret h)
  exact .ite (.bind .illegalContext hrest) (hrest ())

theorem W.Keeps.featWord {p : PIdx} {b : Byte} : (featWord p b).Keeps := .bind .getMe fun _ => .land

theorem W.Keeps.userOnly : userOnly.Keeps := .bind .getS fun _ => .ite .illegalContext .pure

theorem W.Keeps.spawnWord {d : RIdx} {j : JIdx} {b : RIdx} : (spawnWord d j b).Keeps := by
  refine .bind .userOnly fun _ => .getS_bind fun s hs => ?_
  extract_lets rest
  have hrest : ∀ u, (rest u).Keeps := by
    refine fun _ => .bind .sUse fun _ => .bind .sUse fun _ => .bind .jUse fun _ => ?_
    split
    next id t e =>
      have ht : t.Formed := .spawnRider hs e
      exact .bind (.modS fun _ _ => ht) fun _ => .land
    · exact .land
  exact .ite (.bind .protection hrest) (hrest ())

theorem W.Keeps.hitchCreateWord {d : RIdx} : (hitchCreateWord d).Keeps := by
  refine .bind .userOnly fun _ => .bind .getS fun s => ?_
  extract_lets rest
  have hrest : ∀ u, (rest u).Keeps := by
    intro u
    dsimp only [rest]
    split
    · exact .hitchCause
    · exact .bind (.modS fun _ h => h) fun _ => .bind .getS fun _ => .land
  exact .ite (.bind .hitchCause hrest) (hrest ())

theorem W.Keeps.hitchJoinWord {d a : RIdx} : (hitchJoinWord d a).Keeps := by
  refine .bind .userOnly fun _ => .bind .sUse fun _ => .bind .getS fun s => ?_
  extract_lets rest
  have hrest : ∀ u, (rest u).Keeps := by
    intro u
    dsimp only [rest]
    split
    · exact .hitchCause
    · exact .ite (.bind .hitchCause fun _ => .bind (.modS fun _ h => h) fun _ => .land) (.bind (.modS fun _ h => h) fun _ => .land)
  exact .ite (.bind .hitchCause hrest) (hrest ())

theorem W.Keeps.unhitchWord : unhitchWord.Keeps :=
  .bind .userOnly fun _ => .bind .getS fun _ => .ite (.bind .hitchCause fun _ => .modS (fun _ hs => .leaveHitch hs)) (.modS (fun _ hs =>
    .leaveHitch hs))

theorem W.Keeps.hbarWord {p : PIdx} {t : Imm 10} : (hbarWord p t).Keeps := by
  dsimp only [Machine.hbarWord]
  refine .bind .userOnly fun _ => .bind .getS fun _ => ?_
  split
  · exact .hitchCause
  · exact .modS fun _ hs1 => .hitchCheck hs1

theorem W.Keeps.vwinWord {i : Imm 10} : (vwinWord i).Keeps := .ite (.bind .raise fun _ => .modMe) .modMe

theorem W.Keeps.vrotWord {i : BitVec 10} : (vrotWord i).Keeps := .modMe

theorem W.Keeps.setvtWord {etype rm : BitVec 3} {sat : Bool} {mask : KIdx} : (setvtWord etype rm sat mask).Keeps :=
  .ite (.bind .needFeature fun _ => .modMe) .modMe

theorem W.Keeps.srseedWord {a b : RIdx} : (srseedWord a b).Keeps :=
  .bind .needFeature fun _ => .bind .sUse fun _ => .bind .sUse fun _ => .modMe

theorem W.Keeps.containWord {j : JIdx} : (containWord j).Keeps :=
  .bind .getMe fun _ => .ite (.bind .illegalContext fun _ => .bind .jUse fun _ => .modMe) (.bind .jUse fun _ => .modMe)

theorem W.Keeps.endcontWord : endcontWord.Keeps := .bind .getMe fun _ => .ite (.bind .illegalContext fun _ => .modMe) .modMe

theorem W.Keeps.chklWord {p : PIdx} {a : RIdx} : (chklWord p a).Keeps := .bind .sSrc fun _ => .bind .land fun _ => .modMe

/-! ## Address spaces -/

theorem A.Keeps.translate {k st va : Nat} {acc : BitVec 4} : (translate k st va acc).Keeps := by
  dsimp only [Machine.translate]
  refine .bind .aGet fun _ => ?_
  split
  · exact .aRefused
  · split
    · exact .aFault
    · split
      · exact .ite .aWait .aFault
      · split
        · exact .aFault
        · exact .bind (.aMod (fun _ hs2 => hs2)) fun _ => .pure

theorem A.Keeps.withDead {α : Type} {k : Nat} {l : List Nat} {x : A α} (hx : x.Keeps) : (withDead k l x).Keeps := by
  intro s hs
  dsimp only [Machine.withDead]
  split
  · exact hx s hs
  · exact hx _ hs

theorem A.Keeps.orRefused {n : Nat} {x : A (Lamed (List Byte))} (hx : x.Keeps) : (orRefused n x).Keeps := by
  intro s hs
  dsimp only [Machine.orRefused]
  split
  next t e => exact hx.next hs e
  · exact hx s hs

theorem A.Keeps.orNothing {x : A Unit} (hx : x.Keeps) : (orNothing x).Keeps := by
  intro s hs
  dsimp only [Machine.orNothing]
  split
  next t e => exact hx.next hs e
  · exact hx s hs

theorem A.Keeps.askLine {k st pk attr : Nat} : (askLine k st pk attr).Keeps :=
  .bind .aGet fun _ => .ite (.aMod (fun _ hs => .request hs)) .pure

theorem A.Keeps.touchStash {k i b : Nat} {acc : BitVec 4} : (touchStash k i b acc).Keeps := by
  dsimp only [Machine.touchStash]
  refine .bind .aGet fun _ => ?_
  split
  · exact .pure
  · split
    · exact .pure
    · refine .bind .translate fun _ => .bind .aGet fun _ => .bind (.aMod (fun _ hs1 => .flushLine ?_)) fun _ => .bind .aGet fun _ => ?_
      · split
        · exact .dropStash hs1
        · exact hs1
      · split
        · exact .bind .askLine fun _ => .aWait
        · exact .aMod fun _ hs2 => Mem.wf_foldl (fun _ _ hm3 => Mem.wf_ite (Mem.wf_taint _ _ _ hm3) hm3) (Mem.wf_fill _ _ _ (Mem.wf_write _
            _ _ hs2))

theorem A.Keeps.readLine {k st pk : Nat} {nc l0 : Bool} {need : BitVec 64} {attr : Nat} : (readLine k st pk nc l0 need attr).Keeps := by
  dsimp only [Machine.readLine]
  refine .bind .aGet fun _ => ?_
  split
  · exact .pure
  · split
    · exact .pure
    · split
      · exact .bind (.aMod (fun _ hs3 => .ite hs3 hs3)) fun _ => .pure
      · split
        · exact .bind .askLine fun _ => .aWait
        · exact .ite (.bind (.aMod (fun _ hs4 => .putSlice hs4)) fun _ => .bind (.aMod (fun _ hs4 => .ite hs4 hs4)) fun _ => .pure) (.bind
            (.aMod (fun _ hs4 => .ite hs4 hs4)) fun _ => .pure)

theorem A.Keeps.writeLine {k tok st pk : Nat} {nc : Bool} {b : List Byte} {poison : Bool} {attr : Nat} :
    (writeLine k tok st pk nc b poison attr).Keeps := by
  dsimp only [Machine.writeLine]
  refine .bind .aGet fun _ => ?_
  split
  · refine .aMod fun _ hs1 => ?_
    split <;> exact Mem.wf_ite (Mem.wf_taint _ _ _ (Mem.wf_write _ _ _ hs1)) (Mem.wf_write _ _ _ hs1)
  · exact .ite (.aMod (fun _ hs1 => .putSlice hs1)) (.ite (.bind .aWait fun _ => .aMod (fun _ hs1 => .homeWrite hs1)) (.aMod (fun _ hs1 =>
      .homeWrite hs1)))

theorem A.Keeps.touchScratch {k o n : Nat} {acc : BitVec 4} : (touchScratch k o n acc).Keeps := by
  dsimp only [Machine.touchScratch]
  refine .bind (.forIn (fun _ _ => .bind .aGet fun _ => ?_) _ _) fun _ => .pure
  split
  · exact .bind .touchStash fun _ => .pure
  · exact .pure

theorem A.Keeps.readScratch {k o n : Nat} {acc : BitVec 4} : (readScratch k o n acc).Keeps :=
  .bind .touchScratch fun _ => .bind .aGet fun _ => .pure

theorem A.Keeps.readGlobal {k st va n : Nat} {acc : BitVec 4} {attr : Nat} : (readGlobal k st va n acc attr).Keeps := by
  dsimp only [Machine.readGlobal]
  refine .bind .translate fun _ => .bind .aGet fun _ => ?_
  split
  · exact .bind .touchStash fun _ => .bind .aGet fun _ => .pure
  · exact .bind .readLine fun _ => .pure

theorem A.Keeps.readGlobals {k st : Nat} {acc : BitVec 4} {attr fuel va n : Nat} : (readGlobals k st acc attr fuel va n).Keeps := by
  induction fuel generalizing va n with
  | zero => exact .pure
  | succ fuel ih => exact .ite .pure (.bind .readGlobal fun _ => .bind ih fun _ => .pure)

theorem A.Keeps.readEa {k : Nat} {ea : DWord} {n : Nat} {acc : BitVec 4} {attr : Nat} : (readEa k ea n acc attr).Keeps := by
  dsimp only [Machine.readEa]
  refine .bind .aGet fun _ => .bind ?_ fun _ => .pure
  split
  · exact .readGlobals
  · exact .readScratch
  · split <;> exact .pure
  · exact .pure

theorem State.Formed.putScratch {s : State} {k o : Nat} {b : List Byte} {poison eng : Bool} (hs : s.Formed) :
    (s.putScratch k o b poison eng).Formed :=
  .markStash (Mem.wf_ite (Mem.wf_fill _ _ _ (Mem.wf_ite (Mem.wf_taint _ _ _ (Mem.wf_write _ _ _ hs)) (Mem.wf_write _ _ _ hs))) (Mem.wf_ite
    (Mem.wf_taint _ _ _ (Mem.wf_write _ _ _ hs)) (Mem.wf_write _ _ _ hs)))

theorem A.Keeps.writeScratch {k o : Nat} {b : List Byte} {poison eng : Bool} : (writeScratch k o b poison eng).Keeps :=
  .bind .touchScratch fun _ => .aMod fun _ hs => .putScratch hs

theorem A.Keeps.writeGlobal {k tok st va : Nat} {b : List Byte} {poison : Bool} {attr : Nat} :
    (writeGlobal k tok st va b poison attr).Keeps := by
  dsimp only [Machine.writeGlobal]
  refine .bind .translate fun _ => .bind .aGet fun _ => ?_
  split
  · split
    · exact .writeScratch
    · exact .pure
  · exact .writeLine

theorem A.Keeps.writeGlobals {k tok st : Nat} {poison : Bool} {attr fuel va : Nat} {b : List Byte} :
    (writeGlobals k tok st poison attr fuel va b).Keeps := by
  induction fuel generalizing va b with
  | zero => exact .pure
  | succ fuel ih => exact .ite .pure (.bind .writeGlobal fun _ => ih)

theorem A.Keeps.writeEa {k tok : Nat} {ea : DWord} {b : List Byte} {poison eng : Bool} {attr : Nat} :
    (writeEa k tok ea b poison eng attr).Keeps := by
  dsimp only [Machine.writeEa]
  refine .bind .aGet fun _ => ?_
  split
  · exact .writeGlobals
  · exact .writeScratch
  · split
    · exact .aMod fun _ hs2 => .putScratch hs2
    · exact .aMod fun _ hs2 => hs2
  · exact .aMod fun _ hs1 => Mem.wf_store _ _ _ hs1

theorem State.Formed.reportFault {s : State} {asid va kind : Nat} {acc : BitVec 4} (hs : s.Formed) :
    (s.reportFault asid va kind acc).Formed :=
  .ite hs (.ite hs (.ite hs (.ite hs hs)))

/-! ## Accesses to memory -/

theorem W.Keeps.aVal {r : RIdx} : (aVal r).Keeps := .bind .getMe fun _ => .pure

theorem W.Keeps.xRoom {late body : W Unit} (hlate : late.Keeps) (hbody : body.Keeps) : (xRoom late body).Keeps :=
  .bind .getS fun _ => .ite (.ite hlate (.of_error fun _ => ⟨_, rfl⟩)) hbody

theorem W.Keeps.lateA {n : Nat} {d : RIdx} : (lateA n d).Keeps := .land

theorem W.Keeps.lateP {p : PIdx} : (lateP p).Keeps := .land

theorem W.Keeps.lateX {n : Nat} {a : XDst} : (lateX n a).Keeps := by
  dsimp only [Machine.lateX]
  split
  · exact .lateA
  · exact .pure

theorem W.Keeps.lateV {n : Nat} {a : VDst} : (lateV n a).Keeps := by
  dsimp only [Machine.lateV]
  split
  · exact .bind .windowOf fun _ => .land
  · exact .pure

theorem W.Keeps.enqueue {x : XCmd} : (enqueue x).Keeps := .bind .getS fun _ => .bind (.modS (fun _ hs => hs)) fun _ => .pure

theorem W.Keeps.landTok {n tok : Nat} {ws : List RegWrite} : (landTok n tok ws).Keeps := .modS fun _ hs => hs

theorem W.Keeps.xRoomOf {scal : Bool} {c : CIdx} : (xRoomOf scal c).Keeps := by
  dsimp only [Machine.xRoomOf]
  refine .bind .takeRoom fun _ => ?_
  split <;> exact .pure

theorem W.Keeps.enqueueLoad {n : Nat} {d : XDst} {x : XCmd} : (enqueueLoad n d x).Keeps := by
  dsimp only [Machine.enqueueLoad]
  split
  · exact .bind .enqueue fun _ => .landTok
  · exact .bind .xRoomOf fun _ => .bind .enqueue fun _ => .pure

theorem W.Keeps.loadWord {i : Instr} {size : Nat} {d : XDst} {a : RIdx} {c : MemCtl} : (loadWord i size d a c).Keeps :=
  .xRoom .lateX (.bind .aVal fun _ => .bind .lowest fun _ => .enqueueLoad)

theorem W.Keeps.guardRoom {ea : DWord} {n : Nat} : (guardRoom ea n).Keeps :=
  .bind .getMe fun _ => .ite .pure (.ite (.bind .modMe fun _ => .pure) (.bind .modMe fun _ => .pure))

theorem W.Keeps.enqueueStore {n : Nat} {x : XCmd} : (enqueueStore n x).Keeps :=
  .bind .guardRoom fun _ => .ite (.bind .getMe fun _ => .bind .enqueue fun _ => .pure) .pure

theorem W.Keeps.storeWord {i : Instr} {size : Nat} {d : RIdx} {a : XSrc} {c : MemCtl} : (storeWord i size d a c).Keeps :=
  .xRoom .pure (.bind .aVal fun _ => .bind .lowest fun _ => .bind .xDatum fun _ => .enqueueStore)

theorem W.Keeps.ldvWord {i : Instr} {d : VDst} {a : RIdx} {c : VecCtl} : (ldvWord i d a c).Keeps := by
  dsimp only [Machine.ldvWord]
  refine .xRoom .lateV (.bind .aVal fun _ => .bind .lowest fun _ => ?_)
  split
  · exact .bind .windowOf fun _ => .bind .enqueue fun _ => .landTok
  · exact .bind .xRoomOf fun _ => .bind .enqueue fun _ => .pure

theorem W.Keeps.stvWord {i : Instr} {d : RIdx} {a : VSrc} {c : VecCtl} : (stvWord i d a c).Keeps :=
  .xRoom .pure (.bind .aVal fun _ => .bind .lowest fun _ => .bind .vSrc fun _ => .bind .consume fun _ => .enqueueStore)

theorem W.Keeps.ldfeWord {i : Instr} {d : XDst} {a : RIdx} {c : LdfeCtl} : (ldfeWord i d a c).Keeps :=
  .xRoom .lateX (.bind .aVal fun _ => .bind .lowest fun _ => .bind .getS fun _ => .enqueueLoad)

theorem W.Keeps.stfeWord {i : Instr} {d : RIdx} {a : XSrc} {c : StfeCtl} : (stfeWord i d a c).Keeps :=
  .xRoom .pure (.bind .aVal fun _ => .bind .lowest fun _ => .bind .xDatum fun _ => .enqueueStore)

theorem W.Keeps.feclrWord {i : Instr} {d a : RIdx} {off : Option (BitVec 25)} : (feclrWord i d a off).Keeps :=
  .xRoom .pure (.bind .aVal fun _ => .bind .aVal fun _ => .bind .lowest fun _ => .bind .enqueue fun _ => .pure)

theorem W.Keeps.tdescWord {i : Instr} {a : RIdx} : (tdescWord i a).Keeps :=
  .xRoom .pure (.bind .aVal fun _ => .bind .lowest fun _ => .bind .enqueue fun _ => .pure)

theorem W.Keeps.origin {r : RIdx} : (origin r).Keeps := .mapM (fun _ => .aVal) _

theorem W.Keeps.firstRecord {a : CSrc} {x : XCmd} : (firstRecord a x).Keeps := .bind .takeRecord fun _ => .pure

theorem W.Keeps.firstAddends {a : CSrc} {x : XCmd} : (firstAddends a x).Keeps :=
  .bind .getS fun _ => .bind .chanSource fun _ => .bind .firstRecord fun _ => .pure

theorem W.Keeps.treadWord {i : Instr} {d : CIdx} {a : RIdx} : (treadWord i d a).Keeps :=
  .xRoom .pure (.bind .lowest fun _ => .bind .origin fun _ => .bind .xRoomOf fun _ => .bind .enqueue fun _ => .pure)

theorem W.Keeps.twriteWord {i : Instr} {d : RIdx} {a : CSrc} : (twriteWord i d a).Keeps :=
  .xRoom .pure (.bind .lowest fun _ => .bind .origin fun _ => .bind .getMe fun _ => .bind .firstRecord fun _ => .bind .enqueue fun _ =>
    .pure)

theorem W.Keeps.tgatherWord {i : Instr} {d : CIdx} {a b : RIdx} : (tgatherWord i d a b).Keeps :=
  .xRoom .pure (.bind .lowest fun _ => .bind .origin fun _ => .bind .aVal fun _ => .bind .xRoomOf fun _ => .bind .enqueue fun _ => .pure)

theorem W.Keeps.tscatterWord {i : Instr} {add : Bool} {d : RIdx} {a : CSrc} {b : RIdx} : (tscatterWord i add d a b).Keeps := by
  refine .xRoom .pure (.bind .getS fun _ => .bind .lowest fun _ => .bind .origin fun _ => .bind .aVal fun _ => .bind .getMe fun _ =>
    .bind ?_ fun _ => .bind .enqueue fun _ => .pure)
  split
  · exact .firstAddends
  · exact .firstRecord

theorem W.Keeps.chcfgWord {d : CIdx} {a : RIdx} : (chcfgWord d a).Keeps := by
  dsimp only [Machine.chcfgWord]
  refine .xRoom .pure (.bind .aUse fun _ => .bind .getS fun _ => ?_)
  split
  · exact .channelConfig
  · exact .ite .channelConfig (.modS (fun _ hs1 => Mem.wf_foldl (fun _ _ hm2 => Mem.wf_drain _ _ _ hm2) hs1))

theorem W.Keeps.chadvWord {d : CIdx} : (chadvWord d).Keeps :=
  .xRoom .pure (.bind .chanOf fun _ => .ite (.bind .channelConfig fun _ => .ite (.modS (fun _ hs => .settlePage hs)) .pure) (.ite (.modS
    (fun _ hs => .settlePage hs)) .pure))

theorem W.Keeps.chrelWord {a : CSrc} : (chrelWord a).Keeps :=
  .xRoom .pure (.bind .chanOf fun _ => .ite (.bind .channelConfig fun _ => .ite (.modS (fun _ hs => .skipEmpty (.freePage hs))) .pure)
    (.ite (.modS (fun _ hs => .skipEmpty (.freePage hs))) .pure))

theorem W.Keeps.chwaitWord {full : Bool} {p : PIdx} {a : CSrc} {t : Imm 7} : (chwaitWord full p a t).Keeps :=
  .xRoom .lateP (.bind .chanOf fun _ => .modS (fun _ hs => hs))

theorem W.Keeps.chstatWord {d : RIdx} {a : Option CSrc} : (chstatWord d a).Keeps := by
  dsimp only [Machine.chstatWord]
  refine .bind .getS fun _ => ?_
  split
  · exact .land
  · exact .bind .land fun _ => .modMe

theorem W.Keeps.sendSource {c : CIdx} : (sendSource c).Keeps := .bind .chanOf fun _ => .ite .channelConfig .pure

theorem W.Keeps.sendWord {i : Instr} {d : RIdx} {a : CSrc} : (sendWord i d a).Keeps :=
  .xRoom .pure (.bind .getS fun _ => .bind .lowest fun _ => .bind .sendSource fun _ => .bind .aVal fun _ => .ite (.bind .consume fun _ =>
    .bind .enqueue fun _ => .pure) (.ite .pure .hold))

theorem W.Keeps.atomWord {i : Instr} {fadd cas : Bool} {d a : RIdx} : (atomWord i fadd cas d a).Keeps := by
  refine .xRoom (.ite .land .lateA) ?_
  extract_lets rest
  have hrest : ∀ u, (rest u).Keeps := fun _ => .bind .aVal fun _ => .bind .lowest fun _ => .bind .aVal fun _ => .bind .aVal fun _ =>
    .bind .enqueue fun _ => .landTok
  exact .ite (.bind .needFeature hrest) (hrest ())

theorem W.Keeps.rangeWord {i : Instr} {d a : RIdx} : (rangeWord i d a).Keeps :=
  .xRoom .pure (.bind .aVal fun _ => .bind .aVal fun _ => .bind .lowest fun _ => .bind .enqueue fun _ => .pure)

theorem W.Keeps.prefWord {i : Instr} {a : RIdx} : (prefWord i a).Keeps :=
  .xRoom .pure (.bind .aVal fun _ => .bind .lowest fun _ => .ite (.bind .enqueue fun _ => .pure) .pure)

theorem W.Keeps.flgsetWord {i : Instr} {d a : RIdx} : (flgsetWord i d a).Keeps :=
  .xRoom .pure (.bind .aVal fun _ => .bind .lowest fun _ => .bind .aVal fun _ => .bind .enqueue fun _ => .pure)

theorem W.Keeps.flgwaitWord {p : PIdx} {a b : RIdx} {l : FlgLit} : (flgwaitWord p a b l).Keeps :=
  .xRoom .lateP (.bind .aVal fun _ => .bind .lowest fun _ => .bind .aVal fun _ => .modS (fun _ hs => hs))

theorem W.Keeps.smapWord {d a b : RIdx} : (smapWord d a b).Keeps :=
  .xRoom .pure (.bind .aVal fun _ => .bind .aVal fun _ => .bind .aVal fun _ => .bind .getMe fun _ => .bind .lowest fun _ => .modMe)

theorem W.Keeps.sunmapWord {i : Instr} {a : RIdx} : (sunmapWord i a).Keeps :=
  .xRoom .pure (.bind .aUse fun _ => .bind .enqueue fun _ => .pure)

theorem W.Keeps.baysplitWord {p : PIdx} {a : RIdx} {t : Imm 7} : (baysplitWord p a t).Keeps :=
  .xRoom .lateP (.bind .aVal fun _ => .bind .getMe fun _ => .bind .lowest fun _ => .modS (fun _ hs => hs))

theorem W.Keeps.gcheckWord {i : Instr} {p : PIdx} {a : RIdx} {force : Bool} : (gcheckWord i p a force).Keeps :=
  .xRoom .lateP (.bind .needFeature fun _ => .bind .getMe fun _ => .bind .aUse fun _ => .ite .land (.bind .land fun _ => .bind .modMe
    fun _ => .bind .enqueue fun _ => .pure))

theorem W.Keeps.afromsWord {d a : RIdx} : (afromsWord d a).Keeps := .xRoom .lateA (.bind .sSrc fun _ => .land)

theorem W.Keeps.aaddiWord {d a : RIdx} {i : Imm 7} : (aaddiWord d a i).Keeps := .xRoom .lateA (.bind .getMe fun _ => .land)

/-! ## Reins -/

theorem FormedIf.reinWrite {s : State} {st : Nat} {f : BitVec 512} (hs : s.Formed) : FormedIf (s.reinWrite st f) := by
  dsimp only [State.reinWrite]
  split
  · exact .some hs
  · exact .ite .none (.some (.skipEmpty (.ite (Mem.wf_ite (Mem.wf_taint _ _ _ (Mem.wf_fill _ _ _ (Mem.wf_write _ _ _ hs))) (Mem.wf_fill _ _
      _ (Mem.wf_write _ _ _ hs))) hs)))

theorem State.Formed.later {s : State} {n : Nat} {d : Due} (hs : s.Formed) : (s.later n d).Formed := hs

theorem State.Formed.sendOver {s : State} {l : Nat} {dsts : List Nat} {body : Nat} {sender : Option Nat} (hs : s.Formed) :
    (s.sendOver l dsts body sender).Formed :=
  .ite hs hs

theorem State.Formed.giveCredit {s : State} {link : Option Nat} (hs : s.Formed) : (s.giveCredit link).Formed := by
  dsimp only [State.giveCredit]
  split <;> exact hs

theorem State.Formed.reinOrWait {s : State} {u : ReinUnit} (hs : s.Formed) : (s.reinOrWait u).Formed := by
  unfold State.reinOrWait
  extract_lets held done
  have hdone : FormedIf done := by
    dsimp only [done]
    split
    · exact .ite (.some (.sendOver hs)) .none
    · exact .ite .none (.reinWrite hs)
  rcases done with _ | t
  · exact hs
  · exact .giveCredit hdone

theorem State.Formed.reinReceive {s : State} {dsts : List Nat} {link : Option Nat} {f : BitVec 512} {sender : Option Nat} (hs : s.Formed) :
    (s.reinReceive dsts link f sender).Formed := by
  dsimp only [State.reinReceive]
  split
  · exact .foldl (fun _ _ hs2 => .reinOrWait hs2) hs
  · exact .ite hs (.ite hs (.foldl (fun _ _ hs2 => .reinOrWait hs2) hs))

theorem State.Formed.reinRetry {s : State} (hs : s.Formed) : s.reinRetry.Formed := .foldl (fun _ _ hs1 => .reinOrWait hs1) hs

theorem State.Formed.sendFlit {s : State} {key src : Nat} {dsts : List Nat} {body : Nat} (hs : s.Formed) :
    (s.sendFlit key src dsts body).Formed :=
  .foldl (fun _ _ hs1 => .sendOver hs1) (.ite hs hs)

theorem State.Formed.sendPart {s : State} {k : Nat} {ch : Chan} {page i : Nat} {w : DWord} {mode : Nat} {dsts : List Nat} (hs : s.Formed) :
    (s.sendPart k ch page i w mode dsts).Formed :=
  .sendFlit hs

/-! ## Tensors -/

theorem A.Keeps.tRead {k va n : Nat} : (tRead k va n).Keeps := .orRefused .readEa

theorem A.Keeps.tileEntry {k : Nat} {t : TSlot} {tile : Nat} {pin : Option Nat} {acc : BitVec 4} : (tileEntry k t tile pin acc).Keeps := by
  unfold Machine.tileEntry
  extract_lets eva fail
  refine .bind .tRead fun x => ?_
  extract_lets e sva
  have hfail : ∀ va kind acc, (fail va kind acc).Keeps := fun _ _ _ => .bind .aGet fun _ => .ite .pure .aFault
  refine .ite .pure (.ite (hfail _ _ _) (.ite (.ite (hfail _ _ _) .pure) (.ite (hfail _ _ _) (.aGet_bind fun s hs => ?_))))
  split
  · exact .pure
  next u _ e =>
    have hu : u.Formed := A.Keeps.translate.next hs e
    exact fun _ _ => hu
  next u e =>
    have hu : u.Formed := A.Keeps.translate.next hs e
    exact .bind (.aMod fun _ _ => hu) fun _ => .ite .pure (hfail _ _ _)

theorem A.Keeps.tileEntries {k : Nat} {t : TSlot} {acc : BitVec 4} {l : List Nat} : (tileEntries k t acc l).Keeps :=
  .mapM (fun _ => .bind .tileEntry fun _ => .pure) _

theorem A.Keeps.elemRead {k : Nat} {t : TSlot} {sva el : Nat} : (elemRead k t sva el).Keeps := .bind .tRead fun _ => .pure

theorem A.Keeps.readBoxRecord {k : Nat} {t : TSlot} {full : Bool} {org : List Nat} {r : Nat} : (readBoxRecord k t full org r).Keeps := by
  dsimp only [Machine.readBoxRecord]
  refine .bind .tileEntries fun _ => .bind (.mapM (fun _ => ?_) _) fun _ => .bind (.mapM (fun _ => ?_) _) fun _ => .pure
  · split
    · exact .pure
    · exact .ite .pure .elemRead
  · split
    · exact .pure
    · exact .ite .pure (.bind .tRead fun _ => .pure)

theorem A.Keeps.rowIndex {k lst i : Nat} : (rowIndex k lst i).Keeps := .bind .readEa fun _ => .pure

theorem A.Keeps.readRow {k : Nat} {t : TSlot} {org : List Nat} {gdim lst i : Nat} : (readRow k t org gdim lst i).Keeps :=
  .bind .rowIndex fun _ => .mapM (fun _ => .ite .pure .readBoxRecord) _

theorem A.Keeps.readyWrite {k st va n : Nat} {acc : BitVec 4} : (readyWrite k st va n acc).Keeps :=
  .bind (.forIn (fun _ _ => .bind .translate fun _ => .bind .aGet fun _ => .ite (.bind .aWait fun _ => .pure) .pure) _ _) fun _ => .pure

theorem A.Keeps.tWrite {k tok va : Nat} {b : List Byte} {poison guarded : Bool} : (tWrite k tok va b poison guarded).Keeps :=
  .bind .aGet fun _ => .ite (.ite (.aMod (fun _ hs => hs)) (.aMod (fun _ hs => hs))) (.bind .readyWrite fun _ => .writeEa)

theorem A.Keeps.writeMap {k tok : Nat} {m : BitMap} {poison guarded : Bool} : (writeMap k tok m poison guarded).Keeps :=
  .bind (.mapM (fun _ => .ite .pure (.bind .tRead fun _ => .pure)) _) fun _ => .bind (.forIn (fun _ _ => .bind (.orNothing .tWrite)
    fun _ => .pure) _ _) fun _ => .pure

theorem A.Keeps.writePlaced {k tok : Nat} {t : TSlot} {places : List (Nat × Nat × Nat)} {tiles : List Nat} {whole note : Bool}
    {b : List Byte} {lame : Lame} {guarded : Bool} : (writePlaced k tok t places tiles whole note b lame guarded).Keeps := by
  refine .bind .tileEntries fun entries => ?_
  extract_lets ue live m ms write rest
  have hwrite : ∀ u, (write u).Keeps := fun _ => .bind .writeMap fun _ => .bind .writeMap fun _ => .ite (.aMod fun _ h => h) .pure
  have hrest : ∀ u, (rest u).Keeps := fun _ => .ite .pure (.bind .aGet fun s => .ite
    (.bind (.forIn (fun _ _ => .ite (.bind (.orNothing .readyWrite) fun _ => .pure) .pure) _ _) fun _ => hwrite ()) (hwrite ()))
  exact .ite (.bind (.aMod fun _ h => h) hrest) (hrest ())

theorem A.Keeps.writeBoxRecord {k tok : Nat} {t : TSlot} {full : Bool} {org : List Nat} {r : Nat} {b : List Byte} {lame : Lame}
    {guarded : Bool} : (writeBoxRecord k tok t full org r b lame guarded).Keeps :=
  .writePlaced

/-! ## Performed X commands -/

theorem A.Keeps.releaseFor {k : Nat} {x : XCmd} : (releaseFor k x).Keeps :=
  .ite (.bind (.aMod (fun _ hs => .writeBackPaddock hs)) fun _ => .bind .aGet fun _ => .ite .aWait .pure) .pure

theorem A.Keeps.acquireFor {k : Nat} {x : XCmd} : (acquireFor k x).Keeps := .ite (.aMod (fun _ hs => .acquireAt hs)) .pure

theorem A.Keeps.noteLame {k : Nat} {l : Lame} : (noteLame k l).Keeps := .ite (.aMod (fun _ hs => hs)) (.ite (.aMod (fun _ hs => hs)) .pure)

theorem A.Keeps.loadScalar {k : Nat} {x : XCmd} : (loadScalar k x).Keeps :=
  .bind .releaseFor fun _ => .bind .acquireFor fun _ => .bind .readEa fun _ => .bind .acquireFor fun _ => .bind .noteLame fun _ => .pure

theorem A.Keeps.loadVector {k : Nat} {x : XCmd} {c : VecCtl} : (loadVector k x c).Keeps :=
  .bind .releaseFor fun _ => .bind .acquireFor fun _ => .bind .readEa fun _ => .bind .acquireFor fun _ => .bind .noteLame fun _ => .pure

theorem A.Keeps.loadFull {k : Nat} {x : XCmd} {keep : Bool} : (loadFull k x keep).Keeps := by
  dsimp only [Machine.loadFull]
  refine .bind .releaseFor fun _ => .bind .readEa fun _ => .bind .acquireFor fun _ => ?_
  split
  · exact .bind .noteLame fun _ => .pure
  · refine .bind .aGet fun _ => ?_
    split
    · exact .pure
    · exact .ite .pure (.bind .noteLame fun _ => .ite (.bind (.aMod (fun _ hs1 => Mem.wf_drain _ _ _ hs1)) fun _ => .pure) .pure)

theorem A.Keeps.store {k : Nat} {x : XCmd} {b : List Byte} {fe : Bool} : (store k x b fe).Keeps :=
  .bind .releaseFor fun _ => .bind .aGet fun _ => .ite (.bind (.aMod (fun _ hs => hs)) fun _ => .pure) (.ite (.bind .readyWrite fun _ =>
    .bind .writeEa fun _ => .pure) (.bind .writeEa fun _ => .pure))

theorem A.Keeps.clearFull {k : Nat} {x : XCmd} : (clearFull k x).Keeps := by
  dsimp only [Machine.clearFull]
  split
  · exact .pure
  · split
    · exact .bind .readScratch fun _ => .bind (.aMod (fun _ hs => Mem.wf_drain _ _ _ hs)) fun _ => .pure
    · refine .bind .aGet fun _ => ?_
      split
      · exact .bind (.aMod (fun _ hs1 => Mem.wf_drain _ _ _ hs1)) fun _ => .pure
      · exact .bind .noteLame fun _ => .pure

theorem State.Formed.atomicAt {s : State} {a n code v v2 : Nat} (hs : s.Formed) : (s.atomicAt a n code v v2).1.Formed := by
  dsimp only [State.atomicAt]
  split
  · exact hs
  · exact Mem.wf_store _ _ _ hs

theorem A.Keeps.atomicGlobal {k tok va n code v v2 attr : Nat} {acc : BitVec 4} {kind : ReqKind} :
    (atomicGlobal k tok va n code v v2 attr acc kind).Keeps := by
  refine .bind .aGet fun s => ?_
  extract_lets st p
  refine .bind .translate fun e => .bind .aGet fun s1 => ?_
  extract_lets pk line rest
  have hrest : ∀ u, (rest u).Keeps := by
    refine fun _ => .bind (.aMod fun s hs => .flushLine ?_) fun _ => .aGet_bind fun s2 h2 =>
      .ite (.bind (.aMod fun _ _ => .atomicAt h2) fun _ => .pure) (.ite (.bind (.aMod fun _ h => .request h) fun _ => .pure)
        (.ite .pure (.bind (.aMod fun _ h => Mem.wf_hostWrite _ _ _ h) fun _ => .pure)))
    split
    · exact .dropStash hs
    · exact hs
  exact .ite (.bind .aWait hrest) (hrest ())

theorem A.Keeps.atomic {k : Nat} {x : XCmd} {code : Nat} : (atomic k x code).Keeps := by
  refine .bind .releaseFor fun _ => ?_
  extract_lets n v v2 here
  refine .bind .aGet fun s => ?_
  extract_lets bad
  have hhere : ∀ a, (here a).Keeps := fun a => .aGet_bind fun s hs => .bind (.aMod fun _ _ => .atomicAt hs) fun _ => .bind .acquireFor
    fun _ => .bind .noteLame fun _ => .pure
  split
  · refine .bind .atomicGlobal fun _ => ?_
    split
    · exact .pure
    · exact .bind .acquireFor fun _ => .bind .noteLame fun _ => .pure
  · exact .bind .readScratch fun _ => .bind (hhere _) fun _ => .ite (.bind (.aMod fun _ h => .markStash h) fun _ => .pure) .pure
  · split
    · exact .bind (hhere _) fun _ => .ite (.bind (.aMod fun _ h => .markStash h) fun _ => .pure) .pure
    · exact .bind .noteLame fun _ => .pure
  · exact hhere _

theorem A.Keeps.tdesc {k : Nat} {x : XCmd} {slot : Nat} {zue : Bool} : (tdesc k x slot zue).Keeps :=
  .bind (.orRefused .readEa) fun _ => .ite (.bind .noteLame fun _ => .bind (.aMod (fun _ hs => hs)) fun _ => .pure) (.bind (.aMod
    (fun _ hs => hs)) fun _ => .pure)

theorem FormedIf.fillRecord {s : State} {k : Nat} {x : XCmd} {d : CIdx} {r : TRecord} (hs : s.Formed) :
    FormedIf (s.fillRecord k x d r) := by
  unfold State.fillRecord
  extract_lets put
  have hput : ∀ s page rec, s.Formed → (put s page rec).Formed := by
    intro s page rec hs
    dsimp only [put]
    split
    · exact hs
    · exact Mem.wf_poison _ _ _ (State.Formed.writeRecord hs)
  split
  · exact .some hs
  · split
    · split
      · exact .some (hput _ _ _ hs)
      · exact .some hs
    · split
      · exact .none
      · exact .some (hput _ _ _ hs)

theorem A.Keeps.produce {k : Nat} {x : XCmd} {d : CIdx} {full : Bool} : (produce k x d full).Keeps := by
  have hfill : ∀ r, (Machine.aMod fun s => (s.fillRecord k x d r).getD s).Keeps := fun r => .aMod fun _ h => .getD (.fillRecord h) h
  refine .bind .aGet fun s => .ite .pure ?_
  split
  · exact .bind .noteLame fun _ => .bind (hfill _) fun _ => .pure
  next t _ =>
    refine .ite .pure (.bind (.ite (.bind .readBoxRecord fun _ => .pure) (.bind .readRow fun _ => .pure)) fun rz => ?_)
    split
    next r zeros =>
      extract_lets r' fill rest
      have hlast : ∀ u, (fill u).Keeps := fun _ => .bind (hfill r') fun _ => .pure
      have hrest : ∀ u, (rest u).Keeps := fun _ => .ite (.bind .noteLame hlast) (hlast ())
      exact .ite (.bind (.aMod fun _ h => h) hrest) (hrest ())

theorem State.Formed.takeNext {s : State} {k : Nat} {x : XCmd} {c : CIdx} (hs : s.Formed) : (s.takeNext k x c).Formed := by
  dsimp only [State.takeNext]
  split
  · exact hs
  · split
    · exact hs
    · split
      · exact .readRecord hs
      · exact hs

theorem A.Keeps.addElem {k tok : Nat} {t : TSlot} {va code : Nat} {bad : Bool} : (addElem k tok t va code bad).Keeps := by
  dsimp only [Machine.addElem]
  split
  · exact .bind .aGet fun _ => .bind .tRead fun _ => .bind .readyWrite fun _ => .bind .writeEa fun _ => .noteLame
  · refine .bind .atomicGlobal fun _ => ?_
    split
    · exact .pure
    · exact .noteLame

theorem A.Keeps.addRecord {k tok : Nat} {t : TSlot} {org : List Nat} {r : Nat} {b : List Byte} {bad : Nat} :
    (addRecord k tok t org r b bad).Keeps :=
  .bind .tileEntries fun _ => .bind .aGet fun _ =>
    .bind (.forIn (fun _ _ => .ite (.bind (.orNothing .readyWrite) fun _ => .pure) .pure) _ _) fun _ =>
    .ite (.ite .noteLame .pure) (.bind (.forIn (fun _ _ => .ite (.bind (.orNothing .addElem) fun _ => .pure) .pure) _ _) fun _ => .pure)

theorem A.Keeps.consumeRecord {k : Nat} {x : XCmd} {c : CIdx} {full add : Bool} : (consumeRecord k x c full add).Keeps := by
  refine .bind .aGet fun s => .ite .pure ?_
  split
  · exact .pure
  next r _ =>
    extract_lets last rest
    have hrest : ∀ u, (rest u).Keeps := fun _ => .bind (.aMod fun _ h => .takeNext h) fun _ => .pure
    split
    · exact .ite (.bind .noteLame hrest) (hrest ())
    · exact .ite (.bind .writeBoxRecord hrest) (.bind .rowIndex fun _ => .ite (.bind (.ite .noteLame .pure) hrest)
        (.ite (.bind .addRecord hrest) (.bind .writeBoxRecord hrest)))

theorem A.Keeps.sendPage {k : Nat} {x : XCmd} {c : CIdx} {cast : Option Bool} : (sendPage k x c cast).Keeps := by
  dsimp only [Machine.sendPage]
  refine .bind .releaseFor fun _ => .bind .aGet fun _ => ?_
  split
  · exact .pure
  · split
    · exact .bind .noteLame fun _ => .bind (.aMod (fun _ hs2 => .skipEmpty (.freePage hs2))) fun _ => .pure
    · exact .ite .pure (.bind (.aMod (fun _ hs2 => .sendPart hs2)) fun _ => .ite .pure (.bind (.aMod (fun _ hs2 => .skipEmpty (.freePage
        hs2))) fun _ => .pure))

theorem A.Keeps.fenceEffect {k : Nat} {x : XCmd} : (fenceEffect k x).Keeps := .bind .releaseFor fun _ => .bind .acquireFor fun _ => .pure

theorem A.Keeps.flushRange {k : Nat} {x : XCmd} {inval : Bool} : (flushRange k x inval).Keeps := by
  unfold Machine.flushRange
  extract_lets n va len
  refine .bind .aGet fun s => ?_
  extract_lets st p
  refine .bind (.forIn (fun i _ => .bind .translate fun e => .bind (.aMod fun s hs => ?_) fun _ => .pure) _ _) fun _ =>
    .bind .aGet fun _ => .ite (.bind .aWait fun _ => .pure) .pure
  extract_lets lo top inR s1 s2
  have h1 : s1.Formed := .foldl (fun _ _ h => .ite (.flushLine h) (.cleanLine h)) hs
  have h2 : s2.Formed := .foldl (fun _ _ h => .foldl (fun _ _ h => .foldl (fun _ _ h => .ite (.cleanStash h) h) h) h) h1
  exact .ite (.modL0 h2) h2

theorem A.Keeps.prefetch {k : Nat} {x : XCmd} {l0 : Bool} {lines : Nat} : (prefetch k x l0 lines).Keeps := by
  refine .bind .aGet fun s => .bind (.forIn (fun i _ => .bind (fun s hs => ?_) fun _ => .pure) _ _) fun _ => .pure
  dsimp only
  split
  next t e =>
    exact A.Keeps.next (.bind .translate fun _ => .bind .aGet fun _ => .bind .readLine fun _ => .pure) hs e
  next t e =>
    exact A.Keeps.next (.bind .translate fun _ => .bind .aGet fun _ => .bind .readLine fun _ => .pure) hs e
  · exact hs

theorem A.Keeps.unmap {k : Nat} {x : XCmd} : (unmap k x).Keeps := by
  refine .bind .aGet fun s => ?_
  extract_lets c
  refine .ite .pure ?_
  split
  · exact .pure
  next i _ =>
    refine .bind (.aMod fun _ h => .foldl (fun _ _ h => .cleanStash h) h) fun _ => .bind .aGet fun s1 => ?_
    extract_lets rest
    have hrest : ∀ u, (rest u).Keeps := fun _ => .bind (.aMod fun _ h => h) fun _ => .pure
    exact .ite (.bind .aWait hrest) (hrest ())

theorem A.Keeps.readyHeld {k : Nat} {h : Held} : (readyHeld k h).Keeps := by
  dsimp only [Machine.readyHeld]
  split
  · refine .bind .aGet fun _ => .bind .readyWrite fun _ => ?_
    split
    · exact .touchStash
    · exact .pure
  · exact .pure

theorem A.Keeps.commitHeld {k tok : Nat} {h : Held} : (commitHeld k tok h).Keeps :=
  .bind (.forIn (fun _ _ => .bind .writeEa fun _ => .pure) _ _) fun _ => .pure

theorem A.Keeps.guardEnd {k : Nat} {x : XCmd} : (guardEnd k x).Keeps := by
  refine .bind .aGet fun s => ?_
  extract_lets c finish rest
  have hrest : ∀ u, (rest u).Keeps := fun _ => .bind (.aMod fun _ h => h) fun _ => .pure
  refine .ite (.bind (.forIn (fun _ _ => .bind (.orNothing .readyHeld) fun _ => .pure) _ _) fun _ =>
    .bind (.forIn (fun _ _ => .bind (.orNothing .commitHeld) fun _ => .pure) _ _) fun _ => .bind (.aMod fun _ h => h) fun _ => ?_)
    (.bind (.aMod fun _ h => h) fun _ => .pure)
  exact .ite (.bind (.aMod fun _ h => .writeBackPaddock h) fun _ => .bind .aGet fun _ => .ite (.bind .aWait hrest) (hrest ())) (hrest ())

theorem A.Keeps.performOne {k : Nat} {x : XCmd} : (performOne k x).Keeps := by
  dsimp only [Machine.performOne]
  split
  · exact .loadScalar
  · exact .loadScalar
  · exact .loadScalar
  · exact .loadScalar
  · exact .store
  · exact .store
  · exact .store
  · exact .store
  · exact .store
  · exact .loadVector
  · exact .store
  · exact .loadFull
  · exact .store
  · exact .clearFull
  · exact .tdesc
  · exact .produce
  · exact .produce
  · exact .consumeRecord
  · exact .consumeRecord
  · exact .consumeRecord
  · exact .sendPage
  · exact .sendPage
  · exact .fenceEffect
  · exact .flushRange
  · exact .flushRange
  · exact .prefetch
  · exact .unmap
  · exact .guardEnd
  · split
    · exact .atomic
    · exact .pure

theorem State.Formed.retryCmds {s : State} {k : Nat} (hs : s.Formed) : (s.retryCmds k).Formed := hs

theorem State.Formed.endCmd {s : State} {k tok : Nat} (hs : s.Formed) : (s.endCmd k tok).Formed := hs

theorem State.Formed.afterPerform {s : State} {k : Nat} {x : XCmd} {d : Done} (hs : s.Formed) : (s.afterPerform k x d).Formed := by
  dsimp only [State.afterPerform]
  split
  · exact hs
  · exact hs
  · exact hs
  · exact hs
  · exact hs
  · exact .ite hs hs

theorem State.Formed.noteHeld {s : State} {k tok : Nat} (hs : s.Formed) : (s.noteHeld k tok).Formed := .ite hs hs

theorem State.Formed.performCmd {s : State} {k tok : Nat} (hs : s.Formed) : (s.performCmd k tok).Formed := by
  dsimp only [State.performCmd]
  split
  · exact hs
  · split
    · exact hs
    · split
      next _ t2 e2 =>
        have ht2 : t2.Formed := A.Keeps.next (.withDead .performOne) hs e2
        exact .afterPerform ht2
      next t2 e2 =>
        have ht2 : t2.Formed := A.Keeps.next (.withDead .performOne) hs e2
        exact .noteHeld ht2
      next t2 e2 =>
        have ht2 : t2.Formed := A.Keeps.next (.withDead .performOne) hs e2
        exact .afterPerform ht2
      next _ _ _ t2 e2 =>
        have ht2 : t2.Formed := A.Keeps.next (.withDead .performOne) hs e2
        exact .reportFault ht2

theorem State.Formed.loadArrive {s : State} {k tok : Nat} (hs : s.Formed) : (s.loadArrive k tok).Formed := by
  dsimp only [State.loadArrive]
  split
  · exact hs
  · split
    · exact hs
    · refine .endCmd ?_
      split
      · split
        · exact .dropRecord (.modCtx (.ite (.acquireAt hs) hs))
        · split <;> exact .writeRecord (.modCtx (.ite (.acquireAt hs) hs))
      · exact .modCtx (.ite (.acquireAt hs) hs)

theorem State.Formed.waitOver {s : State} {k : Nat} {kind : WaitKind} {v : Bool} (hs : s.Formed) : (s.waitOver k kind v).Formed :=
  .afterWait hs

theorem State.Formed.chanWaits {s : State} {k : Nat} (hs : s.Formed) : (s.chanWaits k).Formed := by
  dsimp only [State.chanWaits]
  refine .foldl (fun _ _ hs1 => ?_) hs
  split
  · exact .ite (.waitOver hs1) hs1
  · exact .ite (.waitOver hs1) hs1
  · exact hs1

theorem State.Formed.flgPolls {s : State} {k : Nat} (hs : s.Formed) : (s.flgPolls k).Formed := by
  dsimp only [State.flgPolls]
  refine .foldl (fun _ _ hs1 => ?_) hs
  split
  · split
    · exact hs1
    · split
      next _ t3 e3 =>
        have ht3 : t3.Formed := A.Keeps.next .readEa hs1 e3
        exact .ite (.waitOver (.acquireAt (.ite ht3 ht3))) (.ite ht3 ht3)
      next _ _ _ t3 e3 =>
        have ht3 : t3.Formed := A.Keeps.next .readEa hs1 e3
        exact .reportFault ht3
      next _ t3 _ e3 =>
        have ht3 : t3.Formed := A.Keeps.next .readEa hs1 e3
        exact ht3
  · exact hs1

theorem State.Formed.baysplits {s : State} {k : Nat} (hs : s.Formed) : (s.baysplits k).Formed := by
  refine .foldl (fun s w hs => ?_) hs
  split
  next cache _ =>
    extract_lets c old changed back s1 s2 m
    have h1 : s1.Formed := .ite (.cleanSlice hs) hs
    have h2 : s2.Formed := .ite (.flushSlice h1) h1
    have hm : m.wf = true := Mem.wf_foldl (fun _ _ hm => Mem.wf_wipe _ _ _ hm) h2
    clear_value s1 s2 m
    exact .ite hs (.ite h1 (.waitOver (State.Formed.of_mem hm)))
  · exact hs

theorem State.Formed.ldfeRetry {s : State} {k : Nat} (hs : s.Formed) : (s.ldfeRetry k).Formed := by
  dsimp only [State.ldfeRetry]
  refine .foldl (fun _ _ hs1 => ?_) hs
  split
  · split
    · exact .ite (.performCmd hs1) (.waitOver (.performCmd hs1))
    · exact .waitOver (.performCmd hs1)
  · exact hs1

theorem State.Formed.waitTimeouts {s : State} {k : Nat} (hs : s.Formed) : (s.waitTimeouts k).Formed := by
  dsimp only [State.waitTimeouts]
  refine .foldl (fun _ _ hs1 => ?_) hs
  split
  · exact hs1
  · refine .waitOver ?_
    split <;> exact hs1

theorem State.Formed.implicitExpiries {s : State} {k : Nat} (hs : s.Formed) : (s.implicitExpiries k).Formed := by
  dsimp only [State.implicitExpiries]
  refine .foldl (fun _ _ hs1 => ?_) hs
  split
  · exact hs1
  · split
    · refine .afterWait ?_
      split
      · exact .writeRecord hs1
      · exact hs1
    · exact hs1
    · exact hs1
    · exact .ite (.unwind (.tick hs1)) (.takeCause (.tick hs1))
    · exact .afterWait hs1
    · exact hs1

theorem State.Formed.phaseComplete {s : State} {h : Nat} (hs : s.Formed) : (s.phaseComplete h).Formed := by
  dsimp only [State.phaseComplete]
  split
  · exact hs
  · exact .ite hs (.foldl (fun _ _ hs2 => .waitOver hs2) hs)

theorem State.Formed.lineDrop {s : State} {st line : Nat} {l0 : Bool} (hs : s.Formed) : (s.lineDrop st line l0).Formed := by
  dsimp only [State.lineDrop]
  split
  · exact hs
  · split
    · split
      · exact .ite hs hs
      · exact hs
    · exact hs

theorem State.Formed.lineWriteback {s : State} {p line : Nat} (hs : s.Formed) : (s.lineWriteback p line).Formed := by
  unfold State.lineWriteback
  extract_lets s1 s2
  have h1 : s1.Formed := .cleanLine hs
  have h2 : s2.Formed := by
    dsimp only [s2]
    split
    · exact .cleanStash h1
    · exact h1
  exact .ite (.lineDrop h2) h2

theorem FormedAfter.execGuardCommit {key : Nat} {s : State} (hs : s.Formed) : FormedAfter (execGuardCommit key s) := by
  dsimp only [Machine.execGuardCommit]
  refine .next ?_
  split
  · exact .performCmd hs
  · exact hs

theorem FormedAfter.execTranslationWalk {key va : Nat} {access : BitVec 4} {s : State} (hs : s.Formed) :
    FormedAfter (execTranslationWalk key va access s) := by
  dsimp only [Machine.execTranslationWalk]
  refine .next ?_
  split
  next _ _ _ t e =>
    have ht : t.Formed := A.Keeps.next .translate hs e
    exact .reportFault ht
  next _ t _ e =>
    have ht : t.Formed := A.Keeps.next .translate hs e
    exact ht

/-! ## Gangs -/

theorem State.Formed.modNest {s : State} {k : Nat} {f : Nest → Nest} (hs : s.Formed) : (s.modNest k f).Formed := hs

theorem State.Formed.rejectArms {s : State} {keys : List Nat} {code : Nat} (hs : s.Formed) : (s.rejectArms keys code).Formed :=
  .foldl (fun _ _ hs1 => .modNest hs1) hs

theorem State.Formed.gatherOne {s : State} {k : Nat} (hs : s.Formed) : (s.gatherOne k).Formed :=
  .ite hs (.ite hs (.ite hs (.rejectArms hs)))

theorem State.Formed.gather {s : State} (hs : s.Formed) : s.gather.Formed :=
  .foldl (fun _ _ hs1 => .gatherOne hs1) (.foldl (fun _ _ hs1 => .gatherOne hs1) hs)

theorem State.Formed.modGang {s : State} {g : Nat} {f : Gang → Gang} (hs : s.Formed) : (s.modGang g f).Formed := hs

theorem State.Formed.modNests {s : State} {g : Nat} {f : Nest → Nest} (hs : s.Formed) : (s.modNests g f).Formed := hs

theorem State.Formed.accClear {s : State} {whiff e : Nat} (hs : s.Formed) : (s.accClear whiff e).Formed := hs

theorem State.Formed.accPut {s : State} {whiff e : Nat} {v : AccEntry} (hs : s.Formed) : (s.accPut whiff e v).Formed := hs

theorem State.Formed.nwaitTest {s : State} {k : Nat} (hs : s.Formed) : (s.nwaitTest k).Formed := by
  dsimp only [State.nwaitTest]
  split
  · exact hs
  · split
    · exact .ite (.waitOver (.acquireAt hs)) hs
    · exact .ite (.waitOver (.acquireAt hs)) hs
    · exact .waitOver hs
    · exact .waitOver hs
    · exact .waitOver hs
    all_goals exact hs

theorem State.Formed.nwaits {s : State} {g : Nat} (hs : s.Formed) : (s.nwaits g).Formed := .foldl (fun _ _ hs1 => .nwaitTest hs1) hs

theorem State.Formed.forgetGang {s : State} {g : Nat} (hs : s.Formed) : (s.forgetGang g).Formed := by
  dsimp only [State.forgetGang]
  split
  · exact .ite hs hs
  · exact hs

theorem State.Formed.endGang {s : State} {g : Nat} {st : NestSt} (hs : s.Formed) : (s.endGang g st).Formed :=
  .gather (.forgetGang (.nwaits hs))

theorem State.Formed.nestCheck {s : State} {g step : Nat} (hs : s.Formed) : (s.nestCheck g step).Formed := by
  dsimp only [State.nestCheck]
  split
  · exact hs
  · exact .endGang hs

theorem State.Formed.cutGang {s : State} {g : Nat} {abandon : Bool} (hs : s.Formed) : (s.cutGang g abandon).Formed := by
  dsimp only [State.cutGang]
  split
  · exact hs
  · exact .ite (.endGang hs) hs

theorem State.Formed.nestRetire {s : State} (hs : s.Formed) : s.nestRetire.Formed := by
  dsimp only [State.nestRetire]
  refine .foldl (fun _ _ hs1 => ?_) (.ite (.foldl (fun _ _ hs1 => .ite (.rejectArms hs1) hs1) hs) (.gather (.foldl (fun _ _ hs1 => .ite
      (.rejectArms hs1) hs1) hs)))
  split
  · exact hs1
  · split
    · exact .ite (.endGang (.ite (.ite (.endGang hs1) hs1) hs1)) (.ite (.ite (.endGang hs1) hs1) hs1)
    · exact .ite (.ite (.endGang hs1) hs1) hs1

/-! ## The array -/

theorem State.Formed.setLatch {s : State} {st : Nat} {b : Bool} {l : Latch} (hs : s.Formed) : (s.setLatch st b l).Formed := hs

theorem A.Keeps.readWindow {k : Nat} {t : TSlot} {tile st win0 win1 depth : Nat} {xpose : Bool} :
    (readWindow k t tile st win0 win1 depth xpose).Keeps :=
  .ite .pure (.bind .tileEntry fun _ => .ite .pure (.bind (.mapM (fun _ => .ite .pure (.bind .elemRead fun _ => .ite (.bind .tRead fun _ =>
    .pure) .pure)) _) fun _ => .pure))

theorem State.Formed.fillBegin {s : State} {gi mi : Nat} (hs : s.Formed) : (s.fillBegin gi mi).Formed := by
  dsimp only [State.fillBegin]
  split
  · exact hs
  · split
    · exact hs
    · split
      · exact hs
      · split
        · exact hs
        · split
          · exact hs
          · split
            · exact hs
            · split
              · exact hs
              · split
                next _ _ _ t5 e5 =>
                  have ht5 : t5.Formed := A.Keeps.next (.withDead .readWindow) hs e5
                  exact ht5
                next t5 e5 =>
                  have ht5 : t5.Formed := A.Keeps.next (.withDead .readWindow) hs e5
                  exact ht5
                next t5 e5 =>
                  have ht5 : t5.Formed := A.Keeps.next (.withDead .readWindow) hs e5
                  exact ht5
                next _ _ _ t5 e5 =>
                  have ht5 : t5.Formed := A.Keeps.next (.withDead .readWindow) hs e5
                  exact .reportFault ht5

theorem State.Formed.fillDone {s : State} {gi mi : Nat} (hs : s.Formed) : (s.fillDone gi mi).Formed := by
  dsimp only [State.fillDone]
  split
  · exact hs
  · split
    · exact hs
    · split
      · exact hs
      · split
        · exact hs
        · exact hs
        · exact .ite hs (.ite hs hs)

theorem State.Formed.sendTrace {s : State} {row : Nat} {f : Sums} {step : Nat} {last : Bool} (hs : s.Formed) :
    (s.sendTrace row f step last).Formed := hs

theorem State.Formed.arrayStep {s : State} {gi mi : Nat} (hs : s.Formed) : (s.arrayStep gi mi).Formed := by
  unfold State.arrayStep
  split
  · exact hs
  · split
    · exact hs
    next m _ =>
      split
      · exact hs
      · extract_lets x c rec' l sums lastRow lastStep tail wire out s1 m1 m2 s2 s3 _ s4 s5 s6
        have h1 : s1.Formed := .readRecord hs
        clear_value s1
        have h3 : s3.Formed := h1.same rfl
        clear_value s3
        have h4 : s4.Formed := .ite (h3.same rfl) h3
        clear_value s4
        have h5 : s5.Formed := .ite (.sendTrace h4) h4
        exact .fillBegin (.ite (.modNests h5) h5)

theorem State.Formed.traceReceive {s : State} {l : Nat} {flit : BitVec 1152} (hs : s.Formed) : (s.traceReceive l flit).Formed := by
  dsimp only [State.traceReceive]
  split
  · exact hs
  · split
    · exact hs
    · split
      · exact hs
      · split
        · exact hs
        · split <;> exact hs

/-! ## Ownership -/

theorem State.Formed.signal {s : State} {v : Nat} (hs : s.Formed) : (s.signal v).Formed := by
  dsimp only [State.signal]
  split
  · exact hs
  · split
    · exact hs
    · exact hs
    · exact .ite hs hs

theorem State.Formed.msixDeliver {s : State} {v : Nat} (hs : s.Formed) : (s.msixDeliver v).Formed := .ite hs hs

theorem State.Formed.afterInt {s : State} {before : DWord} (hs : s.Formed) : (s.afterInt before).Formed := .ite (.signal hs) hs

theorem State.Formed.raiseInt {s : State} {b : Nat} (hs : s.Formed) : (s.raiseInt b).Formed := .afterInt hs

theorem State.Formed.deliverHeld {s : State} (hs : s.Formed) : s.deliverHeld.Formed := .ite (.foldl (fun _ _ hs1 => .signal hs1) hs) hs

theorem State.Formed.ownerWrite {s : State} {m : Master} {f : State → State} (hs : s.Formed) (hf : ∀ x0, x0.Formed → (f x0).Formed) :
    (s.ownerWrite m f).Formed :=
  .ite (hf _ hs) hs

theorem State.Formed.blockWrite {s : State} {m : Master} {f : State → State} (hs : s.Formed) (hf : ∀ x0, x0.Formed → (f x0).Formed) :
    (s.blockWrite m f).Formed :=
  .ite (.ownerWrite hs hf) hs

theorem State.Formed.setOwner {s : State} {v : DWord} (hs : s.Formed) : (s.setOwner v).Formed := .ite hs (.deliverHeld (.raiseInt hs))

theorem State.Formed.claim {s : State} {m : Master} (hs : s.Formed) : (s.claim m).Formed := .ite (.setOwner hs) hs

theorem State.Formed.offer {s : State} {m : Master} {dest : Nat} (hs : s.Formed) : (s.offer m dest).Formed :=
  .ite hs (.ite (.setOwner hs) (.setOwner hs))

theorem State.Formed.accept {s : State} {m : Master} (hs : s.Formed) : (s.accept m).Formed := .ite (.setOwner hs) hs

theorem State.Formed.release {s : State} {m : Master} (hs : s.Formed) : (s.release m).Formed := .ite (.setOwner hs) hs

theorem State.Formed.ownreq {s : State} {m : Master} {v : DWord} (hs : s.Formed) : (s.ownreq m v).Formed := by
  dsimp only [State.ownreq]
  split
  · exact .claim hs
  · exact .offer hs
  · exact .accept hs
  · exact .release hs

theorem State.Formed.losePath {s : State} (hs : s.Formed) : s.losePath.Formed := .setOwner hs

/-! ## Whiffletrees and stores -/

theorem State.Formed.readBias {s : State} {gi : Nat} (hs : s.Formed) : (s.readBias gi).Formed := by
  dsimp only [State.readBias]
  split
  · exact hs
  · split
    · exact hs
    · split
      next _ t2 e2 =>
        have ht2 : t2.Formed := A.Keeps.next (.withDead (.orRefused .readEa)) hs e2
        exact ht2
      next _ _ _ t2 e2 =>
        have ht2 : t2.Formed := A.Keeps.next (.withDead (.orRefused .readEa)) hs e2
        exact .reportFault ht2
      next _ t2 _ e2 =>
        have ht2 : t2.Formed := A.Keeps.next (.withDead (.orRefused .readEa)) hs e2
        exact ht2

theorem State.Formed.startFresh {s : State} {w : Waiting} (hs : s.Formed) : (s.startFresh w).Formed := by
  dsimp only [State.startFresh]
  split
  · exact .gather (.rejectArms hs)
  · exact .gather (.readBias (.foldl (fun _ _ hs2 => .setLatch (.setLatch (.modNest hs2))) (State.Formed.ite (.foldl (fun _ _ hs2 =>
      .accClear hs2) hs) hs)))

theorem State.Formed.startAgain {s : State} {gi : Nat} (hs : s.Formed) : (s.startAgain gi).Formed := by
  dsimp only [State.startAgain]
  split
  · exact hs
  · exact .push (.foldl (fun _ _ hs2 => .ite (.setLatch (.setLatch hs2)) (.setLatch (.setLatch hs2))) (.modNests (.modGang (.foldl
      (fun _ _ hs2 => .accPut hs2) hs))))

theorem State.Formed.gangStart {s : State} {order : Nat} (hs : s.Formed) : (s.gangStart order).Formed := by
  dsimp only [State.gangStart]
  split
  · exact .ite (.startFresh hs) hs
  · exact hs

theorem State.Formed.nestResume {s : State} {gi : Nat} (hs : s.Formed) : (s.nestResume gi).Formed := by
  dsimp only [State.nestResume]
  split
  · exact .ite (.startAgain hs) hs
  · exact hs

theorem State.Formed.passDone {s : State} {gi : Nat} {g : Gang} {p : Nat} (hs : s.Formed) : (s.passDone gi g p).Formed :=
  .ite hs (.ite hs (.ite (.endGang hs) hs))

theorem State.Formed.accumulate {s : State} {gi : Nat} (hs : s.Formed) : (s.accumulate gi).Formed := by
  dsimp only [State.accumulate]
  split
  · exact hs
  · split
    · exact hs
    · exact .ite (.passDone hs) hs

theorem State.Formed.pushRows {s : State} {gi : Nat} {g : Gang} {group fuel page row : Nat} (hs : s.Formed) :
    (s.pushRows gi g group fuel page row).1.Formed := by
  induction fuel generalizing s row with
  | zero => exact hs
  | succ fuel ih =>
    unfold State.pushRows
    extract_lets c0
    split
    · exact hs
    · split
      · exact hs
      · split
        · exact hs
        · split
          · exact hs
          · split
            next b bad e =>
              extract_lets x s1 a _ s2 s3
              have h1 : s1.Formed := .writeRecord (hs.same rfl)
              clear_value s1
              have h2 : s2.Formed := .of_mem (Mem.wf_poison s1.mem (fun i => a / 16 + i) bad h1)
              clear_value s2
              have h3 : s3.Formed := .foldl (fun _ _ h => .modNests h) h2
              exact ih h3

theorem State.Formed.closePage {s : State} {k : Nat} {c : CIdx} (hs : s.Formed) : (s.closePage k c).Formed := by
  dsimp only [State.closePage]
  split
  · exact hs
  · exact .ite (.settlePage hs) hs

theorem State.Formed.storeChan {s t : State} {gi : Nat} {g : Gang} {x : Store} {n : Nat} (hs : s.Formed)
    (e : s.storeChan gi g x = some (t, n)) : t.Formed := by
  dsimp only [State.storeChan] at e
  split at e
  · cases e
    exact hs
  · split at e
    · cases e
    · cases e
      exact .ite (.closePage (.pushRows hs)) (.pushRows hs)

theorem A.Keeps.storeRow {gi : Nat} {g : Gang} {t : TSlot} {group m : Nat} : (storeRow gi g t group m).Keeps :=
  .bind .aGet fun _ => .ite (.aMod (fun _ hs => hs)) (.bind .writePlaced fun _ => .aMod (fun _ hs => hs))

theorem State.Formed.storeTensor {s : State} {gi : Nat} {g : Gang} {t : TSlot} {group fuel row : Nat} (hs : s.Formed) :
    (s.storeTensor gi g t group fuel row).1.Formed := by
  induction fuel generalizing s row with
  | zero => exact hs
  | succ fuel ih =>
    unfold State.storeTensor
    extract_lets dead live
    have hlive : ∀ u, u.Formed → (live u).Formed := fun u hu => .ite hu hu
    have hrow : ∀ r u, (withDead g.tailKey dead (storeRow gi g t group row)) s = (r, u) → u.Formed :=
      fun r u e => A.Keeps.storeRow.withDead.next hs e
    split
    · exact hs
    · split
      next u e => exact ih (hlive u (hrow _ u e))
      next u e => exact ih (hlive u (hrow _ u e))
      next u e => exact hrow _ u e
      next u e =>
        have hu : u.Formed := hrow _ u e
        exact State.Formed.reportFault (s := u.modGang gi _) hu

theorem State.Formed.countChk {s : State} {row h l : Nat} (hs : s.Formed) : (s.countChk row h l).Formed := hs

theorem State.Formed.clearBank {s : State} {g : Gang} {group : Nat} (hs : s.Formed) : (s.clearBank g group).Formed :=
  .foldl (fun _ _ hs1 => .accClear hs1) hs

theorem State.Formed.storeReached {s : State} {gi : Nat} {g : Gang} {x : Store} {row : Nat} (hs : s.Formed) :
    (s.storeReached gi g x row).Formed := by
  unfold State.storeReached
  extract_lets s' s1 s2
  have h' : s'.Formed := .ite (.writeBackPaddock hs) hs
  have h1 : s1.Formed := .ite (.clearBank h') h'
  have h2 : s2.Formed := h1
  split
  · exact h'
  · split
    · exact h2
    · refine .ite h2 (.ite (.forgetGang (.nwaits h2)) ?_)
      split
      · exact .endGang h2
      · exact .ite (.endGang h2) h2

theorem State.Formed.epilogue {s : State} {gi : Nat} {firstOk retryOk : Bool} (hs : s.Formed) : (s.epilogue gi firstOk retryOk).Formed := by
  dsimp only [State.epilogue]
  split
  · exact .readBias hs
  · split
    · exact .readBias hs
    · split
      · exact .readBias hs
      · split
        · exact .nestCheck (.countChk (.readBias hs))
        · split
          · split
            · exact .ite (.modGang (.storeTensor (.ite (.readBias hs) (.modNests (.countChk (.readBias hs)))))) (.storeReached
                (.storeTensor (.ite (.readBias hs) (.modNests (.countChk (.readBias hs))))))
            · exact .storeReached (.ite (.readBias hs) (.modNests (.countChk (.readBias hs))))
          · split
            next t3 _ e3 =>
              have ht3 : t3.Formed := .storeChan (.ite (.readBias hs) (.modNests (.countChk (.readBias hs)))) e3
              exact .ite (.push (.storeReached ht3)) (.storeReached ht3)
            · exact .ite (.readBias hs) (.modNests (.countChk (.readBias hs)))

theorem State.Formed.passBoundary {s : State} {gi : Nat} (hs : s.Formed) : (s.passBoundary gi).Formed := by
  dsimp only [State.passBoundary]
  split
  · exact hs
  · split
    · exact hs
    · split
      · exact .cutGang hs
      · exact .ite hs (.ite (.ite (.endGang hs) hs) hs)

theorem State.Formed.stopNest {s : State} {k : Nat} (hs : s.Formed) : (s.stopNest k).Formed := by
  dsimp only [State.stopNest]
  split
  · exact hs
  · split
    · exact hs
    · exact .ite hs (.ite hs hs)

theorem State.Formed.unstopNest {s : State} {k : Nat} (hs : s.Formed) : (s.unstopNest k).Formed := by
  dsimp only [State.unstopNest]
  split
  · exact hs
  · split
    · exact hs
    · exact .ite hs (.ite hs hs)

theorem State.Formed.nestDrain {s : State} {gi : Nat} (hs : s.Formed) : (s.nestDrain gi).Formed := by
  dsimp only [State.nestDrain]
  split
  · exact hs
  · exact .ite hs (.gather hs)

theorem State.Formed.selfTest {s : State} {row : Nat} {failed : List Nat} (hs : s.Formed) : (s.selfTest row failed).Formed :=
  .ite (.countChk hs) (.foldl (fun _ _ hs1 => .ite (.stateChanged (.setReg hs1)) hs1) hs)

/-! ## Translation and faults -/

theorem State.Formed.writeTlbinv {s : State} {v mask : DWord} (hs : s.Formed) : (s.writeTlbinv v mask).Formed := .ite hs hs

theorem State.Formed.splRead {s : State} {x : Splinter} (hs : s.Formed) : (s.splRead x).Formed := by
  dsimp only [State.splRead]
  split
  · exact hs
  · exact hs
  · exact hs
  · exact .ite hs hs

theorem State.Formed.splWrite {s : State} {x : Splinter} {e : DWord} (hs : s.Formed) : (s.splWrite x e).Formed :=
  .ite hs (.ite hs (Mem.wf_write _ _ _ hs))

theorem State.Formed.splSwap {s : State} {x : Splinter} {a : Nat} {e : DWord} (hs : s.Formed) : (s.splSwap x a e).Formed :=
  .ite hs (.ite hs (Mem.wf_write _ _ _ hs))

theorem State.Formed.splStep {s : State} (hs : s.Formed) : s.splStep.Formed := by
  dsimp only [State.splStep]
  split
  · exact hs
  · split
    · exact .splRead hs
    · exact .ite (.splSwap hs) (.splWrite hs)

theorem State.Formed.splinter {s : State} (hs : s.Formed) : s.splinter.Formed := .ite hs hs

theorem State.Formed.writeSplctl {s : State} {v mask : DWord} (hs : s.Formed) : (s.writeSplctl v mask).Formed := .ite (.splinter hs) hs

theorem State.Formed.takeFaults {s : State} (hs : s.Formed) : s.takeFaults.Formed := .foldl (fun _ _ hs1 => .ite hs1 (.reportFault hs1)) hs

theorem State.Formed.faultClose {s : State} (hs : s.Formed) : s.faultClose.Formed := .ite hs hs

theorem State.Formed.faultWrite {s : State} (hs : s.Formed) : s.faultWrite.Formed :=
  .ite hs (.raiseInt (Mem.wf_foldl (fun _ _ hm1 => Mem.wf_hostPut _ _ _ _ hm1) hs))

theorem State.Formed.fetchAgain {s : State} {k : Nat} {w : Wait} (hs : s.Formed) : (s.fetchAgain k w).Formed := by
  dsimp only [State.fetchAgain]
  split
  · split
    next _ t2 e2 =>
      have ht2 : t2.Formed := A.Keeps.next .translate hs e2
      exact ht2
    next _ _ _ t2 e2 =>
      have ht2 : t2.Formed := A.Keeps.next .translate hs e2
      exact .reportFault ht2
    next _ t2 _ e2 =>
      have ht2 : t2.Formed := A.Keeps.next .translate hs e2
      exact ht2
  · exact hs

theorem State.Formed.fetchesAgain {s : State} (hs : s.Formed) : s.fetchesAgain.Formed :=
  .foldl (fun _ _ hs1 => .foldl (fun _ _ hs2 => .fetchAgain hs2) hs1) hs

theorem State.Formed.respondFetch {s : State} {k : Nat} {v : DWord} {abort : Bool} (hs : s.Formed) : (s.respondFetch k v abort).Formed := by
  dsimp only [State.respondFetch]
  split
  · exact hs
  · split
    · exact .ite (.unwind (.tick hs)) (.takeCause (.tick hs))
    · split
      · exact .fetchAgain hs
      · exact hs

theorem State.Formed.respondGang {s : State} {gi : Nat} {v : DWord} {abort : Bool} (hs : s.Formed) : (s.respondGang gi v abort).Formed := by
  dsimp only [State.respondGang]
  split
  · exact hs
  · exact .modGang (.ite (.modCtx (.foldl (fun _ _ hs2 => .ite (.modCtx hs2) hs2) hs)) (.foldl (fun _ _ hs2 => .ite (.modCtx hs2) hs2) hs))

theorem State.Formed.faultRespond {s : State} {v : DWord} (hs : s.Formed) : (s.faultRespond v).Formed :=
  .foldl (fun _ _ hs1 => .respondGang hs1) (.foldl (fun _ _ hs1 => .retryCmds (.respondFetch (.modCtx hs1))) hs)

/-! ## Clocks -/

theorem State.Formed.ratioStart {s : State} {q : Nat} (hs : s.Formed) : (s.ratioStart q).Formed := .ite hs hs

theorem State.Formed.ratioEnd {s : State} {q : Nat} (hs : s.Formed) : (s.ratioEnd q).Formed := by
  dsimp only [State.ratioEnd]
  split
  · exact hs
  · exact .ratioStart hs

theorem State.Formed.writeDramclk {s : State} {q : Nat} {v mask : DWord} (hs : s.Formed) : (s.writeDramclk q v mask).Formed :=
  .ite hs (.ite hs (.ratioStart hs))

theorem State.Formed.capeff {s : State} {row : Nat} (hs : s.Formed) : (s.capeff row).Formed := .ite hs hs

theorem State.Formed.refillCredit {s : State} {st : Nat} (hs : s.Formed) : (s.refillCredit st).Formed := .ite hs hs

theorem State.Formed.powerTick {s : State} {watts : Nat} (hs : s.Formed) : (s.powerTick watts).Formed := .ite (.raiseInt hs) (.ite hs hs)

theorem State.Formed.shutdown {s : State} (hs : s.Formed) : s.shutdown.Formed := hs

theorem State.Formed.convert {s : State} {i code : Nat} (hs : s.Formed) : (s.convert i code).Formed :=
  .ite (.shutdown (.ite (.raiseInt (.foldl (fun _ _ hs1 => .setField hs1) (.setReg hs))) (.setReg hs))) (.ite (.raiseInt (.foldl
    (fun _ _ hs1 => .setField hs1) (.setReg hs))) (.setReg hs))

theorem State.Formed.rowThermal {s : State} {row : Nat} (hs : s.Formed) : (s.rowThermal row).Formed := by
  dsimp only [State.rowThermal]
  split
  · exact hs
  · exact .ite hs (.ite hs hs)

theorem State.Formed.layerThermal {s : State} {q layer : Nat} (hs : s.Formed) : (s.layerThermal q layer).Formed := by
  dsimp only [State.layerThermal]
  split
  · exact hs
  · exact .ite hs (.ite hs hs)

theorem State.Formed.dramThermal {s : State} {q : Nat} (hs : s.Formed) : (s.dramThermal q).Formed := by
  dsimp only [State.dramThermal]
  split
  · exact .foldl (fun _ _ hs2 => .layerThermal hs2) hs
  · exact .ratioStart (.foldl (fun _ _ hs2 => .layerThermal hs2) hs)

theorem State.Formed.thermalTick {s : State} {row : Nat} (hs : s.Formed) : (s.thermalTick row).Formed :=
  .ite hs (.dramThermal (.rowThermal hs))

theorem State.Formed.shadowDetect {s : State} {st : Nat} {point : ShadowPoint} {key : Nat} {third : Bool} (hs : s.Formed) :
    (s.shadowDetect st point key third).Formed := by
  dsimp only [State.shadowDetect]
  split
  · exact hs
  · split
    · exact hs
    · split <;> exact hs

theorem State.Formed.clearShadow {s : State} {st : Nat} {v : DWord} (hs : s.Formed) : (s.clearShadow st v).Formed := by
  dsimp only [State.clearShadow]
  split
  · exact .ite hs hs
  · exact hs

theorem State.Formed.wearSample {s : State} {p fa fb em : Nat} (hs : s.Formed) : (s.wearSample p fa fb em).Formed := .ite hs (.writeWear hs)

theorem State.Formed.threshUpdate {s : State} (hs : s.Formed) : s.threshUpdate.Formed := .foldl (fun _ _ hs1 => .setField hs1) hs

theorem State.Formed.sramError {s : State} {st : Nat} (hs : s.Formed) : (s.sramError st).Formed := by
  dsimp only [State.sramError]
  split
  · exact hs
  · exact .ite (.stateChanged hs) hs

theorem State.Formed.upset {s : State} {u : Upset} (hs : s.Formed) : (s.upset u).Formed := by
  dsimp only [State.upset]
  split
  · exact hs
  · split
    · exact .sramError (Mem.wf_taint _ _ _ hs)
    · exact Mem.wf_taint _ _ _ hs
  · exact .sramError hs
  · exact hs
  · exact hs

/-! ## The M pipe -/

theorem State.Formed.portNgo {s : State} {k : Nat} {cfg : List DWord} {mode : BitVec 3} (hs : s.Formed) : (s.portNgo k cfg mode).Formed :=
  .ite hs (.gather hs)

theorem State.Formed.armMates {s : State} {k : Nat} {f : Nest → Nest} (hs : s.Formed) : (s.armMates k f).Formed :=
  .foldl (fun _ _ hs1 => .modNest hs1) hs

theorem State.Formed.portFreeze {s : State} {k : Nat} (hs : s.Formed) : (s.portFreeze k).Formed := by
  dsimp only [State.portFreeze]
  split
  · split <;> exact hs
  · exact hs
  · exact .armMates hs
  all_goals exact hs

theorem FormedIf.portThaw {s : State} {k : Nat} (hs : s.Formed) : FormedIf (s.portThaw k) := by
  dsimp only [State.portThaw]
  split
  · split <;> exact .some hs
  · split
    · exact .ite .none (.ite (.some hs) (.some hs))
    · exact .some hs
  · exact .some (.armMates hs)
  all_goals exact .some hs

theorem State.Formed.portCut {s : State} {k : Nat} {abandon : Bool} (hs : s.Formed) : (s.portCut k abandon).Formed := by
  dsimp only [State.portCut]
  split
  · split <;> exact hs
  · split
    · exact .cutGang hs
    · exact hs
  · exact .gather (.rejectArms hs)
  all_goals exact hs

theorem FormedIf.portMove {s : State} {k : Nat} {out : Bool} {a : DWord} {n ord : Nat} (hs : s.Formed) :
    FormedIf (s.portMove k out a n ord) :=
  .ite (.some hs) (.ite .none (.some hs))

theorem FormedIf.portAclr {s : State} {k : Nat} {a : DWord} {n : Nat} (hs : s.Formed) : FormedIf (s.portAclr k a n) :=
  .ite (.some hs) (.ite .none (.some hs))

theorem FormedIf.portSeek {s : State} {k : Nat} {a : DWord} (hs : s.Formed) : FormedIf (s.portSeek k a) := by
  dsimp only [State.portSeek]
  split
  · exact .ite (.some (.modNest hs)) (.ite .none (.some (.modNests (.ite (.modGang hs) (.foldl (fun _ _ hs2 => .setLatch (.setLatch hs2))
      (.modGang hs))))))
  · exact .some (.modNest hs)

theorem FormedIf.portWfetch {s : State} {k tile slot : Nat} (hs : s.Formed) : FormedIf (s.portWfetch k tile slot) :=
  .ite (.some hs) (.ite .none (.some hs))

theorem State.Formed.portWswap {s : State} {k : Nat} {keep : Bool} (hs : s.Formed) : (s.portWswap k keep).Formed :=
  .ite hs (.ite hs (.ite hs hs))

theorem FormedIf.portApply {s : State} {k : Nat} {w : PortWord} (hs : s.Formed) : FormedIf (s.portApply k w) := by
  dsimp only [State.portApply]
  split
  · exact .some (.portNgo hs)
  · exact .some (.portFreeze hs)
  · exact .portThaw hs
  · exact .portMove hs
  · exact .portAclr hs
  · exact .portSeek hs
  · exact .portWfetch hs
  · exact .some (.portWswap hs)
  · exact .some hs
  · exact .some (.portCut hs)

theorem State.Formed.runPort {s : State} {k fuel : Nat} (hs : s.Formed) : (s.runPort k fuel).Formed := by
  induction fuel generalizing s with
  | zero => exact hs
  | succ fuel ih =>
    unfold State.runPort
    extract_lets n
    refine .ite hs ?_
    split
    · exact hs
    next w t e =>
      have h0 : (s.modNest k fun n => { n with port := t }).Formed := hs
      split
      next u e => exact ih (.nwaitTest (FormedIf.get (.portApply h0) e))
      · exact hs

theorem A.Keeps.moveEntry {k whiff : Nat} {out : Bool} {o e : Nat} : (moveEntry k whiff out o e).Keeps :=
  .bind .aGet fun _ => .ite (.orNothing .writeScratch) (.bind (.orRefused .readScratch) fun _ => .aMod (fun _ hs => hs))

theorem A.Keeps.moveAll {k whiff : Nat} {out : Bool} {o e n : Nat} : (moveAll k whiff out o e n).Keeps :=
  .bind (.forIn (fun _ _ => .bind (.orNothing .touchScratch) fun _ => .pure) _ _) fun _ => .bind (.forIn (fun _ _ => .bind .moveEntry
    fun _ => .pure) _ _) fun _ => .pure

theorem State.Formed.copyDone {s : State} {k : Nat} (hs : s.Formed) : (s.copyDone k).Formed := by
  dsimp only [State.copyDone]
  split
  · split
    · exact hs
    · split
      next _ t2 e2 =>
        have ht2 : t2.Formed := A.Keeps.next (.withDead .moveAll) hs e2
        refine .retryCmds (.foldl (fun _ _ hs3 => .runPort hs3) (.modNest ?_))
        split
        · exact .ite ht2 (.modGang ht2)
        · exact ht2
      next _ _ _ t2 e2 =>
        have ht2 : t2.Formed := A.Keeps.next (.withDead .moveAll) hs e2
        exact .reportFault (.modNest ht2)
      next _ t2 _ e2 =>
        have ht2 : t2.Formed := A.Keeps.next (.withDead .moveAll) hs e2
        exact ht2
  · exact .retryCmds (.foldl (fun _ _ hs2 => .runPort hs2) (.modNest (.foldl (fun _ _ hs2 => .accClear hs2) hs)))
  · exact hs

theorem State.Formed.settleError {s : State} {e : Stop} (hs : s.Formed) : (Machine.settle s (.error e)).Formed := by
  cases e with
  | cause c => exact State.Formed.takeCause hs
  | held => exact hs
  | xfull => exact hs

theorem FormedAfter.runM {g : PIdx} {body : W Unit} {s : State} (hs : s.Formed) (hbody : body.Keeps) : FormedAfter (runM g body s) := by
  unfold Machine.runM
  split
  · exact .runWord hbody hs
  · exact .next (.settleError hs)

theorem W.Keeps.needMask {m : DWord} : (needMask m).Keeps := .bind .getMe fun _ => .ite .pure .raise

theorem W.Keeps.toPort {w : PortWord} : (toPort w).Keeps :=
  .bind .getS fun _ => .ite (.ite (.modS (fun _ hs => hs)) .hold) (.modS (fun _ hs => .runPort hs))

theorem W.Keeps.portApplied : portApplied.Keeps := .bind .getS fun _ => .ite .hold .pure

theorem W.Keeps.nfromsWord {d a : RIdx} : (nfromsWord d a).Keeps := .bind .needMask fun _ => .bind .sSrc fun _ => .land

theorem W.Keeps.nsetiWord {d : RIdx} {i : Imm 10} : (nsetiWord d i).Keeps := .bind .needMask fun _ => .land

theorem W.Keeps.ngoWord {mode : BitVec 3} : (ngoWord mode).Keeps :=
  .bind .getMe fun _ => .bind .needMask fun _ => .bind .nUse fun _ => .bind .nUse fun _ => .bind .nUse fun _ => .bind .nUse fun _ => .bind
    .nUse fun _ => .bind .nUse fun _ => .bind .nUse fun _ => .toPort

theorem W.Keeps.nwaitWord {p : PIdx} {t : Imm 10} : (nwaitWord p t).Keeps := by
  dsimp only [Machine.nwaitWord]
  refine .bind .needMask fun _ => .modS fun _ hs => ?_
  split
  · exact hs
  · exact hs
  all_goals exact .nwaitTest hs

theorem W.Keeps.nstatWord {d : RIdx} : (nstatWord d).Keeps :=
  .bind .needMask fun _ => .bind .portApplied fun _ => .bind .getS fun _ => .land

theorem W.Keeps.moveWord {out : Bool} {a : RIdx} {cnt : BitVec 10} : (moveWord out a cnt).Keeps :=
  .bind .needMask fun _ => .bind .nUse fun _ => .bind .getS fun _ => .bind (.modS (fun _ hs => hs)) fun _ => .toPort

theorem W.Keeps.nposWord {d : RIdx} : (nposWord d).Keeps := .bind .needMask fun _ => .bind .portApplied fun _ => .bind .getMe fun _ => .land

theorem W.Keeps.cksumWord {d a : RIdx} : (cksumWord d a).Keeps := by
  dsimp only [Machine.cksumWord]
  refine .bind .needMask fun _ => .bind .nUse fun _ => .bind .portApplied fun _ => .bind .getMe fun _ => .bind .land fun _ => ?_
  split
  · refine .modS fun _ hs => ?_
    split <;> exact hs
  · exact .pure

/-! ## Images of contexts -/

theorem State.Formed.writeImage {s : State} {k die first : Nat} (hs : s.Formed) : (s.writeImage k die first).Formed := by
  unfold State.writeImage
  extract_lets units base m
  have hm : m.wf = true := Mem.wf_foldl (fun m p hm => Mem.wf_store _ _ _ hm) (Mem.wf_wipe _ _ _ hs)
  clear_value m
  exact .of_mem hm

theorem FormedIf.readImage {s : State} {k : Nat} (hs : s.Formed) : FormedIf (s.readImage k) := by
  dsimp only [State.readImage]
  split
  · exact .some hs
  · exact .ite .none (.some (Mem.wf_foldl (fun _ _ hm2 => Mem.wf_restoreBay _ _ _ hm2) hs))

/-! ## The dispatcher -/

theorem State.Formed.createRider {s : State} {li i : Nat} {exact : Bool} (hs : s.Formed) : (s.createRider li i exact).Formed := by
  dsimp only [State.createRider]
  split
  · exact hs
  · split
    · exact hs
    · split <;> exact hs

theorem State.Formed.grantFree {s : State} {li n : Nat} (hs : s.Formed) : (s.grantFree li n).Formed := by
  induction n generalizing s with
  | zero => exact hs
  | succ n ih =>
    dsimp only [State.grantFree]
    split
    · exact hs
    · split
      · exact hs
      · split
        · exact .ite (ih (.createRider hs)) (ih (.createRider hs))
        · exact .ite hs (ih (.createRider hs))

theorem State.Formed.grantHitch {s : State} {li key : Nat} (hs : s.Formed) : (s.grantHitch li key).Formed := by
  dsimp only [State.grantHitch]
  split
  · exact hs
  · exact State.Formed.foldl (fun _ _ hs2 => .modCtx hs2) (State.Formed.foldl (fun _ _ hs2 => .createRider hs2) hs)

theorem State.Formed.grantOne {s : State} {li : Nat} (hs : s.Formed) : (s.grantOne li).1.Formed := by
  unfold State.grantOne
  split
  · exact hs
  · split
    · extract_lets s1
      have h1 : s1.Formed := by
        dsimp only [s1]
        split
        · exact hs
        · split
          · exact hs
          · exact hs
      split
      · exact h1
      · split
        · exact .grantHitch h1
        · exact h1
    · exact .grantFree hs

theorem State.Formed.grantPass {s : State} {die : Nat} (hs : s.Formed) : (s.grantPass die).Formed := by
  have key : ∀ (l : List Nat) (r : State × Bool), r.1.Formed → (l.foldl (fun r li => if r.2 then r else r.1.grantOne li) r).1.Formed := by
    intro l
    induction l with
    | nil => exact fun _ h => h
    | cons li t ih =>
      intro r hr
      refine ih _ ?_
      dsimp only
      split
      · exact hr
      · exact .grantOne hr
  exact key _ (s, false) hs

theorem State.Formed.grantRounds {s : State} {die n : Nat} (hs : s.Formed) : (s.grantRounds die n).Formed := by
  induction n generalizing s with
  | zero => exact hs
  | succ n ih => exact .ite (.grantPass hs) (ih (.grantPass hs))

theorem State.Formed.grantAll {s : State} {die : Nat} (hs : s.Formed) : (s.grantAll die).Formed := .grantRounds hs

theorem State.Formed.newLaunch {s : State} {kind : LaunchKind} {die cmd q : Nat} {node : Option (Nat × Nat)} {bank : List Byte}
    {prio : Nat} {restart : Bool} (hs : s.Formed) : (s.newLaunch kind die cmd q node bank prio restart).Formed :=
  .grantAll hs

theorem State.Formed.fallTile {s : State} {li tile : Nat} (hs : s.Formed) : (s.fallTile li tile).Formed := by
  dsimp only [State.fallTile]
  split
  · exact hs
  · exact .ite hs (.grantAll hs)

theorem State.Formed.fallback {s : State} {li tile : Nat} (hs : s.Formed) : (s.fallback li tile).Formed := by
  dsimp only [State.fallback]
  split
  · exact .ite (.fallTile hs) hs
  · exact hs

theorem State.Formed.placeOn {s : State} {k st : Nat} (hs : s.Formed) : (s.placeOn k st).Formed := by
  unfold State.placeOn
  extract_lets slot s1
  have h1 : s1.Formed := State.Formed.acquireAt hs
  clear_value s1
  split
  · exact State.Formed.failRider (s := { s1 with saves := s1.saves.del k }) h1
  next t e =>
    have ht : t.Formed := FormedIf.get (.readImage h1) e
    split <;> exact ht

theorem State.Formed.placeRider {s : State} {k : Nat} (hs : s.Formed) : (s.placeRider k).Formed := by
  dsimp only [State.placeRider]
  split
  · exact hs
  · split
    · split
      · split
        · exact .placeOn hs
        · exact hs
      · exact hs
    · exact hs

theorem State.Formed.spill {s : State} {k : Nat} (hs : s.Formed) : (s.spill k).Formed := .ite (.placeRider hs) hs

theorem FormedIf.reserve {s : State} {ci : Nat} {l : List Nat} (hs : s.Formed) : FormedIf (s.reserve ci l) := by
  induction l generalizing s with
  | nil => exact .some hs
  | cons k t ih =>
    dsimp only [State.reserve]
    split
    · exact .none
    · exact ih hs

theorem State.Formed.sendStops {s : State} {ci : Nat} (hs : s.Formed) : (s.sendStops ci).Formed := by
  dsimp only [State.sendStops]
  split
  · exact hs
  · split
    · exact hs
    · split
      · exact hs
      next t e =>
        have ht : t.Formed := (FormedIf.ite (.some hs) (.reserve hs)).get e
        exact .foldl (fun _ _ => .stopNest) ht

theorem State.Formed.preempt {s : State} {k : Nat} (hs : s.Formed) : (s.preempt k).Formed := by
  unfold State.preempt
  extract_lets c s' isWaiting stalls
  have h' : s'.Formed := .ite hs hs
  refine .ite h' ?_
  split
  · exact h'
  · extract_lets v s1
    have h1 : s1.Formed := .sendStops (.collect h')
    split
    · exact h'
    · exact .ite h' (.ite h1 h')

theorem FormedAfter.execRiderRecordGrant {launch : Nat} {s : State} (hs : s.Formed) : FormedAfter (execRiderRecordGrant launch s) := by
  dsimp only [Machine.execRiderRecordGrant]
  refine .next ?_
  split
  · exact .grantAll hs
  · exact hs

/-! ## The collector -/

theorem State.Formed.stopAck {s : State} {ci k : Nat} {cls : EngineClass} (hs : s.Formed) : (s.stopAck ci k cls).Formed := by
  dsimp only [State.stopAck]
  split
  · exact hs
  · exact .ite hs (.ite hs hs)

theorem State.Formed.withdrawFrom {s : State} {k : Nat} (hs : s.Formed) : (s.withdrawFrom k).Formed := by
  dsimp only [State.withdrawFrom]
  split
  · exact .ite (.unstopNest hs) (State.Formed.unstopNest hs)
  all_goals exact .unstopNest hs

theorem State.Formed.collectLim {s : State} {ci : Nat} (hs : s.Formed) : (s.collectLim ci).Formed := by
  dsimp only [State.collectLim]
  split
  · exact hs
  · exact .ite hs (.foldl (fun _ _ hs2 => .withdrawFrom hs2) hs)

theorem State.Formed.leaveStall {s : State} {k : Nat} (hs : s.Formed) : (s.leaveStall k).Formed :=
  .ite hs (.writeBackPaddock (.ite (.dropStashes hs) (.flushSlice (.dropStashes hs))))

theorem State.Formed.saveVictim {s : State} {x : Coll} {k : Nat} (hs : s.Formed) : (s.saveVictim x k).Formed := by
  unfold State.saveVictim
  split
  · exact hs
  next die first _ e =>
    extract_lets s1 s2 c
    have h1 : s1.Formed := .writeImage (.leaveStall hs)
    clear_value s1
    have h2 : s2.Formed := h1.same rfl
    exact .ite (.failRider h2) h2

theorem State.Formed.discardCtx {s : State} {k : Nat} (hs : s.Formed) : (s.discardCtx k).Formed := by
  have h1 : ((s.leaveStall k).leaveHitch k).Formed := .leaveHitch (.leaveStall hs)
  dsimp only [State.discardCtx, State.Formed]
  split
  · exact State.Formed.endGang h1
  · exact h1

theorem State.Formed.dropVictims {s : State} {ci : Nat} (hs : s.Formed) : (s.dropVictims ci).Formed := by
  dsimp only [State.dropVictims]
  split
  · exact hs
  · exact .ite (State.Formed.ite (.foldl (fun _ _ hs2 => .discardCtx hs2) hs) hs) (State.Formed.ite (.foldl (fun _ _ hs2 => .discardCtx
      hs2) hs) hs)

theorem State.Formed.saveDone {s : State} {ci : Nat} (hs : s.Formed) : (s.saveDone ci).Formed := by
  dsimp only [State.saveDone]
  split
  · exact hs
  · exact .ite hs (State.Formed.foldl (fun _ _ hs2 => .ite (.discardCtx hs2) (.saveVictim hs2)) hs)

theorem State.Formed.collTick {s : State} {ci : Nat} (hs : s.Formed) : (s.collTick ci).Formed := by
  dsimp only [State.collTick]
  split <;> exact .sendStops (.dropVictims hs)

theorem State.Formed.beginReexec {s : State} {li st : Nat} (hs : s.Formed) : (s.beginReexec li st).Formed := by
  dsimp only [State.beginReexec]
  split
  · exact hs
  · exact .collect (.foldl (fun _ _ hs2 => .discardCtx hs2) hs)

theorem State.Formed.runAgain {s : State} {li : Nat} {l : Launch} (hs : s.Formed) : (s.runAgain li l).Formed := .grantAll hs

theorem State.Formed.checkInputs {s : State} {li : Nat} {l : Launch} (hs : s.Formed) : (s.checkInputs li l).Formed := by
  dsimp only [State.checkInputs]
  split
  · exact .runAgain hs
  · split
    · exact .runAgain hs
    · exact hs
    · split
      · exact hs
      · split
        · exact hs
        · exact hs
        · exact .ite hs (.request hs)
        · exact hs

theorem State.Formed.reexec {s : State} {li : Nat} (hs : s.Formed) : (s.reexec li).Formed := by
  dsimp only [State.reexec]
  split
  · exact hs
  · exact .ite hs (.ite hs (.checkInputs hs))

theorem State.Formed.errorEnd {s : State} {c : Ctx} (hs : s.Formed) : (s.errorEnd c).Formed := by
  dsimp only [State.errorEnd]
  split
  · exact hs
  · exact .ite (.fallTile hs) (.ite (.beginReexec hs) hs)

theorem State.Formed.landRest {s : State} {k : Nat} (hs : s.Formed) : (s.landRest k).Formed :=
  .ite hs (.foldl (fun _ _ hs1 => .landOne hs1) hs)

theorem State.Formed.countWear {s : State} {c : Ctx} (hs : s.Formed) : (s.countWear c).Formed := by
  dsimp only [State.countWear]
  split <;> exact hs

theorem State.Formed.freeRider {s : State} {k : Nat} (hs : s.Formed) : (s.freeRider k).Formed :=
  .reinRetry (.grantAll (.ite (.errorEnd (.countWear hs)) (.ite (.fallTile (.countWear hs)) (.countWear hs))))

theorem State.Formed.contextFree {s : State} {k : Nat} (hs : s.Formed) : (s.contextFree k).Formed :=
  .ite hs (.ite (.landRest hs) (.ite (.leaveStall (.ite hs (.foldl (fun _ _ hs1 => .landOne hs1) hs))) (.freeRider (.leaveStall (.ite hs
    (.foldl (fun _ _ hs1 => .landOne hs1) hs))))))

theorem State.Formed.launchTick {s : State} {li : Nat} (hs : s.Formed) : (s.launchTick li).Formed := by
  dsimp only [State.launchTick]
  split
  · exact hs
  · exact .ite hs (.ite (.ite hs hs) (.ite hs hs))

theorem State.Formed.evictTick {s : State} (hs : s.Formed) : s.evictTick.Formed :=
  .foldl (fun _ _ hs1 => .evict hs1) (.foldl (fun _ _ hs1 => .failRider hs1) hs)

theorem State.Formed.beginMove {s : State} {st : Nat} (hs : s.Formed) : (s.beginMove st).Formed := by
  dsimp only [State.beginMove]
  split
  · exact hs
  · exact .ite hs (.ite (.evictTick hs) (.evictTick hs))

theorem State.Formed.moveTick {s : State} {row : Nat} (hs : s.Formed) : (s.moveTick row).Formed := by
  dsimp only [State.moveTick]
  split
  · exact hs
  · exact .ite hs (.ite hs (State.Formed.foldl (fun _ _ hs2 => .foldl (fun _ _ hs3 => .flushLine hs3) hs2) hs))

theorem State.Formed.endMove {s : State} {row : Nat} (hs : s.Formed) : (s.endMove row).Formed := by
  dsimp only [State.endMove]
  split
  · exact hs
  · exact .ite hs (Mem.wf_remapRow _ _ _ _ _ hs)

/-! ## Graphs -/

theorem State.Formed.feWrite {s : State} {dram : Bool} {a : Nat} {l : List Byte} (hs : s.Formed) : (s.feWrite dram a l).Formed :=
  .ite (.ite hs (Mem.wf_write _ _ _ hs)) (Mem.wf_hostPut _ _ _ _ hs)

theorem State.Formed.setNodeBits {s : State} {die n actb : Nat} {pend : Bool} (hs : s.Formed) : (s.setNodeBits die n actb pend).Formed :=
  Mem.wf_store _ _ _ hs

theorem State.Formed.modCmd {s : State} {c : Nat} {f : Cmd → Cmd} (hs : s.Formed) : (s.modCmd c f).Formed := hs

theorem State.Formed.cmdDone {s : State} {c : Nat} {status : Nat} (hs : s.Formed) : (s.cmdDone c status).Formed := hs

theorem State.Formed.indirectCheck {s : State} {c : Nat} (hs : s.Formed) : (s.indirectCheck c).Formed := by
  dsimp only [State.indirectCheck]
  split
  · exact hs
  · exact .ite hs hs

theorem State.Formed.commandComplete {s : State} {c : Nat} (hs : s.Formed) : (s.commandComplete c).Formed := by
  dsimp only [State.commandComplete]
  split
  · exact hs
  · split
    · exact hs
    · split
      · exact hs
      · split
        · exact .indirectCheck (State.Formed.ite (.signal (.ite hs (.feWrite hs))) (.ite hs (.feWrite hs)))
        · exact State.Formed.ite (.signal (.ite hs (.feWrite hs))) (.ite hs (.feWrite hs))

theorem State.Formed.makeDue {s : State} {r : Nat} {l : List Nat} (hs : s.Formed) : (s.makeDue r l).Formed := by
  dsimp only [State.makeDue]
  split <;> exact hs

theorem State.Formed.decLive {s : State} {r n : Nat} (hs : s.Formed) : (s.decLive r n).Formed := by
  dsimp only [State.decLive]
  split
  · exact hs
  · split
    · exact hs
    · exact .ite (.makeDue hs) hs

theorem State.Formed.replayCheck {s : State} {r n : Nat} (hs : s.Formed) : (s.replayCheck r n).Formed := by
  dsimp only [State.replayCheck]
  split
  · exact hs
  · split
    · exact hs
    · exact .ite hs hs

theorem State.Formed.finishNode {s : State} {r n : Nat} {fault setB : Bool} (hs : s.Formed) : (s.finishNode r n fault setB).Formed := by
  dsimp only [State.finishNode]
  split
  · exact hs
  · exact .replayCheck (.ite hs (.foldl (fun _ _ hs2 => .decLive hs2) hs))

theorem State.Formed.replayStart {s : State} {r : Nat} (hs : s.Formed) : (s.replayStart r).Formed := by
  dsimp only [State.replayStart]
  split
  · exact hs
  · exact .ite hs (.ite (.makeDue (.foldl (fun _ _ hs2 => .ite (.setNodeBits hs2) hs2) hs)) (.makeDue (.foldl (fun _ _ hs2 => .ite
      (.setNodeBits hs2) hs2) hs)))

theorem State.Formed.launchNode {s : State} {r n : Nat} {kind : LaunchKind} (hs : s.Formed) : (s.launchNode r n kind).Formed := by
  dsimp only [State.launchNode]
  split
  · exact hs
  · split
    · exact hs
    · exact .newLaunch hs

theorem State.Formed.condNode {s : State} {r n : Nat} (hs : s.Formed) : (s.condNode r n).Formed := by
  dsimp only [State.condNode]
  split
  · exact hs
  · exact .finishNode hs

theorem State.Formed.loopStep {s : State} {r n it : Nat} (hs : s.Formed) : (s.loopStep r n it).Formed := by
  dsimp only [State.loopStep]
  split
  · exact hs
  · exact .ite (.finishNode hs) (.ite (.finishNode hs) (.ite (.makeDue hs) (.makeDue hs)))

theorem State.Formed.loopNode {s : State} {r n : Nat} (hs : s.Formed) : (s.loopNode r n).Formed := by
  dsimp only [State.loopNode]
  split
  · exact hs
  · exact .loopStep hs

theorem State.Formed.loopEnd {s : State} {r n : Nat} (hs : s.Formed) : (s.loopEnd r n).Formed := by
  dsimp only [State.loopEnd]
  split
  · exact hs
  · split
    · exact hs
    · exact .ite hs (.ite (.finishNode hs) (.loopStep hs))

theorem State.Formed.signalNode {s : State} {r n : Nat} (hs : s.Formed) : (s.signalNode r n).Formed := by
  dsimp only [State.signalNode]
  split
  · exact hs
  · exact .ite (.finishNode hs) (.finishNode (.ite (.signal (.ite (.feWrite hs) hs)) (.ite (.feWrite hs) hs)))

theorem State.wf_copyBank {s : State} {b : List Byte} (hs : s.Formed) : (s.copyBank b).mem.wf = true := wf_copyPieces hs

theorem State.Formed.copyNode {s : State} {r n : Nat} (hs : s.Formed) : (s.copyNode r n).Formed := by
  unfold State.copyNode
  split
  · exact hs
  next x h e =>
    extract_lets c _ s1
    have hc : c.mem.wf = true := State.wf_copyBank hs
    clear_value c
    have h1 : s1.Formed := .of_mem hc
    clear_value s1
    exact .ite hs (.finishNode (.ite h1 h1))

theorem State.Formed.nodeComplete {s : State} {r n : Nat} (hs : s.Formed) : (s.nodeComplete r n).Formed := by
  dsimp only [State.nodeComplete]
  split
  · exact hs
  · exact .ite (.finishNode hs) hs

theorem State.Formed.replayComplete {s : State} {r : Nat} (hs : s.Formed) : (s.replayComplete r).Formed := by
  dsimp only [State.replayComplete]
  split
  · exact hs
  · exact .ite hs hs

theorem State.Formed.writePatch {s : State} {die n : Nat} {bank : List Byte} (hs : s.Formed) : (s.writePatch die n bank).Formed :=
  .setNodeBits (Mem.wf_store _ _ _ hs)

theorem State.Formed.releasePatches {s : State} (hs : s.Formed) : s.releasePatches.Formed := by
  refine .foldl (fun s p hs => .ite hs ?_) hs
  have h1 : (s.writePatch p.die p.node p.bank).Formed := .writePatch hs
  exact h1

theorem State.Formed.graphRun {s : State} {c : Nat} (hs : s.Formed) : (s.graphRun c).Formed := by
  dsimp only [State.graphRun]
  split
  · exact hs
  · exact .ite hs hs

theorem State.Formed.graphInstall {s : State} {c : Nat} (hs : s.Formed) : (s.graphInstall c).Formed := by
  dsimp only [State.graphInstall]
  split
  · exact hs
  · exact .ite hs (.releasePatches (Mem.wf_foldl (fun _ _ hm2 => Mem.wf_store _ _ _ hm2) (Mem.wf_foldl (fun _ _ hm2 => Mem.wf_store _ _ _
      hm2) hs)))

theorem State.Formed.patch {s : State} {c : Nat} (hs : s.Formed) : (s.patch c).Formed := by
  dsimp only [State.patch]
  split
  · exact hs
  · exact .ite hs (.ite hs (.writePatch hs))

theorem State.Formed.kernel {s : State} {c : Nat} (hs : s.Formed) : (s.kernel c).Formed := by
  dsimp only [State.kernel]
  split
  · exact hs
  · exact .ite hs (.newLaunch hs)

theorem State.Formed.copy {s : State} {c : Nat} (hs : s.Formed) : (s.copy c).Formed := by
  unfold State.copy
  split
  · exact hs
  · exact .ite hs (.ite hs (.of_mem (State.wf_copyBank hs)))

theorem State.Formed.commandNop {s : State} {c : Nat} (hs : s.Formed) : (s.commandNop c).Formed := by
  dsimp only [State.commandNop]
  split
  · exact hs
  · exact .ite hs hs

theorem State.Formed.flagset {s : State} {c : Nat} (hs : s.Formed) : (s.flagset c).Formed := by
  dsimp only [State.flagset]
  split
  · exact hs
  · exact .ite hs (Mem.wf_store _ _ _ hs)

theorem State.Formed.flagwaitOk {s : State} {c : Nat} (hs : s.Formed) : (s.flagwaitOk c).Formed := by
  dsimp only [State.flagwaitOk]
  split
  · exact hs
  · exact .ite hs (.ite hs hs)

theorem State.Formed.flagwait {s : State} {c : Nat} (hs : s.Formed) : (s.flagwait c).Formed := by
  dsimp only [State.flagwait]
  split
  · exact hs
  · exact .ite hs (.flagwaitOk hs)

theorem State.Formed.indirect {s : State} {c : Nat} (hs : s.Formed) : (s.indirect c).Formed := by
  dsimp only [State.indirect]
  split
  · exact hs
  · exact .ite hs hs

/-! ## Queues and packets -/

theorem State.Formed.passPacket {s : State} {q level : Nat} (hs : s.Formed) : (s.passPacket q level).Formed := by
  dsimp only [State.passPacket]
  split
  · exact hs
  · split
    · exact hs
    · exact .ite hs hs

theorem State.Formed.dropLists {s : State} {q : Nat} (hs : s.Formed) : (s.dropLists q).Formed :=
  .foldl (fun _ _ hs1 => .indirectCheck (.modCmd hs1)) hs

theorem State.Formed.abandon {s : State} {q : Nat} (hs : s.Formed) : (s.abandon q).Formed :=
  .foldl (fun _ _ hs1 => .ite (.indirectCheck (.modCmd hs1)) (.ite (.cmdDone hs1) hs1)) hs

theorem State.Formed.refusePacket {s : State} {q code level : Nat} (hs : s.Formed) : (s.refusePacket q code level).Formed :=
  .raiseInt (State.Formed.dropLists hs)

theorem State.Formed.startCommand {s : State} {q level : Nat} {parent : Option Nat} {p d : List Byte} (hs : s.Formed) :
    (s.startCommand q level parent p d).Formed :=
  .passPacket hs

theorem State.Formed.packetStart {s : State} {q : Nat} (hs : s.Formed) : (s.packetStart q).Formed := by
  unfold State.packetStart
  refine .ite hs ?_
  split
  · exact hs
  · refine .ite hs ?_
    split
    · exact .refusePacket hs
    · extract_lets opc own wait desc codes
      refine .ite hs (.ite hs ?_)
      split
      · exact .refusePacket hs
      · exact .startCommand hs

theorem State.Formed.writeQctl {s : State} {q : Nat} {v mask : DWord} (hs : s.Formed) : (s.writeQctl q v mask).Formed := by
  unfold State.writeQctl
  extract_lets r on n n1 n2 clear n3 e s1 s2 _ _ s3
  have h1 : s1.Formed := hs.same rfl
  clear_value s1
  have h2 : s2.Formed := .ite (h1.same rfl) h1
  clear_value s2
  have h3 : s3.Formed := .abandon (.dropLists h2)
  clear_value s3
  refine .ite (h2.same rfl) (.ite ?_ h2)
  split
  · exact h3.same rfl
  · exact h3

theorem State.Formed.logDoorbell {s : State} {q v : Nat} (hs : s.Formed) : (s.logDoorbell q v).Formed :=
  .ite (.raiseInt hs) (Mem.wf_store _ _ _ hs)

theorem State.Formed.ring {s : State} {q v : Nat} (hs : s.Formed) : (s.ring q v).Formed := .ite hs (.ite (.logDoorbell hs) hs)

theorem State.Formed.doorbell {s : State} {m : Master} {q off size v : Nat} (hs : s.Formed) : (s.doorbell m q off size v).Formed := by
  dsimp only [State.doorbell]
  split
  · exact hs
  all_goals exact .ite (.blockWrite hs (fun _ hs2 => .ring hs2)) hs

/-! ## Reset and boot -/

theorem State.Formed.loadLife {s : State} (hs : s.Formed) : s.loadLife.Formed :=
  .setField (.setField (.setField (.foldl (fun _ _ hs1 => .setField hs1) (.foldl (fun _ _ hs1 => .setField hs1) (.foldl (fun _ _ hs1 =>
    .setField hs1) hs)))))

theorem State.Formed.loadColmap {s : State} (hs : s.Formed) : s.loadColmap.Formed := .foldl (fun _ _ hs1 => .setReg hs1) hs

theorem State.Formed.newNonce {s : State} (hs : s.Formed) : s.newNonce.Formed := hs.same rfl

theorem State.Formed.powerOn {s : State} (hs : s.Formed) : s.powerOn.Formed :=
  .newNonce (.loadColmap (.loadLife (Mem.wf_hostOnly hs)))

theorem State.Formed.moduleReset {s : State} (hs : s.Formed) : s.moduleReset.Formed :=
  .newNonce (.setField (.loadLife (Mem.wf_hostOnly hs)))

theorem State.Formed.flr {s : State} {m : Master} (hs : s.Formed) : (s.flr m).Formed := by
  dsimp only [State.flr]
  split
  · exact hs
  · exact hs
  · exact .ite (.moduleReset hs) hs
  · exact .ite (.moduleReset hs) hs

theorem State.Formed.writeMsixControl {s : State} {on held : Bool} (hs : s.Formed) : (s.writeMsixControl on held).Formed :=
  .foldl (fun _ _ hs1 => .msixDeliver hs1) hs

theorem State.Formed.configWrite {s : State} {req : BitVec 16} {w : ConfigWrite} (hs : s.Formed) : (s.configWrite req w).Formed := by
  dsimp only [State.configWrite]
  split
  · exact .flr hs
  · exact .ite (.writeMsixControl hs) hs
  · exact .ite hs hs

theorem State.Formed.setStage {s : State} {n : Nat} (hs : s.Formed) : (s.setStage n).Formed := .ite (.raiseInt hs) hs

theorem State.Formed.firmwareStart {s : State} (hs : s.Formed) : s.firmwareStart.Formed :=
  .push (.foldl (fun _ _ hs1 => .setCtx hs1) (.foldl (fun _ _ hs1 => .writeSavepool hs1) (.setStage hs)))

theorem State.Formed.leaveLoad {s : State} (hs : s.Formed) : s.leaveLoad.Formed := .ite (.firmwareStart hs) hs

theorem State.Formed.loadImage {s : State} {b : List Byte} {slot : Nat} {recov : Bool} (hs : s.Formed) :
    (s.loadImage b slot recov).Formed :=
  .leaveLoad (Mem.wf_foldl (fun _ _ hm1 => Mem.wf_store _ _ _ hm1) (State.Formed.ite hs hs))

theorem State.Formed.romVerify {s : State} (hs : s.Formed) : s.romVerify.Formed := by
  dsimp only [State.romVerify]
  split
  · exact hs
  · split
    · exact .loadImage (.setStage (.loadColmap (.ite hs hs)))
    · exact .setStage (.setStage (.loadColmap (.ite hs hs)))

theorem State.Formed.bootReady {s : State} (hs : s.Formed) : s.bootReady.Formed := .ite (.setStage hs) hs

theorem State.Formed.bootRetry {s : State} {m : Master} (hs : s.Formed) : (s.bootRetry m).Formed := by
  dsimp only [State.bootRetry]
  split
  · split
    · exact .loadImage hs
    · exact hs
  · exact .ownerWrite hs fun _ hs1 => hs1

theorem State.Formed.trainingDone {s : State} {link : Nat} {up : Bool} {repaired : Nat} (hs : s.Formed) :
    (s.trainingDone link up repaired).Formed :=
  .ite hs (.leaveLoad (.raiseInt hs))

theorem State.Formed.watchdog {s : State} {die : Nat} (hs : s.Formed) : (s.watchdog die).Formed := .ite hs hs

theorem State.Formed.lifeChange {s : State} {m : Master} {target : Nat} (hs : s.Formed) : (s.lifeChange m target).Formed := by
  dsimp only [State.lifeChange]
  split
  · exact hs
  · split
    · exact hs
    · exact .ite hs (.ite hs (.ite hs (.moduleReset hs)))

/-! ## Domains -/

theorem State.Formed.loseReach {s : State} {d : Nat} (hs : s.Formed) : (s.loseReach d).Formed := .ite (.losePath hs) hs

theorem State.Formed.gainReach {s : State} {d : Nat} (hs : s.Formed) : (s.gainReach d).Formed := .ite hs hs

theorem State.Formed.setCk {s : State} {n : Nat} (hs : s.Formed) : (s.setCk n).Formed := .ite (.raiseInt hs) hs

theorem State.Formed.ckFail {s : State} (hs : s.Formed) : s.ckFail.Formed := .ite (State.Formed.setCk hs) hs

theorem FormedIf.ckWrite {s : State} {o n : Nat} (hs : s.Formed) : FormedIf (s.ckWrite o n) := .ite (.some hs) (.ite .none (.some hs))

theorem State.Formed.deviceWrite {s : State} {o : Nat} {data : List Byte} {poison : Bool} (hs : s.Formed) :
    (s.deviceWrite o data poison).Formed := by
  dsimp only [State.deviceWrite]
  split
  · exact hs
  next t e =>
    have ht : t.Formed := FormedIf.get (.ckWrite hs) e
    exact .homeWrite ht

theorem State.Formed.ckGo {s : State} (hs : s.Formed) : s.ckGo.Formed := .ite hs (.ite (.setCk hs) hs)

theorem State.Formed.writeCkptctl {s : State} {v mask : DWord} (hs : s.Formed) : (s.writeCkptctl v mask).Formed := .ite (.ckGo hs) hs

theorem State.Formed.resend {s : State} {k : Nat} (hs : s.Formed) : (s.resend k).Formed := by
  dsimp only [State.resend]
  split
  · exact hs
  · split
    · exact hs
    · exact State.Formed.foldl (fun _ _ hs3 => .sendOut hs3) hs

theorem State.Formed.loseAll {s : State} {d : Nat} (hs : s.Formed) : (s.loseAll d).Formed := .foldl (fun _ _ hs1 => .lost hs1) hs

theorem State.Formed.unreachable {s : State} {d : Nat} (hs : s.Formed) : (s.unreachable d).Formed :=
  .ite (.ckFail (.loseAll (.loseReach hs))) (.loseAll (.loseReach hs))

theorem State.Formed.portChange {s : State} {p : Nat} {up : Bool} (hs : s.Formed) : (s.portChange p up).Formed :=
  .ite hs (.foldl (fun _ _ hs1 => .ite (.resend hs1) hs1) (.raiseInt hs))

theorem State.Formed.writeSoport {s : State} {p : Nat} {v mask : DWord} (hs : s.Formed) : (s.writeSoport p v mask).Formed :=
  .ite hs (.ite hs (.portChange hs))

theorem State.Formed.writeXlink {s : State} {i : Nat} {v mask : DWord} (hs : s.Formed) : (s.writeXlink i v mask).Formed := .ite hs hs

theorem State.Formed.writeDomcfg {s : State} {v mask : DWord} (hs : s.Formed) : (s.writeDomcfg v mask).Formed :=
  .ite (.ite (.ckFail (.foldl (fun _ _ hs1 => .lost hs1) (.foldl (fun _ _ hs1 => .loseReach hs1) hs))) (.foldl (fun _ _ hs1 => .lost hs1)
    (.foldl (fun _ _ hs1 => .loseReach hs1) hs))) hs

/-! ## The BARs -/

theorem State.Formed.writeMsix {s : State} {o : Nat} {v mask : DWord} (hs : s.Formed) : (s.writeMsix o v mask).Formed :=
  .msixDeliver (Mem.wf_store _ _ _ hs)

theorem State.Formed.writeMcb {s : State} {r : Reg} {v mask : DWord} (hs : s.Formed) : (s.writeMcb r v mask).Formed := by
  dsimp only [State.writeMcb]
  split
  · exact .writeDramclk hs
  · exact hs
  · exact .ite hs hs
  · exact .ite hs hs
  · exact .writeXlink hs
  · exact .writeSoport hs
  · exact .writeDomcfg hs
  · exact hs
  · exact .writeCkptctl hs
  · exact hs
  · exact hs
  · exact .writeTlbinv hs
  · exact hs
  · exact .writeSplctl hs
  · exact hs
  · exact hs
  · exact .ite hs hs
  · exact hs

theorem State.Formed.slotWrite {s : State} {m : Master} {v mask : DWord} {a : Slot} (hs : s.Formed) : (s.slotWrite m v mask a).Formed := by
  dsimp only [State.slotWrite]
  split
  · exact .ite hs (.ownreq hs)
  · exact .ite (.lifeChange hs) hs
  · exact .ite (.bootRetry hs) hs
  · exact hs
  · exact .afterInt hs
  · exact .ite hs hs
  · exact hs
  · exact .writeMsix hs
  · exact hs
  · exact .writeQctl hs
  · exact .ite hs hs
  · exact Mem.wf_store _ _ _ hs
  · exact .ite hs (.clearShadow hs)
  · exact .faultRespond hs
  · exact .writeMcb hs
  all_goals exact hs

theorem State.Formed.slotRights {s : State} {m : Master} {o : Nat} {f : State → State} (hs : s.Formed)
    (hf : ∀ x0, x0.Formed → (f x0).Formed) : (s.slotRights m o f).Formed :=
  .ite (hf _ hs) (.ite (hf _ hs) (.ite (.ownerWrite hs hf) (.blockWrite hs hf)))

theorem State.Formed.registerWrite {s : State} {m : Master} {off size : Nat} {v : DWord} (hs : s.Formed) :
    (s.registerWrite m off size v).Formed :=
  .ite hs (.slotRights hs (fun _ hs1 => .slotWrite hs1))

theorem State.Formed.registerRead {s : State} {m : Master} {bar2 : Bool} {off n : Nat} (hs : s.Formed) :
    (s.registerRead m bar2 off n).Formed :=
  .ite hs hs

theorem State.Formed.mcbWrite {s : State} {off : Nat} {v : DWord} (hs : s.Formed) : (s.mcbWrite off v).Formed := by
  dsimp only [State.mcbWrite]
  split
  · exact hs
  · exact .slotWrite hs

theorem State.Formed.memWrite {s : State} {m : Master} {off n : Nat} {recovery : Bool} {f : State → State} (hs : s.Formed)
    (hf : ∀ x0, x0.Formed → (f x0).Formed) : (s.memWrite m off n recovery f).Formed :=
  .ite (hf _ hs) (.blockWrite hs hf)

theorem State.Formed.memAccess {s : State} {m : Master} {off n : Nat} {data : Option (List Byte)} {recovery : Bool} (hs : s.Formed) :
    (s.memAccess m off n data recovery).Formed := by
  dsimp only [State.memAccess]
  split
  · split <;> exact hs
  · split
    · exact .ite hs (.ite hs hs)
    · exact .memWrite hs fun _ hs2 => .ite hs2 (.deviceWrite hs2)

theorem State.Formed.snoop {s : State} {addr : Nat} {inval : Bool} (hs : s.Formed) : (s.snoop addr inval).Formed := by
  unfold State.snoop
  extract_lets pk ps dirty s1
  have h1 : s1.Formed := by
    refine .foldl (fun s p hs => ?_) hs
    have ht : (if inval then s.flushLine p pk else s.cleanLine p pk).Formed := .ite (.flushLine hs) (.cleanLine hs)
    dsimp only
    split
    · exact .ite (.dropStash ht) (.cleanStash ht)
    · exact ht
  clear_value s1
  exact h1

/-! ## Vector words -/

theorem W.Keeps.checkV {d : VDst} {l : List VSrc} {extra : Lame} : (checkV d l extra).Keeps := .lowest

theorem W.Keeps.oldD {a : VDst} : (oldD a).Keeps := by
  dsimp only [Machine.oldD]
  split
  · exact .wSrc
  · exact .pure

theorem W.Keeps.optSrc {a : Option VSrc} : (optSrc a).Keeps := by
  dsimp only [Machine.optSrc]
  split
  · exact .vSrc
  · exact .pure

theorem W.Keeps.vMerged {lat : Nat} {d : VDst} {a : VSrc} {b : Option VSrc} {readD draws : Bool} {f : LaneFn} :
    (vMerged lat d a b readD draws f).Keeps :=
  .bind .getMe fun _ => .bind .checkV fun _ => .bind .vSrc fun _ => .bind .optSrc fun _ => .bind .oldD fun _ => .bind .modMe fun _ => .landV

theorem W.Keeps.vTrans {d : VDst} {a : VSrc} {x : Trans} : (vTrans d a x).Keeps :=
  .bind .needFeature fun _ => .bind .getMe fun _ => .vMerged

theorem W.Keeps.vCompare {op : VCmp} {d : KIdx} {a b : VSrc} : (vCompare op d a b).Keeps :=
  .bind .getMe fun _ => .bind .lowest fun _ => .bind .vSrc fun _ => .bind .vSrc fun _ => .modS fun _ hs => hs

theorem W.Keeps.vSelect {d : VDst} {a b : VSrc} : (vSelect d a b).Keeps :=
  .bind .getMe fun _ => .bind .checkV fun _ => .bind .vSrc fun _ => .bind .vSrc fun _ => .landV

theorem W.Keeps.landK {d : KIdx} {x : Lamed Mask} : (landK d x).Keeps := .land

theorem W.Keeps.vReduce {op : Red} {d : VDst} {a : VSrc} : (vReduce op d a).Keeps :=
  .bind .getMe fun _ => .bind .checkV fun _ => .bind .vSrc fun _ => .bind .modMe fun _ => .landV

theorem W.Keeps.deferOrder {l : List Nat} : (deferOrder l).Keeps := .bind .getS fun _ => .ite .hold .pure

theorem State.Formed.deferWrite {s : State} {value lane etype index : Nat} (hs : s.Formed) : (s.deferWrite value lane etype index).Formed :=
  Mem.wf_write _ _ _ hs

theorem State.Formed.deferLanes {e : EType} {l js : List Nat} {s : State} (hs : s.Formed) : (deferLanes e l js s).1.Formed := by
  induction js generalizing s with
  | nil => exact hs
  | cons j t ih =>
    unfold Machine.deferLanes
    dsimp only
    split
    · exact ih ((State.Formed.deferWrite hs).same rfl)
    · exact ih hs

/-! ## Conversions -/

theorem W.Keeps.vConvert {target : Fmt} {d : VDst} {a : VSrc} {cc : CvtCtl} : (vConvert target d a cc).Keeps :=
  .bind .getMe fun _ => .bind .checkV fun _ => .bind .vSrc fun _ => .bind .oldD fun _ => .bind .modMe fun _ => .landV

theorem W.Keeps.vQuantise {d : VDst} {a : VSrc} {cc : MxCtl} : (vQuantise d a cc).Keeps :=
  .bind .getMe fun _ => .bind .checkV fun _ => .bind .vSrc fun _ => .bind .oldD fun _ => .bind .modMe fun _ => .landV

theorem W.Keeps.vDequantise {d : VDst} {a : VSrc} {cc : MxCtl} : (vDequantise d a cc).Keeps :=
  .bind .getMe fun _ => .bind .checkV fun _ => .bind .vSrc fun _ => .bind .oldD fun _ => .bind .modMe fun _ => .landV

/-! ## Frames of other modules -/

theorem State.Formed.sendAck {s : State} {p dst cls : Nat} (hs : s.Formed) : (s.sendAck p dst cls).Formed := by
  dsimp only [State.sendAck]
  split <;> exact hs

theorem State.Formed.frameIn {s : State} {p : Nat} {f : Frame} {act : State → State} (hs : s.Formed)
    (hact : ∀ x0, x0.Formed → (act x0).Formed) : (s.frameIn p f act).Formed :=
  .ite hs (.ite hs (.ite hs (.ite (State.Formed.gainReach hs) (.ite (.sendAck (State.Formed.gainReach hs)) (hact _ (.sendAck
    (State.Formed.gainReach hs)))))))

theorem State.Formed.typed {s : State} {p : Nat} {f : Frame} {type : Nat} {act : State → State} (hs : s.Formed)
    (hact : ∀ x0, x0.Formed → (act x0).Formed) : (s.typed p f type act).Formed :=
  .ite (.frameIn hs hact) hs

theorem State.Formed.respond {s : State} {f : Frame} {type : Nat} {data : List Byte} {poison : Bool} (hs : s.Formed) :
    (s.respond f type data poison).Formed :=
  .sendFrame hs

theorem State.Formed.serveCkRead {s : State} {f : Frame} (hs : s.Formed) : (s.serveCkRead f).Formed := by
  unfold State.serveCkRead
  exact .ite hs (.sendFrame hs)

theorem State.Formed.serveRead {s : State} {f : Frame} (hs : s.Formed) : (s.serveRead f).Formed :=
  .ite (.respond hs) (.ite (.ite (.respond hs) (.respond hs)) (.ite (.respond hs) (.ite (.respond hs) (.respond hs))))

theorem State.Formed.serveWrite {s : State} {f : Frame} (hs : s.Formed) : (s.serveWrite f).Formed :=
  .ite (.ite (.respond hs) (.respond (.registerWrite hs))) (.ite (.respond hs) (.respond (.deviceWrite hs)))

theorem State.Formed.serveAtomic {s : State} {f : Frame} (hs : s.Formed) : (s.serveAtomic f).Formed := by
  unfold State.serveAtomic
  extract_lets code n
  refine .ite (.respond hs) ?_
  split
  · exact State.Formed.respond (s := s.ckRefuse) hs
  next t e =>
    have ht : t.Formed := FormedIf.get (.ckWrite hs) e
    exact .respond (.atomicAt ht)

theorem State.Formed.takeData {s : State} {f : Frame} (hs : s.Formed) : (s.takeData f).Formed := by
  dsimp only [State.takeData]
  split
  · exact hs
  · exact .ite (.answer hs) (.answer hs)

theorem State.Formed.takeDone {s : State} {f : Frame} (hs : s.Formed) : (s.takeDone f).Formed := by
  dsimp only [State.takeDone]
  split
  · exact hs
  · exact .answer hs

theorem State.Formed.takeOld {s : State} {f : Frame} (hs : s.Formed) : (s.takeOld f).Formed := by
  dsimp only [State.takeOld]
  split
  · exact hs
  · exact .ite (State.Formed.answer hs) (.answer hs)

theorem State.Formed.sendCk {s : State} {q : Nat} {f : Frame} (hs : s.Formed) : (s.sendCk q f).Formed := .sendFrom hs

theorem State.Formed.ckSend {s : State} {i : Nat} (hs : s.Formed) : (s.ckSend i).Formed :=
  State.Formed.foldl (fun _ _ hs1 => .sendCk hs1) hs

theorem State.Formed.ckAsk {s : State} {piece : Nat} (hs : s.Formed) : (s.ckAsk piece).Formed := State.Formed.sendCk hs

theorem State.Formed.ckPassEnd {s : State} (hs : s.Formed) : s.ckPassEnd.Formed :=
  .ite (State.Formed.setCk hs) (.ite hs (State.Formed.setCk hs))

theorem State.Formed.ckTick {s : State} (hs : s.Formed) : s.ckTick.Formed := by
  dsimp only [State.ckTick]
  split
  · exact hs
  · split
    · exact .ckFail hs
    · split
      · split
        · exact .ite (.ckAsk hs) hs
        · exact .ite (.ite hs (.ckAsk hs)) (.ite (State.Formed.setCk hs) hs)
      · split
        · exact hs
        · split
          · exact .ite hs (.ckSend hs)
          · exact .ite (.ite hs (.ckSend hs)) (.ite (.ckPassEnd hs) hs)

theorem State.Formed.ckAcked {s : State} {f : Frame} (hs : s.Formed) : (s.ckAcked f).Formed := .ite hs hs

theorem State.Formed.ckReject {s : State} {i : Nat} (hs : s.Formed) : (s.ckReject i).1.Formed := by
  dsimp only [State.ckReject]
  split
  · exact .ckFail hs
  · exact hs

theorem State.Formed.ckNaked {s : State} {f : Frame} (hs : s.Formed) : (s.ckNaked f).Formed := by
  dsimp only [State.ckNaked]
  split
  · split
    next t e =>
      have ht : t.Formed := .of_fst (.ckReject hs) e
      exact ht
    next t e =>
      have ht : t.Formed := .of_fst (.ckReject hs) e
      exact ht
  · exact hs

theorem State.Formed.ckPiece {s : State} {piece : Nat} {f : Frame} (hs : s.Formed) : (s.ckPiece piece f).Formed := by
  unfold State.ckPiece
  extract_lets i o m m1 old bits' crc _ c s1 _ s2
  have hm : m.wf = true := Mem.wf_write _ _ _ hs
  have hm1 : m1.wf = true := Mem.wf_ite (Mem.wf_taint _ _ _ hm) hm
  clear_value m1
  have h1 : s1.Formed := .of_mem hm1
  clear_value s1
  have h2 : s2.Formed := h1.same rfl
  clear_value s2
  refine .ite h1 (.ite (.sendCk (h2.same rfl)) ?_)
  split
  next t e => exact .of_fst (.ckReject h2) e
  next t e =>
    have ht : t.Formed := .of_fst (.ckReject h2) e
    exact ht.same rfl

theorem State.Formed.storeCk {s : State} {f : Frame} (hs : s.Formed) : (s.storeCk f).Formed := by
  dsimp only [State.storeCk]
  split
  · split
    · exact .ckPiece hs
    · exact hs
  · exact .ite hs (.ite (.deviceWrite hs) (.sendFrame (.deviceWrite hs)))

theorem State.Formed.takeCk {s : State} {p : Nat} {f : Frame} (hs : s.Formed) : (s.takeCk p f).Formed := by
  dsimp only [State.takeCk]
  split
  · exact hs
  · exact .ite hs (.storeCk hs)

theorem State.Formed.serve {s : State} {f : Frame} (hs : s.Formed) : (s.serve f).Formed := by
  dsimp only [State.serve]
  split
  · exact .ite (.serveCkRead hs) (.serveRead hs)
  · exact .serveWrite hs
  · exact .serveAtomic hs
  · exact .ite (.storeCk hs) hs
  · exact hs

theorem State.Formed.request' {s : State} {f : Frame} (hs : s.Formed) : (s.request' f).Formed := .ite hs (.serve hs)

theorem State.Formed.devPerform {s : State} {id : Nat} (hs : s.Formed) : (s.devPerform id).Formed := by
  dsimp only [State.devPerform]
  split
  · exact hs
  · split
    · exact .ite hs (.serve hs)
    · split
      · exact hs
      · split
        · exact hs
        · exact .deviceWrite hs
    · exact .ite hs (.homeWrite hs)
    · exact hs

theorem State.Formed.retransmit {s : State} {dst cls : Nat} (hs : s.Formed) : (s.retransmit dst cls).Formed := by
  dsimp only [State.retransmit]
  split
  · exact hs
  · exact .ite hs (.ite (.unreachable hs) (.resend hs))

theorem State.Formed.setLink {s : State} {l n : Nat} (hs : s.Formed) : (s.setLink l n).Formed := .raiseInt hs

theorem State.Formed.resendFlits {s : State} {l : Nat} {seq : Byte} (hs : s.Formed) : (s.resendFlits l seq).Formed :=
  .ite (.foldl (fun _ _ hs1 => .push (.emit hs1)) hs) (.foldl (fun _ _ hs1 => .later hs1) hs)

theorem State.Formed.linkNak {s : State} {l : Nat} {seq : Byte} (hs : s.Formed) : (s.linkNak l seq).Formed :=
  .ite hs (.ite (.setLink hs) (.resendFlits hs))

theorem State.Formed.linkDown {s : State} {l : Nat} (hs : s.Formed) : (s.linkDown l).Formed :=
  .ite (.foldl (fun _ _ hs1 => .nestCheck hs1) (.setLink hs)) (.setLink hs)

theorem State.Formed.retrained {s : State} {l : Nat} {up : Bool} (hs : s.Formed) : (s.retrained l up).Formed :=
  .ite hs (.ite (.resendFlits (.setLink hs)) (.linkDown hs))

theorem State.Formed.creditIn {s : State} {l : Nat} (hs : s.Formed) : (s.creditIn l).Formed := .ite hs hs

/-! ## Sessions -/

theorem State.Formed.reply {s : State} {c : Nat} {req : List Byte} {code : Byte} {data : List Byte} (hs : s.Formed) :
    (s.reply c req code data).Formed :=
  hs

theorem State.Formed.spErr {s : State} {c : Nat} {code : Byte} (hs : s.Formed) : (s.spErr c code).Formed := hs

theorem State.Formed.whenReady {s : State} {c : Nat} {f : State → State} (hs : s.Formed) (hf : ∀ x0, x0.Formed → (f x0).Formed) :
    (s.whenReady c f).Formed :=
  .ite (hf _ hs) hs

theorem State.Formed.ifShort {s : State} {c n : Nat} {f : State → State} (hs : s.Formed) (hf : ∀ x0, x0.Formed → (f x0).Formed) :
    (s.ifShort c n f).Formed :=
  .ite hs (hf _ hs)

theorem State.Formed.signTranscript {s : State} {c : Nat} {req data : List Byte} (hs : s.Formed) : (s.signTranscript c req data).1.Formed :=
  hs

theorem State.Formed.nonce32 {s : State} (hs : s.Formed) : (s.nonce32).1.Formed := hs

theorem State.Formed.getCapabilities {s : State} {c : Nat} (hs : s.Formed) : (s.getCapabilities c).Formed := .ite hs hs

theorem State.Formed.negotiate {s : State} {c : Nat} {offered : List Word} (hs : s.Formed) : (s.negotiate c offered).Formed :=
  .ite hs (.ite hs (.ite hs hs))

theorem State.Formed.getDigests {s : State} {c : Nat} (hs : s.Formed) : (s.getDigests c).Formed := .whenReady hs fun _ hs1 => hs1

theorem State.Formed.getCertificate {s : State} {c slot off len : Nat} (hs : s.Formed) : (s.getCertificate c slot off len).Formed := by
  dsimp only [State.getCertificate]
  refine .whenReady hs fun _ hs1 => ?_
  split
  · exact hs1
  · exact .ite hs1 hs1

theorem State.Formed.challenge {s : State} {c slot : Nat} {nonce : BitVec 256} (hs : s.Formed) : (s.challenge c slot nonce).Formed :=
  .whenReady hs fun _ hs1 => .ite (.spErr hs1) (.reply (.signTranscript (.nonce32 hs1)))

theorem State.Formed.getMeasurements {s : State} {c i : Nat} {sign : Bool} {nonce : BitVec 256} (hs : s.Formed) :
    (s.getMeasurements c i sign nonce).Formed := by
  dsimp only [State.getMeasurements]
  refine .whenReady hs fun _ hs1 => ?_
  split
  · exact .spErr hs1
  · exact .ite (.spErr hs1) (.ite (.reply (.signTranscript (.nonce32 hs1))) (.reply (.nonce32 hs1)))

theorem State.Formed.keyExchange {s : State} {c slot : Nat} {key : List Byte} (hs : s.Formed) : (s.keyExchange c slot key).Formed := by
  refine .whenReady hs fun s hs => .ite hs ?_
  split <;> exact hs

theorem State.Formed.finish {s : State} {c i : Nat} {hmac : List Byte} (hs : s.Formed) : (s.finish c i hmac).Formed := by
  dsimp only [State.finish]
  split
  · exact hs
  · exact .ite hs (.ite hs (.ite hs hs))

theorem State.Formed.inSession {s : State} {c i : Nat} {f : Session → State} (hs : s.Formed) (hf : ∀ x0, (f x0).Formed) :
    (s.inSession c i f).Formed := by
  dsimp only [State.inSession]
  split
  · exact .ite (hf _) hs
  · exact hs

theorem State.Formed.heartbeat {s : State} {c i : Nat} (hs : s.Formed) : (s.heartbeat c i).Formed := .inSession hs fun _ => hs

theorem State.Formed.keyUpdate {s : State} {c i : Nat} {op : Byte} (hs : s.Formed) : (s.keyUpdate c i op).Formed :=
  .inSession hs fun _ => .ite hs hs

theorem State.Formed.endSession {s : State} {c i : Nat} (hs : s.Formed) : (s.endSession c i).Formed := .inSession hs fun _ => hs

theorem State.Formed.ideManage {s : State} {c : Nat} {payload : List Byte} (hs : s.Formed) : (s.ideManage c payload).Formed := by
  dsimp only [State.ideManage]
  split
  · exact hs
  · split
    · exact hs
    · exact hs
    · exact .ite hs hs
    · exact hs
    · exact hs

theorem State.Formed.vendor {s : State} {c : Nat} {std : BitVec 16} {vendor : Word} {payload : List Byte} (hs : s.Formed) :
    (s.vendor c std vendor payload).Formed :=
  .whenReady hs fun _ hs1 => .ifShort hs1 fun _ hs2 => .ite (.ideManage hs2) (.ite hs2 hs2)

/-! ## Every instruction -/

/-- Every instruction keeps the canonical form: the words of a pipe by what their effect keeps, the others by the function they name. -/
theorem FormedAfter.exec {i : Instr} {s : State} (hs : s.Formed) : FormedAfter (exec i s) := by
  cases i with
  | powerOnReset => exact .next (.powerOn hs)
  | moduleReset => exact .next (.flr hs)
  | romVerify => exact .next (.romVerify hs)
  | bootReady => exact .next (.bootReady hs)
  | bootRetry => exact .next (.bootRetry hs)
  | ucieTrainingComplete => exact .next (.trainingDone hs)
  | tempConversion => exact .next (.convert hs)
  | thermalControlTick => exact .next (.thermalTick hs)
  | powerControlTick => exact .next (.powerTick hs)
  | capeffUpdate => exact .next (.capeff hs)
  | groomCreditRefill => exact .next (.refillCredit hs)
  | dramclkStepWrite => exact .next (.blockWrite hs (fun _ hs1 => .writeDramclk hs1))
  | ratioChangeStart => exact .next (.ratioStart hs)
  | ratioChangeEnd => exact .next (.ratioEnd hs)
  | dramRefresh | getVersion | firmwareRestart | mcbdataWrite | deferqWrite => exact .next hs
  | shadowLatchDetect => exact .next (.shadowDetect hs)
  | shadowcntClear => exact .next (.blockWrite hs (fun _ hs1 => .clearShadow hs1))
  | colmapWrite => exact .next (.writeColmap hs)
  | traceFlitReceive => exact .next (.traceReceive hs)
  | reinFlitReceive => exact .next (.reinReceive hs)
  | creditReturn => exact .next (.creditIn hs)
  | linkNak => exact .next (.linkNak hs)
  | retrainComplete => exact .next (.retrained hs)
  | xlinkClear => exact .next (.blockWrite hs (fun _ hs1 => .writeXlink hs1))
  | portLinkChange => exact .next (.ite hs (.portChange hs))
  | soportClear => exact .next (.blockWrite hs (fun _ hs1 => hs1))
  | read | write | atomic => exact .next (.typed hs (fun _ hs1 => .request' hs1))
  | rdata => exact .next (.typed hs (fun _ hs1 => .takeData hs1))
  | wdone => exact .next (.typed hs (fun _ hs1 => .takeDone hs1))
  | atomrsp => exact .next (.typed hs (fun _ hs1 => .takeOld hs1))
  | ack => exact .next (.typed hs (fun _ hs1 => hs1))
  | nak => exact .next (.typed hs (fun _ hs1 => .ckNaked hs1))
  | ckdata => exact .next (.typed hs (fun _ hs1 => .takeCk hs1))
  | ckack => exact .next (.typed hs (fun _ hs1 => .ckAcked hs1))
  | retransmitTimeout => exact .next (.retransmit hs)
  | domcfgWrite => exact .next (.blockWrite hs (fun _ hs1 => .writeDomcfg hs1))
  | hostLinkLoss => exact .next (.ite (.losePath hs) hs)
  | bar4Read => exact .next (.ite (.registerRead hs) (.ite hs (.ite (.registerRead hs) (.memAccess hs))))
  | bar4Write | cxlMemAccess => exact .next (.ite (.memAccess hs) hs)
  | cxlSnoop => exact .next (.snoop hs)
  | checkpointSave | checkpointRestore => exact .next (.blockWrite hs (fun _ hs1 => .writeCkptctl hs1))
  | claim => exact .next (.claim hs)
  | offer => exact .next (.offer hs)
  | accept => exact .next (.accept hs)
  | release => exact .next (.release hs)
  | doorbell => exact .next (.doorbell hs)
  | queueEnable | queueDisable | queueResume => exact .next (.blockWrite hs (fun _ hs1 => .writeQctl hs1))
  | hiferrClear => exact .next (.ownerWrite hs (fun _ hs1 => hs1))
  | lifeCycleChange => exact .next (.ownerWrite hs (fun _ hs1 => .lifeChange hs1))
  | getCapabilities => exact .next (.getCapabilities hs)
  | negotiateAlgorithms => exact .next (.negotiate hs)
  | getDigests => exact .next (.getDigests hs)
  | getCertificate => exact .next (.getCertificate hs)
  | challenge => exact .next (.challenge hs)
  | getMeasurements => exact .next (.getMeasurements hs)
  | keyExchange => exact .next (.keyExchange hs)
  | finish => exact .next (.finish hs)
  | heartbeat => exact .next (.heartbeat hs)
  | keyUpdate => exact .next (.keyUpdate hs)
  | endSession => exact .next (.endSession hs)
  | vendorDefinedRequest => exact .next (.vendor hs)
  | commandNop => exact .next (.commandNop hs)
  | graphRun => exact .next (.graphRun hs)
  | graphInstall => exact .next (.graphInstall hs)
  | patch => exact .next (.patch hs)
  | kernel => exact .next (.kernel hs)
  | copy => exact .next (.copy hs)
  | flagset => exact .next (.flagset hs)
  | flagwait => exact .next (.flagwait hs)
  | flagwaitSatisfied => exact .next (.flagwaitOk hs)
  | indirect => exact .next (.indirect hs)
  | commandComplete => exact .next (.commandComplete hs)
  | replayStart => exact .next (.releasePatches (.replayStart hs))
  | kernelNodeLaunch | surrogateNode => exact .next (.launchNode hs)
  | conditionalNode => exact .next (.condNode hs)
  | loopNode => exact .next (.loopNode hs)
  | loopIterationEnd => exact .next (.loopEnd hs)
  | signalNode => exact .next (.signalNode hs)
  | copyNode => exact .next (.copyNode hs)
  | nodeComplete => exact .next (.nodeComplete hs)
  | replayComplete => exact .next (.replayComplete hs)
  | admitWrite => exact .next (.writeAdmit hs)
  | headCommit => exact .next (.writeHead hs)
  | consCommit => exact .next (.writeDblstat hs)
  | packetStart => exact .next (.packetStart hs)
  | watchdogExpiry => exact .next (.watchdog hs)
  | mcbselRead => exact .next (.writeMcbsel hs)
  | brkend => exact .next (.writeBrkend hs)
  | stallwearWrite => exact .next (.writeWear hs)
  | featmaskWrite => exact .next (.writeFeat hs)
  | registerWrite => exact .next (.registerWrite hs)
  | wearSample => exact .next (.wearSample hs)
  | threshUpdate => exact .next (.threshUpdate hs)
  | lifeRecordWrite => exact State.Formed.lifeRecord hs
  | riderRecordGrant => exact .execRiderRecordGrant hs
  | riderPlace => exact .next (.placeRider hs)
  | spillExpiry => exact .next (.spill hs)
  | preemptwaitExpiry => exact .next (.preempt hs)
  | stopAcknowledge => exact .next (.stopAck hs)
  | collectlimExpiry => exact .next (.collectLim hs)
  | saveImageComplete => exact .next (.saveDone hs)
  | restartableReexecution => exact .next (.reexec hs)
  | surrogateFallback => exact .next (.fallback hs)
  | maintenanceMove => exact .next (.beginMove hs)
  | moveCopyComplete => exact .next (.endMove hs)
  | riderContextFree => exact .next (.contextFree hs)
  | hbarPhaseComplete => exact .next (.phaseComplete hs)
  | waitTimeout => exact .next (.waitTimeouts hs)
  | implicitWaitExpiry => exact .next (.implicitExpiries hs)
  | ldfeRetry => exact .next (.ldfeRetry hs)
  | channelWaitSatisfied => exact .next (.chanWaits hs)
  | flgwaitPoll => exact .next (.flgPolls hs)
  | baysplitComplete => exact .next (.baysplits hs)
  | loadDataArrival => exact .next (.loadArrive hs)
  | xCommandPerform | engineRecordWrite => exact .next (.performCmd hs)
  | translationWalk => exact .execTranslationWalk hs
  | faultBatchClose => exact .next (.faultClose hs)
  | faultBatchWrite => exact .next (.faultWrite hs)
  | faultRetry | faultAbort => exact .next (.blockWrite hs (fun _ hs1 => .faultRespond hs1))
  | tlbInvalidate => exact .next (.blockWrite hs (fun _ hs1 => .writeTlbinv hs1))
  | splinter => exact .next (.blockWrite hs (fun _ hs1 => .writeSplctl hs1))
  | lineWriteback => exact .next (.lineWriteback hs)
  | cleanLineDrop => exact .next (.lineDrop hs)
  | guardCommit => exact .execGuardCommit hs
  | nestGangStart => exact .next (.gangStart hs)
  | latchFillComplete => exact .next (.fillBegin (.fillDone hs))
  | arrayStep => exact .next (.arrayStep hs)
  | whiffletreeAccumulate => exact .next (.accumulate hs)
  | passBoundary => exact .next (.passBoundary hs)
  | epilogueStore => exact .next (.epilogue hs)
  | nestCollectDrain => exact .next (.nestDrain hs)
  | nestResume => exact .next (.nestResume hs)
  | seq => exact .runBare .goOn hs
  | loop => exact .runBare .loopWord hs
  | brk => exact .runBare .brkWord hs
  | ret => exact .runBare .retWord hs
  | jmp => exact .runBare .jmpWord hs
  | call => exact .runBare .callWord hs
  | yield => exact .runBare .yieldWord hs
  | waitbrk => exact .runBare .waitbrkWord hs
  | stop => exact .runBare .stopWord hs
  | nop => exact .runWord .pure hs
  | add | sub | mul | mulhu | and | or | xor | shl | shr | sra | min | max | minu | maxu => exact .runWord .sOp2 hs
  | divu | remu => exact .runBare (.bind .divideFree fun _ => .guarded .divide) hs
  | clz | popc | addi | andi | ori | xori | shli | shri | srai => exact .runWord .sOp1 hs
  | sel => exact .runBare .selWord hs
  | movi | movl => exact .runWord .land hs
  | cmpeq | cmpne | cmplt | cmpltu | cmpge | cmpgeu => exact .runWord .pOp2 hs
  | cmpeqi | cmplti | pfrom => exact .runWord .pOp1 hs
  | plog => exact .runWord .plogWord hs
  | setj => exact .runWord .setjWord hs
  | loopr => exact .runWord .looprWord hs
  | sfroma => exact .runWord .sfromaWord hs
  | sfromv => exact .runWord .sfromvWord hs
  | sfromn => exact .runWord .sfromnWord hs
  | csrr => exact .runWord .csrrWord hs
  | csrw => exact .runWord .csrwWord hs
  | trap => exact .runWord .trapWord hs
  | tret => exact .runWord .tretWord hs
  | feat => exact .runWord .featWord hs
  | spawn => exact .runWord .spawnWord hs
  | hitchCreate => exact .runWord .hitchCreateWord hs
  | hitchJoin => exact .runWord .hitchJoinWord hs
  | unhitch => exact .runWord .unhitchWord hs
  | hbar => exact .runWord .hbarWord hs
  | vwin => exact .runWord .vwinWord hs
  | vrot => exact .runWord .vrotWord hs
  | setvt => exact .runWord .setvtWord hs
  | srseed => exact .runWord .srseedWord hs
  | contain => exact .runWord .containWord hs
  | endcont => exact .runWord .endcontWord hs
  | chkl => exact .runWord .chklWord hs
  | rdcyc => exact .runWord .rdcycWord hs
  | vadd | vsub | vmul | vfma | vfms | vfnma | vmin | vmax | vabs | vneg | vclamp | vand | vor | vxor | vnot | vshl | vshr | vsra | vaddi
  | vimul | vpopc =>
    exact .runWord .vMerged hs
  | vrcp | vrsq | vexp2 | vlog2 | vtanh => exact .runWord .vTrans hs
  | vceq | vcne | vclt | vcle | vcun => exact .runWord .vCompare hs
  | vsel => exact .runWord .vSelect hs
  | kand | kor | kxor | knot | kfirst => exact .runWord (.bind .getMe fun _ => .landK) hs
  | kset => exact .runWord .landK hs
  | kany => exact .runWord (.bind .getMe fun _ => .land) hs
  | vrsum | vrmax | vrmin | vrimax => exact .runWord .vReduce hs
  | vmov => exact .runWord (.bind .checkV fun _ => .bind .vSrc fun _ => .landV) hs
  | stov => exact .runWord (.bind .getMe fun _ => .bind .wSrc fun _ => .landV) hs
  | viota => exact .runWord (.bind .getMe fun _ => .bind .checkVDst fun _ => .landV) hs
  | vperm => exact .runWord (.bind .checkV fun _ => .bind .getMe fun _ => .bind .vSrc fun _ => .bind .vSrc fun _ => .landV) hs
  | vslide | vlane | mxgets => exact .runWord (.bind .checkV fun _ => .bind .getMe fun _ => .bind .vSrc fun _ => .landV) hs
  | vcmpr | vxpnd => exact .runWord (.bind .getMe fun _ => .bind .checkV fun _ => .bind .vSrc fun _ => .landV) hs
  | cvtf32 | cvtbf16 | cvtf16 | cvte4m3 | cvte5m2 | cvte3m2 | cvte2m3 | cvte2m1 | cvti32 | cvti8 => exact .runWord .vConvert hs
  | mxq => exact .runWord .vQuantise hs
  | mxdq => exact .runWord .vDequantise hs
  | mxsets => exact .runWord (.bind .checkV fun _ => .bind .getMe fun _ => .bind .vSrc fun _ => .bind .wSrc fun _ => .landV) hs
  | vrand =>
    exact .runWord (.bind .needFeature fun _ => .bind .getMe fun _ => .bind .checkV fun _ => .bind .oldD fun _ => .bind .modMe fun _ =>
      .landV) hs
  | vdefer =>
    exact .runWord (.bind .getMe fun _ => .bind .lowest fun _ => .bind .vSrc fun _ => .bind .consume fun _ => .bind .deferOrder fun _ =>
      .bind .modMe fun _ => .getS_bind fun _ hs1 => .bind (.modS (fun _ hs2 => .deferLanes hs1)) fun _ => .land) hs
  | vdrain => exact .runWord (.bind .getS fun _ => .bind .lowest fun _ => .bind .deferOrder fun _ => .bind .modMe fun _ => .landV) hs
  | vlame => exact .runWord (.bind .checkVSrc fun _ => .bind .vSrc fun _ => .land) hs
  | vclrl => exact .runWord (.bind .windowOf fun _ => .land) hs
  | nfroms => exact .runM hs .nfromsWord
  | nseti => exact .runM hs .nsetiWord
  | ngo => exact .runM hs .ngoWord
  | nwait => exact .runM hs .nwaitWord
  | nstat => exact .runM hs .nstatWord
  | nfreeze | nthaw | wswap | ncutEnd | ncutAbandon => exact .runM hs (.bind .needMask fun _ => .toPort)
  | ndrain | nfill => exact .runM hs .moveWord
  | npos => exact .runM hs .nposWord
  | nseek | wfetch | aclr | epicfg => exact .runM hs (.bind .needMask fun _ => .bind .nUse fun _ => .toPort)
  | cksum => exact .runM hs .cksumWord
  | ldb | ldh | ldw | ldd => exact .runWord .loadWord hs
  | stb | sth | stw | std => exact .runWord .storeWord hs
  | ldv => exact .runWord .ldvWord hs
  | stv => exact .runWord .stvWord hs
  | ldfe => exact .runWord .ldfeWord hs
  | stfe => exact .runWord .stfeWord hs
  | feclr => exact .runWord .feclrWord hs
  | tdesc => exact .runWord .tdescWord hs
  | tread => exact .runWord .treadWord hs
  | twrite => exact .runWord .twriteWord hs
  | tgather => exact .runWord .tgatherWord hs
  | tscatter | tscadd => exact .runWord .tscatterWord hs
  | chcfg => exact .runWord .chcfgWord hs
  | chcfgOff => exact .runWord (.xRoom .pure .modMe) hs
  | chadv => exact .runWord .chadvWord hs
  | chrel => exact .runWord .chrelWord hs
  | chwaitf | chwaite => exact .runWord .chwaitWord hs
  | chstat => exact .runWord .chstatWord hs
  | rsend | rcast => exact .runWord .sendWord hs
  | aadd | amin | amax | aand | aor | axor | axchg | acas | afadd => exact .runWord .atomWord hs
  | fence => exact .runWord (.xRoom .pure (.bind .enqueue fun _ => .pure)) hs
  | flush | inval => exact .runWord .rangeWord hs
  | flgset => exact .runWord .flgsetWord hs
  | flgwait => exact .runWord .flgwaitWord hs
  | smap => exact .runWord .smapWord hs
  | sunmap => exact .runWord .sunmapWord hs
  | baysplit => exact .runWord .baysplitWord hs
  | gcheck => exact .runWord .gcheckWord hs
  | afroms => exact .runWord .afromsWord hs
  | aaddi => exact .runWord .aaddiWord hs
  | pref => exact .runWord .prefWord hs
  | configurationWrite => exact .next (.configWrite hs)
  | accumulatorCopyComplete => exact .next (.copyDone hs)
  | arraySelfTestComplete => exact .next (.selfTest hs)

/-! ## Groups -/

theorem A.Keeps.fetchPacket {k st va : Nat} : (fetchPacket k st va).Keeps :=
  .ite (.bind .aGet fun _ => .pure) (.bind .translate fun _ => .bind .aGet fun _ => .bind .readLine fun _ => .pure)

theorem State.Formed.blockBefore {s : State} {k : Nat} {w : WaitKind} (hs : s.Formed) : (s.blockBefore k w).Formed := .ite hs hs

/-- The state that the words of a group have come to has a formed memory. -/
def Run.Formed (r : Run) : Prop := r.s.Formed

theorem Run.Formed.after {r : Run} {o : Host.Outcome State Fault Refusal} (hr : r.Formed) (ho : FormedAfter o) : (r.after o).Formed := by
  unfold Run.after
  split
  next t =>
    split
    · exact ho
    all_goals exact hr
  · exact hr
  · exact hr

theorem Run.Formed.word {r : Run} {base : Pos} {w : GWord} (hr : r.Formed) : (r.word base w).Formed :=
  hr.after (.exec (State.Formed.same hr rfl))

theorem Run.Formed.words {base : Pos} {l : List GWord} {r : Run} (hr : r.Formed) : (l.foldl (fun r w => r.word base w) r).Formed := by
  induction l generalizing r with
  | nil => exact hr
  | cons w t ih => exact ih hr.word

theorem Run.Formed.push {r : Run} (hr : r.Formed) : r.push.Formed := by
  unfold Run.push
  split
  next t e => exact State.Formed.servePush hr e
  · exact hr
  · exact hr

theorem Run.Formed.select {r : Run} {base : Pos} {ws : List GWord} (hr : r.Formed) : (r.select base ws).Formed := by
  unfold Run.select
  extract_lets c
  split
  · exact hr.after (.runBare .goOn hr)
  next w _ =>
    split
    · split
      · exact hr.after (.execNestOwed (State.Formed.same hr rfl))
      · exact hr.after (.runBare .goOn (State.Formed.same hr rfl))
    · split
      · exact hr
      · extract_lets s
        have hs : s.Formed := State.Formed.same hr rfl
        split
        · exact hr.after (.runBare .goOn hs)
        · exact hr.after (.runBare .goOn hs)
        · exact hr.after (.runBare .loopWord hs)
        · exact hr.after (.runBare .brkWord hs)
        · exact hr.after (.runBare .retWord hs)
        · exact hr.after (.runBare .jmpWord hs)
        · exact hr.after (.runBare .callWord hs)
        · exact hr.after (.runBare .yieldWord hs)
        · exact hr.after (.runBare .waitbrkWord hs)
        · exact hr.after (.runBare .stopWord hs)

theorem Run.Formed.runGroup {s : State} {base : Pos} {ws : List GWord} (hs : s.Formed) : (runGroup s base ws).Formed := by
  unfold Machine.runGroup
  extract_lets r r0 r1 r2 r3 r4 r5
  have h : r.Formed := State.Formed.same hs rfl
  clear_value r
  have h1 : r1.Formed := .words (.words h)
  have h4 : r4.Formed := .words (.words (Run.Formed.words h1).push)
  clear_value r4
  split
  · exact h4.select
  · exact h4

theorem State.Formed.untick {s : State} {k : Nat} (hs : s.Formed) : (s.untick k).Formed := hs.same rfl

theorem FormedIf.issueFormed {s : State} {k : Nat} {ws : List Word} {poison : Bool} (hs : s.Formed) :
    FormedIf (s.issueFormed k ws poison) := by
  unfold State.issueFormed
  extract_lets pc _ s0
  have h0 : s0.Formed := hs.same rfl
  clear_value s0
  split
  next s1 ue e =>
    have h1 : s1.Formed := .of_fst (.tick h0) e
    extract_lets c1
    refine .ite (.some (.unwind h1)) (.ite (.some (.takeCause (.untick h1))) ?_)
    split
    · exact .some (.takeCause (.untick h1))
    next l _ =>
      extract_lets base r _ sel point units
      have hr : r.s.Formed := Run.Formed.runGroup h1
      refine .ite .none ?_
      split
      · exact .some (.takeCause (.untick (h1.same rfl)))
      · exact .some (hr.same rfl)

theorem State.Formed.fetchNext {k : Nat} {c : Ctx} {s : State} (hs : s.Formed) : (fetchNext k c s).2.Formed := A.Keeps.fetchPacket s hs

theorem State.Formed.fetchHalt {s : State} {k va kind : Nat} (hs : s.Formed) : (s.fetchHalt k va kind).Formed := .reportFault hs

theorem State.Formed.issue {s : State} {k : Nat} (hs : s.Formed) : (s.issue k).1.Formed := by
  dsimp only [State.issue]
  split
  next _ t e =>
    have ht : t.Formed := .of_snd (.fetchNext hs) e
    split
    · exact .fetchHalt ht
    · exact ht
    · exact ht
  next _ t e =>
    have ht : t.Formed := .of_snd (.fetchNext hs) e
    split
    next t2 e2 =>
      have ht2 : t2.Formed := FormedIf.get (.issueFormed ht) e2
      exact ht2
    · exact .blockBefore ht

theorem State.Formed.readyOf {s : State} {l : List Nat} (hs : s.Formed) : (s.readyOf l).1.Formed := by
  induction l generalizing s with
  | nil => exact hs
  | cons k t ih =>
    dsimp only [State.readyOf]
    split
    · exact ih hs
    next u e =>
      have hu : u.Formed := .of_fst (.issue hs) e
      exact ih hu

theorem State.Formed.tookSlot {s : State} {st k : Nat} {users : List Nat} (hs : s.Formed) : (s.tookSlot st k users).Formed :=
  .ite (.ite hs hs) hs

theorem State.Formed.contend {s : State} {st : Nat} (hs : s.Formed) : (s.contend st).1.Formed := .readyOf (.readyOf hs)

theorem State.Formed.slot {s : State} {st : Nat} (hs : s.Formed) : (s.slot st).Formed := by
  have hc : (({ s with turn := st + 1 } : State).contend st).1.Formed := .contend hs
  unfold State.slot
  split
  next t _ k e =>
    have ht : t.Formed := hc.of_fst e
    split
    next u e1 => exact .tookSlot (.of_fst (.issue ht) e1)
    next u e1 => exact .of_fst (.issue ht) e1
  next t _ e => exact hc.of_fst e

/-! ## What is due -/

theorem FormedAfter.runDue {s : State} {d : Due} (hs : s.Formed) : FormedAfter (s.runDue d) := by
  dsimp only [State.runDue]
  split
  · exact .exec hs
  · exact .ite (.next (.devPerform hs)) (.next (.performCmd hs))
  · exact .next (.loadArrive hs)
  · exact .next (.performCmd hs)
  · exact .next (.waitTimeouts hs)
  · exact .next (.implicitExpiries hs)
  · exact .next (.ldfeRetry hs)
  · exact .next (.chanWaits hs)
  · exact .next (.flgPolls hs)
  · exact .next (.baysplits hs)
  · exact .next (.phaseComplete hs)
  · exact .next (.contextFree hs)
  · exact .execGuardCommit hs
  · exact .next (.copyDone hs)
  · exact .next (.reinReceive hs)
  · exact .next (.lineWriteback hs)
  · exact .next (.lineDrop hs)
  · exact .next (.packetStart hs)
  · exact .next (.commandNop hs)
  · exact .next (.graphRun hs)
  · exact .next (.graphInstall hs)
  · exact .next (.patch hs)
  · exact .next (.kernel hs)
  · exact .next (.copy hs)
  · exact .next (.flagset hs)
  · exact .next (.flagwait hs)
  · exact .next (.flagwaitOk hs)
  · exact .next (.indirect hs)
  · exact .next (.commandComplete hs)
  · exact .next (.releasePatches (.replayStart hs))
  · exact .next (.launchNode hs)
  · exact .next (.condNode hs)
  · exact .next (.loopNode hs)
  · exact .next (.loopEnd hs)
  · exact .next (.launchNode hs)
  · exact .next (.signalNode hs)
  · exact .next (.copyNode hs)
  · exact .next (.nodeComplete hs)
  · exact .next (.replayComplete hs)
  · exact .execRiderRecordGrant hs
  · exact .next (.placeRider hs)
  · exact .next (.spill hs)
  · exact .next (.preempt hs)
  · exact .next (.stopAck hs)
  · exact .next (.collectLim hs)
  · exact .next (.saveDone hs)
  · exact .next (.reexec hs)
  · exact .next (.fallback hs)
  · exact .next (.beginMove hs)
  · exact .next (.endMove hs)
  · exact .next (.faultClose hs)
  · exact .next (.faultWrite hs)
  · exact .next (.splStep hs)
  · exact .next (.gangStart hs)
  · exact .next (.fillBegin (.fillDone hs))
  · exact .next (.arrayStep hs)
  · exact .next (.accumulate hs)
  · exact .next (.passBoundary hs)
  · exact .next (.epilogue hs)
  · exact .next (.nestDrain hs)
  · exact .next (.nestResume hs)
  · exact .next (.capeff hs)
  · exact .next (.refillCredit hs)
  · exact .next (.thermalTick hs)
  · exact .next (.ratioStart hs)
  · exact .next (.ratioEnd hs)
  · exact .next (.watchdog hs)
  · exact .next hs
  · exact .next (.retransmit hs)
  · exact .next (.romVerify hs)
  · exact .next (.bootReady hs)
  · exact .next (.traceReceive hs)
  · exact .next (.upset hs)
  · exact .next hs
  · exact .next (.mcbWrite hs)

theorem State.Formed.fillsBegin {s : State} (hs : s.Formed) : s.fillsBegin.Formed :=
  .foldl (fun _ _ hs1 => .foldl (fun _ _ hs2 => .fillBegin hs2) hs1) hs

theorem State.Formed.portsRun {s : State} (hs : s.Formed) : s.portsRun.Formed := .foldl (fun _ _ hs1 => .nwaitTest (.runPort hs1)) hs

theorem State.Formed.settle {s : State} (hs : s.Formed) : s.settle.Formed := by
  unfold State.settle
  extract_lets s1 s2 s3
  have h1 : s1.Formed := .portsRun (.fillsBegin (.gather (.nestRetire (.takeFaults (.fetchesAgain (.reinRetry hs))))))
  have h2 : s2.Formed := .foldl (fun _ _ h => .launchTick h) h1
  have h3 : s3.Formed := .foldl (fun _ _ h => .collTick h) (.evictTick h2)
  exact .ckTick (.foldl (fun _ _ h => .moveTick h) h3)

theorem State.Formed.stretchRows {s : State} (hs : s.Formed) : s.stretchRows.Formed := .ite hs hs

theorem State.Formed.advance {s : State} (hs : s.Formed) : s.advance.Formed := .settle (.stretchRows hs)

theorem FormedAfter.stepOnce {s : State} (hs : s.Formed) : FormedAfter s.stepOnce := by
  dsimp only [State.stepOnce]
  split
  · exact trivial
  · split
    · exact .runDue hs
    · split
      · exact .next (.slot hs)
      · exact .next (.advance hs)

/-! ## A step -/

/-- A step keeps the canonical form of memory. -/
theorem FormedAfter.step {s : State} (hs : s.Formed) : FormedAfter (step s) := .stepOnce hs

end Sys2Proof.Machine

end

section
namespace Sys2Proof.Machine

/-- Settles O54: a step that goes on goes on with a formed memory, whatever it does (`FormedAfter.step`). -/
theorem memoryKeepsItsForm : Obligations.MemoryKeepsItsForm := by
  unfold Obligations.MemoryKeepsItsForm
  intro s t h e
  have ht : FormedAfter (step s) := .step h
  rw [e] at ht
  exact ht

end Sys2Proof.Machine
end

section
/-! SUPPORT. What reset leaves: the registers hold their Reset columns, and the files of a new rider hold one value but for p0 and k0. -/

namespace Sys2Proof.Machine

variable {α : Type}

/-! ## Registers -/

/-- No register has been written since reset: each answers its Reset column. -/
theorem State.reg_reset (r : Reg) : State.reset.reg r = r.reset := rfl

theorem State.rowpwr_reset (r : Nat) : bits (State.reset.reg (.rowpwr r)) 6 0 = 64 ∧ bits (State.reset.reg (.rowpwr r)) 14 8 = 64 ∧
    bits (State.reset.reg (.rowpwr r)) 22 16 = 64 ∧ bit (State.reset.reg (.rowpwr r)) 23 = false := by
  simp only [State.reg_reset, Reg.reset]
  decide

theorem State.groomshare_reset (st : Nat) :
    bits (State.reset.reg (.groomshare st)) 4 0 = 4 ∧ bits (State.reset.reg (.groomshare st)) 12 5 = 4 := by
  simp only [State.reg_reset, Reg.reset]
  decide

theorem State.festat_reset (d : Nat) : bits (State.reset.reg (.festat d)) 55 32 = 10000 ∧ bits (State.reset.reg (.festat d)) 31 0 = 0 := by
  simp only [State.reg_reset, Reg.reset]
  decide

theorem State.qctl_reset (q : Nat) : bit (State.reset.reg (.qctl q)) 0 = false := by
  simp only [State.reg_reset, Reg.reset]
  decide

/-! ## The files of a new rider -/

theorem rget_replicate (x : α) (r : RIdx) : rget (Vector.replicate 32 x) r = x := Vector.getElem_replicate _

/-- A file of 8 with one value but in its first register. -/
theorem pget_replicate_set (x y : α) (r : BitVec 3) : pget ((Vector.replicate 8 x).set 0 y) r = if r = 0 then y else x := by
  simp only [pget, Vector.getElem_set, Vector.getElem_replicate]
  exact if_congr (by rw [eq_comm, ← BitVec.toNat_inj]; rfl) rfl rfl

theorem Ctx.loopIndex_reset (n : Nat) : Ctx.reset.loopIndex n = 0 := by
  simp [Ctx.loopIndex, Ctx.reset]

theorem Ctx.sreg_reset (r : RIdx) : Ctx.reset.sreg r = ⟨0, 0⟩ := by
  unfold Ctx.sreg
  split
  · rfl
  · split
    · rw [Ctx.loopIndex_reset]
    · exact rget_replicate _ r

theorem Ctx.areg_reset (r : RIdx) : Ctx.reset.areg r = ⟨0, 0⟩ := by
  unfold Ctx.areg
  split
  · rfl
  · exact rget_replicate _ r

theorem Ctx.nreg_reset (r : RIdx) : Ctx.reset.nreg r = ⟨0, 0⟩ := rget_replicate _ r

theorem Ctx.jreg_reset (j : JIdx) : Ctx.reset.jreg j = 0 := congrArg Lamed.val (Vector.getElem_replicate _)

theorem Ctx.preg_reset (p : PIdx) : Ctx.reset.preg p = ⟨decide (p = 0), 0⟩ := by
  have hp : pget Ctx.reset.f.p p = if p = 0 then ⟨true, 0⟩ else ⟨false, 0⟩ := pget_replicate_set _ _ p
  unfold Ctx.preg
  rw [hp]
  by_cases h : p = 0
  · rw [if_pos h, decide_eq_true h]
  · rw [if_neg h, if_neg h, decide_eq_false h]

theorem Ctx.kreg_reset (k : KIdx) : Ctx.reset.kreg k = ⟨if k = 0 then BitVec.allOnes 256 else 0, 0⟩ := by
  have hk : Ctx.reset.kreg k = if k = 0 then ⟨BitVec.allOnes 256, 0⟩ else ⟨0, 0⟩ := pget_replicate_set _ _ k
  rw [hk]
  split <;> rfl

end Sys2Proof.Machine

end

section
namespace Sys2Proof.Machine

/-- Settles O55: the fields of the reset state stand in its definition, each register answers its Reset column, and the files of a new rider
are read register by register. -/
theorem resetState : Obligations.ResetState := by
  unfold Obligations.ResetState
  dsimp only
  refine ⟨rfl, rfl, rfl, rfl, Mem.wf_reset, rfl, ?_⟩
  -- the registers of the module
  refine ⟨by decide, by decide, by decide, by decide, by decide, by decide, by decide, by decide, by decide, by decide, by decide, by decide,
    by decide, by decide, ?_⟩
  -- the registers that stand many times, and the files
  exact ⟨fun r _ => State.rowpwr_reset r, fun st _ => State.groomshare_reset st, fun d _ => State.festat_reset d, fun q _ => State.qctl_reset q,
    fun r => ⟨Ctx.sreg_reset r, Ctx.areg_reset r, Ctx.nreg_reset r⟩, Ctx.jreg_reset, Ctx.preg_reset, Ctx.kreg_reset, fun _ => rfl,
    rfl, rfl, rfl, rfl, by decide, by decide⟩

end Sys2Proof.Machine
end

section
/-! SUPPORT. A restore that is under way refuses a host write (R60): the state in which the DRAM write of `Obligations.AccessesFromOutside`
stores nothing. -/

namespace Sys2Proof.Machine

/-- A module in stage 4 that the host owns, with a restore just begun: what a write of GO with DIR 1 leaves (R60, R61; `State.ckGo`). -/
def restoring : State :=
  { ((State.reset.setReg .bootstat 4).setReg .owner 4).setReg .ckptstat 1 with ckpt := { restore := true } }

theorem restoring_owns : Claims.Owns restoring .host := by
  unfold Claims.Owns
  decide

theorem restoring_nothingCached : Claims.NothingCached restoring := ⟨rfl, rfl, rfl, rfl, rfl, rfl⟩

/-- While a restore is under way no write from outside is performed: it is counted in REFUSED. -/
theorem State.deviceWrite_of_restore {s : State} {o : Nat} {data : List Byte} {poison : Bool} (hbusy : s.ckBusy = true) (hdata : data ≠ [])
    (hrestore : s.ckpt.restore = true) : s.deviceWrite o data poison = s.ckRefuse := by
  simp [State.deviceWrite, State.ckWrite, hbusy, hdata, hrestore]

/-- A write of one byte by the owner, at DRAM offset 0, reaches the checkpoint engine and is refused there. -/
theorem exec_bar4Write_restoring : exec (.bar4Write .host 0 [1]) restoring = .next restoring.ckRefuse := by
  have hwrite : restoring.deviceWrite 0 [1] false = restoring.ckRefuse := State.deviceWrite_of_restore (by decide) (by decide) rfl
  have howns : restoring.isOwner .host = true := restoring_owns.1
  have hstage : restoring.stage = 4 := restoring_owns.2
  have hheld : restoring.devHeld 0 1 = false := by decide
  have hroom : ¬ dramBytes < 0 + 1 := by decide
  show Host.Outcome.next _ = _
  simpa [hasBars, State.memAccess, State.memWrite, State.blockWrite, State.ownerWrite, hroom, hheld, hstage, howns] using hwrite

end Sys2Proof.Machine
end

section
namespace Sys2Proof.Machine

/-- Refutes O30: its hypotheses for a DRAM write of the owner leave out a restore under way, and a restore performs no host write (R60). In
`restoring` the byte 1 written at offset 0 is refused, and the byte reads 0 as before. -/
theorem not_accessesFromOutside : ¬ Obligations.AccessesFromOutside := by
  unfold Obligations.AccessesFromOutside
  intro h
  obtain ⟨-, -, -, -, -, -, hdram, -⟩ := h restoring .host 0 0 8 0 [1] 4 0 false
  obtain ⟨-, -, -, hwrite, -⟩ := hdram rfl (by decide) (by decide) restoring_nothingCached
  obtain ⟨t, ht, hread, -⟩ := hwrite (by decide) restoring_owns _ (List.mem_cons_self ..)
  rw [exec_bar4Write_restoring] at ht
  cases ht
  exact absurd hread (by decide)

end Sys2Proof.Machine
end

section
/-! SUPPORT. Every instruction, every step that is due, and every step of a powered module goes on. -/

namespace Sys2Proof.Machine

/-- An M word goes on whether or not NEST_CHECK is owed (R309). -/
theorem runM_goesOn (g : PIdx) (body : W Unit) (s : State) : ∃ t, runM g body s = .next t := by
  unfold runM
  split
  · exact ⟨_, rfl⟩
  · exact ⟨_, rfl⟩

/-- An M word goes on by `runM_goesOn`; the meaning of every other instruction is written as a next state. -/
theorem exec_goesOn (i : Instr) (s : State) : ∃ t, exec i s = .next t := by
  cases i with
  | nfroms | nseti | ngo | nwait | nstat | nfreeze | nthaw | ndrain | nfill | npos | nseek | wfetch | wswap | aclr | epicfg | cksum
  | ncutEnd | ncutAbandon => exact runM_goesOn _ _ _
  | _ => exact ⟨_, rfl⟩

theorem State.runDue_goesOn (s : State) (d : Due) : ∃ t, s.runDue d = .next t := by
  cases d with
  | ext i => exact exec_goesOn i s
  | xPerform key tok =>
    by_cases hdev : key = devKey
    · exact ⟨_, if_pos hdev⟩
    · exact ⟨_, if_neg hdev⟩
  | _ => exact ⟨_, rfl⟩

/-- With power, a step runs what is due, or gives a stall its slot, or ends the cycle. -/
theorem step_goesOn {s : State} (hpower : s.alive = true) : ∃ t, step s = .next t := by
  simp only [step, State.stepOnce, hpower, Bool.not_true, Bool.false_eq_true, if_false]
  split
  next d rest _ => exact State.runDue_goesOn _ _
  · split
    · exact ⟨_, rfl⟩
    · exact ⟨_, rfl⟩

theorem step_powerLost {s : State} (hpower : s.alive = false) : step s = .fault .powerLost := by
  simp [step, State.stepOnce, hpower]

end Sys2Proof.Machine

end

section
namespace Sys2Proof.Machine

/-- Settles O53: every meaning answers a next state, and a step stops only where `State.alive` says that power is absent. -/
theorem everyStepAnswers : Obligations.EveryStepAnswers := by
  unfold Obligations.EveryStepAnswers
  exact ⟨exec_goesOn, fun _ => step_goesOn, fun _ => step_powerLost⟩

end Sys2Proof.Machine
end

section
/-! SUPPORT. The fields of a register word: what `bits` and `bit` read after `setBits` and `setBit`, in the field itself and beside it. -/

namespace Sys2Proof.Machine

/-! ## Fields -/

theorem bits_lt (x : DWord) (h l : Nat) : bits x h l < 2 ^ (h + 1 - l) := Nat.mod_lt _ (Nat.two_pow_pos _)

theorem testBit_bits (x : DWord) (h l i : Nat) : (bits x h l).testBit i = (decide (i < h + 1 - l) && x.getLsbD (l + i)) := by
  simp [bits, Nat.testBit_mod_two_pow, Nat.testBit_div_two_pow, BitVec.testBit_toNat, Nat.add_comm]

/-- A field that reaches the top of the word or not, bit by bit: inside it the new value, outside it the old word. -/
theorem getLsbD_setBits (x : DWord) (h l v i : Nat) (hi : i < 64) :
    (setBits x h l v).getLsbD i = if l ≤ i ∧ i ≤ h then v.testBit (i - l) else x.getLsbD i := by
  have hmask : ((2 ^ (h + 1 - l) - 1) * 2 ^ l).testBit i = decide (l ≤ i ∧ i ≤ h) := by
    simp only [Nat.testBit_mul_two_pow, Nat.testBit_two_pow_sub_one]
    by_cases hl : l ≤ i
    · simp [hl]
      omega
    · simp [hl]
  simp only [setBits, BitVec.getLsbD_or, BitVec.getLsbD_and, BitVec.getLsbD_not, BitVec.getLsbD_ofNat, hmask, Nat.testBit_mul_two_pow,
    Nat.testBit_mod_two_pow, hi, decide_true, Bool.true_and]
  by_cases hin : l ≤ i ∧ i ≤ h
  · have hw : i - l < h + 1 - l := by omega
    simp [hin, hw]
  · have hw : l ≤ i → ¬ i - l < h + 1 - l := by omega
    by_cases hl : l ≤ i
    · simp [hin, hw hl]
    · simp [hl]

@[simp] theorem bits_setBits_same {x : DWord} {h l v : Nat} (hh : h < 64) : bits (setBits x h l v) h l = v % 2 ^ (h + 1 - l) := by
  apply Nat.eq_of_testBit_eq
  intro i
  rw [testBit_bits, Nat.testBit_mod_two_pow]
  by_cases hi : i < h + 1 - l
  · rw [getLsbD_setBits _ _ _ _ _ (by omega), if_pos (by omega), Nat.add_sub_cancel_left]
  · simp [hi]

/-- A field that lies apart from the one that is set keeps its value. -/
@[simp] theorem bits_setBits_apart {x : DWord} {h l v h' l' : Nat} (hd : h' < l ∨ h < l') : bits (setBits x h l v) h' l' = bits x h' l' := by
  apply Nat.eq_of_testBit_eq
  intro i
  rw [testBit_bits, testBit_bits]
  by_cases hi : i < h' + 1 - l'
  · by_cases h64 : l' + i < 64
    · rw [getLsbD_setBits _ _ _ _ _ h64, if_neg (by omega)]
    · rw [BitVec.getLsbD_of_ge _ _ (by omega), BitVec.getLsbD_of_ge _ _ (by omega)]
  · simp [hi]

/-- A bit that lies apart from the field that is set keeps its value. -/
@[simp] theorem bit_setBits_apart {x : DWord} {h l v i : Nat} (hd : i < l ∨ h < i) : bit (setBits x h l v) i = bit x i := by
  by_cases h64 : i < 64
  · rw [bit, getLsbD_setBits _ _ _ _ _ h64, if_neg (by omega), bit]
  · rw [bit, bit, BitVec.getLsbD_of_ge _ _ (by omega), BitVec.getLsbD_of_ge _ _ (by omega)]

/-! ## Single bits -/

@[simp] theorem bit_setBit_same {x : DWord} {i : Nat} {b : Bool} (hi : i < 64) : bit (setBit x i b) i = b := by
  rw [bit, setBit, getLsbD_setBits _ _ _ _ _ hi, if_pos (by omega), Nat.sub_self]
  cases b <;> rfl

@[simp] theorem bit_setBit_ne {x : DWord} {i j : Nat} {b : Bool} (hd : i ≠ j) : bit (setBit x j b) i = bit x i :=
  bit_setBits_apart (by omega)

@[simp] theorem bits_setBit_apart {x : DWord} {h l i : Nat} {b : Bool} (hd : h < i ∨ i < l) : bits (setBit x i b) h l = bits x h l :=
  bits_setBits_apart hd

end Sys2Proof.Machine

end

section
/-! SUPPORT. What a register reads after an operation that leaves it alone: signals, interrupt causes and the ways in for a master. -/

namespace Sys2Proof.Machine

/-! ## Registers -/

/-- States that list the same registers read the same in each. -/
theorem State.reg_of_regs {s t : State} (h : t.regs = s.regs) (r : Reg) : t.reg r = s.reg r := by simp only [State.reg, h]

theorem State.setField_reg_ne {s : State} {r q : Reg} {h l v : Nat} (hk : r.key ≠ q.key) : (s.setField r h l v).reg q = s.reg q :=
  State.setReg_reg_ne _ _ _ _ hk

/-! ## Signals and interrupt causes (R88, R89) -/

/-- A signal is held for the next owner, or pends in the MSI-X PBA, or leaves the module, or is lost. -/
theorem State.signal_cases (s : State) (v : Nat) :
    s.signal v = { s with heldSignals := s.heldSignals ++ [v] } ∨ s.signal v = s.setReg .msixPba (setBit (s.reg .msixPba) v true) ∨
      (∃ m, s.signal v = s.emit (.irq m v)) ∨ s.signal v = s := by
  unfold State.signal
  split
  · exact .inl rfl
  · split
    · exact .inr (.inr (.inr rfl))
    · exact .inr (.inr (.inl ⟨_, rfl⟩))
    · split
      · exact .inr (.inl rfl)
      · exact .inr (.inr (.inl ⟨_, rfl⟩))

@[simp] theorem State.signal_mem (s : State) (v : Nat) : (s.signal v).mem = s.mem := by
  obtain h | h | ⟨m, h⟩ | h := s.signal_cases v <;> rw [h] <;> rfl

@[simp] theorem State.signal_ctxs (s : State) (v : Nat) : (s.signal v).ctxs = s.ctxs := by
  obtain h | h | ⟨m, h⟩ | h := s.signal_cases v <;> rw [h] <;> rfl

@[simp] theorem State.signal_powered (s : State) (v : Nat) : (s.signal v).powered = s.powered := by
  obtain h | h | ⟨m, h⟩ | h := s.signal_cases v <;> rw [h] <;> rfl

theorem State.signal_reg_ne {s : State} {v : Nat} {r : Reg} (hr : Reg.msixPba.key ≠ r.key) : (s.signal v).reg r = s.reg r := by
  obtain h | h | ⟨m, h⟩ | h := s.signal_cases v
  · rw [h]; rfl
  · rw [h, State.setReg_reg_ne _ _ _ _ hr]
  · rw [h]; rfl
  · rw [h]

/-- A raised cause is set in INTCAUSE, and signalled or not. -/
theorem State.raiseInt_cases (s : State) (b : Nat) :
    s.raiseInt b = s.setReg .intcause (setBit (s.reg .intcause) b true) ∨
      s.raiseInt b = (s.setReg .intcause (setBit (s.reg .intcause) b true)).signal 0 := by
  unfold State.raiseInt State.afterInt
  split
  · exact .inr rfl
  · exact .inl rfl

@[simp] theorem State.raiseInt_mem (s : State) (b : Nat) : (s.raiseInt b).mem = s.mem := by
  obtain h | h := s.raiseInt_cases b <;> simp [h]

@[simp] theorem State.raiseInt_ctxs (s : State) (b : Nat) : (s.raiseInt b).ctxs = s.ctxs := by
  obtain h | h := s.raiseInt_cases b <;> simp [h]

@[simp] theorem State.raiseInt_powered (s : State) (b : Nat) : (s.raiseInt b).powered = s.powered := by
  obtain h | h := s.raiseInt_cases b <;> simp [h]

theorem State.raiseInt_reg_ne {s : State} {b : Nat} {r : Reg} (hc : Reg.intcause.key ≠ r.key) (hp : Reg.msixPba.key ≠ r.key) :
    (s.raiseInt b).reg r = s.reg r := by
  obtain h | h := s.raiseInt_cases b
  · rw [h, State.setReg_reg_ne _ _ _ _ hc]
  · rw [h, State.signal_reg_ne hp, State.setReg_reg_ne _ _ _ _ hc]

@[simp] theorem State.raiseInt_intcause (s : State) (b : Nat) : (s.raiseInt b).reg .intcause = setBit (s.reg .intcause) b true := by
  obtain h | h := s.raiseInt_cases b
  · rw [h, State.setReg_reg]
  · rw [h, State.signal_reg_ne (by decide), State.setReg_reg]

/-! ## Writes of masters (R74, R90) -/

/-- The owner's write to a block takes its effect from stage 4 on. -/
theorem State.blockWrite_of_owns {s : State} {m : Master} {f : State → State} (h : Claims.Owns s m) : s.blockWrite m f = f s := by
  obtain ⟨howner, hstage⟩ := h
  simp [State.blockWrite, State.ownerWrite, howner, hstage]

end Sys2Proof.Machine

end

section
/-! SUPPORT. The clock, power and credit rules (R26 to R34, R124), each step said once: what it makes of its own register and what it leaves. -/

namespace Sys2Proof.Machine

/-! ## Ratio changes (R26, R27, R29) -/

/-- The state in which a ratio change towards the target as it stands has begun (R27). -/
def State.ratioBegun (s : State) (q : Nat) : State :=
  { s.setReg (.dramclk q) (setBit (s.reg (.dramclk q)) 4 true) with ratio := s.ratio.put q (s.clock, s.targetStep q) }

@[simp] theorem State.ratioBegun_dramclk (s : State) (q : Nat) : (s.ratioBegun q).reg (.dramclk q) = setBit (s.reg (.dramclk q)) 4 true :=
  State.setReg_reg _ _ _

/-- A ratio change is in progress, or the target is CUR: nothing begins. -/
theorem State.ratioStart_idle {s : State} {q : Nat} (h : bit (s.reg (.dramclk q)) 4 = true ∨ s.targetStep q = bits (s.reg (.dramclk q)) 3 2) :
    s.ratioStart q = s := if_pos (by simpa using h)

theorem State.ratioStart_begins {s : State} {q : Nat} (hidle : bit (s.reg (.dramclk q)) 4 = false)
    (hne : s.targetStep q ≠ bits (s.reg (.dramclk q)) 3 2) : s.ratioStart q = s.ratioBegun q := if_neg (by simp [hidle, hne])

/-- What holds of a state and of the state with a ratio change begun holds after the comparison. -/
theorem State.ratioStart_rec {P : State → Prop} {s : State} {q : Nat} (hs : P s) (hb : P (s.ratioBegun q)) : P (s.ratioStart q) := by
  by_cases h : bit (s.reg (.dramclk q)) 4 = true ∨ s.targetStep q = bits (s.reg (.dramclk q)) 3 2
  · rwa [State.ratioStart_idle h]
  · obtain ⟨hidle, hne⟩ := not_or.1 h
    rwa [State.ratioStart_begins (by simpa using hidle) hne]

@[simp] theorem State.ratioStart_mem (s : State) (q : Nat) : (s.ratioStart q).mem = s.mem :=
  State.ratioStart_rec (P := fun t => t.mem = s.mem) rfl rfl

@[simp] theorem State.ratioStart_ctxs (s : State) (q : Nat) : (s.ratioStart q).ctxs = s.ctxs :=
  State.ratioStart_rec (P := fun t => t.ctxs = s.ctxs) rfl rfl

@[simp] theorem State.ratioStart_powered (s : State) (q : Nat) : (s.ratioStart q).powered = s.powered :=
  State.ratioStart_rec (P := fun t => t.powered = s.powered) rfl rfl

@[simp] theorem State.ratioStart_homeWait (s : State) (q : Nat) : (s.ratioStart q).homeWait = s.homeWait :=
  State.ratioStart_rec (P := fun t => t.homeWait = s.homeWait) rfl rfl

@[simp] theorem State.ratioStart_agenda (s : State) (q : Nat) : (s.ratioStart q).agenda = s.agenda :=
  State.ratioStart_rec (P := fun t => t.agenda = s.agenda) rfl rfl

theorem State.ratioStart_reg_ne {s : State} {q : Nat} {r : Reg} (hr : (Reg.dramclk q).key ≠ r.key) : (s.ratioStart q).reg r = s.reg r :=
  State.ratioStart_rec (P := fun t => t.reg r = s.reg r) rfl (State.setReg_reg_ne _ _ _ _ hr)

@[simp] theorem State.ratioStart_bits {s : State} {q h l : Nat} (hd : h < 4 ∨ 4 < l) :
    bits ((s.ratioStart q).reg (.dramclk q)) h l = bits (s.reg (.dramclk q)) h l :=
  State.ratioStart_rec (P := fun t => bits (t.reg (.dramclk q)) h l = bits (s.reg (.dramclk q)) h l) rfl (by simp [hd])

@[simp] theorem State.ratioStart_bit {s : State} {q i : Nat} (hi : i ≠ 4) :
    bit ((s.ratioStart q).reg (.dramclk q)) i = bit (s.reg (.dramclk q)) i :=
  State.ratioStart_rec (P := fun t => bit (t.reg (.dramclk q)) i = bit (s.reg (.dramclk q)) i) rfl (by simp [hi])

/-- BUSY after the comparison: it was set, or the target differs from CUR. -/
theorem State.ratioStart_busy (s : State) (q : Nat) : bit ((s.ratioStart q).reg (.dramclk q)) 4 = true ↔
    bit (s.reg (.dramclk q)) 4 = true ∨ s.targetStep q ≠ bits (s.reg (.dramclk q)) 3 2 := by
  by_cases hbusy : bit (s.reg (.dramclk q)) 4 = true
  · simp [State.ratioStart_idle (.inl hbusy), hbusy]
  · by_cases heq : s.targetStep q = bits (s.reg (.dramclk q)) 3 2
    · simp [State.ratioStart_idle (.inr heq), heq]
    · simp [State.ratioStart_begins (by simpa using hbusy) heq, heq]

/-- A write of STEP, other than 0b11 (R26): the target is compared again. -/
theorem State.writeDramclk_step {s : State} {q : Nat} {v mask : DWord} (hmask : mask &&& 0xFF ≠ 0) (hstep : bits v 1 0 ≠ 3) :
    s.writeDramclk q v mask = (s.setReg (.dramclk q) (setBits (if bit v 6 then setBit (s.reg (.dramclk q)) 6 false else s.reg (.dramclk q)) 1 0
      (bits v 1 0))).ratioStart q := by
  unfold State.writeDramclk
  rw [if_neg hmask, if_neg hstep]

/-- A write of STEP 0b11 sets STEPERR (R26). -/
theorem State.writeDramclk_stepErr {s : State} {q : Nat} {v mask : DWord} (hmask : mask &&& 0xFF ≠ 0) (hstep : bits v 1 0 = 3) :
    s.writeDramclk q v mask = s.setReg (.dramclk q) (setBit (if bit v 6 then setBit (s.reg (.dramclk q)) 6 false else s.reg (.dramclk q)) 6
      true) := by
  unfold State.writeDramclk
  rw [if_neg hmask, if_pos hstep]

/-- What has been cleared of STEPERR leaves the other fields. -/
theorem bits_clearStepErr {c : Bool} {r : DWord} {h l : Nat} (hd : h < 6 ∨ 6 < l) :
    bits (if c then setBit r 6 false else r) h l = bits r h l := by
  split
  · exact bits_setBit_apart hd
  · rfl

theorem bit_clearStepErr {c : Bool} {r : DWord} {i : Nat} (hi : i ≠ 6) : bit (if c then setBit r 6 false else r) i = bit r i := by
  split
  · exact bit_setBit_ne hi
  · rfl

/-- The state in which a ratio change has ended and its target has become CUR (R27), before the target is compared again. -/
def State.ratioEnded (s : State) (q target : Nat) : State :=
  ({ s.setReg (.dramclk q) (setBit (setBits (s.reg (.dramclk q)) 3 2 target) 4 false) with ratio := s.ratio.del q } : State).releaseHeld

theorem State.ratioEnd_some {s : State} {q start target : Nat} (h : s.ratio.get? q = some (start, target)) :
    s.ratioEnd q = (s.ratioEnded q target).ratioStart q := by
  unfold State.ratioEnd
  rw [h]
  rfl

theorem State.ratioEnd_none {s : State} {q : Nat} (h : s.ratio.get? q = none) : s.ratioEnd q = s := by
  unfold State.ratioEnd
  rw [h]

@[simp] theorem State.ratioEnded_dramclk (s : State) (q target : Nat) :
    (s.ratioEnded q target).reg (.dramclk q) = setBit (setBits (s.reg (.dramclk q)) 3 2 target) 4 false := State.setReg_reg _ _ _

theorem State.ratioEnded_targetStep (s : State) (q target : Nat) : (s.ratioEnded q target).targetStep q = s.targetStep q := by
  simp [State.targetStep]

/-! ## Caps, credits, power (R30, R31, R34, R124) -/

theorem State.derated_iff (s : State) (row : Nat) : s.derated row = true ↔ ∃ i < 34, s.physState (row * 34 + i) = 1 := by
  simp [State.derated]

/-- CAPEFF is the least of the four terms, whether it was so before or not (R31). -/
theorem State.capeff_rowpwr (s : State) (row : Nat) : bits ((s.capeff row).reg (.rowpwr row)) 22 16 =
      Nat.min (Nat.min (bits (s.reg (.rowpwr row)) 6 0) (bits (s.reg (.rowpwr row)) 14 8))
        (Nat.min (bits (s.reg .pwrctl) 38 32) (if s.derated row then 48 else 64)) ∧
    bits ((s.capeff row).reg (.rowpwr row)) 14 0 = bits (s.reg (.rowpwr row)) 14 0 ∧
    (s.capeff row).mem = s.mem ∧ (s.capeff row).ctxs = s.ctxs := by
  have hfw : bits (s.reg (.rowpwr row)) 6 0 < 128 := bits_lt _ 6 0
  unfold State.capeff
  extract_lets r m
  have hm : m < 128 := lt_of_le_of_lt (le_trans (Nat.min_le_left _ _) (Nat.min_le_left _ _)) hfw
  split
  next heq => exact ⟨heq, rfl, rfl, rfl⟩
  next =>
    refine ⟨?_, ?_, rfl, rfl⟩
    · rw [State.setReg_reg, bits_setBits_same (by decide)]
      exact Nat.mod_eq_of_lt hm
    · rw [State.setReg_reg, bits_setBits_apart (.inl (by decide))]

theorem State.refillCredit_groomshare (s : State) (st : Nat) :
    bits ((s.refillCredit st).reg (.groomshare st)) 12 5 = bits (s.reg (.groomshare st)) 4 0 ∧
    bits ((s.refillCredit st).reg (.groomshare st)) 4 0 = bits (s.reg (.groomshare st)) 4 0 ∧
    (s.refillCredit st).mem = s.mem ∧ (s.refillCredit st).ctxs = s.ctxs := by
  have hshare : bits (s.reg (.groomshare st)) 4 0 < 32 := bits_lt _ 4 0
  unfold State.refillCredit
  extract_lets r
  split
  next heq => exact ⟨heq, rfl, rfl, rfl⟩
  next =>
    refine ⟨?_, ?_, rfl, rfl⟩
    · rw [State.setReg_reg, bits_setBits_same (by decide)]
      exact Nat.mod_eq_of_lt (lt_trans hshare (by decide))
    · rw [State.setReg_reg, bits_setBits_apart (.inl (by decide))]

/-- PWRCTL with a new average (R34). -/
def State.averaged (s : State) (watts : Nat) : DWord := setBits (s.reg .pwrctl) 27 16 watts

theorem State.averaged_fields (s : State) {watts : Nat} (h : watts < 4096) : bits (s.averaged watts) 27 16 = watts ∧
    bits (s.averaged watts) 11 0 = bits (s.reg .pwrctl) 11 0 ∧ bits (s.averaged watts) 38 32 = bits (s.reg .pwrctl) 38 32 := by
  simp [State.averaged, Nat.mod_eq_of_lt h]

/-- Above LIMIT: CAPPWR falls by 4, OVER is set and POWER raised (R34). -/
theorem State.powerTick_over {s : State} {watts : Nat} (h : bits (s.averaged watts) 11 0 < watts) : s.powerTick watts =
    (s.setReg .pwrctl (setBit (setBits (s.averaged watts) 38 32 (Nat.max 8 (bits (s.averaged watts) 38 32 - 4))) 39 true)).raiseInt 3 := by
  unfold State.powerTick
  exact if_pos h

/-- More than 100 W below LIMIT: CAPPWR rises by 1 (R34). -/
theorem State.powerTick_under {s : State} {watts : Nat} (h : watts + 100 < bits (s.averaged watts) 11 0) :
    s.powerTick watts = s.setReg .pwrctl (setBits (s.averaged watts) 38 32 (Nat.min 64 (bits (s.averaged watts) 38 32 + 1))) := by
  unfold State.powerTick
  exact (if_neg (by simp only [State.averaged] at h; omega)).trans (if_pos h)

/-- Between the two, CAPPWR stands (R34). -/
theorem State.powerTick_within {s : State} {watts : Nat} (h1 : watts ≤ bits (s.averaged watts) 11 0)
    (h2 : bits (s.averaged watts) 11 0 ≤ watts + 100) : s.powerTick watts = s.setReg .pwrctl (s.averaged watts) := by
  unfold State.powerTick
  exact (if_neg (Nat.not_lt.2 h1)).trans (if_neg (Nat.not_lt.2 h2))

end Sys2Proof.Machine

end

section
namespace Sys2Proof.Machine

/-- STEP of a word written to DRAMCLK. -/
theorem bits_step (v : Word) : bits (v.setWidth 64) 1 0 = v.toNat % 4 := by
  simp only [bits, BitVec.toNat_setWidth]
  omega

theorem exec_dramclkStepWrite {s : State} {m : Master} (h : Claims.Owns s m) (q : Nat) (v : Word) :
    exec (.dramclkStepWrite m q v) s = .next (s.writeDramclk q (v.setWidth 64) 0xFFFFFFFF) :=
  congrArg Host.Outcome.next (State.blockWrite_of_owns h)

/-- Settles O36: each step by the lemma that says what it makes of its register. -/
theorem clockAndPowerSteps : Obligations.ClockAndPowerSteps := by
  unfold Obligations.ClockAndPowerSteps
  intro s m q row st start target v w
  extract_lets r want p cap limit rp derated kept sends
  intro _ _ _
  have hwant : s.targetStep q = want := rfl
  have hw : w.toNat < 4096 := w.isLt
  obtain ⟨havg, hlimit, hcap⟩ := s.averaged_fields hw
  have hcap7 : cap < 128 := bits_lt p 38 32
  refine ⟨rfl, ?_, ?_, ?_, ?_, ?_, ?_, ?_, ?_, ?_, ?_, ?_, ?_, ?_⟩
  -- DRAMCLK with a step that the quarter has
  · intro howns hstep
    refine ⟨_, exec_dramclkStepWrite howns q v, ?_⟩
    rw [State.writeDramclk_step (by decide) (by rwa [bits_step]), bits_step]
    refine ⟨by simp, ?_, ?_, by simp, by simp⟩
    · simp [bits_clearStepErr, r]
    · simp [State.ratioStart_busy, State.targetStep, bits_clearStepErr, bit_clearStepErr, r]
  -- with a step that it has not
  · intro howns hstep
    refine ⟨_, exec_dramclkStepWrite howns q v, ?_⟩
    rw [State.writeDramclk_stepErr (by decide) (by rwa [bits_step])]
    refine ⟨?_, by simp, rfl, rfl, rfl⟩
    simp [bits_clearStepErr, r]
  -- no change begins
  · intro h
    exact congrArg Host.Outcome.next (State.ratioStart_idle h)
  -- a change begins
  · intro hidle hne
    refine ⟨_, congrArg Host.Outcome.next (State.ratioStart_begins hidle hne), by simp, ?_, by simp [r], rfl, rfl⟩
    exact SMap.get?_put_same _ _ _
  -- a change ends at its target, which is still wanted
  · intro hratio htarget heq
    refine ⟨_, congrArg Host.Outcome.next (State.ratioEnd_some hratio), ?_⟩
    have hcur : target % 4 = target := Nat.mod_eq_of_lt (by omega)
    rw [State.ratioStart_idle (.inr (by simp [State.ratioEnded_targetStep, hwant, heq, hcur]))]
    exact ⟨by simp [hcur], by simp, rfl, rfl, rfl, rfl⟩
  -- a change ends, and another begins
  · intro hratio htarget hne
    refine ⟨_, congrArg Host.Outcome.next (State.ratioEnd_some hratio), ?_⟩
    have hcur : target % 4 = target := Nat.mod_eq_of_lt (by omega)
    rw [State.ratioStart_begins (by simp) (by simp [State.ratioEnded_targetStep, hwant, hne, hcur])]
    refine ⟨by simp [hcur], by simp, ?_, rfl, rfl⟩
    rw [← hwant, ← State.ratioEnded_targetStep]
    exact SMap.get?_put_same _ _ _
  -- no change was under way
  · intro hnone
    exact congrArg Host.Outcome.next (State.ratioEnd_none hnone)
  -- CAPEFF of a derated row
  · intro hder
    obtain ⟨heff, hrest, hmem, hctxs⟩ := s.capeff_rowpwr row
    rw [if_pos ((s.derated_iff row).2 hder)] at heff
    exact ⟨_, rfl, heff, hrest, hmem, hctxs⟩
  -- CAPEFF as the least of the four caps
  · intro hder hth
    obtain ⟨heff, hrest, hmem, hctxs⟩ := s.capeff_rowpwr row
    rw [if_neg (fun h => hder ((s.derated_iff row).1 h))] at heff
    refine ⟨_, rfl, ?_, hrest, hmem, hctxs⟩
    rw [heff]
    simp only [Nat.min_def, cap, rp, p] at *
    split_ifs <;> omega
  -- CREDIT
  · exact ⟨_, rfl, s.refillCredit_groomshare st⟩
  -- power above the limit
  · intro hover
    refine ⟨_, congrArg Host.Outcome.next (State.powerTick_over (hlimit ▸ hover)), ?_, ?_, ?_, by simp, by simp, by simp⟩ <;>
      rw [State.raiseInt_reg_ne (by decide) (by decide), State.setReg_reg]
    · simp [havg]
    · have hlow : Nat.max 8 (cap - 4) < 128 := Nat.max_lt.2 ⟨by decide, by omega⟩
      simp only [hcap, bits_setBit_apart, bits_setBits_same, Nat.reduceLT, true_or]
      exact Nat.mod_eq_of_lt hlow
    · simp
  -- below it by more than 100
  · intro hunder
    refine ⟨_, congrArg Host.Outcome.next (State.powerTick_under (hlimit ▸ hunder)), ?_, ?_, State.setReg_reg_ne _ _ _ _ (by decide), rfl, rfl⟩
    · simp [havg]
    · have hhigh : Nat.min 64 (cap + 1) < 128 := lt_of_le_of_lt (Nat.min_le_left _ _) (by decide)
      rw [State.setReg_reg, bits_setBits_same (by decide), hcap]
      exact Nat.mod_eq_of_lt hhigh
  -- between the two
  · intro hle hge
    refine ⟨_, congrArg Host.Outcome.next (State.powerTick_within (hlimit ▸ hle) (hlimit ▸ hge)), ?_⟩
    rw [State.setReg_reg]
    exact ⟨havg, hcap, hlimit, rfl, rfl⟩

end Sys2Proof.Machine
end

section
/-! SUPPORT. The thermal rules (R35): the greatest reading of sensors, what a conversion does, and the two halves of a controller's tick. -/

namespace Sys2Proof.Machine

/-! ## Readings -/

/-- A sensor has converted. -/
def State.converted (s : State) (i : Nat) : Prop := bit (s.reg (.tsense i)) 16 = true

/-- A sensor has converted, and reads a code or more. -/
def State.readsFrom (s : State) (i lim : Nat) : Prop := s.converted i ∧ lim ≤ bits (s.reg (.tsense i)) 11 0

theorem State.sensor_of_converted {s : State} {i : Nat} (h : s.converted i) : s.sensor i = some (bits (s.reg (.tsense i)) 11 0) := if_pos h

theorem State.sensor_of_not_converted {s : State} {i : Nat} (h : ¬ s.converted i) : s.sensor i = none := if_neg h

/-- The greatest of the readings seen so far and of one more sensor. -/
def State.hotter (s : State) (m : Option Nat) (i : Nat) : Option Nat :=
  match s.sensor i, m with
  | some t, some x => some (Nat.max t x)
  | some t, none => some t
  | none, m => m

/-- The fold of `hottest`, from what has been seen: it answers nothing only when there is nothing, and else the greatest. -/
theorem State.foldl_hotter (s : State) (l : List Nat) : ∀ m : Option Nat,
    (l.foldl s.hotter m = none ↔ m = none ∧ ∀ i ∈ l, ¬ s.converted i) ∧
    ∀ t, l.foldl s.hotter m = some t → ∀ lim, lim ≤ t ↔ (∃ x, m = some x ∧ lim ≤ x) ∨ ∃ i ∈ l, s.readsFrom i lim := by
  induction l with
  | nil =>
    intro m
    refine ⟨by simp, ?_⟩
    rintro t rfl lim
    simp
  | cons i l ih =>
    intro m
    obtain ⟨hnone, hsome⟩ := ih (s.hotter m i)
    rw [List.foldl_cons]
    by_cases hi : s.converted i
    · have hread := State.sensor_of_converted hi
      cases m with
      | none =>
        have hm : s.hotter none i = some (bits (s.reg (.tsense i)) 11 0) := by simp only [State.hotter, hread]
        rw [hm] at hnone hsome ⊢
        refine ⟨by rw [hnone]; simp [hi], fun t ht lim => (hsome t ht lim).trans ?_⟩
        simp [State.readsFrom, hi]
      | some x =>
        have hm : s.hotter (some x) i = some (Nat.max (bits (s.reg (.tsense i)) 11 0) x) := by simp only [State.hotter, hread]
        rw [hm] at hnone hsome ⊢
        refine ⟨by rw [hnone]; simp, fun t ht lim => (hsome t ht lim).trans ?_⟩
        have hmax : ∀ a : Nat, lim ≤ Nat.max a x ↔ lim ≤ a ∨ lim ≤ x := fun _ => le_max_iff
        simp [State.readsFrom, hi, hmax, or_assoc, or_left_comm]
    · have hm : s.hotter m i = m := by simp only [State.hotter, State.sensor_of_not_converted hi]
      rw [hm] at hnone hsome ⊢
      refine ⟨by rw [hnone]; simp [hi], fun t ht lim => (hsome t ht lim).trans ?_⟩
      simp [State.readsFrom, hi]

theorem State.hottest_eq_none {s : State} {l : List Nat} : s.hottest l = none ↔ ∀ i ∈ l, ¬ s.converted i :=
  (s.foldl_hotter l none).1.trans (by simp)

/-- The greatest reading reaches a code exactly when a sensor reads that code or more. -/
theorem State.le_hottest {s : State} {l : List Nat} {t : Nat} (h : s.hottest l = some t) (lim : Nat) :
    lim ≤ t ↔ ∃ i ∈ l, s.readsFrom i lim :=
  ((s.foldl_hotter l none).2 t h lim).trans (by simp)

theorem State.hottest_of_converted {s : State} {l : List Nat} (h : ∃ i ∈ l, s.converted i) : ∃ t, s.hottest l = some t := by
  obtain ⟨i, hi, hc⟩ := h
  exact Option.ne_none_iff_exists'.1 fun hn => State.hottest_eq_none.1 hn i hi hc

/-- Either no sensor of a list has converted, or there is a greatest reading, which decides what the list reads. -/
theorem State.hottest_cases (s : State) (l : List Nat) :
    (s.hottest l = none ∧ (∀ lim, ¬ ∃ i ∈ l, s.readsFrom i lim) ∧ ¬ ∃ i ∈ l, s.converted i) ∨
    ∃ t, s.hottest l = some t ∧ (∀ lim, (∃ i ∈ l, s.readsFrom i lim) ↔ lim ≤ t) ∧ ∃ i ∈ l, s.converted i := by
  by_cases h : ∃ i ∈ l, s.converted i
  · obtain ⟨t, ht⟩ := State.hottest_of_converted h
    exact .inr ⟨t, ht, fun lim => (State.le_hottest ht lim).symm, h⟩
  · refine .inl ⟨State.hottest_eq_none.2 fun i hi hc => h ⟨i, hi, hc⟩, ?_, h⟩
    rintro lim ⟨i, hi, hc, -⟩
    exact h ⟨i, hi, hc⟩

/-- Readings rest on TSENSE alone. -/
theorem State.hottest_of_tsense {s t : State} (h : ∀ i, t.reg (.tsense i) = s.reg (.tsense i)) (l : List Nat) : t.hottest l = s.hottest l := by
  simp only [State.hottest, State.sensor, h]

/-! ## Conversions -/

@[simp] theorem State.shutdown_reg (s : State) (r : Reg) : s.shutdown.reg r = s.reg r := rfl

/-- CAPTH of every row of a paddock is 8. -/
def State.capRows (s : State) (rows : List Nat) : State := rows.foldl (fun s row => s.setField (.rowpwr row) 14 8 8) s

theorem State.capRows_leaves (rows : List Nat) : ∀ s : State,
    (s.capRows rows).mem = s.mem ∧ (s.capRows rows).ctxs = s.ctxs ∧ (s.capRows rows).powered = s.powered := by
  induction rows with
  | nil => exact fun _ => ⟨rfl, rfl, rfl⟩
  | cons row rows ih => exact fun s => ih (s.setField (.rowpwr row) 14 8 8)

theorem State.capRows_reg_ne {r : Reg} (rows : List Nat) (h : ∀ row ∈ rows, (Reg.rowpwr row).key ≠ r.key) :
    ∀ s : State, (s.capRows rows).reg r = s.reg r := by
  induction rows with
  | nil => exact fun _ => rfl
  | cons row rows ih =>
    intro s
    obtain ⟨hrow, hrows⟩ := List.forall_mem_cons.1 h
    exact (ih hrows _).trans (State.setField_reg_ne hrow)

theorem State.capRows_capth {row : Nat} (rows : List Nat) : ∀ s : State, bits (s.reg (.rowpwr row)) 14 8 = 8 ∨ row ∈ rows →
    bits ((s.capRows rows).reg (.rowpwr row)) 14 8 = 8 := by
  induction rows with
  | nil => exact fun s h => h.resolve_right (List.not_mem_nil)
  | cons r rows ih =>
    intro s h
    refine ih (s.setField (.rowpwr r) 14 8 8) ?_
    by_cases hr : r = row
    · subst hr
      exact .inl (by simp)
    · have hkey : (Reg.rowpwr r).key ≠ (Reg.rowpwr row).key := by simpa [Reg.key] using hr
      rw [State.setField_reg_ne hkey]
      exact h.imp_right fun hm => (List.mem_cons.1 hm).resolve_left (Ne.symm hr)

/-- TSENSE with a new reading. -/
def converting (r : DWord) (code : Nat) : DWord := setBit (setBits r 11 0 code) 16 true

theorem bits_converting {r : DWord} {code : Nat} (h : code < 4096) : bits (converting r code) 11 0 = code := by
  simp [converting, Nat.mod_eq_of_lt h]

theorem bit_converting (r : DWord) (code : Nat) : bit (converting r code) 16 = true := by simp [converting]

/-- A reading of a logic sensor at 110 °C or above: ALARM, the caps of its paddock's rows, and THERM. -/
def State.alarmed (s : State) (i code : Nat) : State :=
  ((s.setReg (.tsense i) (setBit (converting (s.reg (.tsense i)) code) 17 true)).capRows (paddockRows (i / 384) (i / 6 % 64))).raiseInt 2

/-- What a conversion stores, before power is removed or not. -/
def State.sensed (s : State) (i code : Nat) : State :=
  if i % 6 = 0 ∧ 1392 ≤ code then s.alarmed i code else s.setReg (.tsense i) (converting (s.reg (.tsense i)) code)

theorem State.convert_eq (s : State) (i code : Nat) :
    s.convert i code = if tooHot (i % 6) code then (s.sensed i code).shutdown else s.sensed i code := by
  have halarm : (i % 6 == 0 && decide (tempCode 110 ≤ code)) = decide (i % 6 = 0 ∧ 1392 ≤ code) := by
    change (i % 6 == 0 && decide (1392 ≤ code)) = _
    rw [Bool.eq_iff_iff]
    simp
  unfold State.convert
  simp only [halarm, State.sensed]
  by_cases h : i % 6 = 0 ∧ 1392 ≤ code
  · simp only [h]
    rfl
  · simp only [h]
    rfl

/-- The rows that a paddock spans are rows of its quarter. -/
theorem lt_of_mem_paddockRows {q pd row : Nat} (hq : q < 4) (hpd : pd < 64) (h : row ∈ paddockRows q pd) : row < 128 := by
  simp only [paddockRows, List.mem_map, List.mem_range] at h
  obtain ⟨i, hi, rfl⟩ := h
  omega

theorem rowpwr_key_ne_tsense {row i : Nat} (hrow : row < 128) (hi : i < 1536) : (Reg.rowpwr row).key ≠ (Reg.tsense i).key := by
  simp only [Reg.key]
  omega

theorem State.alarmed_reg {s : State} {i code : Nat} {r : Reg} (hi : i < 1536) (hc : Reg.intcause.key ≠ r.key)
    (hp : Reg.msixPba.key ≠ r.key) (hr : ∀ row < 128, (Reg.rowpwr row).key ≠ r.key) :
    (s.alarmed i code).reg r = (s.setReg (.tsense i) (setBit (converting (s.reg (.tsense i)) code) 17 true)).reg r := by
  rw [State.alarmed, State.raiseInt_reg_ne hc hp]
  exact State.capRows_reg_ne _ (fun row hrow => hr row (lt_of_mem_paddockRows (by omega) (by omega) hrow)) _

theorem State.alarmed_tsense {s : State} {i code : Nat} (hi : i < 1536) :
    (s.alarmed i code).reg (.tsense i) = setBit (converting (s.reg (.tsense i)) code) 17 true := by
  rw [State.alarmed_reg hi (by simp only [Reg.key]; omega) (by simp only [Reg.key]; omega)
    (fun row hrow => rowpwr_key_ne_tsense hrow hi), State.setReg_reg]

theorem State.alarmed_capth {s : State} {i code row : Nat} (hi : i < 1536) (hrow : row ∈ paddockRows (i / 384) (i / 6 % 64)) :
    bits ((s.alarmed i code).reg (.rowpwr row)) 14 8 = 8 := by
  have h128 : row < 128 := lt_of_mem_paddockRows (by omega) (by omega) hrow
  rw [State.alarmed, State.raiseInt_reg_ne (by simp only [Reg.key]; omega) (by simp only [Reg.key]; omega)]
  exact State.capRows_capth _ _ (.inr hrow)

theorem State.alarmed_leaves (s : State) (i code : Nat) :
    (s.alarmed i code).mem = s.mem ∧ (s.alarmed i code).ctxs = s.ctxs ∧ (s.alarmed i code).powered = s.powered := by
  simp only [State.alarmed, State.raiseInt_mem, State.raiseInt_ctxs, State.raiseInt_powered]
  exact State.capRows_leaves _ _

theorem State.alarmed_therm (s : State) (i code : Nat) : bit ((s.alarmed i code).reg .intcause) 2 = true := by
  simp [State.alarmed]

theorem State.sensed_leaves (s : State) (i code : Nat) :
    (s.sensed i code).mem = s.mem ∧ (s.sensed i code).ctxs = s.ctxs ∧ (s.sensed i code).powered = s.powered := by
  unfold State.sensed
  split
  · exact s.alarmed_leaves i code
  · exact ⟨rfl, rfl, rfl⟩

theorem State.sensed_tsense {s : State} {i code : Nat} (hi : i < 1536) (hcode : code < 4096) :
    bits ((s.sensed i code).reg (.tsense i)) 11 0 = code ∧ bit ((s.sensed i code).reg (.tsense i)) 16 = true := by
  unfold State.sensed
  split
  · rw [State.alarmed_tsense hi]
    simp [bits_converting hcode, bit_converting]
  · rw [State.setReg_reg]
    exact ⟨bits_converting hcode, bit_converting _ _⟩

theorem State.sensed_calm {s : State} {i code : Nat} (h : i % 6 ≠ 0 ∨ code < 1392) :
    s.sensed i code = s.setReg (.tsense i) (converting (s.reg (.tsense i)) code) := if_neg (by omega)

theorem State.sensed_alarm {s : State} {i code : Nat} (hkind : i % 6 = 0) (hcode : 1392 ≤ code) : s.sensed i code = s.alarmed i code :=
  if_pos ⟨hkind, hcode⟩

/-- Power is gone after a reading past the threshold of its kind, and only then. -/
theorem State.convert_powered (s : State) (i code : Nat) :
    (s.convert i code).powered = if tooHot (i % 6) code then false else s.powered := by
  rw [State.convert_eq]
  split
  · rfl
  · exact (s.sensed_leaves i code).2.2

theorem State.convert_leaves (s : State) (i code : Nat) : (s.convert i code).mem = s.mem ∧ (s.convert i code).ctxs = s.ctxs := by
  obtain ⟨hmem, hctxs, -⟩ := s.sensed_leaves i code
  rw [State.convert_eq]
  split
  · exact ⟨hmem, hctxs⟩
  · exact ⟨hmem, hctxs⟩

/-- The loss of power changes no register. -/
theorem State.convert_reg (s : State) (i code : Nat) (r : Reg) : (s.convert i code).reg r = (s.sensed i code).reg r := by
  rw [State.convert_eq]
  split
  · rfl
  · rfl

theorem tooHot_logic {kind t : Nat} (h : kind < 2) : tooHot kind t = decide (1472 ≤ t) := if_pos h

theorem tooHot_dram {kind t : Nat} (h : 2 ≤ kind) : tooHot kind t = decide (1352 ≤ t) := if_neg (Nat.not_lt.2 h)

/-- A conversion: what it stores, whom it caps, and when it removes power. -/
theorem State.convert_rules {s : State} {i code : Nat} (hi : i < 1536) (hcode : code < 4096) :
    bits ((s.convert i code).reg (.tsense i)) 11 0 = code ∧ bit ((s.convert i code).reg (.tsense i)) 16 = true ∧
    (i % 6 = 0 → 1392 ≤ code → bit ((s.convert i code).reg (.tsense i)) 17 = true ∧ bit ((s.convert i code).reg .intcause) 2 = true ∧
      ∀ r ∈ paddockRows (i / 384) (i / 6 % 64), bits ((s.convert i code).reg (.rowpwr r)) 14 8 = 8) ∧
    (i % 6 ≠ 0 ∨ code < 1392 → (s.convert i code).reg .intcause = s.reg .intcause ∧
      ∀ r < 128, (s.convert i code).reg (.rowpwr r) = s.reg (.rowpwr r)) := by
  simp only [State.convert_reg]
  obtain ⟨hread, hvalid⟩ := State.sensed_tsense (s := s) hi hcode
  refine ⟨hread, hvalid, ?_, ?_⟩
  · intro hkind halarm
    rw [State.sensed_alarm hkind halarm]
    exact ⟨by simp [State.alarmed_tsense hi], s.alarmed_therm i code, fun r hr => State.alarmed_capth hi hr⟩
  · intro hcalm
    rw [State.sensed_calm hcalm]
    refine ⟨State.setReg_reg_ne _ _ _ _ (by simp only [Reg.key]; omega), fun r hr => State.setReg_reg_ne _ _ _ _ ?_⟩
    exact (rowpwr_key_ne_tsense hr hi).symm

/-! ## Rows -/

/-- The governing sensors of a row: the logic sensors of the eight paddocks that it crosses. -/
def rowSensors (row : Nat) : List Nat := (List.range 8).map (fun c => sensorIx (row / 32) (row % 32 / 4 * 8 + c) 0)

theorem exists_mem_rowSensors {p : Nat → Prop} {row : Nat} :
    (∃ i ∈ rowSensors row, p i) ↔ ∃ c < 8, p (sensorIx (row / 32) (row % 32 / 4 * 8 + c) 0) := by
  simp [rowSensors]

/-- What holds of a state and of the state with another CAPTH of the row holds after the rule for rows. -/
theorem State.rowThermal_rec {P : State → Prop} {s : State} {row : Nat} (hs : P s) (hf : ∀ v, P (s.setField (.rowpwr row) 14 8 v)) :
    P (s.rowThermal row) := by
  unfold State.rowThermal
  dsimp only
  split
  · exact hs
  · split
    · exact hf _
    · split
      · exact hf _
      · exact hs

theorem State.rowThermal_leaves (s : State) (row : Nat) : (s.rowThermal row).mem = s.mem ∧ (s.rowThermal row).ctxs = s.ctxs ∧
    (s.rowThermal row).powered = s.powered :=
  State.rowThermal_rec (P := fun t => t.mem = s.mem ∧ t.ctxs = s.ctxs ∧ t.powered = s.powered) ⟨rfl, rfl, rfl⟩ fun _ => ⟨rfl, rfl, rfl⟩

theorem State.rowThermal_reg_ne {s : State} {row : Nat} {r : Reg} (hr : (Reg.rowpwr row).key ≠ r.key) :
    (s.rowThermal row).reg r = s.reg r :=
  State.rowThermal_rec (P := fun t => t.reg r = s.reg r) rfl fun _ => State.setField_reg_ne hr

theorem State.rowThermal_none {s : State} {row : Nat} (h : s.hottest (rowSensors row) = none) : s.rowThermal row = s := by
  unfold State.rowThermal
  dsimp only
  rw [← rowSensors, h]

/-- CAPTH of a row for the greatest reading of its sensors. -/
theorem State.rowThermal_capth {s : State} {row t : Nat} (h : s.hottest (rowSensors row) = some t) :
    bits ((s.rowThermal row).reg (.rowpwr row)) 14 8 =
      if tempCode 90 ≤ t then Nat.max 8 (bits (s.reg (.rowpwr row)) 14 8 - 4)
      else if t < tempCode 87 then Nat.min 64 (bits (s.reg (.rowpwr row)) 14 8 + 1)
      else bits (s.reg (.rowpwr row)) 14 8 := by
  have hcap : bits (s.reg (.rowpwr row)) 14 8 < 128 := bits_lt _ 14 8
  unfold State.rowThermal
  dsimp only
  rw [← rowSensors, h]
  dsimp only
  split
  · rw [State.setField_reg, bits_setBits_same (by decide)]
    exact Nat.mod_eq_of_lt (Nat.max_lt.2 ⟨by decide, by omega⟩)
  · split
    · rw [State.setField_reg, bits_setBits_same (by decide)]
      exact Nat.mod_eq_of_lt (lt_of_le_of_lt (Nat.min_le_left _ _) (by decide))
    · rfl

/-- CAPTH of a row by what its sensors read (R35). -/
theorem State.rowThermal_rules (s : State) (row : Nat) :
    let cap := bits (s.reg (.rowpwr row)) 14 8
    let after := bits ((s.rowThermal row).reg (.rowpwr row)) 14 8
    let hot := fun (lim : Nat) => ∃ i ∈ rowSensors row, s.readsFrom i lim
    let any := ∃ i ∈ rowSensors row, s.converted i
    (hot 1232 → after = Nat.max 8 (cap - 4)) ∧ (¬ hot 1208 → any → after = Nat.min 64 (cap + 1)) ∧
    (hot 1208 → ¬ hot 1232 → after = cap) ∧ (¬ any → after = cap) := by
  intro cap after hot any
  obtain ⟨hnone, hno, hany⟩ | ⟨t, ht, hiff, hany⟩ := s.hottest_cases (rowSensors row)
  · have hafter : after = cap := by simp only [after, State.rowThermal_none hnone, cap]
    exact ⟨fun h => absurd h (hno _), fun _ h => absurd h hany, fun h => absurd h (hno _), fun _ => hafter⟩
  · have hafter : after = if 1232 ≤ t then Nat.max 8 (cap - 4) else if t < 1208 then Nat.min 64 (cap + 1) else cap :=
      State.rowThermal_capth ht
    have hhot : ∀ lim, hot lim ↔ lim ≤ t := hiff
    simp only [hhot, Nat.not_le]
    refine ⟨fun h => hafter.trans (if_pos h), fun h _ => ?_, fun h1 h2 => ?_, fun h => absurd hany h⟩
    · exact hafter.trans ((if_neg (by omega)).trans (if_pos h))
    · exact hafter.trans ((if_neg (by omega)).trans (if_neg (by omega)))

/-! ## DRAM -/

/-- The DRAM sensors of a layer of a quarter. -/
def layerSensors (q l : Nat) : List Nat := (List.range 64).map (fun pd => sensorIx q pd (2 + l))

/-- The DRAM sensors of a quarter. -/
def dramSensors (q : Nat) : List Nat := (List.range 64).flatMap (fun pd => (List.range 4).map (fun l => sensorIx q pd (2 + l)))

theorem exists_mem_dramSensors {p : Nat → Prop} {q : Nat} :
    (∃ i ∈ dramSensors q, p i) ↔ ∃ pd < 64, ∃ l < 4, p (sensorIx q pd (2 + l)) := by
  simp only [dramSensors, List.mem_flatMap, List.mem_map, List.mem_range]
  constructor
  · rintro ⟨_, ⟨pd, hpd, l, hl, rfl⟩, h⟩
    exact ⟨pd, hpd, l, hl, h⟩
  · rintro ⟨pd, hpd, l, hl, h⟩
    exact ⟨_, ⟨pd, hpd, l, hl, rfl⟩, h⟩

/-- The rule for a layer changes at most which layers are refreshed twice as often. -/
theorem State.layerThermal_hot2x (s : State) (q l : Nat) : ∃ x, s.layerThermal q l = { s with hot2x := x } := by
  unfold State.layerThermal
  split
  · exact ⟨s.hot2x, rfl⟩
  · split
    · exact ⟨_, rfl⟩
    · split
      · exact ⟨_, rfl⟩
      · exact ⟨s.hot2x, rfl⟩

/-- The rules for some layers, one after the other. -/
def State.layersThermal (s : State) (q : Nat) (ls : List Nat) : State := ls.foldl (fun s l => s.layerThermal q l) s

theorem State.layersThermal_hot2x (q : Nat) (ls : List Nat) : ∀ s : State, ∃ x, s.layersThermal q ls = { s with hot2x := x } := by
  induction ls with
  | nil => exact fun s => ⟨s.hot2x, rfl⟩
  | cons l ls ih =>
    intro s
    obtain ⟨x, hx⟩ := s.layerThermal_hot2x q l
    obtain ⟨y, hy⟩ := ih (s.layerThermal q l)
    exact ⟨y, by rw [State.layersThermal, List.foldl_cons]; exact hy.trans (by rw [hx])⟩

/-- A layer at 85 °C or above is refreshed twice as often after its own rule, and after that of another layer if it was before. -/
theorem State.layerThermal_mem {s : State} {q l l' t : Nat} (hot : s.hottest (layerSensors q l) = some t) (ht : 1192 ≤ t)
    (h : q * 4 + l ∈ s.hot2x ∨ l = l') : q * 4 + l ∈ (s.layerThermal q l').hot2x := by
  unfold State.layerThermal
  rw [← layerSensors]
  by_cases hl : l = l'
  · subst hl
    rw [hot]
    simp only [tempCode, Nat.reduceAdd, Nat.reduceMul, ht, if_true]
    exact (mem_setAdd _ _ _).2 (.inl rfl)
  · have hmem := h.resolve_right hl
    split
    · exact hmem
    · split
      · exact (mem_setAdd _ _ _).2 (.inr hmem)
      · split
        · simp [hmem, hl]
        · exact hmem

theorem State.layersThermal_mem {q l t : Nat} (ls : List Nat) (ht : 1192 ≤ t) : ∀ s : State, s.hottest (layerSensors q l) = some t →
    q * 4 + l ∈ s.hot2x ∨ l ∈ ls → q * 4 + l ∈ (s.layersThermal q ls).hot2x := by
  induction ls with
  | nil => exact fun s _ h => h.resolve_right (List.not_mem_nil)
  | cons l' ls ih =>
    intro s hot h
    refine ih (s.layerThermal q l') ?_ ?_
    · obtain ⟨x, hx⟩ := s.layerThermal_hot2x q l'
      rw [hx]
      exact hot
    · by_cases hl : q * 4 + l ∈ s.hot2x ∨ l = l'
      · exact .inl (State.layerThermal_mem hot ht hl)
      · obtain ⟨hm, hne⟩ := not_or.1 hl
        exact .inr ((List.mem_cons.1 (h.resolve_left hm)).resolve_left hne)

theorem State.layersThermal_reg (s : State) (q : Nat) (ls : List Nat) (r : Reg) : (s.layersThermal q ls).reg r = s.reg r := by
  obtain ⟨x, hx⟩ := s.layersThermal_hot2x q ls
  rw [hx]
  rfl

theorem State.layersThermal_leaves (s : State) (q : Nat) (ls : List Nat) : (s.layersThermal q ls).mem = s.mem ∧
    (s.layersThermal q ls).ctxs = s.ctxs ∧ (s.layersThermal q ls).powered = s.powered := by
  obtain ⟨x, hx⟩ := s.layersThermal_hot2x q ls
  rw [hx]
  exact ⟨rfl, rfl, rfl⟩

/-- DRAMCLK with HOT2X of the quarter's layers. -/
def State.hotClk (s : State) (q : Nat) : DWord := setBit (s.reg (.dramclk q)) 5 (s.hot2x.any (fun x => x / 4 == q))

/-- The rule for a quarter: its layers, then HOT2X and THERMSTEP once a sensor has converted. -/
theorem State.dramThermal_none {s : State} {q : Nat} (h : s.hottest (dramSensors q) = none) :
    s.dramThermal q = s.layersThermal q (List.range 4) := by
  have h' := (State.hottest_of_tsense (fun _ => s.layersThermal_reg q (List.range 4) _) _).trans h
  unfold State.dramThermal
  dsimp only
  rw [← dramSensors, ← State.layersThermal, h']

theorem State.dramThermal_some {s : State} {q t : Nat} (h : s.hottest (dramSensors q) = some t) :
    s.dramThermal q = ((s.layersThermal q (List.range 4)).setReg (.dramclk q) (setBits ((s.layersThermal q (List.range 4)).hotClk q) 9 8
      (thermStep (bits (s.reg (.dramclk q)) 9 8) t))).ratioStart q := by
  have h' := (State.hottest_of_tsense (fun _ => s.layersThermal_reg q (List.range 4) _) _).trans h
  have hstep : bits ((s.layersThermal q (List.range 4)).hotClk q) 9 8 = bits (s.reg (.dramclk q)) 9 8 := by
    simp [State.hotClk, State.layersThermal_reg]
  rw [← hstep]
  unfold State.dramThermal
  dsimp only
  rw [← dramSensors, ← State.layersThermal, h']
  rfl

theorem State.dramThermal_leaves (s : State) (q : Nat) : (s.dramThermal q).mem = s.mem ∧ (s.dramThermal q).ctxs = s.ctxs ∧
    (s.dramThermal q).powered = s.powered := by
  obtain ⟨hmem, hctxs, hpow⟩ := s.layersThermal_leaves q (List.range 4)
  cases h : s.hottest (dramSensors q) with
  | none =>
    rw [State.dramThermal_none h]
    exact ⟨hmem, hctxs, hpow⟩
  | some t =>
    rw [State.dramThermal_some h]
    simp [hmem, hctxs, hpow]

theorem State.dramThermal_reg_ne {s : State} {q : Nat} {r : Reg} (hr : (Reg.dramclk q).key ≠ r.key) : (s.dramThermal q).reg r = s.reg r := by
  cases h : s.hottest (dramSensors q) with
  | none => rw [State.dramThermal_none h, State.layersThermal_reg]
  | some t => rw [State.dramThermal_some h, State.ratioStart_reg_ne hr, State.setReg_reg_ne _ _ _ _ hr, State.layersThermal_reg]

theorem thermStep_lt (cur t : Nat) : thermStep cur t < 4 := by
  unfold thermStep
  have hmin : Nat.min cur 1 ≤ 1 := Nat.min_le_right _ _
  split_ifs <;> omega

/-- THERMSTEP after the rule, for the greatest reading. -/
theorem State.dramThermal_step {s : State} {q t : Nat} (h : s.hottest (dramSensors q) = some t) :
    bits ((s.dramThermal q).reg (.dramclk q)) 9 8 = thermStep (bits (s.reg (.dramclk q)) 9 8) t := by
  rw [State.dramThermal_some h, State.ratioStart_bits (.inr (by decide)), State.setReg_reg, bits_setBits_same (by decide)]
  exact Nat.mod_eq_of_lt (thermStep_lt _ _)

theorem thermStep_hot {cur t : Nat} (h : 1312 ≤ t) : thermStep cur t = 2 := if_pos h

theorem thermStep_warm {cur t : Nat} (h1 : t < 1312) (h2 : 1272 ≤ t) : thermStep cur t = if cur = 2 then 2 else 1 :=
  (if_neg (Nat.not_le.2 h1)).trans (if_pos h2)

theorem thermStep_mild {cur t : Nat} (h1 : t < 1272) (h2 : 1232 ≤ t) : thermStep cur t = Nat.min cur 1 :=
  (if_neg (Nat.not_le.2 (lt_trans h1 (by decide)))).trans ((if_neg (Nat.not_le.2 h1)).trans (if_pos h2))

theorem thermStep_cool {cur t : Nat} (h : t < 1232) : thermStep cur t = 0 :=
  (if_neg (Nat.not_le.2 (lt_trans h (by decide)))).trans ((if_neg (Nat.not_le.2 (lt_trans h (by decide)))).trans (if_neg (Nat.not_le.2 h)))

/-- THERMSTEP by what the sensors of a quarter read, once it takes `thermStep` of the greatest reading. -/
theorem State.thermStep_rules {s : State} {q cur after : Nat} (h : ∀ t, s.hottest (dramSensors q) = some t → after = thermStep cur t) :
    let hot := fun (lim : Nat) => ∃ i ∈ dramSensors q, s.readsFrom i lim
    (hot 1312 → after = 2) ∧ (hot 1272 → ¬ hot 1312 → after = if cur = 2 then 2 else 1) ∧
    (hot 1232 → ¬ hot 1272 → after = Nat.min cur 1) ∧ (¬ hot 1232 → (∃ i ∈ dramSensors q, s.converted i) → after = 0) := by
  intro hot
  obtain ⟨-, hno, hany⟩ | ⟨t, ht, hiff, -⟩ := s.hottest_cases (dramSensors q)
  · exact ⟨fun h => absurd h (hno _), fun h => absurd h (hno _), fun h => absurd h (hno _), fun _ h => absurd h hany⟩
  · have hhot : ∀ lim, hot lim ↔ lim ≤ t := hiff
    simp only [hhot, Nat.not_le, h t ht]
    exact ⟨thermStep_hot, fun h1 h2 => thermStep_warm h2 h1, fun h1 h2 => thermStep_mild h2 h1, fun h _ => thermStep_cool h⟩

/-- A quarter that reads a code or more does so in some layer. -/
theorem State.exists_hot_layer {s : State} {q lim : Nat} (h : ∃ i ∈ dramSensors q, s.readsFrom i lim) :
    ∃ l < 4, ∃ t, s.hottest (layerSensors q l) = some t ∧ lim ≤ t := by
  obtain ⟨pd, hpd, l, hl, hr⟩ := exists_mem_dramSensors.1 h
  have hmem : sensorIx q pd (2 + l) ∈ layerSensors q l := List.mem_map.2 ⟨pd, List.mem_range.2 hpd, rfl⟩
  obtain ⟨t, ht⟩ := State.hottest_of_converted ⟨_, hmem, hr.1⟩
  exact ⟨l, hl, t, ht, (State.le_hottest ht lim).2 ⟨_, hmem, hr⟩⟩

/-- HOT2X after the rule, where a layer reads 85 °C or above. -/
theorem State.dramThermal_hot2x {s : State} {q l t : Nat} (hl : l < 4) (hot : s.hottest (layerSensors q l) = some t) (ht : 1192 ≤ t) :
    bit ((s.dramThermal q).reg (.dramclk q)) 5 = true := by
  obtain ⟨t', ht'⟩ : ∃ t', s.hottest (dramSensors q) = some t' := by
    obtain ⟨i, hi, hr⟩ := (State.le_hottest hot t).1 (le_refl t)
    simp only [layerSensors, List.mem_map, List.mem_range] at hi
    obtain ⟨pd, hpd, rfl⟩ := hi
    exact State.hottest_of_converted (exists_mem_dramSensors.2 ⟨pd, hpd, l, hl, hr.1⟩)
  have hany : ((s.layersThermal q (List.range 4)).hot2x.any (fun x => x / 4 == q)) = true := by
    refine List.any_eq_true.2 ⟨_, State.layersThermal_mem (List.range 4) ht s hot (.inr (List.mem_range.2 hl)), ?_⟩
    have hdiv : (q * 4 + l) / 4 = q := by omega
    simp [hdiv]
  rw [State.dramThermal_some ht', State.ratioStart_bit (by decide), State.setReg_reg, bit_setBits_apart (.inl (by decide)), State.hotClk,
    bit_setBit_same (by decide), hany]

/-! ## The tick -/

/-- A sensor of one of the eight paddocks of a row is past its threshold. -/
def State.rowFatal (s : State) (row : Nat) : Prop :=
  ∃ c < 8, ∃ kind < 6, (s.sensor (sensorIx (row / 32) (row % 32 / 4 * 8 + c) kind)).any (tooHot kind) = true

theorem State.sensor_tooHot {s : State} {i kind lim : Nat} (h : ∀ t, tooHot kind t = decide (lim ≤ t)) :
    (s.sensor i).any (tooHot kind) = true ↔ s.readsFrom i lim := by
  by_cases hc : s.converted i
  · simp [State.sensor_of_converted hc, h, State.readsFrom, hc]
  · simp [State.sensor_of_not_converted hc, State.readsFrom, hc]

/-- The logic, SRAM and DRAM sensors of a paddock, each with its threshold. -/
theorem State.rowFatal_iff (s : State) (row : Nat) : s.rowFatal row ↔ ∃ c < 8,
    s.readsFrom (sensorIx (row / 32) (row % 32 / 4 * 8 + c) 0) 1472 ∨ s.readsFrom (sensorIx (row / 32) (row % 32 / 4 * 8 + c) 1) 1472 ∨
    ∃ l < 4, s.readsFrom (sensorIx (row / 32) (row % 32 / 4 * 8 + c) (2 + l)) 1352 := by
  refine exists_congr fun c => and_congr_right fun _ => ⟨?_, ?_⟩
  · rintro ⟨kind, hkind, h⟩
    by_cases hlogic : kind < 2
    · have h' := (State.sensor_tooHot fun t => tooHot_logic hlogic).1 h
      interval_cases kind
      · exact .inl h'
      · exact .inr (.inl h')
    · obtain ⟨l, rfl⟩ := Nat.exists_eq_add_of_le (Nat.not_lt.1 hlogic)
      exact .inr (.inr ⟨l, by omega, (State.sensor_tooHot fun t => tooHot_dram (Nat.le_add_right _ _)).1 h⟩)
  · rintro (h | h | ⟨l, hl, h⟩)
    · exact ⟨0, by decide, (State.sensor_tooHot fun t => tooHot_logic (by decide)).2 h⟩
    · exact ⟨1, by decide, (State.sensor_tooHot fun t => tooHot_logic (by decide)).2 h⟩
    · exact ⟨2 + l, by omega, (State.sensor_tooHot fun t => tooHot_dram (Nat.le_add_right _ _)).2 h⟩

theorem State.thermalTick_fatal {s : State} {row : Nat} (h : s.rowFatal row) : s.thermalTick row = s.shutdown :=
  if_pos (by simpa [State.rowFatal] using h)

theorem State.thermalTick_calm {s : State} {row : Nat} (h : ¬ s.rowFatal row) :
    s.thermalTick row = (s.rowThermal row).dramThermal (row / 32) := if_neg (by simpa [State.rowFatal] using h)

/-- A tick that removes no power: the rule for the row, then that for its quarter, which reads the same sensors. -/
theorem State.thermalTick_rules {s : State} {row : Nat} (hrow : row < 128) (hcalm : ¬ s.rowFatal row) :
    (s.thermalTick row).mem = s.mem ∧ (s.thermalTick row).ctxs = s.ctxs ∧ (s.thermalTick row).powered = s.powered ∧
    (s.thermalTick row).reg (.rowpwr row) = (s.rowThermal row).reg (.rowpwr row) ∧
    (∀ t, s.hottest (dramSensors (row / 32)) = some t → bits ((s.thermalTick row).reg (.dramclk (row / 32))) 9 8 =
      thermStep (bits (s.reg (.dramclk (row / 32))) 9 8) t) ∧
    ((∃ i ∈ dramSensors (row / 32), s.readsFrom i 1192) → bit ((s.thermalTick row).reg (.dramclk (row / 32))) 5 = true) := by
  have hq : row / 32 < 4 := by omega
  have hclk : (Reg.rowpwr row).key ≠ (Reg.dramclk (row / 32)).key := by simp only [Reg.key]; omega
  have htsense : ∀ i, (s.rowThermal row).reg (.tsense i) = s.reg (.tsense i) := fun i =>
    State.rowThermal_reg_ne (by simp only [Reg.key]; omega)
  obtain ⟨hmem, hctxs, hpow⟩ := s.rowThermal_leaves row
  obtain ⟨hmem', hctxs', hpow'⟩ := (s.rowThermal row).dramThermal_leaves (row / 32)
  rw [State.thermalTick_calm hcalm]
  refine ⟨hmem'.trans hmem, hctxs'.trans hctxs, hpow'.trans hpow, State.dramThermal_reg_ne hclk.symm, ?_, ?_⟩
  · intro t ht
    rw [State.dramThermal_step ((State.hottest_of_tsense htsense _).trans ht), State.rowThermal_reg_ne hclk]
  · intro hhot
    obtain ⟨l, hl, t, ht, hlim⟩ := State.exists_hot_layer hhot
    exact State.dramThermal_hot2x hl ((State.hottest_of_tsense htsense _).trans ht) hlim

end Sys2Proof.Machine

end

section
namespace Sys2Proof.Machine

/-- Settles O37: a conversion and the 100 µs rule by what each does to the sensor, to power and to the caps; the hottest reading reaches a limit
when some reading does. -/
theorem thermalRules : Obligations.ThermalRules := by
  unfold Obligations.ThermalRules
  intro s sensor row code
  extract_lets kind t0 rows q at' reads mine hotRow hotDram anyLogic anyDram fatal cap step kept
  refine ⟨?_, ?_, ?_⟩
  -- a conversion
  · intro hsensor
    obtain ⟨hread, hvalid, halarm, hcalm⟩ := State.convert_rules (s := s) hsensor code.isLt
    have hpow := s.convert_powered sensor t0
    refine ⟨_, rfl, hread, hvalid, halarm, hcalm, ?_, ?_, ?_, s.convert_leaves sensor t0⟩
    · intro hfatal
      refine hpow.trans (if_pos ?_)
      obtain ⟨hkind, ht⟩ | ⟨hkind, ht⟩ := hfatal
      · rw [tooHot_logic hkind, decide_eq_true ht]
      · rw [tooHot_dram hkind, decide_eq_true ht]
    · intro hkind ht
      refine hpow.trans (if_neg ?_)
      rw [tooHot_logic hkind, decide_eq_false (Nat.not_le.2 ht)]
      decide
    · intro hkind ht
      refine hpow.trans (if_neg ?_)
      rw [tooHot_dram hkind, decide_eq_false (Nat.not_le.2 ht)]
      decide
  -- a sensor of the row has reached its end
  · intro _ hfatal
    have hrow : s.rowFatal row := (s.rowFatal_iff row).2 hfatal
    exact ⟨_, congrArg Host.Outcome.next (State.thermalTick_fatal hrow), rfl, rfl, rfl⟩
  -- none has: the caps, HOT2X and THERMSTEP from the hottest readings
  · intro hrow hcalm
    obtain ⟨hmem, hctxs, hpow, hcapth, hstep, hhot⟩ := State.thermalTick_rules hrow (mt (s.rowFatal_iff row).1 hcalm)
    have hrow_iff : ∀ lim, hotRow lim ↔ ∃ i ∈ rowSensors row, s.readsFrom i lim := fun lim =>
      (exists_mem_rowSensors (p := fun i => s.readsFrom i lim)).symm
    have hlogic_iff : anyLogic ↔ ∃ i ∈ rowSensors row, s.converted i := (exists_mem_rowSensors (p := s.converted)).symm
    have hdram_iff : ∀ lim, hotDram lim ↔ ∃ i ∈ dramSensors q, s.readsFrom i lim := fun lim =>
      (exists_mem_dramSensors (p := fun i => s.readsFrom i lim)).symm
    have hany_iff : anyDram ↔ ∃ i ∈ dramSensors q, s.converted i := (exists_mem_dramSensors (p := s.converted)).symm
    simp only [hrow_iff, hlogic_iff, hdram_iff, hany_iff]
    obtain ⟨hcap90, hcap87, hcapMid, hcapNone⟩ := s.rowThermal_rules row
    obtain ⟨h100, h95, h90, hcool⟩ := State.thermStep_rules hstep
    refine ⟨_, rfl, hpow, ⟨hmem, hctxs⟩, ?_⟩
    rw [show Reg.dramclk q = Reg.dramclk (row / 32) from rfl, hcapth]
    exact ⟨hcap90, hcap87, hcapMid, hcapNone, hhot, h100, h95, h90, hcool⟩

end Sys2Proof.Machine
end

section
/-! SUPPORT. What the groom contexts' writes come to (R20, R87, R125, R133, R145, R360, R491), one lemma for each way a write can go. -/

namespace Sys2Proof.Machine

/-! ## ADMIT, HEAD and CONS (R87, R125) -/

theorem State.writeAdmit_elsewhere {s : State} {die q : Nat} (v : DWord) (h : s.qDie q ≠ die) : s.writeAdmit die q v = s :=
  if_pos (by simpa using h)

theorem State.writeAdmit_moves {s : State} {die q : Nat} {v : DWord} (hdie : s.qDie q = die)
    (hfrom : s.qDist q (s.qAdmit q) ≤ s.qDist q (bits v 31 0)) (hto : s.qDist q (bits v 31 0) ≤ s.qDist q (s.qTail q)) :
    s.writeAdmit die q v = s.setField (.feq q) 31 0 (bits v 31 0) :=
  (if_neg (by simp [hdie])).trans (if_pos (by simp [hfrom, hto]))

theorem State.writeAdmit_refused {s : State} {die q : Nat} {v : DWord} (hdie : s.qDie q = die)
    (h : s.qDist q (bits v 31 0) < s.qDist q (s.qAdmit q) ∨ s.qDist q (s.qTail q) < s.qDist q (bits v 31 0)) :
    s.writeAdmit die q v = s.badWrite die :=
  (if_neg (by simp [hdie])).trans (if_neg (by simp only [Bool.and_eq_true, decide_eq_true_eq]; omega))

theorem State.writeHead_elsewhere {s : State} {die q : Nat} (v : DWord) (h : s.qDie q ≠ die) : s.writeHead die q v = s :=
  if_pos (by simpa using h)

theorem State.writeHead_refused {s : State} {die q : Nat} {v : DWord} (hdie : s.qDie q = die)
    (h : s.qDist q (s.qStart q) < s.qDist q (bits v 31 0)) : s.writeHead die q v = s.badWrite die :=
  (if_neg (by simp [hdie])).trans (if_neg (Nat.not_le.2 h))

/-- A HEAD that moves: QPTR takes it, and the HEAD that the cycle began with is remembered. -/
theorem State.writeHead_moves {s : State} {die q : Nat} {v : DWord} (hdie : s.qDie q = die)
    (h : s.qDist q (bits v 31 0) ≤ s.qDist q (s.qStart q)) :
    ∃ was, s.writeHead die q v = ({ s with headWas := was } : State).setField (.qptr q) 63 32 (bits v 31 0) :=
  ⟨_, (if_neg (by simp [hdie])).trans (if_pos h)⟩

theorem State.badWrite_festat (s : State) (die : Nat) : bit ((s.badWrite die).reg (.festat die)) 0 = true := by
  simp [State.badWrite]

/-- DBLSTAT after a write of a groom context (R86, R87). -/
def consWritten (r v : DWord) : DWord :=
  let r1 := if bit v 29 then setBit r 29 false else r
  if 4096 < (bits r 12 0 + 8192 - bits v 28 16) % 8192 then r1 else setBits r1 28 16 (bits v 28 16)

theorem State.writeDblstat_eq (s : State) (die : Nat) (v : DWord) :
    ∃ x, s.writeDblstat die v = { s.setReg (.dblstat die) (consWritten (s.reg (.dblstat die)) v) with consAt := x } := by
  unfold State.writeDblstat
  dsimp only
  split
  · exact ⟨s.consAt, rfl⟩
  · exact ⟨_, rfl⟩

theorem State.writeDblstat_dblstat (s : State) (die : Nat) (v : DWord) :
    (s.writeDblstat die v).reg (.dblstat die) = consWritten (s.reg (.dblstat die)) v := by
  obtain ⟨x, hx⟩ := s.writeDblstat_eq die v
  rw [hx]
  exact State.setReg_reg _ _ _

theorem State.writeDblstat_leaves (s : State) (die : Nat) (v : DWord) :
    (s.writeDblstat die v).mem = s.mem ∧ (s.writeDblstat die v).ctxs = s.ctxs := by
  obtain ⟨x, hx⟩ := s.writeDblstat_eq die v
  rw [hx]
  exact ⟨rfl, rfl⟩

theorem bits_clearOverrun {c : Bool} {r : DWord} {h l : Nat} (hd : h < 29 ∨ 29 < l) : bits (if c then setBit r 29 false else r) h l = bits r h l := by
  split
  · exact bits_setBit_apart hd
  · rfl

/-- CONS advances to PROD at most; PROD stands. -/
theorem bits_consWritten (r v : DWord) : bits (consWritten r v) 28 16 =
      (if (bits r 12 0 + 8192 - bits v 28 16) % 8192 ≤ 4096 then bits v 28 16 else bits r 28 16) ∧
    bits (consWritten r v) 12 0 = bits r 12 0 := by
  have hcons : bits v 28 16 % 2 ^ (28 + 1 - 16) = bits v 28 16 := Nat.mod_eq_of_lt (bits_lt v 28 16)
  unfold consWritten
  dsimp only
  by_cases h : 4096 < (bits r 12 0 + 8192 - bits v 28 16) % 8192
  · rw [if_pos h, if_neg (Nat.not_le.2 h), bits_clearOverrun (.inl (by decide)), bits_clearOverrun (.inl (by decide))]
    exact ⟨rfl, rfl⟩
  · rw [if_neg h, if_pos (Nat.not_lt.1 h), bits_setBits_same (by decide), hcons, bits_setBits_apart (.inl (by decide)),
      bits_clearOverrun (.inl (by decide))]
    exact ⟨rfl, rfl⟩

/-! ## BRKEND, DEFERQ (R360, R491) -/

theorem SMap.get?_map {α : Type} (f : Nat × α → α) (m : SMap α) (k : Nat) :
    SMap.get? (m.map fun e => (e.1, f e)) k = (m.get? k).map fun x => f (k, x) := by
  induction m with
  | nil => rfl
  | cons e m ih =>
    obtain ⟨i, x⟩ := e
    rw [List.map_cons]
    simp only [SMap.get?]
    split
    next h => rw [Option.map_some, h]
    next => exact ih

/-- What BRKEND makes of a context. -/
def brokenAt (st slot : Nat) (e : Nat × Ctx) : Ctx :=
  if !isGroom e.1 && e.2.resident && e.2.stall == st && e.2.slot == slot then e.2.endBreak else e.2

theorem State.writeBrkend_ignored {s : State} {die : Nat} {v : DWord} (h : bit v 13 = false) : s.writeBrkend die v = s :=
  if_pos (by simp [h])

theorem State.writeBrkend_acts {s : State} {die : Nat} {v : DWord} (h : bit v 13 = true) (hdie : stallQuarter (bits v 11 0) = die) :
    s.writeBrkend die v = { s with ctxs := s.ctxs.map fun e => (e.1, brokenAt (bits v 11 0) (bits v 12 12) e) } := by
  have hmap : ∀ e : Nat × Ctx, (if !isGroom e.1 && e.2.resident && e.2.stall == bits v 11 0 && e.2.slot == bits v 12 12 then
      (e.1, e.2.endBreak) else e) = (e.1, brokenAt (bits v 11 0) (bits v 12 12) e) := by
    intro e
    unfold brokenAt
    split
    · rfl
    · rfl
  refine (if_neg (by simp [h, hdie])).trans ?_
  simp only [hmap]

/-- The context that BRKEND names, on its stall and in its slot, leaves its WAITBRK. -/
theorem brokenAt_named {key st slot : Nat} {c : Ctx} (hkey : key < groomKey) (hloc : c.loc = .on st slot) :
    brokenAt st slot (key, c) = c.endBreak := by
  have hgroom : isGroom key = false := by simpa [isGroom] using hkey
  simp [brokenAt, hgroom, Ctx.resident, Ctx.stall, Ctx.slot, hloc]

/-- A context whose only wait is a WAITBRK waits no more. -/
theorem Ctx.endBreak_single {c : Ctx} {w : Wait} (hwaits : c.waits = [w]) (hkind : w.kind = .waitbrk) :
    c.endBreak = { c with waits := [] } := by
  simp [Ctx.endBreak, hwaits, hkind]

theorem State.ctx_of_get? {s : State} {k : Nat} {c : Ctx} (h : s.ctxs.get? k = some c) : s.ctx k = c := by
  simp [State.ctx, h]

theorem bits_single (x : DWord) (i : Nat) : bits x i i = (bit x i).toNat := by
  apply Nat.eq_of_testBit_eq
  intro j
  rw [testBit_bits, Nat.testBit_bool_toNat]
  cases j with
  | zero => simp [bit]
  | succ j => simp

/-- MCBSEL after a write that carries READ: OFFSET, with READY clear. -/
def mcbselReading (r v : DWord) : DWord := setBit (setBits r 25 3 (bits v 25 3)) 27 false

theorem State.writeMcbsel_read {s : State} {k : Nat} {v : DWord} (h : bit v 26 = true) : s.writeMcbsel k v =
    (s.setCtx k { s.ctx k with csr := { (s.ctx k).csr with mcbsel := mcbselReading (s.ctx k).csr.mcbsel v } }).push
      [.mcbRead k (bits v 25 3 * 8)] := if_pos h

theorem deferqValue_eq (v : DWord) : deferqValue v = BitVec.ofNat 64 (v.toNat % 2 ^ 21 / 16 * 16) := by
  simp [deferqValue, bits]

/-! ## The life record (R134, R136) -/

/-- The table of the nonzero values at some places. -/
def nonzeroAt (g : Nat → Nat) (l : List Nat) : SMap Nat := l.filterMap fun p => if g p = 0 then none else some (p, g p)

theorem get?_nonzeroAt (g : Nat → Nat) (k : Nat) (l : List Nat) :
    (nonzeroAt g l).get? k = if k ∈ l ∧ g k ≠ 0 then some (g k) else none := by
  induction l with
  | nil => simp [nonzeroAt]
  | cons p l ih =>
    unfold nonzeroAt at ih ⊢
    rw [List.filterMap_cons]
    by_cases hp : g p = 0
    · have hne : k = p → g k = 0 := fun h => h ▸ hp
      simp only [hp, if_true, ih, List.mem_cons]
      exact if_congr (by tauto) rfl rfl
    · simp only [hp, if_false, SMap.get?]
      by_cases hk : p = k
      · subst hk
        simp [hp]
      · rw [if_neg hk, ih]
        exact if_congr (by simp [Ne.symm hk]) rfl rfl

theorem getD_nonzeroAt {g : Nat → Nat} {k : Nat} {l : List Nat} (hk : k ∈ l) : (nonzeroAt g l).getD k 0 = g k := by
  rw [SMap.getD, get?_nonzeroAt]
  by_cases h : g k = 0
  · simp [h]
  · simp [hk, h]

/-- The record written holds WEAR and STATE of every physical stall, and nothing else changes. -/
theorem State.lifeRecord_eq (s : State) : s.lifeRecord = { s with nv := { s.nv with
    wear := nonzeroAt (fun p => bits (s.reg (.stallwear p)) 15 0) (List.range 4352),
    state := nonzeroAt s.physState (List.range 4352) } } := rfl

@[simp] theorem State.lifeRecord_mem (s : State) : s.lifeRecord.mem = s.mem := by dsimp only [State.lifeRecord]
@[simp] theorem State.lifeRecord_ctxs (s : State) : s.lifeRecord.ctxs = s.ctxs := by dsimp only [State.lifeRecord]
@[simp] theorem State.lifeRecord_regs (s : State) : s.lifeRecord.regs = s.regs := by dsimp only [State.lifeRecord]

@[simp] theorem State.lifeRecord_retired (s : State) : s.lifeRecord.nv.retired = s.nv.retired := by dsimp only [State.lifeRecord]

theorem State.lifeRecord_state {s : State} {k : Nat} (hk : k < 4352) (h : s.physState k ≠ 0) :
    s.lifeRecord.nv.state.get? k = some (s.physState k) := by
  simp only [State.lifeRecord_eq, get?_nonzeroAt]
  exact if_pos ⟨List.mem_range.2 hk, h⟩

/-- The record's answers for a physical stall: its WEAR and its STATE. -/
theorem State.lifeRecord_getD {s : State} {k : Nat} (hk : k < 4352) :
    s.lifeRecord.nv.wear.getD k 0 = bits (s.reg (.stallwear k)) 15 0 ∧ s.lifeRecord.nv.state.getD k 0 = s.physState k := by
  simp only [State.lifeRecord_eq, getD_nonzeroAt (List.mem_range.2 hk), and_self]

theorem State.push_nil (s : State) : s.push [] = s := by simp [State.push]

/-- A change of STATE writes the life record; a move may become due. -/
theorem State.stateChanged_eq (s : State) (p n : Nat) : ∃ l, s.stateChanged p n = s.lifeRecord.push l := by
  unfold State.stateChanged
  dsimp only
  split
  · split
    · exact ⟨_, rfl⟩
    · exact ⟨[], (State.push_nil _).symm⟩
  · exact ⟨[], (State.push_nil _).symm⟩

/-- What a change of STATE brings with it touches neither memory, contexts nor registers, and records the STATE of a position. -/
theorem State.stateChanged_leaves (s : State) (p n : Nat) : (s.stateChanged p n).mem = s.mem ∧ (s.stateChanged p n).ctxs = s.ctxs ∧
    (∀ r, (s.stateChanged p n).reg r = s.reg r) := by
  obtain ⟨l, hl⟩ := s.stateChanged_eq p n
  rw [hl]
  simp only [State.push_mem, State.push_ctxs, State.push_reg, s.lifeRecord_mem, s.lifeRecord_ctxs, true_and]
  exact State.reg_of_regs s.lifeRecord_regs

theorem State.stateChanged_state {s : State} {p n k : Nat} (hk : k < 4352) (h : s.physState k ≠ 0) :
    (s.stateChanged p n).nv.state.get? k = some (s.physState k) := by
  obtain ⟨l, hl⟩ := s.stateChanged_eq p n
  rw [hl, State.push_nv]
  exact State.lifeRecord_state hk h

/-! ## STALLWEAR (R132, R133) -/

/-- STALLWEAR with WEAR raised to a value, THRESH set, and STATEERR cleared by a 1. -/
def wearWritten (r v : DWord) : DWord :=
  let r1 := if bits r 15 0 ≤ bits v 15 0 then setBits r 15 0 (bits v 15 0) else r
  let r2 := setBits r1 31 16 (bits v 31 16)
  if bit v 63 then setBit r2 63 false else r2

theorem bits_wearWritten (r v : DWord) : bits (wearWritten r v) 15 0 = Nat.max (bits r 15 0) (bits v 15 0) ∧
    bits (wearWritten r v) 31 16 = bits v 31 16 ∧ bits (wearWritten r v) 33 32 = bits r 33 32 := by
  have hw : bits v 15 0 % 2 ^ (15 + 1 - 0) = bits v 15 0 := Nat.mod_eq_of_lt (bits_lt v 15 0)
  have ht : bits v 31 16 % 2 ^ (31 + 1 - 16) = bits v 31 16 := Nat.mod_eq_of_lt (bits_lt v 31 16)
  have hclear : ∀ (x : DWord) {h l : Nat}, h < 63 → bits (if bit v 63 then setBit x 63 false else x) h l = bits x h l := by
    intro x h l hh
    split
    · exact bits_setBit_apart (.inl hh)
    · rfl
  unfold wearWritten
  dsimp only
  rw [hclear _ (by decide), hclear _ (by decide), hclear _ (by decide), bits_setBits_apart (.inl (by decide)), bits_setBits_same (by decide),
    bits_setBits_apart (.inr (by decide)), ht]
  by_cases hle : bits r 15 0 ≤ bits v 15 0
  · rw [if_pos hle, bits_setBits_same (by decide), hw, bits_setBits_apart (.inr (by decide))]
    exact ⟨(Nat.max_eq_right hle).symm, rfl, rfl⟩
  · rw [if_neg hle]
    exact ⟨(Nat.max_eq_left (Nat.le_of_not_le hle)).symm, rfl, rfl⟩

/-- STATE moves forward to DERATED or DRAINED: the register takes it, and what a change of STATE brings follows. -/
theorem State.writeWear_forward {s : State} {p : Nat} {v : DWord} (h12 : bits v 33 32 = 1 ∨ bits v 33 32 = 2)
    (hlt : s.physState p < bits v 33 32) : s.writeWear p v =
      (s.setReg (.stallwear p) (setBits (wearWritten (s.reg (.stallwear p)) v) 33 32 (bits v 33 32))).stateChanged p (bits v 33 32) := by
  have hfwd : ((bits v 33 32 == 1 || bits v 33 32 == 2) && decide (s.physState p < bits v 33 32)) = true := by simp [h12, hlt]
  unfold State.writeWear
  simp only [hfwd]
  rfl

/-- STATE as it is. -/
theorem State.writeWear_same {s : State} {p : Nat} {v : DWord} (h : bits v 33 32 = s.physState p) :
    s.writeWear p v = s.setReg (.stallwear p) (wearWritten (s.reg (.stallwear p)) v) := by
  have hfwd : ((bits v 33 32 == 1 || bits v 33 32 == 2) && decide (s.physState p < bits v 33 32)) = false := by simp [h]
  unfold State.writeWear
  simp only [hfwd, Bool.false_eq_true, if_false]
  exact congrArg (s.setReg (.stallwear p)) (if_pos h)

/-- STATE backward, or RETIRED: STATEERR. -/
theorem State.writeWear_refused {s : State} {p : Nat} {v : DWord} (hne : bits v 33 32 ≠ s.physState p)
    (h : bits v 33 32 < s.physState p ∨ bits v 33 32 = 3) :
    s.writeWear p v = s.setReg (.stallwear p) (setBit (wearWritten (s.reg (.stallwear p)) v) 63 true) := by
  have hfwd : ((bits v 33 32 == 1 || bits v 33 32 == 2) && decide (s.physState p < bits v 33 32)) = false := by
    simp only [Bool.and_eq_false_iff, Bool.or_eq_false_iff, beq_eq_false_iff_ne, decide_eq_false_iff_not]
    omega
  unfold State.writeWear
  simp only [hfwd, Bool.false_eq_true, if_false, hne]
  rfl

/-- A position that is not RETIRED has the STATE of its register. -/
theorem State.physState_of_inService {s : State} {p : Nat} (h : bit (s.reg (.colmap (p / 34))) (p % 34) = false) :
    s.physState p = bits (s.reg (.stallwear p)) 33 32 := if_neg (by simp [h])

/-- A position in service has the STATE that is written to its register. -/
theorem State.physState_setReg {s : State} {p : Nat} {v : DWord} (hp : p < 4352)
    (h : bit (s.reg (.colmap (p / 34))) (p % 34) = false) : (s.setReg (.stallwear p) v).physState p = bits v 33 32 := by
  have hkey : (Reg.stallwear p).key ≠ (Reg.colmap (p / 34)).key := by
    simp only [Reg.key]
    omega
  have hserv : bit ((s.setReg (.stallwear p) v).reg (.colmap (p / 34))) (p % 34) = false := by rwa [State.setReg_reg_ne _ _ _ _ hkey]
  rw [State.physState_of_inService hserv, State.setReg_reg]

/-! ## FEATMASK (R145, R147) -/

/-- A write of FEATMASK stores it and what the life record keeps; a collection of the contexts that lose a feature may be asked for. -/
theorem State.writeFeat_eq (s : State) (p : Nat) (v : DWord) : ∃ colls ids, s.writeFeat p v = { s.setReg (.featmask p) (v &&& 0xFF) with
    nv := { s.nv with featmask := s.nv.featmask.put p (Nat.land (s.nv.featmask.getD p 0xFF) (bits v 7 0)) }, colls := colls, ids := ids } := by
  unfold State.writeFeat State.evict State.collect
  dsimp only
  split
  · exact ⟨s.colls, s.ids, rfl⟩
  · split
    · exact ⟨s.colls, s.ids, rfl⟩
    · exact ⟨_, _, rfl⟩

/-! ## COLMAP (R20) -/

/-- MAPERR cleared by a 1. -/
def mapErrCleared (r v : DWord) : DWord := if bit v 40 then setBit r 40 false else r

theorem bits_mapErrCleared (r v : DWord) {h l : Nat} (hd : h < 40) : bits (mapErrCleared r v) h l = bits r h l := by
  unfold mapErrCleared
  split
  · exact bits_setBit_apart (.inl hd)
  · rfl

theorem mapErrCleared_of_bit {r v : DWord} (h : bit v 40 = true) : mapErrCleared r v = r &&& 0xFFFFFEFFFFFFFFFF := by
  simp [mapErrCleared, h, setBit, setBits]

/-- A write that leaves RETIRED as it is. -/
theorem State.writeColmap_same {s : State} {row : Nat} {v : DWord} (h : bits v 33 0 = bits (s.reg (.colmap row)) 33 0) :
    s.writeColmap row v = s.setReg (.colmap row) (mapErrCleared (s.reg (.colmap row)) v) := if_pos h

/-- A write that changes the map of a busy row. -/
theorem State.writeColmap_busy {s : State} {row : Nat} {v : DWord} (h : bits v 33 0 ≠ bits (s.reg (.colmap row)) 33 0)
    (hbusy : s.rowBusy row = true) :
    s.writeColmap row v = s.setReg (.colmap row) (setBit (mapErrCleared (s.reg (.colmap row)) v) 40 true) :=
  (if_neg h).trans (if_neg (by simp [hbusy]))

/-- A map and its SPARES after positions have been retired. -/
def colmapRetired (r v : DWord) : DWord := setBits (setBits (mapErrCleared r v) 33 0 (bits v 33 0)) 35 34 (sparesOf (bits v 33 0))

theorem bits_colmapRetired (r v : DWord) : bits (colmapRetired r v) 33 0 = bits v 33 0 ∧
    bits (colmapRetired r v) 35 34 = sparesOf (bits v 33 0) % 4 := by
  have hmap : bits v 33 0 % 2 ^ (33 + 1 - 0) = bits v 33 0 := Nat.mod_eq_of_lt (bits_lt v 33 0)
  unfold colmapRetired
  rw [bits_setBits_apart (.inl (by decide)), bits_setBits_same (by decide), bits_setBits_same (by decide), hmap]
  exact ⟨rfl, rfl⟩

/-- A write that retires positions of an idle row, each of which is DRAINED: the map, SPARES with it, and the life record. -/
theorem State.writeColmap_retires {s : State} {row : Nat} {v : DWord} (h : bits v 33 0 ≠ bits (s.reg (.colmap row)) 33 0)
    (hidle : s.rowBusy row = false) (hkeep : ∀ p < 34, (bits (s.reg (.colmap row)) 33 0).testBit p = true → (bits v 33 0).testBit p = true)
    (hdrained : ∀ p < 34, (bits v 33 0).testBit p = true → s.physState (row * 34 + p) = 2) :
    (s.writeColmap row v).reg (.colmap row) = colmapRetired (s.reg (.colmap row)) v ∧
      (s.writeColmap row v).nv.retired.get? row = some (bits v 33 0) := by
  have hok : (!s.rowBusy row && (List.range 34).all (fun p => !((bits (s.reg (.colmap row)) 33 0).testBit p) || (bits v 33 0).testBit p) &&
      (List.range 34).all (fun p => !((bits v 33 0).testBit p) || (bits (s.reg (.colmap row)) 33 0).testBit p ||
        s.physState (row * 34 + p) == 2)) = true := by
    simp only [hidle, Bool.not_false, Bool.true_and, Bool.and_eq_true, List.all_eq_true, List.mem_range, Bool.or_eq_true, Bool.not_eq_true',
      beq_iff_eq]
    refine ⟨fun p hp => ?_, fun p hp => ?_⟩
    · by_cases hold : (bits (s.reg (.colmap row)) 33 0).testBit p = true
      · exact .inr (hkeep p hp hold)
      · exact .inl (by simpa using hold)
    · by_cases hnew : (bits v 33 0).testBit p = true
      · exact .inr (hdrained p hp hnew)
      · exact .inl (.inl (by simpa using hnew))
  unfold State.writeColmap
  dsimp only
  rw [if_neg h, if_pos hok, State.reg_of_regs (State.lifeRecord_regs _), State.lifeRecord_retired]
  exact ⟨State.setReg_reg _ _ _, SMap.get?_put_same _ _ _⟩

end Sys2Proof.Machine

end

section
namespace Sys2Proof.Machine

/-- Settles O32: each write by the lemma for the way it goes, and its register read field by field. -/
theorem groomWrites : Obligations.GroomWrites := by
  unfold Obligations.GroomWrites
  intro s die q stall pos key v w
  extract_lets head dist adm start tail n g row map st kept
  have hn : n % 2 ^ 32 = n := Nat.mod_eq_of_lt (bits_lt v 31 0)
  refine ⟨?_, ?_, ?_, ?_, rfl, ?_, ?_, ?_, ?_, ?_, ?_, ?_, ?_⟩
  -- ADMIT and HEAD of a queue of this die: moved, or refused
  · intro hq hdie4 hdie
    refine ⟨?_, ?_, ?_, ?_⟩
    · intro hfrom hto
      refine ⟨_, congrArg Host.Outcome.next (State.writeAdmit_moves hdie hfrom hto), ?_, ?_, rfl, rfl⟩
      · rw [State.setField_reg, bits_setBits_same (by decide)]
        exact hn
      · rw [State.setField_reg, bits_setBits_apart (.inr (by decide))]
    · intro hbad
      refine ⟨_, congrArg Host.Outcome.next (State.writeAdmit_refused hdie hbad), ?_, s.badWrite_festat die, rfl, rfl⟩
      exact State.setReg_reg_ne _ _ _ _ (by simp only [Reg.key]; omega)
    · intro hto
      obtain ⟨was, hmoves⟩ := State.writeHead_moves hdie hto
      refine ⟨_, congrArg Host.Outcome.next hmoves, ?_, ?_, rfl, rfl⟩
      · rw [State.setField_reg, bits_setBits_same (by decide)]
        exact hn
      · rw [State.setField_reg, bits_setBits_apart (.inl (by decide))]
        rfl
    · intro hbad
      refine ⟨_, congrArg Host.Outcome.next (State.writeHead_refused hdie hbad), ?_, s.badWrite_festat die, rfl, rfl⟩
      exact State.setReg_reg_ne _ _ _ _ (by simp only [Reg.key]; omega)
  -- of a queue of another die
  · intro hdie
    exact ⟨congrArg Host.Outcome.next (State.writeAdmit_elsewhere v hdie), congrArg Host.Outcome.next (State.writeHead_elsewhere v hdie)⟩
  -- CONS
  · intro _
    obtain ⟨hcons, hprod⟩ := bits_consWritten (s.reg (.dblstat die)) v
    rw [← s.writeDblstat_dblstat die v] at hcons hprod
    exact ⟨_, rfl, hcons, hprod, s.writeDblstat_leaves die v⟩
  -- MCBSEL
  · refine ⟨_, congrArg Host.Outcome.next (State.writeMcbsel_read (bit_setBit_same (by decide))), ?_, ?_, ?_, rfl⟩
    · simpa [mcbselReading] using bits_lt v 25 3
    · simp [mcbselReading]
    · simp
  -- DEFERQ
  · rw [← deferqValue_eq]
    rfl
  -- BRKEND that names a WAITBRK
  · intro hkey hgroom hloc hwaits hkind hst hslot hbreak
    have hdie : stallQuarter (bits v 11 0) = stallQuarter stall := by rw [hst]
    refine ⟨_, congrArg Host.Outcome.next (State.writeBrkend_acts hbreak hdie), ?_, rfl, rfl⟩
    rw [hst, bits_single, hslot, Bool.toNat_true, ← Ctx.endBreak_single hwaits hkind, ← brokenAt_named hgroom hloc]
    refine State.ctx_of_get? ?_
    exact (SMap.get?_map _ _ _).trans (by rw [hkey, Option.map_some])
  -- BRKEND that ends none
  · intro hbreak
    exact congrArg Host.Outcome.next (State.writeBrkend_ignored hbreak)
  -- WEAR and STATE
  · intro hpos hserv
    have hcur : s.physState pos = bits st 33 32 := State.physState_of_inService hserv
    obtain ⟨hwear, -, hstate⟩ := bits_wearWritten (s.reg (.stallwear pos)) v
    refine ⟨?_, ?_⟩
    · intro hlt h3
      have hnew : bits v 33 32 % 2 ^ (33 + 1 - 32) = bits v 33 32 := Nat.mod_eq_of_lt (bits_lt v 33 32)
      refine ⟨_, congrArg Host.Outcome.next (State.writeWear_forward (by omega) (hcur ▸ hlt)), ?_⟩
      obtain ⟨hmem, hctxs, hreg⟩ := State.stateChanged_leaves (s.setReg (.stallwear pos)
        (setBits (wearWritten (s.reg (.stallwear pos)) v) 33 32 (bits v 33 32))) pos (bits v 33 32)
      have hphys := State.physState_setReg (v := setBits (wearWritten (s.reg (.stallwear pos)) v) 33 32 (bits v 33 32)) hpos hserv
      rw [bits_setBits_same (by decide), hnew] at hphys
      refine ⟨?_, ?_, ?_, hmem, hctxs⟩
      · rw [hreg, State.setReg_reg, bits_setBits_same (by decide), hnew]
      · rw [hreg, State.setReg_reg, bits_setBits_apart (.inl (by decide)), hwear]
      · rw [State.stateChanged_state hpos (by omega), hphys]
    · intro hback h3
      have hne : bits v 33 32 ≠ s.physState pos := by omega
      refine ⟨_, congrArg Host.Outcome.next (State.writeWear_refused hne (by omega)), ?_, ?_, rfl, rfl, rfl⟩
      · simp [hstate, st]
      · simp
  -- FEATMASK
  · intro hpos
    obtain ⟨colls, ids, hfeat⟩ := s.writeFeat_eq pos v
    exact ⟨_, congrArg Host.Outcome.next hfeat, State.setReg_reg _ _ _, SMap.get?_put_same _ _ _, rfl, rfl⟩
  -- COLMAP of a row that is not idle
  · intro hrow hne hbusy
    refine ⟨_, congrArg Host.Outcome.next (State.writeColmap_busy hne hbusy), ?_, ?_, rfl, rfl⟩
    · simp [bits_mapErrCleared, map, row]
    · simp [row]
  -- COLMAP with the map as it is: MAPERR cleared
  · intro hrow heq herr
    refine ⟨_, congrArg Host.Outcome.next (State.writeColmap_same heq), ?_, rfl, rfl⟩
    rw [State.setReg_reg, mapErrCleared_of_bit herr]
  -- COLMAP of an idle row
  · intro hrow hmap hidle hphys hv _
    have hold : bits (s.reg (.colmap row)) 33 0 = 0 := hmap
    have hne : bits v 33 0 ≠ bits (s.reg (.colmap row)) 33 0 := by
      rw [hv, hold]
      decide
    obtain ⟨hreg, hretired⟩ := State.writeColmap_retires hne hidle (fun p _ h => by simp [hold] at h) (fun p _ h => by
      have hp : p = 0 := by
        simpa [hv, Nat.testBit_one_eq_true_iff_self_eq_zero] using h
      rwa [hp])
    obtain ⟨hnew, hspares⟩ := bits_colmapRetired (s.reg (.colmap row)) v
    rw [← hreg, hv] at hnew hspares
    exact ⟨_, rfl, hnew, hspares, by rw [hretired, hv]⟩

end Sys2Proof.Machine
end

section
/-! SUPPORT. The ageing monitors (R37, R38, R134 to R138, R307): detections, what the third in a row spoils, samples and thresholds. -/

namespace Sys2Proof.Machine

/-! ## SHADOWCNT (R38) -/

theorem bits_countShadow (r : DWord) (b : Nat) : bits (countShadow r b) 23 0 = Nat.min 0xFFFFFF (bits r 23 0 + 1) := by
  have hlt : Nat.min 0xFFFFFF (bits r 23 0 + 1) < 2 ^ (23 + 1 - 0) := lt_of_le_of_lt (Nat.min_le_left _ _) (by decide)
  rw [countShadow, bits_setBit_apart (.inl (by omega)), bits_setBits_same (by decide)]
  exact Nat.mod_eq_of_lt hlt

theorem bit_countShadow {r : DWord} {b : Nat} (hb : b < 40) : bit (countShadow r b) (24 + b) = true := bit_setBit_same (by omega)

/-- One detection, counted from zero. -/
theorem countShadow_zero {b : Nat} (hb : b < 4) : bits (countShadow 0 b) 23 0 = 1 ∧ bits (countShadow 0 b) 27 24 = 2 ^ b := by
  interval_cases b <;> decide

/-- A detection counted and remembered, before what follows from it. -/
def State.counted (s : State) (p b : Nat) : State :=
  { s.setReg (.shadowcnt p) (countShadow (s.reg (.shadowcnt p)) b) with
    shadowSeen := s.shadowSeen.put p (s.shadowSeen.getD p 0 + 1), shadowNow := s.shadowNow ++ [(p, b)] }

@[simp] theorem State.counted_shadowcnt (s : State) (p b : Nat) :
    (s.counted p b).reg (.shadowcnt p) = countShadow (s.reg (.shadowcnt p)) b := State.setReg_reg _ _ _

theorem State.shadowDetect_retired {s : State} {st key : Nat} {point : ShadowPoint} {third : Bool} (h : s.physStall st = none) :
    s.shadowDetect st point key third = s := by
  simp only [State.shadowDetect, h]

/-- Before the third in a row, a detection stretches the next cycle of its row domain. -/
theorem State.shadowDetect_replayed {s : State} {st key p : Nat} {point : ShadowPoint} (h : s.physStall st = some p) :
    s.shadowDetect st point key false =
      { s.counted p (pointBit point) with stretchNext := setAdd s.stretchNext (stallDieRow st) } := by
  simp only [State.shadowDetect, h]
  rfl

/-- The points whose result is a pipe's, and those whose result is a sum. -/
def pointOfPipe : ShadowPoint → Bool
  | .s | .v | .x => true
  | .array | .link => false

/-- The third in a row spoils the results of the pipe's cycle, or the sums. -/
theorem State.shadowDetect_third {s : State} {st key p : Nat} {point : ShadowPoint} (h : s.physStall st = some p) :
    s.shadowDetect st point key true =
      if pointOfPipe point then (s.counted p (pointBit point)).spoilPipe key (pointBit point) else (s.counted p (pointBit point)).spoilSums st := by
  simp only [State.shadowDetect, h]
  cases point <;> rfl

/-- Whatever follows from it, a detection leaves memory as it is and SHADOWCNT as it was counted. -/
theorem State.shadowDetect_counts {s : State} {st key p : Nat} {point : ShadowPoint} {third : Bool} (h : s.physStall st = some p) :
    (s.shadowDetect st point key third).reg (.shadowcnt p) = countShadow (s.reg (.shadowcnt p)) (pointBit point) ∧
    (s.shadowDetect st point key third).mem = s.mem := by
  cases third with
  | false =>
    rw [State.shadowDetect_replayed h]
    exact ⟨s.counted_shadowcnt p _, rfl⟩
  | true =>
    rw [State.shadowDetect_third h]
    split
    · exact ⟨s.counted_shadowcnt p _, rfl⟩
    · exact ⟨s.counted_shadowcnt p _, rfl⟩

/-! ## What the third detection spoils (R307) -/

/-- A context whose latest group's results on a pipe are spoiled. -/
def Ctx.spoiled (pipe : Nat) (c : Ctx) : Ctx :=
  { c with land := c.land.map (fun e => if e.seq / 4 == c.seq && (e.word.extractLsb' 28 2).toNat == pipe then e.ue else e),
           xq := c.xq.map (fun x => if pipe == 3 && x.seq / 4 == c.seq then { x with ue := true } else x) }

/-- A context that is listed is spoiled where it stands. -/
theorem State.spoilPipe_get? {s : State} {key pipe : Nat} {c : Ctx} (h : s.ctxs.get? key = some c) :
    (s.spoilPipe key pipe).ctxs.get? key = some (c.spoiled pipe) := by
  rw [← State.ctx_of_get? h]
  exact SMap.get?_put_same _ _ _

/-- An entry of the group, on the pipe: each of its results is lame. -/
theorem Ctx.spoiled_land_hit {c : Ctx} {pipe n : Nat} {e : Landing} (he : c.land[n]? = some e) (hseq : e.seq / 4 = c.seq)
    (hpipe : (e.word.extractLsb' 28 2).toNat = pipe) : (c.spoiled pipe).land[n]? = some e.ue := by
  have hhit : (e.seq / 4 == c.seq && (e.word.extractLsb' 28 2).toNat == pipe) = true := by
    simp only [hseq, hpipe, beq_self_eq_true, Bool.and_self]
  simp only [Ctx.spoiled, List.getElem?_map, he, Option.map_some, hhit, if_true]

/-- An entry of another group or another pipe stays as it is. -/
theorem Ctx.spoiled_land_other {c : Ctx} {pipe n : Nat} {e : Landing} (he : c.land[n]? = some e)
    (h : e.seq / 4 ≠ c.seq ∨ (e.word.extractLsb' 28 2).toNat ≠ pipe) : (c.spoiled pipe).land[n]? = some e := by
  have hmiss : ¬ (e.seq / 4 == c.seq && (e.word.extractLsb' 28 2).toNat == pipe) = true := by
    simp only [Bool.and_eq_true, beq_iff_eq]
    tauto
  simp only [Ctx.spoiled, List.getElem?_map, he, Option.map_some, hmiss, Bool.false_eq_true, if_false]

theorem Ctx.spoiled_xq (c : Ctx) (pipe : Nat) :
    (c.spoiled pipe).xq = c.xq.map (fun y => if pipe = 3 ∧ y.seq / 4 = c.seq then { y with ue := true } else y) := by
  simp [Ctx.spoiled]

/-! ## CLEAR (R38) -/

theorem State.clearShadow_eq {s : State} {st p : Nat} {v : DWord} (h : s.physStall st = some p) (hv : bit v 31 = true) :
    s.clearShadow st v = s.setReg (.shadowcnt p) ((s.shadowNow.filter (fun d => d.1 == p)).foldl (fun r d => countShadow r d.2) 0) := by
  simp only [State.clearShadow, h, hv, if_true]

/-! ## Samples (R136, R137) -/

/-- STATE after a sample. -/
def sampledState (cur wear seen : Nat) : Nat :=
  if 61440 ≤ wear then Nat.max 2 cur else if 49152 ≤ wear ∨ 64 < seen then Nat.max 1 cur else cur

theorem sampledState_of_lt {cur wear seen : Nat} (h : cur < 3) : sampledState cur wear seen =
    if 61440 ≤ wear then 2 else if 49152 ≤ wear ∨ 64 < seen then Nat.max 1 cur else cur :=
  if_congr Iff.rfl (Nat.max_eq_left (Nat.le_of_lt_succ h)) rfl

/-- STATE never goes back. -/
theorem le_sampledState (cur wear seen : Nat) : cur ≤ sampledState cur wear seen := by
  unfold sampledState
  split
  · exact Nat.le_max_right _ _
  · split
    · exact Nat.le_max_right _ _
    · exact le_refl _

theorem sampledState_lt {cur wear seen : Nat} (h : cur < 3) : sampledState cur wear seen < 3 := by
  unfold sampledState
  split
  · exact Nat.max_lt.2 ⟨by decide, h⟩
  · split
    · exact Nat.max_lt.2 ⟨by decide, h⟩
    · exact h

/-- The word that a sample writes to STALLWEAR. -/
def sampleWord (r : DWord) (wear state : Nat) : DWord := setBits (setBits r 15 0 wear) 33 32 state &&& ~~~(fmask 63 63)

theorem getLsbD_sampleMask {x : DWord} {i : Nat} (hi : i < 63) : (x &&& ~~~(fmask 63 63)).getLsbD i = x.getLsbD i := by
  have hmask : (fmask 63 63).getLsbD i = false := by interval_cases i <;> rfl
  simp [hmask]
  omega

theorem bits_sampleMask {x : DWord} {h l : Nat} (hh : h < 63) : bits (x &&& ~~~(fmask 63 63)) h l = bits x h l := by
  apply Nat.eq_of_testBit_eq
  intro i
  rw [testBit_bits, testBit_bits]
  by_cases hi : i < h + 1 - l
  · rw [getLsbD_sampleMask (by omega)]
  · simp [hi]

theorem bits_sampleWord {r : DWord} {wear state : Nat} (hw : wear < 65536) (hs : state < 4) : bits (sampleWord r wear state) 15 0 = wear ∧
    bits (sampleWord r wear state) 31 16 = bits r 31 16 ∧ bits (sampleWord r wear state) 33 32 = state := by
  unfold sampleWord
  rw [bits_sampleMask (by decide), bits_sampleMask (by decide), bits_sampleMask (by decide), bits_setBits_apart (.inl (by decide)),
    bits_setBits_same (by decide), bits_setBits_apart (.inl (by decide)), bits_setBits_apart (.inr (by decide)), bits_setBits_same (by decide)]
  exact ⟨Nat.mod_eq_of_lt hw, rfl, Nat.mod_eq_of_lt hs⟩

theorem State.wearSample_unused {s : State} {p fa fb em : Nat} (h : s.serves p = false) : s.wearSample p fa fb em = s :=
  if_pos (by simp [h])

/-- The detections of a position since its latest sample are forgotten. -/
def State.unseen (s : State) (p : Nat) : State := { s with shadowSeen := s.shadowSeen.del p }

theorem State.wearSample_serves {s : State} {p fa fb em : Nat} (h : s.serves p = true) : s.wearSample p fa fb em =
    (s.unseen p).writeWear p (sampleWord (s.reg (.stallwear p)) (Nat.max (bits (s.reg (.stallwear p)) 15 0) (wearOf fa fb em))
      (sampledState (s.physState p) (Nat.max (bits (s.reg (.stallwear p)) 15 0) (wearOf fa fb em)) (s.shadowSeen.getD p 0))) :=
  if_neg (by simp [h])

/-- A write of STALLWEAR that does not take STATE back: WEAR, THRESH and STATE as written, WEAR never lower. -/
theorem State.writeWear_onward {s : State} {p : Nat} {v : DWord} (hback : s.physState p ≤ bits v 33 32) (h3 : bits v 33 32 < 3)
    (hserv : s.physState p = bits (s.reg (.stallwear p)) 33 32) :
    bits ((s.writeWear p v).reg (.stallwear p)) 15 0 = Nat.max (bits (s.reg (.stallwear p)) 15 0) (bits v 15 0) ∧
    bits ((s.writeWear p v).reg (.stallwear p)) 31 16 = bits v 31 16 ∧
    bits ((s.writeWear p v).reg (.stallwear p)) 33 32 = bits v 33 32 ∧ (s.writeWear p v).mem = s.mem := by
  obtain ⟨hwear, hthresh, hstate⟩ := bits_wearWritten (s.reg (.stallwear p)) v
  obtain heq | hlt := Nat.eq_or_lt_of_le hback
  · rw [State.writeWear_same heq.symm, State.setReg_reg]
    exact ⟨hwear, hthresh, by rw [hstate, ← heq, hserv], rfl⟩
  · obtain ⟨hmem, -, hreg⟩ := State.stateChanged_leaves (s.setReg (.stallwear p)
      (setBits (wearWritten (s.reg (.stallwear p)) v) 33 32 (bits v 33 32))) p (bits v 33 32)
    rw [State.writeWear_forward (by omega) hlt, hreg, State.setReg_reg, bits_setBits_apart (.inl (by decide)),
      bits_setBits_apart (.inl (by decide)), bits_setBits_same (by decide)]
    exact ⟨hwear, hthresh, Nat.mod_eq_of_lt (bits_lt v 33 32), hmem⟩

/-- A sample of a position in service: WEAR never lower, STATE as R137 moves it, THRESH as it was. -/
theorem State.wearSample_rules {s : State} {p fa fb em : Nat} (hserves : s.serves p = true)
    (hserv : bit (s.reg (.colmap (p / 34))) (p % 34) = false) (h3 : bits (s.reg (.stallwear p)) 33 32 < 3) :
    let wear := Nat.max (bits (s.reg (.stallwear p)) 15 0) (wearOf fa fb em)
    bits ((s.wearSample p fa fb em).reg (.stallwear p)) 15 0 = wear ∧
    bits ((s.wearSample p fa fb em).reg (.stallwear p)) 33 32 =
      sampledState (bits (s.reg (.stallwear p)) 33 32) wear (s.shadowSeen.getD p 0) ∧
    bits ((s.wearSample p fa fb em).reg (.stallwear p)) 31 16 = bits (s.reg (.stallwear p)) 31 16 ∧
    (s.wearSample p fa fb em).mem = s.mem := by
  intro wear
  have hcur : s.physState p = bits (s.reg (.stallwear p)) 33 32 := State.physState_of_inService hserv
  have hwear : wear < 65536 := Nat.max_lt.2 ⟨bits_lt _ 15 0, lt_of_le_of_lt (Nat.min_le_left _ _) (by decide)⟩
  have hlt := sampledState_lt (wear := wear) (seen := s.shadowSeen.getD p 0) h3
  obtain ⟨hw, ht, hs⟩ := bits_sampleWord (r := s.reg (.stallwear p)) hwear (lt_trans hlt (by decide))
  have hback : (s.unseen p).physState p ≤ bits (sampleWord (s.reg (.stallwear p)) wear
      (sampledState (bits (s.reg (.stallwear p)) 33 32) wear (s.shadowSeen.getD p 0))) 33 32 := by
    rw [hs]
    exact le_of_eq_of_le hcur (le_sampledState _ _ _)
  obtain ⟨hwear', hthresh', hstate', hmem'⟩ := State.writeWear_onward hback (by rwa [hs]) hcur
  rw [State.wearSample_serves hserves, hcur]
  refine ⟨?_, hstate'.trans hs, hthresh'.trans ht, hmem'⟩
  exact hwear'.trans ((congrArg (Nat.max _) hw).trans (Nat.max_eq_right (Nat.le_max_left _ _)))

/-! ## THRESH (R138) -/

/-- THRESH of some positions set. -/
def State.threshAt (s : State) (t : Nat) (l : List Nat) : State := l.foldl (fun s p => s.setField (.stallwear p) 31 16 t) s

theorem State.threshUpdate_eq (s : State) :
    s.threshUpdate = s.threshAt (Nat.min 65535 (65535 * s.hours / 61320 + 2048)) (List.range 4352) := rfl

theorem State.threshAt_leaves (t : Nat) (l : List Nat) : ∀ s : State, (s.threshAt t l).mem = s.mem ∧ (s.threshAt t l).ctxs = s.ctxs := by
  induction l with
  | nil => exact fun _ => ⟨rfl, rfl⟩
  | cons p l ih => exact fun s => ih (s.setField (.stallwear p) 31 16 t)

/-- A position of the list, or one that has it already, has the threshold; WEAR stays. -/
theorem State.threshAt_stallwear {t i : Nat} (ht : t < 65536) (l : List Nat) : ∀ s : State,
    bits (s.reg (.stallwear i)) 31 16 = t ∨ i ∈ l → bits ((s.threshAt t l).reg (.stallwear i)) 31 16 = t ∧
      bits ((s.threshAt t l).reg (.stallwear i)) 15 0 = bits (s.reg (.stallwear i)) 15 0 := by
  induction l with
  | nil => exact fun s h => ⟨h.resolve_right List.not_mem_nil, rfl⟩
  | cons p l ih =>
    intro s h
    by_cases hp : p = i
    · subst hp
      obtain ⟨hthresh, hwear⟩ := ih (s.setField (.stallwear p) 31 16 t) (.inl (by simp [Nat.mod_eq_of_lt ht]))
      refine ⟨hthresh, hwear.trans ?_⟩
      simp
    · have hkey : (Reg.stallwear p).key ≠ (Reg.stallwear i).key := by simpa [Reg.key] using hp
      have hreg : (s.setField (.stallwear p) 31 16 t).reg (.stallwear i) = s.reg (.stallwear i) := State.setField_reg_ne hkey
      have := ih (s.setField (.stallwear p) 31 16 t) (by
        rw [hreg]
        exact h.imp_right fun hm => (List.mem_cons.1 hm).resolve_left (Ne.symm hp))
      rwa [hreg] at this

end Sys2Proof.Machine

end

section
namespace Sys2Proof.Machine

/-- A write of CLEAR by the owner leaves in SHADOWCNT what this cycle has detected there. -/
theorem exec_shadowcntClear {s : State} {m : Master} {st p : Nat} (howns : Claims.Owns s m) (h : s.physStall st = some p) :
    exec (.shadowcntClear m st) s = .next (s.setReg (.shadowcnt p)
      ((s.shadowNow.filter (fun d => d.1 == p)).foldl (fun r d => countShadow r d.2) 0)) :=
  congrArg Host.Outcome.next ((State.blockWrite_of_owns howns).trans (State.clearShadow_eq h (by decide)))

/-- Settles O38: a detection, CLEAR and a sample by what each makes of its register; THRESH and the life record by the position they name. -/
theorem shadowAndWear : Obligations.ShadowAndWear := by
  unfold Obligations.ShadowAndWear
  intro s m st key pos fa fb em i third
  extract_lets phys p cnt r st0 seen wear hours
  refine ⟨?_, ?_, ?_, ?_, ?_, ?_⟩
  -- a detection of a shadow latch, and a write of CLEAR
  · intro hst hphys
    refine ⟨?_, ?_, ?_, ?_⟩
    · intro x hx
      have hbit : pointBit x.1 = x.2 ∧ x.2 < 40 := by
        simp only [List.mem_cons, List.not_mem_nil, or_false] at hx
        obtain rfl | rfl | rfl | rfl | rfl := hx <;> decide
      obtain ⟨hreg, hmem⟩ := State.shadowDetect_counts (key := key) (point := x.1) (third := third) hphys
      refine ⟨_, rfl, ?_, ?_, hmem, ?_⟩
      · rw [hreg, bits_countShadow]
      · rw [hreg, hbit.1, bit_countShadow hbit.2]
      · rintro rfl
        rw [State.shadowDetect_replayed hphys]
        exact ⟨rfl, rfl⟩
    · intro x hx
      have hpipe : pointBit x.1 = x.2 ∧ pointOfPipe x.1 = true := by
        simp only [List.mem_cons, List.not_mem_nil, or_false] at hx
        obtain rfl | rfl | rfl := hx <;> decide
      have hthird : s.shadowDetect st x.1 key true = (s.counted p x.2).spoilPipe key x.2 := by
        rw [State.shadowDetect_third hphys, if_pos hpipe.2, hpipe.1]
      refine ⟨_, congrArg Host.Outcome.next hthird, fun c hc => ⟨_, State.spoilPipe_get? hc, List.length_map _, rfl, Ctx.spoiled_xq c x.2, ?_⟩⟩
      intro n _ e he
      exact ⟨fun hseq hword => ⟨e.ue, Ctx.spoiled_land_hit he hseq hword, rfl⟩, Ctx.spoiled_land_other he⟩
    · intro howns hnow
      refine ⟨_, exec_shadowcntClear howns hphys, ?_, rfl, rfl⟩
      rw [List.filter_eq_nil_iff.2 (by simpa using hnow), State.setReg_reg]
      rfl
    · intro howns b hb hnow
      refine ⟨_, exec_shadowcntClear howns hphys, ?_⟩
      have hone : (s.shadowNow.filter (fun d => d.1 == p)).foldl (fun r d => countShadow r d.2) 0 = countShadow 0 b := by simp [hnow]
      rw [hone, State.setReg_reg]
      exact ⟨(countShadow_zero hb).1, (countShadow_zero hb).2, rfl, rfl⟩
  -- of a stall that no position serves
  · intro hnone
    exact congrArg Host.Outcome.next (State.shadowDetect_retired hnone)
  -- a wear sample
  · intro hpos hserves hserv hst0
    obtain ⟨hwear, hstate, hthresh, hmem⟩ := State.wearSample_rules (fa := fa) (fb := fb) (em := em) hserves hserv hst0
    exact ⟨_, rfl, hwear, hstate.trans (sampledState_of_lt hst0), hthresh, hmem⟩
  -- of a position that does not serve
  · intro hunused
    exact congrArg Host.Outcome.next (State.wearSample_unused hunused)
  -- THRESH
  · intro hi
    have hthresh : Nat.min 65535 (65535 * hours / 61320 + 2048) < 65536 := lt_of_le_of_lt (Nat.min_le_left _ _) (by decide)
    obtain ⟨ht, hw⟩ := State.threshAt_stallwear hthresh (List.range 4352) s (.inr (List.mem_range.2 hi))
    obtain ⟨hmem, hctxs⟩ := State.threshAt_leaves (Nat.min 65535 (65535 * hours / 61320 + 2048)) (List.range 4352) s
    exact ⟨_, congrArg Host.Outcome.next s.threshUpdate_eq, ht, hw, hmem, hctxs⟩
  -- the life record
  · intro hi
    exact ⟨_, rfl, (State.lifeRecord_getD hi).1, (State.lifeRecord_getD hi).2, s.lifeRecord_regs, s.lifeRecord_mem, s.lifeRecord_ctxs⟩

end Sys2Proof.Machine
end

section
/-! SUPPORT. The resets (R16, R39, R63, R64, R91, R101): which registers a reset keeps, and what the life record and the fuses bring back. -/

namespace Sys2Proof.Machine

/-! ## Registers kept -/

/-- A register that the filter keeps answers as before. -/
theorem SMap.get?_filter_key {α : Type} (f : Nat → Bool) (m : SMap α) (k : Nat) :
    SMap.get? (m.filter fun e => f e.1) k = if f k then m.get? k else none := by
  induction m with
  | nil => simp
  | cons e m ih =>
    obtain ⟨i, x⟩ := e
    rw [List.filter_cons]
    by_cases hi : i = k
    · subst hi
      by_cases hf : f i = true
      · simp [hf, SMap.get?]
      · simp only [hf, Bool.false_eq_true, if_false] at ih ⊢
        exact ih
    · by_cases hf : f i = true
      · simp only [hf, if_true, SMap.get?, hi, if_false, ih]
      · simp only [hf, Bool.false_eq_true, if_false, SMap.get?, hi, ih]

/-! ## States that differ in registers alone -/

/-- The second state is the first with other registers. -/
def State.RegsOnly (s t : State) : Prop := ∃ x, t = { s with regs := x }

theorem State.RegsOnly.refl (s : State) : s.RegsOnly s := ⟨s.regs, rfl⟩

theorem State.RegsOnly.trans {s t u : State} (h1 : s.RegsOnly t) (h2 : t.RegsOnly u) : s.RegsOnly u := by
  obtain ⟨x, rfl⟩ := h1
  obtain ⟨y, rfl⟩ := h2
  exact ⟨y, rfl⟩

theorem State.RegsOnly.setReg {s t : State} (h : s.RegsOnly t) (r : Reg) (v : DWord) : s.RegsOnly (t.setReg r v) := h.trans ⟨_, rfl⟩

theorem State.RegsOnly.setField {s t : State} (h : s.RegsOnly t) (r : Reg) (hi lo v : Nat) : s.RegsOnly (t.setField r hi lo v) := h.setReg _ _

theorem State.RegsOnly.nv {s t : State} (h : s.RegsOnly t) : t.nv = s.nv := by
  obtain ⟨x, rfl⟩ := h
  rfl

theorem State.RegsOnly.fresh {s t : State} (h : s.RegsOnly t) : t.fresh = s.fresh := by
  obtain ⟨x, rfl⟩ := h
  rfl

theorem State.RegsOnly.clock {s t : State} (h : s.RegsOnly t) : t.clock = s.clock := by
  obtain ⟨x, rfl⟩ := h
  rfl

theorem State.RegsOnly.req0 {s t : State} (h : s.RegsOnly t) : t.req0 = s.req0 := by
  obtain ⟨x, rfl⟩ := h
  rfl

/-! ## The life record loaded (R101, R131, R145) -/

/-- A field of registers set from a table. -/
def State.loadTable (s : State) (reg : Nat → Reg) (h l : Nat) (m : SMap Nat) : State := m.foldl (fun s e => s.setField (reg e.1) h l e.2) s

theorem State.loadTable_regsOnly (reg : Nat → Reg) (h l : Nat) (m : SMap Nat) : ∀ s : State, s.RegsOnly (s.loadTable reg h l m) := by
  induction m with
  | nil => exact State.RegsOnly.refl
  | cons e m ih => exact fun s => ((State.RegsOnly.refl s).setField (reg e.1) h l e.2).trans (ih _)

/-- A register that the table does not name stays as it is. -/
theorem State.loadTable_reg_ne {reg : Nat → Reg} {h l : Nat} {r : Reg} (m : SMap Nat) (hm : ∀ e ∈ m, (reg e.1).key ≠ r.key) :
    ∀ s : State, (s.loadTable reg h l m).reg r = s.reg r := by
  induction m with
  | nil => exact fun _ => rfl
  | cons e m ih =>
    intro s
    obtain ⟨he, hm⟩ := List.forall_mem_cons.1 hm
    exact (ih hm _).trans (State.setField_reg_ne he)

/-- A register that the life record and the fuses do not reach: below STALLWEAR and FEATMASK, and neither HIFID nor LCSTATE. -/
def Reg.unloaded (r : Reg) : Prop := r.key < 0x8000000 ∧ r.key ≠ Reg.hifid.key ∧ r.key ≠ Reg.lcstate.key

/-- The tables of the life record loaded, before the fuses. -/
def State.loadTables (s : State) : State :=
  ((s.loadTable .stallwear 15 0 s.nv.wear).loadTable .stallwear 33 32 s.nv.state).loadTable .featmask 7 0 s.nv.featmask

theorem State.loadTables_regsOnly (s : State) : s.RegsOnly s.loadTables :=
  ((State.loadTable_regsOnly .stallwear 15 0 s.nv.wear s).trans (State.loadTable_regsOnly _ _ _ _ _)).trans (State.loadTable_regsOnly _ _ _ _ _)

theorem State.loadTables_reg {s : State} {r : Reg} (hs : Claims.LifeTables s) (hr : r.key < 0x8000000) : s.loadTables.reg r = s.reg r := by
  obtain ⟨hwear, hstate, hfeat, -⟩ := hs
  have hkey : ∀ (reg : Nat → Reg) (m : SMap Nat), (∀ p < 4352, 0x8000000 ≤ (reg p).key) → (∀ e ∈ m, e.1 < 4352) →
      ∀ e ∈ m, (reg e.1).key ≠ r.key := fun reg m hreg hm e he =>
    (lt_of_lt_of_le hr (hreg e.1 (hm e he))).ne'
  unfold State.loadTables
  rw [State.loadTable_reg_ne _ (hkey .featmask _ (fun p _ => by simp only [Reg.key]; omega) hfeat),
    State.loadTable_reg_ne _ (hkey .stallwear _ (fun p _ => by simp only [Reg.key]; omega) hstate),
    State.loadTable_reg_ne _ (hkey .stallwear _ (fun p _ => by simp only [Reg.key]; omega) hwear)]

theorem State.loadLife_eq (s : State) : s.loadLife =
    ((s.loadTables.setField .hifid 63 32 s.nv.serial.toNat).setField .lcstate 2 0 s.nv.lcs).setField .lcstate 15 8 s.nv.svnmin := rfl

/-- Loading the life record and the fuses changes registers alone. -/
theorem State.loadLife_regsOnly (s : State) : s.RegsOnly s.loadLife :=
  ((s.loadTables_regsOnly.setField .hifid 63 32 s.nv.serial.toNat).setField .lcstate 2 0 s.nv.lcs).setField .lcstate 15 8 s.nv.svnmin

theorem State.loadLife_reg {s : State} {r : Reg} (hs : Claims.LifeTables s) (hr : r.unloaded) : s.loadLife.reg r = s.reg r := by
  obtain ⟨hlow, hid, hlc⟩ := hr
  rw [State.loadLife_eq, State.setField_reg_ne hlc.symm, State.setField_reg_ne hlc.symm, State.setField_reg_ne hid.symm,
    State.loadTables_reg hs hlow]

theorem State.loadLife_hifid {s : State} (hs : Claims.LifeTables s) : s.loadLife.reg .hifid = setBits (s.reg .hifid) 63 32 s.nv.serial.toNat := by
  rw [State.loadLife_eq, State.setField_reg_ne (by decide), State.setField_reg_ne (by decide), State.setField_reg,
    State.loadTables_reg hs (by decide)]

theorem State.loadLife_lcstate {s : State} (hs : Claims.LifeTables s) :
    s.loadLife.reg .lcstate = setBits (setBits (s.reg .lcstate) 2 0 s.nv.lcs) 15 8 s.nv.svnmin := by
  rw [State.loadLife_eq, State.setField_reg, State.setField_reg, State.setField_reg_ne (by decide), State.loadTables_reg hs (by decide)]

/-! ## COLMAP loaded (R19) -/

/-- Loading COLMAP changes registers alone, and no register but COLMAP of the rows that the record names. -/
theorem State.loadColmap_rules (s : State) : s.RegsOnly s.loadColmap ∧
    ∀ r : Reg, (∀ e ∈ s.nv.retired, (Reg.colmap e.1).key ≠ r.key) → s.loadColmap.reg r = s.reg r := by
  unfold State.loadColmap
  generalize s.nv.retired = m
  induction m generalizing s with
  | nil => exact ⟨State.RegsOnly.refl s, fun _ _ => rfl⟩
  | cons e m ih =>
    obtain ⟨honly, hreg⟩ := ih (s.setReg (.colmap e.1) (setBits (setBits (s.reg (.colmap e.1)) 33 0 e.2) 35 34 (sparesOf e.2)))
    rw [List.foldl_cons]
    refine ⟨((State.RegsOnly.refl s).setReg _ _).trans honly, fun r hm => ?_⟩
    obtain ⟨he, hm⟩ := List.forall_mem_cons.1 hm
    exact (hreg r hm).trans (State.setReg_reg_ne _ _ _ _ he)

/-! ## What is wiped (R63, R91, R101) -/

/-- No context, no work and no byte. -/
def State.Blank (t : State) : Prop :=
  t.ctxs = [] ∧ t.stalls = [] ∧ t.gangs = [] ∧ t.acc = [] ∧ t.l0 = [] ∧ t.slices = [] ∧ t.mem.bytes = [] ∧ t.mem.full = [] ∧
  t.mem.poison = [] ∧ t.engines = [] ∧ t.cmds = []

theorem State.RegsOnly.blank {s t : State} (h : s.RegsOnly t) (hs : s.Blank) : t.Blank := by
  obtain ⟨x, rfl⟩ := h
  exact hs

/-- A blank state whose registers of the host interface are reset has been wiped. -/
theorem State.Blank.wiped {s t : State} (hblank : t.Blank) (hstage : t.reg .bootstat = 0) (howner : t.reg .owner = 0) (hinten : t.reg .inten = 0)
    (hnonce : t.reg .lcnonce = Config.entropy s.fresh) (hlcs : bits (t.reg .lcstate) 2 0 = t.nv.lcs % 8)
    (hsvn : bits (t.reg .lcstate) 15 8 = t.nv.svnmin % 256) : Claims.Wiped s t := by
  obtain ⟨hctxs, hstalls, hgangs, hacc, hl0, hslices, hbytes, hfull, hpoison, hengines, hcmds⟩ := hblank
  refine ⟨hctxs, hstalls, hgangs, hacc, hl0, hslices, hbytes, hfull, hpoison, hengines, hcmds, ?_, ?_, hinten, hnonce, hlcs, hsvn⟩
  · rw [State.stage, hstage]
    decide
  · rw [howner]
    decide

theorem State.newNonce_lcnonce (s : State) : s.newNonce.reg .lcnonce = Config.entropy s.fresh := State.setReg_reg _ _ _

theorem State.newNonce_reg_ne {s : State} {r : Reg} (hr : Reg.lcnonce.key ≠ r.key) : s.newNonce.reg r = s.reg r :=
  State.setReg_reg_ne _ _ _ _ hr

theorem State.newNonce_nv (s : State) : s.newNonce.nv = s.nv := rfl

theorem State.newNonce_req0 (s : State) : s.newNonce.req0 = s.req0 := rfl

theorem State.newNonce_blank {s : State} (h : s.Blank) : s.newNonce.Blank := h

/-! ## Power-on reset (R16, R91) -/

/-- The state after a power-on reset, before the life record, the fuses and the nonce. -/
def State.coldState (s : State) : State :=
  { State.reset with nv := { s.nv with hours := s.hours }, fresh := s.fresh, ids := s.ids, out := s.out, mem := s.mem.hostOnly,
                     agenda := s.outside ++ [.romVerify] }

theorem State.powerOn_eq (s : State) : s.powerOn = s.coldState.loadLife.loadColmap.newNonce := rfl

theorem State.coldState_regsOnly (s : State) : s.coldState.RegsOnly s.coldState.loadLife.loadColmap :=
  s.coldState.loadLife_regsOnly.trans s.coldState.loadLife.loadColmap_rules.1

/-- Registers that lie apart from COLMAP. -/
theorem State.loadColmap_reg {s : State} {r : Reg} (hs : Claims.LifeTables s) (hr : r.key < 0x400000 ∨ 0x400400 ≤ r.key) :
    s.loadLife.loadColmap.reg r = s.loadLife.reg r := by
  obtain ⟨-, -, -, hretired⟩ := hs
  refine s.loadLife.loadColmap_rules.2 r fun e he => ?_
  have hrow : e.1 < 128 := hretired e (by rwa [s.loadLife_regsOnly.nv] at he)
  have hkey : (Reg.colmap e.1).key = 0x400000 + 8 * e.1 := rfl
  rw [hkey]
  omega

/-- A register apart from the life record, the fuses, COLMAP and the nonce takes its Reset column. -/
theorem State.powerOn_reg {s : State} {r : Reg} (hs : Claims.LifeTables s) (hr : r.unloaded) (hmap : r.key < 0x400000 ∨ 0x400400 ≤ r.key)
    (hn : Reg.lcnonce.key ≠ r.key) : s.powerOn.reg r = r.reset := by
  rw [State.powerOn_eq, State.newNonce_reg_ne hn, State.loadColmap_reg (s := s.coldState) hs hmap, State.loadLife_reg (s := s.coldState) hs hr]
  rfl

theorem State.powerOn_hifid {s : State} (hs : Claims.LifeTables s) : s.powerOn.reg .hifid = setBits 0x010007 63 32 s.nv.serial.toNat := by
  rw [State.powerOn_eq, State.newNonce_reg_ne (by decide), State.loadColmap_reg (s := s.coldState) hs (.inl (by decide)),
    State.loadLife_hifid (s := s.coldState) hs]
  rfl

theorem State.powerOn_lcstate {s : State} (hs : Claims.LifeTables s) :
    s.powerOn.reg .lcstate = setBits (setBits 1 2 0 s.nv.lcs) 15 8 s.nv.svnmin := by
  rw [State.powerOn_eq, State.newNonce_reg_ne (by decide), State.loadColmap_reg (s := s.coldState) hs (.inl (by decide)),
    State.loadLife_lcstate (s := s.coldState) hs]
  rfl

theorem State.powerOn_lcnonce (s : State) : s.powerOn.reg .lcnonce = Config.entropy s.fresh := by
  rw [State.powerOn_eq, State.newNonce_lcnonce, s.coldState_regsOnly.fresh]
  rfl

theorem State.powerOn_nv (s : State) : s.powerOn.nv = { s.nv with hours := s.hours } := s.coldState_regsOnly.nv

theorem State.powerOn_wiped {s : State} (hs : Claims.LifeTables s) : Claims.Wiped s s.powerOn := by
  have hblank : s.powerOn.Blank := State.newNonce_blank (s.coldState_regsOnly.blank ⟨rfl, rfl, rfl, rfl, rfl, rfl, rfl, rfl, rfl, rfl, rfl⟩)
  refine hblank.wiped ?_ ?_ ?_ s.powerOn_lcnonce ?_ ?_
  · exact State.powerOn_reg hs ⟨by decide, by decide, by decide⟩ (.inl (by decide)) (by decide)
  · exact State.powerOn_reg hs ⟨by decide, by decide, by decide⟩ (.inl (by decide)) (by decide)
  · exact State.powerOn_reg hs ⟨by decide, by decide, by decide⟩ (.inl (by decide)) (by decide)
  · simp [State.powerOn_lcstate hs, State.powerOn_nv]
  · simp [State.powerOn_lcstate hs, State.powerOn_nv]

/-! ## Module reset (R39, R63) -/

/-- The state after a module reset, before the life record, the fuses, RESULT and the nonce. -/
def State.warmState (s : State) : State :=
  { State.reset with
    powered := s.powered, clock := s.clock, rowLag := s.rowLag, stretched := s.stretched, stretchNext := s.stretchNext, nv := s.nv,
    fresh := s.fresh, ids := s.ids, out := s.out, mem := s.mem.hostOnly, sramErrAt := s.sramErrAt,
    regs := s.regs.filter (fun r => keptKey r.1), links := s.links, timed := s.timed.filterMap flitOnWay,
    reinWait := (s.reinWait.filter (fun u => u.link.isSome)).map (fun u => { u with sender := none }), streams := s.streams, ckpt := s.ckpt,
    hot2x := s.hot2x, ratio := s.ratio, shadowSeen := s.shadowSeen, req0 := s.req0, agenda := s.outside ++ [.romVerify] }

theorem State.moduleReset_eq (s : State) :
    s.moduleReset = (s.warmState.loadLife.setField .lcstate 7 4 (bits (s.reg .lcstate) 7 4)).newNonce := rfl

/-- A register of the module control block keeps its value; every other takes its Reset column. -/
theorem State.warmState_reg (s : State) (r : Reg) : s.warmState.reg r = if keptKey r.key then s.reg r else r.reset := by
  have hget := SMap.get?_filter_key keptKey s.regs r.key
  have hreg : s.warmState.reg r = (SMap.get? (s.regs.filter fun e => keptKey e.1) r.key).getD r.reset := rfl
  rw [hreg, hget]
  by_cases hk : keptKey r.key = true
  · rw [if_pos hk, if_pos hk]
    rfl
  · rw [if_neg hk, if_neg hk]
    rfl

theorem State.warmState_regsOnly (s : State) :
    s.warmState.RegsOnly (s.warmState.loadLife.setField .lcstate 7 4 (bits (s.reg .lcstate) 7 4)) := s.warmState.loadLife_regsOnly.setField _ _ _ _

theorem State.moduleReset_reg {s : State} {r : Reg} (hs : Claims.LifeTables s) (hr : r.unloaded) (hn : Reg.lcnonce.key ≠ r.key) :
    s.moduleReset.reg r = if keptKey r.key then s.reg r else r.reset := by
  rw [State.moduleReset_eq, State.newNonce_reg_ne hn, State.setField_reg_ne hr.2.2.symm, State.loadLife_reg (s := s.warmState) hs hr,
    State.warmState_reg]

theorem State.moduleReset_kept {s : State} {r : Reg} (hs : Claims.LifeTables s) (hr : r.unloaded) (hn : Reg.lcnonce.key ≠ r.key)
    (hk : keptKey r.key = true) : s.moduleReset.reg r = s.reg r := (State.moduleReset_reg hs hr hn).trans (if_pos hk)

theorem State.moduleReset_lost {s : State} {r : Reg} (hs : Claims.LifeTables s) (hr : r.unloaded) (hn : Reg.lcnonce.key ≠ r.key)
    (hk : keptKey r.key = false) : s.moduleReset.reg r = r.reset := (State.moduleReset_reg hs hr hn).trans (if_neg (by simp [hk]))

theorem State.moduleReset_lcstate {s : State} (hs : Claims.LifeTables s) : s.moduleReset.reg .lcstate =
    setBits (setBits (setBits 1 2 0 s.nv.lcs) 15 8 s.nv.svnmin) 7 4 (bits (s.reg .lcstate) 7 4) := by
  rw [State.moduleReset_eq, State.newNonce_reg_ne (by decide), State.setField_reg, State.loadLife_lcstate (s := s.warmState) hs,
    State.warmState_reg]
  rfl

theorem State.moduleReset_lcnonce (s : State) : s.moduleReset.reg .lcnonce = Config.entropy s.fresh := by
  rw [State.moduleReset_eq, State.newNonce_lcnonce, s.warmState_regsOnly.fresh]
  rfl

theorem State.moduleReset_nv (s : State) : s.moduleReset.nv = s.nv := by
  rw [State.moduleReset_eq, State.newNonce_nv]
  exact s.warmState_regsOnly.nv

theorem State.moduleReset_req0 (s : State) : s.moduleReset.req0 = s.req0 := by
  rw [State.moduleReset_eq, State.newNonce_req0]
  exact s.warmState_regsOnly.req0

theorem State.moduleReset_wiped {s : State} (hs : Claims.LifeTables s) : Claims.Wiped s s.moduleReset := by
  have hblank : s.moduleReset.Blank :=
    State.newNonce_blank (s.warmState_regsOnly.blank ⟨rfl, rfl, rfl, rfl, rfl, rfl, rfl, rfl, rfl, rfl, rfl⟩)
  refine hblank.wiped ?_ ?_ ?_ s.moduleReset_lcnonce ?_ ?_
  · exact State.moduleReset_lost hs ⟨by decide, by decide, by decide⟩ (by decide) (by decide)
  · exact State.moduleReset_lost hs ⟨by decide, by decide, by decide⟩ (by decide) (by decide)
  · exact State.moduleReset_lost hs ⟨by decide, by decide, by decide⟩ (by decide) (by decide)
  · simp [State.moduleReset_lcstate hs, State.moduleReset_nv]
  · simp [State.moduleReset_lcstate hs, State.moduleReset_nv]

/-! ## Who may reset (R63, R64, R74) -/

theorem State.flr_resets {s : State} {m : Master} (hm : m = .host ∨ m = .host2) (h : s.isOwner m = true ∨ s.ownerValid = false) :
    s.flr m = s.moduleReset := by
  have hmay : (s.isOwner m || !s.ownerValid) = true := by simpa using h
  obtain rfl | rfl := hm
  · exact if_pos hmay
  · exact if_pos hmay

theorem State.flr_refused {s : State} {m : Master} (hm : m = .host ∨ m = .host2) (hnot : s.isOwner m = false) (hvalid : s.ownerValid = true) :
    s.flr m = s.nonOwner := by
  have hmay : ¬ (s.isOwner m || !s.ownerValid) = true := by simp [hnot, hvalid]
  obtain rfl | rfl := hm
  · exact if_neg hmay
  · exact if_neg hmay

/-- NONOWN counts one more, and nothing else changes. -/
theorem State.nonOwner_rules (s : State) : bits (s.nonOwner.reg .hiferr) 15 0 = Nat.min 0xFFFF (bits (s.reg .hiferr) 15 0 + 1) ∧
    s.nonOwner.mem = s.mem ∧ s.nonOwner.ctxs = s.ctxs := by
  have hlt : Nat.min 0xFFFF (bits (s.reg .hiferr) 15 0 + 1) < 2 ^ (15 + 1 - 0) := lt_of_le_of_lt (Nat.min_le_left _ _) (by decide)
  refine ⟨?_, rfl, rfl⟩
  rw [State.nonOwner, State.countErr, State.setField_reg, bits_setBits_same (by decide)]
  exact Nat.mod_eq_of_lt hlt

/-! ## MSI-X control (R89) -/

/-- The second state is the first with other registers and other messages sent. -/
def State.SignalsOnly (s t : State) : Prop := ∃ x o, t = { s with regs := x, out := o }

theorem State.SignalsOnly.trans {s t u : State} (h1 : s.SignalsOnly t) (h2 : t.SignalsOnly u) : s.SignalsOnly u := by
  obtain ⟨x, o, rfl⟩ := h1
  obtain ⟨y, p, rfl⟩ := h2
  exact ⟨y, p, rfl⟩

theorem State.msixDeliver_signalsOnly (s : State) (v : Nat) : s.SignalsOnly (s.msixDeliver v) := by
  unfold State.msixDeliver
  split
  · exact ⟨_, _, rfl⟩
  · exact ⟨s.regs, s.out, rfl⟩

theorem State.foldl_msixDeliver_signalsOnly (l : List Nat) : ∀ s : State, s.SignalsOnly (l.foldl (fun s v => s.msixDeliver v) s) := by
  induction l with
  | nil => exact fun s => ⟨s.regs, s.out, rfl⟩
  | cons v l ih => exact fun s => (s.msixDeliver_signalsOnly v).trans (ih _)

/-- A write of MSI-X control: the two bits, and what they held back. -/
theorem State.writeMsixControl_eq (s : State) (on held : Bool) :
    ∃ x o, s.writeMsixControl on held = { s with msixOn := on, msixHeld := held, regs := x, out := o } :=
  State.foldl_msixDeliver_signalsOnly (List.range 64) { s with msixOn := on, msixHeld := held }

/-! ## Configuration writes (R64, R74, R89) -/

/-- The requester ID of the first configuration write is that of master 0. -/
def State.identified (s : State) (req : BitVec 16) : State := { s with req0 := some (s.req0.getD req) }

theorem State.requester_eq (s : State) (req : BitVec 16) : s.requester req = if s.req0.getD req = req then .host else .host2 := by
  unfold State.requester
  cases s.req0 with
  | none => simp
  | some r => rfl

theorem State.requester_host (s : State) (req : BitVec 16) : s.requester req = .host ∨ s.requester req = .host2 := by
  rw [State.requester_eq]
  exact ite_eq_or_eq _ _ _

/-- What a configuration write by the owner, or while there is none, does. -/
def State.configured (s : State) (w : ConfigWrite) : State :=
  match w with
  | .flr => s.moduleReset
  | .msix on held => s.writeMsixControl on held
  | .other => s

theorem State.configWrite_allowed {s : State} {req : BitVec 16} (w : ConfigWrite)
    (h : s.isOwner (s.requester req) = true ∨ s.ownerValid = false) : s.configWrite req w = (s.identified req).configured w := by
  have hmay : ((s.identified req).isOwner (s.requester req) || !(s.identified req).ownerValid) = true := by
    rw [Bool.or_eq_true, Bool.not_eq_true']
    exact h
  cases w with
  | flr => exact State.flr_resets (s.requester_host req) h
  | msix on held => exact if_pos hmay
  | other => exact if_pos hmay

theorem State.configWrite_refused {s : State} {req : BitVec 16} (w : ConfigWrite) (hnot : s.isOwner (s.requester req) = false)
    (hvalid : s.ownerValid = true) : s.configWrite req w = (s.identified req).nonOwner := by
  have hmay : ¬ ((s.identified req).isOwner (s.requester req) || !(s.identified req).ownerValid) = true := by
    rw [Bool.or_eq_true, Bool.not_eq_true', not_or, Bool.not_eq_true, Bool.not_eq_false]
    exact ⟨hnot, hvalid⟩
  cases w with
  | flr => exact State.flr_refused (s.requester_host req) hnot hvalid
  | msix on held => exact if_neg hmay
  | other => exact if_neg hmay

theorem State.configured_req0 (s : State) (w : ConfigWrite) : (s.configured w).req0 = s.req0 := by
  cases w with
  | flr => exact s.moduleReset_req0
  | msix on held =>
    obtain ⟨x, o, h⟩ := s.writeMsixControl_eq on held
    simp only [State.configured, h]
  | other => rfl

end Sys2Proof.Machine

end

section
/-! SUPPORT. The clauses of O33, one lemma for each event. -/

namespace Sys2Proof.Machine

/-- The registers that O33 names after a power-on reset (R16, R72). -/
theorem State.powerOn_named {s : State} (hs : Claims.LifeTables s) : bits (s.powerOn.reg .hifid) 15 0 = 7 ∧
    bits (s.powerOn.reg .hifid) 63 32 = s.nv.serial.toNat ∧ bits (s.powerOn.reg .pwrctl) 11 0 = 2800 ∧
    bits (s.powerOn.reg .pwrctl) 38 32 = 64 ∧ s.powerOn.reg .soetype = 0x88B5 := by
  have hpwr : s.powerOn.reg .pwrctl = Reg.pwrctl.reset := State.powerOn_reg hs ⟨by decide, by decide, by decide⟩ (.inr (by decide)) (by decide)
  have hsoe : s.powerOn.reg .soetype = Reg.soetype.reset := State.powerOn_reg hs ⟨by decide, by decide, by decide⟩ (.inr (by decide)) (by decide)
  rw [State.powerOn_hifid hs, hpwr, hsoe]
  refine ⟨?_, ?_, by decide, by decide, by decide⟩
  · rw [bits_setBits_apart (.inl (by decide))]
    decide
  · rw [bits_setBits_same (by decide)]
    exact Nat.mod_eq_of_lt s.nv.serial.isLt

theorem State.powerOn_clock_req0 (s : State) : s.powerOn.clock = 0 ∧ s.powerOn.req0 = none :=
  ⟨s.coldState_regsOnly.clock, s.coldState_regsOnly.req0⟩

/-- The registers that O33 names after a module reset (R63). -/
theorem State.moduleReset_named {s : State} (hs : Claims.LifeTables s) : s.moduleReset.reg .pwrctl = s.reg .pwrctl ∧
    (∀ q < 4, s.moduleReset.reg (.dramclk q) = s.reg (.dramclk q)) ∧ (∀ i < 16, s.moduleReset.reg (.soport i) = s.reg (.soport i)) ∧
    bits (s.moduleReset.reg .lcstate) 7 4 = bits (s.reg .lcstate) 7 4 ∧ s.moduleReset.req0 = s.req0 := by
  refine ⟨State.moduleReset_kept hs ⟨by decide, by decide, by decide⟩ (by decide) (by decide), fun q hq => ?_, fun i hi => ?_, ?_,
    s.moduleReset_req0⟩
  · interval_cases q <;> exact State.moduleReset_kept hs ⟨by decide, by decide, by decide⟩ (by decide) (by decide)
  · interval_cases i <;> exact State.moduleReset_kept hs ⟨by decide, by decide, by decide⟩ (by decide) (by decide)
  · rw [State.moduleReset_lcstate hs, bits_setBits_same (by decide)]
    exact Nat.mod_eq_of_lt (bits_lt _ _ _)

theorem exec_moduleReset (s : State) (m : Master) : exec (.moduleReset m) s = .next (s.flr m) := rfl

theorem exec_configurationWrite (s : State) (m : Master) (req : BitVec 16) (w : ConfigWrite) :
    exec (.configurationWrite m req w) s = .next (s.configWrite req w) := rfl

/-- Every configuration write names master 0 when none is named yet. -/
theorem State.configWrite_req0 (s : State) (req : BitVec 16) (w : ConfigWrite) : (s.configWrite req w).req0 = some (s.req0.getD req) := by
  by_cases hmay : s.isOwner (s.requester req) = true ∨ s.ownerValid = false
  · rw [State.configWrite_allowed w hmay, State.configured_req0]
    rfl
  · obtain ⟨hnot, hvalid⟩ := not_or.1 hmay
    rw [State.configWrite_refused w (Bool.not_eq_true _ ▸ hnot) (Bool.not_eq_false _ ▸ hvalid)]
    rfl

/-- A configuration write other than an FLR changes MSI-X control alone, and nothing when it is no MSI-X write. -/
theorem State.configured_kept (s : State) {w : ConfigWrite} (hw : w ≠ .flr) :
    (s.configured w).ctxs = s.ctxs ∧ (s.configured w).mem = s.mem ∧ (s.configured w).nv = s.nv ∧
    (w = .other → (s.configured w).regs = s.regs ∧ (s.configured w).msixOn = s.msixOn ∧ (s.configured w).msixHeld = s.msixHeld) ∧
    (∀ on mask, w = .msix on mask → (s.configured w).msixOn = on ∧ (s.configured w).msixHeld = mask) := by
  cases w with
  | flr => exact absurd rfl hw
  | msix on held =>
    obtain ⟨x, o, h⟩ := s.writeMsixControl_eq on held
    have hstate : s.configured (.msix on held) = { s with msixOn := on, msixHeld := held, regs := x, out := o } := h
    rw [hstate]
    refine ⟨rfl, rfl, rfl, fun hother => absurd hother (by simp), fun on' mask heq => ?_⟩
    cases heq
    exact ⟨rfl, rfl⟩
  | other => exact ⟨rfl, rfl, rfl, fun _ => ⟨rfl, rfl, rfl⟩, fun on mask heq => absurd heq (by simp)⟩

end Sys2Proof.Machine

end

section
open Sys2Proof Sys2Proof.Machine

/-- Settles O33: what a reset leaves is read off the table of what it loads, and a configuration write is a reset, a write of MSI-X control or
nothing, by whether the master it names may reset. -/
theorem resets : Obligations.Resets := by
  unfold Obligations.Resets
  intro s m req hs
  refine ⟨?_, ?_, ?_, ?_⟩
  -- a power-on reset
  · obtain ⟨hid, hserial, hcap, hth, hsoe⟩ := State.powerOn_named hs
    exact ⟨s.powerOn, rfl, State.powerOn_wiped hs, hid, hserial, hcap, hth, hsoe, s.powerOn_clock_req0⟩
  -- a module reset of a master that may
  · intro hm hmay
    exact ⟨s.moduleReset, (exec_moduleReset s m).trans (by rw [State.flr_resets hm hmay]), State.moduleReset_wiped hs,
      State.moduleReset_named hs⟩
  -- of one that may not
  · intro hm hnot hvalid
    exact ⟨s.nonOwner, (exec_moduleReset s m).trans (by rw [State.flr_refused hm hnot hvalid]), s.nonOwner_rules⟩
  -- a configuration write
  · intro w _
    refine ⟨s.configWrite req w, exec_configurationWrite s m req w, s.configWrite_req0 req w, ?_⟩
    rw [← State.requester_eq]
    refine ⟨fun hnot hvalid => ?_, fun hmay hw => ?_, fun hmay hw => ?_⟩
    · rw [State.configWrite_refused w hnot hvalid]
      exact (s.identified req).nonOwner_rules
    · rw [State.configWrite_allowed w hmay, hw]
      exact State.moduleReset_wiped (s := s.identified req) hs
    · rw [State.configWrite_allowed w hmay]
      exact (s.identified req).configured_kept hw

end

section
/-! SUPPORT. Frames of other modules: what a frame that is taken leaves as it was (R49, R50, R53), what a response carries (R49, R54), and the
bytes of a number (R9). -/

namespace Sys2Proof.Machine

/-! ## A frame sent (R49, R50) -/

/-- The second state is the first with other streams and with more sent. -/
def State.SentOnly (s t : State) : Prop := ∃ w o, t = { s with streams := w, out := o }

theorem State.SentOnly.kept {s t : State} (h : s.SentOnly t) : t.mem = s.mem ∧ t.ctxs = s.ctxs ∧ ∀ r : Reg, t.reg r = s.reg r := by
  obtain ⟨w, o, rfl⟩ := h
  exact ⟨rfl, rfl, fun _ => rfl⟩

/-- Some port is up. -/
def State.linked (s : State) : Prop := ∃ p < 16, s.portUp p = true

theorem State.streamPort_some {s : State} (h : s.linked) (pin : Nat) : ∃ p, s.streamPort pin = some p := by
  obtain ⟨p, hp, hup⟩ := h
  rw [← Option.isSome_iff_exists, State.streamPort, List.find?_isSome]
  refine ⟨p, List.mem_map.2 ⟨(p + 16 - pin % 16) % 16, List.mem_range.2 (Nat.mod_lt _ (by decide)), ?_⟩, hup⟩
  omega

theorem State.lastFrame_sendOut (s : State) (p : Nat) (f : Frame) : Claims.lastFrame (s.sendOut p f) =
    some { f with etype := (s.reg .soetype).setWidth 16, smac := s.nv.macs.getD p 0 } := by
  simp [Claims.lastFrame, State.sendOut, State.emit]

/-- What the last frame sent has of a given one: all but the port's and the stream's own fields. -/
def State.HasSent (t : State) (dst cls : Nat) (f : Frame) : Prop :=
  ∃ g, Claims.lastFrame t = some g ∧ g.type = f.type ∧ g.tag = f.tag ∧ g.attr = f.attr ∧ g.data = f.data ∧ g.pcrc = f.pcrc ∧
    g.cls = BitVec.ofNat 8 cls ∧ g.dst = BitVec.ofNat 8 dst

theorem State.sendFrom_sentOnly (s : State) (pin dst cls : Nat) (f : Frame) : s.SentOnly (s.sendFrom pin dst cls f) := by
  unfold State.sendFrom
  dsimp only
  split
  · exact ⟨_, _, rfl⟩
  · exact ⟨_, _, rfl⟩

theorem State.sendFrom_hasSent {s : State} (h : s.linked) (pin dst cls : Nat) (f : Frame) : (s.sendFrom pin dst cls f).HasSent dst cls f := by
  obtain ⟨p, hp⟩ := State.streamPort_some h pin
  unfold State.sendFrom
  dsimp only
  split
  · exact ⟨_, State.lastFrame_sendOut _ _ _, rfl, rfl, rfl, rfl, rfl, rfl, rfl⟩
  · next hnone => exact absurd (hp.symm.trans hnone) (by simp)

theorem State.sendFrame_sentOnly (s : State) (q dst cls : Nat) (f : Frame) : s.SentOnly (s.sendFrame q dst cls f) := s.sendFrom_sentOnly _ _ _ _

theorem State.sendFrame_hasSent {s : State} (h : s.linked) (q dst cls : Nat) (f : Frame) : (s.sendFrame q dst cls f).HasSent dst cls f :=
  State.sendFrom_hasSent h _ _ _ _

theorem State.sendAck_sentOnly (s : State) (p dst cls : Nat) : s.SentOnly (s.sendAck p dst cls) := by
  unfold State.sendAck
  dsimp only
  split
  · exact ⟨_, _, rfl⟩
  · exact ⟨_, _, rfl⟩

/-! ## A frame taken (R49, R50, R53) -/

/-- What a frame that is taken leaves as it was, before it is acted on: all but DOMREACH, the streams and what is sent. -/
def State.Heard (s t : State) : Prop :=
  (∃ g w o, t = { s with regs := g, streams := w, out := o }) ∧ ∀ r : Reg, Reg.domreach.key ≠ r.key → t.reg r = s.reg r

theorem State.Heard.sent {s t u : State} (h : s.Heard t) (hu : t.SentOnly u) : s.Heard u := by
  obtain ⟨⟨g, w, o, rfl⟩, hreg⟩ := h
  obtain ⟨w', o', rfl⟩ := hu
  exact ⟨⟨g, w', o', rfl⟩, hreg⟩

theorem State.gainReach_heard (s : State) (d : Nat) : s.Heard (s.gainReach d) := by
  unfold State.gainReach
  split
  · exact ⟨⟨s.regs, s.streams, s.out, rfl⟩, fun _ _ => rfl⟩
  · exact ⟨⟨_, _, _, rfl⟩, fun r hr => State.setReg_reg_ne _ _ _ _ hr⟩

theorem State.gainReach_streams (s : State) (d : Nat) : (s.gainReach d).streams = s.streams := by
  unfold State.gainReach
  split
  · rfl
  · rfl

theorem Stream.acked_rxSeq (st : Stream) (ackn : Word) (now : Nat) : (st.acked ackn now).rxSeq = st.rxSeq := by
  unfold Stream.acked
  dsimp only
  split
  · rfl
  · rfl

/-- A frame that is next in its stream, and no mere acknowledgement, is acted on. -/
theorem State.frameIn_taken {s : State} {p : Nat} {f : Frame} (h : Claims.InTurn s p f) (hack : f.type.toNat ≠ 6) (act : State → State) :
    ∃ u, s.Heard u ∧ s.frameIn p f act = act u := by
  obtain ⟨⟨hp, hup, ⟨hetype, hlen⟩, hgood, hon, hdst⟩, hseq⟩ := h
  have hseq' : ¬ f.seq ≠ (((s.gainReach f.src.toNat).streams.getD (streamKey f.src.toNat f.cls.toNat) {}).acked f.ackn s.clock).rxSeq := by
    rw [not_not, Stream.acked_rxSeq, State.gainReach_streams]
    exact hseq
  have hport : ¬ (!s.portUp p || decide (16 ≤ p) || decide (maxFrame < frameBytes f) || f.etype != (s.reg .soetype).setWidth 16) = true := by
    have hfit : ¬ maxFrame < frameBytes f := by
      unfold maxFrame frameBytes
      omega
    simp [hup, hp, hfit, hetype]
  unfold State.frameIn
  rw [if_neg hport, if_neg (by simp [hgood]), if_neg (by simp [hon, hdst])]
  dsimp only
  rw [if_neg hack, if_neg hseq']
  refine ⟨_, ((s.gainReach_heard f.src.toNat).sent ?_).sent (State.sendAck_sentOnly _ _ _ _), rfl⟩
  exact ⟨_, _, rfl⟩

theorem State.Heard.linked {s u : State} (h : s.Heard u) {p : Nat} {f : Frame} (hf : Claims.InTurn s p f) : u.linked := by
  obtain ⟨⟨hp, hup, -⟩, -⟩ := hf
  refine ⟨p, hp, ?_⟩
  rw [State.portUp, h.2 _ (by simp only [Reg.key]; omega)]
  exact hup

theorem State.Heard.mem {s u : State} (h : s.Heard u) : u.mem = s.mem := by
  obtain ⟨⟨g, w, o, rfl⟩, -⟩ := h
  rfl

theorem State.Heard.ctxs {s u : State} (h : s.Heard u) : u.ctxs = s.ctxs := by
  obtain ⟨⟨g, w, o, rfl⟩, -⟩ := h
  rfl

theorem State.Heard.ckpt {s u : State} (h : s.Heard u) : u.ckpt = s.ckpt := by
  obtain ⟨⟨g, w, o, rfl⟩, -⟩ := h
  rfl

theorem State.Heard.moves {s u : State} (h : s.Heard u) : u.moves = s.moves := by
  obtain ⟨⟨g, w, o, rfl⟩, -⟩ := h
  rfl

theorem State.Heard.waiting {s u : State} (h : s.Heard u) : u.homeWait = s.homeWait ∧ u.devReqs = s.devReqs ∧ u.ids = s.ids := by
  obtain ⟨⟨g, w, o, rfl⟩, -⟩ := h
  exact ⟨rfl, rfl, rfl⟩

theorem stallQuarter_lt (st : Nat) : stallQuarter st < 4 := by
  unfold stallQuarter
  split_ifs
  all_goals omega

theorem State.Heard.homeHeld {s u : State} (h : s.Heard u) (o : Nat) : u.homeHeld o = s.homeHeld o := by
  have hclk : u.reg (.dramclk (stallQuarter (homeStall o))) = s.reg (.dramclk (stallQuarter (homeStall o))) := by
    have hquarter : stallQuarter (homeStall o) < 4 := stallQuarter_lt _
    refine h.2 _ ?_
    generalize stallQuarter (homeStall o) = q at hquarter
    interval_cases q <;> decide
  unfold State.homeHeld
  dsimp only
  rw [h.moves, hclk]

theorem State.Heard.ckBusy {s u : State} (h : s.Heard u) : u.ckBusy = s.ckBusy := by
  rw [State.ckBusy, State.ckState, h.2 _ (by decide)]
  rfl

/-! ## The bytes of a number (R9) -/

theorem leBytes_length (n v : Nat) : (leBytes n v).length = n := by
  induction n generalizing v with
  | zero => rfl
  | succ n ih => rw [leBytes, List.length_cons, ih]

theorem leNat_leBytes (n v : Nat) : leNat (leBytes n v) = v % 256 ^ n := by
  induction n generalizing v with
  | zero => simp [leBytes, leNat, Nat.mod_one]
  | succ n ih => 
    have hmod : v % 256 ^ (n + 1) = v % 256 + 256 * (v / 256 % 256 ^ n) := by rw [Nat.pow_succ', Nat.mod_mul]
    rw [leBytes, leNat, ih, BitVec.toNat_ofNat, hmod]

theorem leBytes_leNat (l : List Byte) : leBytes l.length (leNat l) = l := by
  induction l with
  | nil => rfl
  | cons b l ih =>
    have hb : b.toNat < 256 := b.isLt
    rw [List.length_cons, leBytes, leNat, show (b.toNat + 256 * leNat l) / 256 = leNat l by omega, ih]
    congr 1
    apply BitVec.eq_of_toNat_eq
    rw [BitVec.toNat_ofNat]
    omega

theorem Mem.read_length (m : Mem) (a n : Nat) : (m.read a n).length = n := by
  induction n generalizing a with
  | zero => rfl
  | succ n ih => rw [Mem.read, List.length_cons, ih]

theorem leBytes_leNat_read (m : Mem) (a n : Nat) : leBytes n (leNat (m.read a n)) = m.read a n := by
  have h := leBytes_leNat (m.read a n)
  rwa [Mem.read_length] at h

/-- A read answers by the bytes alone, whatever the poison of the memory. -/
theorem Mem.read_congr {m m' : Mem} (h : ∀ b, m'.get b = m.get b) (a n : Nat) : m'.read a n = m.read a n := by
  induction n generalizing a with
  | zero => rfl
  | succ n ih => rw [Mem.read, Mem.read, h, ih]

theorem Mem.read_store (m : Mem) (a : Nat) (l : List Byte) : (m.store a l).read a l.length = l := by
  have hget : ∀ b, (m.store a l).get b = (m.write a l).get b := fun b => by rw [Mem.get_store, Mem.get_write]
  rw [Mem.read_congr hget, Mem.read_write]

theorem Mem.get_store_apart (m : Mem) {a b : Nat} {l : List Byte} (h : b < a ∨ a + l.length ≤ b) : (m.store a l).get b = m.get b := by
  rw [Mem.get_store, dif_neg (by omega)]

/-! ## Requests and responses (R54) -/

theorem State.typed_own (s : State) (p : Nat) {f : Frame} {type : Nat} (h : f.type.toNat = type) (act : State → State) :
    s.typed p f type act = s.frameIn p f act := if_pos (by simp [h])

/-- A READ in turn is performed, or held, in a state that has only heard of it. -/
theorem exec_read_taken {s : State} {p : Nat} {f : Frame} (h : Claims.InTurn s p f) (ht : f.type = 0) :
    ∃ u, s.Heard u ∧ exec (.read p f) s = .next (u.request' f) := by
  obtain ⟨u, hu, heq⟩ := State.frameIn_taken h (by simp [ht]) fun s => s.request' f
  exact ⟨u, hu, congrArg Host.Outcome.next ((s.typed_own p (by simp [ht]) _).trans heq)⟩

theorem exec_write_taken {s : State} {p : Nat} {f : Frame} (h : Claims.InTurn s p f) (ht : f.type = 2) :
    ∃ u, s.Heard u ∧ exec (.write p f) s = .next (u.request' f) := by
  obtain ⟨u, hu, heq⟩ := State.frameIn_taken h (by simp [ht]) fun s => s.request' f
  exact ⟨u, hu, congrArg Host.Outcome.next ((s.typed_own p (by simp [ht]) _).trans heq)⟩

theorem exec_atomic_taken {s : State} {p : Nat} {f : Frame} (h : Claims.InTurn s p f) (ht : f.type = 4) :
    ∃ u, s.Heard u ∧ exec (.atomic p f) s = .next (u.request' f) := by
  obtain ⟨u, hu, heq⟩ := State.frameIn_taken h (by simp [ht]) fun s => s.request' f
  exact ⟨u, hu, congrArg Host.Outcome.next ((s.typed_own p (by simp [ht]) _).trans heq)⟩

theorem frOff_eq (f : Frame) : frOff f = f.addr.toNat % 2 ^ 39 := by
  simp [frOff, bits]

theorem State.request'_held {s : State} {f : Frame} (hoff : frOff f < dramBytes) (h : s.homeHeld (frOff f) = true) :
    s.request' f = s.holdDev (.frame f) := if_pos (by simp [hoff, h])

theorem State.request'_serve {s : State} {f : Frame} (h : frOff f < dramBytes → s.homeHeld (frOff f) = false) : s.request' f = s.serve f := by
  refine if_neg ?_
  rw [Bool.and_eq_true, decide_eq_true_eq, not_and, Bool.not_eq_true]
  exact h

theorem badFrame_src {f : Frame} (h : badFrame f = false) : f.src.toNat < 64 := by
  simp only [badFrame, Bool.or_eq_false_iff, decide_eq_false_iff_not, not_le] at h
  tauto

theorem frame_src_lt {s : State} {p : Nat} {f : Frame} (hf : Claims.InTurn s p f) : f.src.toNat < 64 := by
  obtain ⟨⟨-, -, -, hgood, -⟩, -⟩ := hf
  exact badFrame_src hgood

/-- The last frame sent answers a frame: its type, its class, its data and its poison. -/
def State.Answers (t : State) (f : Frame) (type cls : Nat) (data : List Byte) (poison : Bool) : Prop :=
  (Claims.lastFrame t).map (fun g => (g.type.toNat, g.cls.toNat, g.dst.toNat % 64, g.tag.toNat)) = some (type, cls, f.src.toNat, f.tag.toNat) ∧
  (Claims.lastFrame t).map (fun g => g.data) = some data ∧ (Claims.lastFrame t).map (fun g => g.attr.getLsbD 10) = some poison

theorem frameAttr_poison (b : Bool) : (frameAttr 0 0 0 b).getLsbD 10 = b := by
  cases b
  · decide
  · decide

/-- A frame sent in answer, whatever its kind. -/
theorem State.HasSent.answers {t : State} {f : Frame} {type cls len addr : Nat} {data : List Byte} {poison : Bool} {crc : Word}
    (h : t.HasSent f.src.toNat cls (mkFrame type len f.tag.toNat addr (frameAttr 0 0 0 poison) data crc)) (hsrc : f.src.toNat < 64)
    (htype : type < 16) (hcls : cls < 256) :
    t.Answers f type cls data poison ∧ (Claims.lastFrame t).map (fun g => g.pcrc) = some crc := by
  obtain ⟨g, hlast, hg1, hg2, hg3, hg4, hg5, hg6, hg7⟩ := h
  refine ⟨⟨?_, ?_, ?_⟩, ?_⟩
  · rw [hlast, Option.map_some, hg1, hg2, hg6, hg7]
    simp [mkFrame, Nat.mod_eq_of_lt htype, Nat.mod_eq_of_lt hcls, hsrc]
  · rw [hlast, Option.map_some, hg4]
    rfl
  · rw [hlast, Option.map_some, hg3]
    exact congrArg some (frameAttr_poison poison)
  · rw [hlast, Option.map_some, hg5]
    rfl

theorem State.respond_sentOnly (s : State) (f : Frame) (type : Nat) (data : List Byte) (poison : Bool) :
    s.SentOnly (s.respond f type data poison) := s.sendFrame_sentOnly _ _ _ _

theorem State.respond_answers {s : State} (hs : s.linked) {f : Frame} (hsrc : f.src.toNat < 64) {type : Nat} (htype : type < 16)
    (data : List Byte) (poison : Bool) : (s.respond f type data poison).Answers f type 1 data poison :=
  ((State.sendFrame_hasSent hs _ _ _ _).answers hsrc htype (by decide)).1

/-! ## READ (R54, R61, R64) -/

theorem State.serve_read (s : State) {f : Frame} (ht : f.type = 0) (hcls : f.cls ≠ 2) : s.serve f = s.serveRead f := by
  unfold State.serve
  rw [ht]
  exact if_neg hcls

theorem State.serve_ckRead (s : State) {f : Frame} (ht : f.type = 0) (hcls : f.cls = 2) : s.serve f = s.serveCkRead f := by
  unfold State.serve
  rw [ht]
  exact if_pos hcls

theorem dramBytes_lt_windowBase : dramBytes < windowBase := by decide

/-- A READ of more than a frame carries. -/
theorem State.serveRead_long (s : State) {f : Frame} (h : 4096 < f.len.toNat) : s.serveRead f = s.respond f 1 [] true := if_pos h

/-- A READ that passes the end of DRAM. -/
theorem State.serveRead_outside (s : State) {f : Frame} (hlen : ¬ 4096 < f.len.toNat) (hlow : ¬ windowBase ≤ frOff f)
    (h : dramBytes < frOff f + f.len.toNat) : s.serveRead f = s.respond f 1 (List.replicate f.len.toNat 0) true := by
  unfold State.serveRead
  rw [if_neg hlen, if_neg hlow, if_pos h]

/-- A READ of poisoned bytes. -/
theorem State.serveRead_poisoned {s : State} {f : Frame} (hlen : ¬ 4096 < f.len.toNat) (hfit : frOff f + f.len.toNat ≤ dramBytes)
    (h : s.mem.poisoned (frOff f) f.len.toNat = true) : s.serveRead f = s.respond f 1 (List.replicate f.len.toNat 0) true := by
  have hlow : ¬ windowBase ≤ frOff f := by
    have := dramBytes_lt_windowBase
    omega
  unfold State.serveRead
  rw [if_neg hlen, if_neg hlow, if_neg (by omega), if_pos h]

/-- A READ of bytes of DRAM. -/
theorem State.serveRead_bytes {s : State} {f : Frame} (hlen : f.len.toNat ≤ 4096) (hfit : frOff f + f.len.toNat ≤ dramBytes)
    (h : s.mem.poisoned (frOff f) f.len.toNat = false) : s.serveRead f = s.respond f 1 (s.mem.read (frOff f) f.len.toNat) false := by
  have hlow : ¬ windowBase ≤ frOff f := by
    have := dramBytes_lt_windowBase
    omega
  unfold State.serveRead
  rw [if_neg (by omega), if_neg hlow, if_neg (by omega), if_neg (by simp [h])]

/-- A READ of OWNER through the window: YOURID is that of a peer (R64, R74). -/
theorem State.serveRead_owner (s : State) {f : Frame} (hcls : f.cls = 0) (hoff : frOff f = windowBase + 0x10) (hlen : f.len.toNat = 8) :
    s.serveRead f = s.respond f 1 (leBytes 8 (setBits (s.reg .owner) 7 6 3).toNat) false := by
  have hslot : s.bar0Read (.peer (f.src.setWidth 6)) 0x10 = setBits (s.reg .owner) 7 6 3 := rfl
  have hall : ∀ v, ((leBytes 8 v).drop 0).take 8 = leBytes 8 v := fun v => rfl
  unfold State.serveRead
  rw [if_neg (by omega), if_pos (by omega), hoff, hlen, Nat.add_sub_cancel_left]
  dsimp only
  rw [if_pos (by simp [hcls, bar0Ok])]
  exact congrArg (fun d => s.respond f 1 d false) (hall _)

/-- A READ that is answered at once, with what the state before it answers. -/
theorem exec_read_answers {s : State} {p : Nat} {f : Frame} {data : List Byte} {poison : Bool} (hf : Claims.InTurn s p f) (ht : f.type = 0)
    (hcls : f.cls ≠ 2) (hfree : frOff f < dramBytes → s.homeHeld (frOff f) = false)
    (hserve : ∀ u, s.Heard u → u.serveRead f = u.respond f 1 data poison) :
    ∃ t, exec (.read p f) s = .next t ∧ (t.mem = s.mem ∧ t.ctxs = s.ctxs) ∧ t.Answers f 1 1 data poison := by
  obtain ⟨u, hu, heq⟩ := exec_read_taken hf ht
  obtain ⟨hmem, hctxs, -⟩ := (u.respond_sentOnly f 1 data poison).kept
  refine ⟨u.respond f 1 data poison, ?_, ⟨hmem.trans hu.mem, hctxs.trans hu.ctxs⟩,
    State.respond_answers (hu.linked hf) (frame_src_lt hf) (by decide) data poison⟩
  rw [heq, State.request'_serve (by rwa [hu.homeHeld]), State.serve_read u ht hcls, hserve u hu]

/-- The piece that a READ of class 2 asks for, sent (R61). -/
def State.sendPiece (s : State) (f : Frame) : State :=
  s.sendFrame (stallQuarter (homeStall (frOff f))) f.src.toNat 2
    (mkFrame 8 4096 f.tag.toNat f.addr.toNat (frameAttr 0 0 0 (s.mem.poisoned (frOff f) 4096)) (s.mem.read (frOff f) 4096)
      (if frOff f % 65536 = 0xF000 then s.pageCrc (frOff f) else 0))

theorem State.serveCkRead_piece (s : State) {f : Frame} (hfit : frOff f + 4096 ≤ dramBytes) (hpiece : frOff f % 4096 = 0) :
    s.serveCkRead f = s.sendPiece f := by
  have ho : frOff f / 4096 * 4096 = frOff f := by omega
  unfold State.serveCkRead
  dsimp only
  rw [ho, if_neg (by omega)]
  rfl

theorem State.sendPiece_sentOnly (s : State) (f : Frame) : s.SentOnly (s.sendPiece f) := s.sendFrame_sentOnly _ _ _ _

theorem State.sendPiece_answers {s : State} (hs : s.linked) {f : Frame} (hsrc : f.src.toNat < 64) :
    (s.sendPiece f).Answers f 8 2 (s.mem.read (frOff f) 4096) (s.mem.poisoned (frOff f) 4096) ∧
    (Claims.lastFrame (s.sendPiece f)).map (fun g => g.pcrc) = some (if frOff f % 65536 = 0xF000 then s.pageCrc (frOff f) else 0) :=
  (State.sendFrame_hasSent hs _ _ _ _).answers hsrc (by decide) (by decide)

/-- The column of a request holds: it waits there. -/
theorem State.Heard.held {s u : State} (hu : s.Heard u) {f : Frame} (hoff : frOff f < dramBytes) (hheld : s.homeHeld (frOff f) = true) :
    ∃ t, u.request' f = t ∧ (t.mem = s.mem ∧ t.ctxs = s.ctxs) ∧ t.homeWait = s.homeWait ++ [(devKey, s.ids)] ∧
      t.devReqs.get? s.ids = some (.frame f) := by
  obtain ⟨hwait, hreqs, hids⟩ := hu.waiting
  refine ⟨_, State.request'_held hoff ((hu.homeHeld _).trans hheld), ⟨hu.mem, hu.ctxs⟩, ?_, ?_⟩
  · rw [State.holdDev, hwait, hids]
  · rw [State.holdDev, hids]
    exact SMap.get?_put_same _ _ _

/-! ## WRITE (R54, R60) -/

theorem State.serve_write (s : State) {f : Frame} (ht : f.type = 2) : s.serve f = s.serveWrite f := by
  unfold State.serve
  rw [ht]
  rfl

theorem State.serveWrite_dram (s : State) {f : Frame} (hfit : frOff f + f.data.length ≤ dramBytes) :
    s.serveWrite f = (s.deviceWrite (frOff f) f.data (frPoison f)).respond f 3 [] false := by
  have hlow : ¬ windowBase ≤ frOff f := by
    have := dramBytes_lt_windowBase
    omega
  unfold State.serveWrite
  rw [if_neg hlow, if_neg (by omega)]

theorem State.ckWrite_idle {s : State} (h : s.ckBusy = false) (o n : Nat) : s.ckWrite o n = some s := if_pos (by simp [h])

/-- The state with bytes written in DRAM. -/
def State.wrote (s : State) (o : Nat) (data : List Byte) (poison : Bool) : State :=
  { s with mem := if poison then (s.mem.write o data).taint o data.length else s.mem.write o data }

theorem State.deviceWrite_idle {s : State} {o : Nat} (hidle : s.ckBusy = false) (hfree : s.homeHeld o = false) (ho : o < dramBytes)
    (data : List Byte) (poison : Bool) : s.deviceWrite o data poison = s.wrote o data poison := by
  unfold State.deviceWrite
  rw [State.ckWrite_idle hidle]
  dsimp only
  unfold State.homeWrite
  rw [if_pos (ho.trans (by decide)), if_neg (by simp [hfree])]
  rfl

theorem State.wrote_get (s : State) (o : Nat) (data : List Byte) (poison : Bool) (b : Nat) :
    (s.wrote o data poison).mem.get b = (s.mem.write o data).get b := by
  cases poison
  · rfl
  · rfl

theorem State.wrote_read (s : State) (o : Nat) (data : List Byte) (poison : Bool) : (s.wrote o data poison).mem.read o data.length = data := by
  rw [Mem.read_congr (s.wrote_get o data poison), Mem.read_write]

/-! ## ATOMIC (R54, R254) -/

theorem State.serve_atomic (s : State) {f : Frame} (ht : f.type = 4) : s.serve f = s.serveAtomic f := by
  unfold State.serve
  rw [ht]
  rfl

/-- An ATOMIC other than ACAS on poisoned bytes. -/
theorem State.serveAtomic_poisoned {s : State} {f : Frame} (hcode : f.attr.toNat / 64 % 16 ≠ 7)
    (h : s.mem.poisoned (frOff f) f.data.length = true) :
    s.serveAtomic f = s.respond f 5 (List.replicate f.data.length 0) true := by
  have hcas : ¬ unwireCode (f.attr.toNat / 64 % 16) = 7 := by
    unfold unwireCode
    split
    · exact hcode
    · omega
  unfold State.serveAtomic
  dsimp only
  rw [if_neg hcas, if_pos (by simp [h])]

/-- The state after AADD on bytes of DRAM. -/
def State.added (s : State) (o : Nat) (data : List Byte) : State :=
  { s with mem := s.mem.store o (leBytes data.length ((leNat (s.mem.read o data.length) + leNat data) % 2 ^ (8 * data.length))) }

/-- AADD (R460): the sum is stored, and the old value answered. -/
theorem State.serveAtomic_add {s : State} {f : Frame} (hcode : f.attr.toNat / 64 % 16 = 0) (hfit : frOff f + f.data.length ≤ dramBytes)
    (hidle : s.ckBusy = false) (hclean : s.mem.poisoned (frOff f) f.data.length = false) :
    s.serveAtomic f = (s.added (frOff f) f.data).respond f 5 (s.mem.read (frOff f) f.data.length) false := by
  have hat : s.atomicAt (frOff f) f.data.length 0 (leNat f.data) (leNat (f.data.drop f.data.length)) =
      (s.added (frOff f) f.data, ⟨leNat (s.mem.read (frOff f) f.data.length), 0⟩) := if_neg (by simp [hclean])
  unfold State.serveAtomic
  dsimp only
  have hadd : unwireCode 0 = 0 := rfl
  have hone : ¬ 0 = 7 := by decide
  rw [hcode, hadd]
  simp only [hone, if_false]
  rw [if_neg (by simp [hclean, hfit]), State.ckWrite_idle hidle]
  dsimp only
  rw [List.take_length, hat, leBytes_leNat_read]

theorem State.added_read (s : State) (o : Nat) (data : List Byte) : leNat ((s.added o data).mem.read o data.length) =
    (leNat (s.mem.read o data.length) + leNat data) % 2 ^ (8 * data.length) := by
  have hread := s.mem.read_store o (leBytes data.length ((leNat (s.mem.read o data.length) + leNat data) % 2 ^ (8 * data.length)))
  rw [leBytes_length] at hread
  rw [State.added, hread, leNat_leBytes, show (256 : Nat) = 2 ^ 8 from rfl, ← Nat.pow_mul, Nat.mod_mod]

theorem State.added_get (s : State) {o b : Nat} {data : List Byte} (h : b < o ∨ o + data.length ≤ b) :
    (s.added o data).mem.get b = s.mem.get b :=
  Mem.get_store_apart _ (by rwa [leBytes_length])

end Sys2Proof.Machine

end

section
/-! SUPPORT. The clauses of O40 on WRITE, ATOMIC and class 2, one lemma for each. -/

namespace Sys2Proof.Machine

theorem State.ckBusy_iff (s : State) : s.ckBusy = true ↔ bits (s.reg .ckptstat) 2 0 = 1 ∨ bits (s.reg .ckptstat) 2 0 = 2 := by
  simp [State.ckBusy, State.ckState]

theorem State.ckIdle {s : State} (h : ¬ (bits (s.reg .ckptstat) 2 0 = 1 ∨ bits (s.reg .ckptstat) 2 0 = 2)) : s.ckBusy = false := by
  rwa [← Bool.not_eq_true, State.ckBusy_iff]

/-- A class-2 READ is answered with a piece of its page, and the last piece carries the page's CRC-32C (R61). -/
theorem exec_read_piece {s : State} {p : Nat} {f : Frame} (hf : Claims.InTurn s p f) (ht : f.type = 0) (hcls : f.cls = 2)
    (hfit : frOff f + 4096 ≤ dramBytes) (hpiece : frOff f % 4096 = 0) (hfree : s.homeHeld (frOff f) = false) :
    ∃ t, exec (.read p f) s = .next t ∧ (t.mem = s.mem ∧ t.ctxs = s.ctxs) ∧
      t.Answers f 8 2 (s.mem.read (frOff f) 4096) (s.mem.poisoned (frOff f) 4096) ∧
      (Claims.lastFrame t).map (fun g => g.pcrc) =
        some (if frOff f / 4096 % 16 = 15 then crc32c (s.mem.read (frOff f / 65536 * 65536) 65536) else 0) := by
  obtain ⟨u, hu, heq⟩ := exec_read_taken hf ht
  rw [State.request'_serve fun _ => (hu.homeHeld _).trans hfree, State.serve_ckRead u ht hcls, State.serveCkRead_piece u hfit hpiece] at heq
  obtain ⟨hmem, hctxs, -⟩ := (u.sendPiece_sentOnly f).kept
  obtain ⟨hanswers, hcrc⟩ := State.sendPiece_answers (hu.linked hf) (frame_src_lt hf)
  have hlast : frOff f % 65536 = 0xF000 ↔ frOff f / 4096 % 16 = 15 := by omega
  refine ⟨_, heq, ⟨hmem.trans hu.mem, hctxs.trans hu.ctxs⟩, ?_, ?_⟩
  · rwa [hu.mem] at hanswers
  · rw [hcrc, State.pageCrc, hu.mem]
    simp only [hlast]

/-- A WRITE that its column performs (R54). -/
theorem exec_write_performed {s : State} {p : Nat} {f : Frame} (hf : Claims.InTurn s p f) (ht : f.type = 2)
    (hfree : s.homeHeld (frOff f) = false) (hfit : frOff f + f.data.length ≤ dramBytes) (hoff : frOff f < dramBytes) (hidle : s.ckBusy = false) :
    ∃ t, exec (.write p f) s = .next t ∧ t.Answers f 3 1 [] false ∧ t.mem.read (frOff f) f.data.length = f.data ∧
      (∀ b, b < frOff f ∨ frOff f + f.data.length ≤ b → t.mem.get b = s.mem.get b) ∧ t.ctxs = s.ctxs := by
  obtain ⟨u, hu, heq⟩ := exec_write_taken hf ht
  have hfree' := (hu.homeHeld (frOff f)).trans hfree
  rw [State.request'_serve fun _ => hfree', State.serve_write u ht, State.serveWrite_dram u hfit,
    State.deviceWrite_idle (hu.ckBusy.trans hidle) hfree' hoff] at heq
  obtain ⟨hmem, hctxs, -⟩ := ((u.wrote (frOff f) f.data (frPoison f)).respond_sentOnly f 3 [] false).kept
  have hlinked : (u.wrote (frOff f) f.data (frPoison f)).linked := hu.linked hf
  refine ⟨_, heq, State.respond_answers hlinked (frame_src_lt hf) (by decide) _ _, ?_, fun b hb => ?_, hctxs.trans hu.ctxs⟩
  · rw [hmem, State.wrote_read]
  · rw [hmem, State.wrote_get, Mem.get_write, dif_neg (by omega), hu.mem]

/-- A WRITE during a restore is answered, counted, and not performed (R60). -/
theorem exec_write_refused {s : State} {p : Nat} {f : Frame} (hf : Claims.InTurn s p f) (ht : f.type = 2)
    (hfree : s.homeHeld (frOff f) = false) (hfit : frOff f + f.data.length ≤ dramBytes) (hdata : f.data.length ≠ 0)
    (hbusy : s.ckBusy = true) (hrestore : s.ckpt.restore = true) :
    ∃ t, exec (.write p f) s = .next t ∧ t.Answers f 3 1 [] false ∧
      bits (t.reg .ckptstat) 63 48 = Nat.min 0xFFFF (bits (s.reg .ckptstat) 63 48 + 1) ∧ t.mem = s.mem ∧ t.ctxs = s.ctxs := by
  obtain ⟨u, hu, heq⟩ := exec_write_taken hf ht
  rw [State.request'_serve fun _ => (hu.homeHeld (frOff f)).trans hfree, State.serve_write u ht, State.serveWrite_dram u hfit,
    State.deviceWrite_of_restore (hu.ckBusy.trans hbusy) (by simpa using hdata) (by rwa [hu.ckpt])] at heq
  obtain ⟨hmem, hctxs, hreg⟩ := (u.ckRefuse.respond_sentOnly f 3 [] false).kept
  have hlinked : u.ckRefuse.linked := by
    obtain ⟨q, hq, hup⟩ := hu.linked hf
    refine ⟨q, hq, ?_⟩
    rw [State.portUp, State.ckRefuse, State.setField_reg_ne (by simp only [Reg.key]; omega)]
    exact hup
  refine ⟨_, heq, State.respond_answers hlinked (frame_src_lt hf) (by decide) _ _, ?_, hmem.trans hu.mem, hctxs.trans hu.ctxs⟩
  have hlt : Nat.min 0xFFFF (bits (s.reg .ckptstat) 63 48 + 1) < 2 ^ (63 + 1 - 48) := lt_of_le_of_lt (Nat.min_le_left _ _) (by decide)
  rw [hreg, State.ckRefuse, State.setField_reg, bits_setBits_same (by decide), hu.2 _ (by decide)]
  exact Nat.mod_eq_of_lt hlt

/-- AADD on bytes of DRAM: the old value goes back and the sum stands (R54, R460). -/
theorem exec_atomic_added {s : State} {p : Nat} {f : Frame} (hf : Claims.InTurn s p f) (ht : f.type = 4)
    (hfree : s.homeHeld (frOff f) = false) (hcode : f.attr.toNat / 64 % 16 = 0) (hfit : frOff f + f.data.length ≤ dramBytes)
    (hidle : s.ckBusy = false) (hclean : s.mem.poisoned (frOff f) f.data.length = false) :
    ∃ t, exec (.atomic p f) s = .next t ∧ t.Answers f 5 1 (s.mem.read (frOff f) f.data.length) false ∧
      leNat (t.mem.read (frOff f) f.data.length) =
        (leNat (s.mem.read (frOff f) f.data.length) + leNat f.data) % 2 ^ (8 * f.data.length) ∧
      (∀ b, b < frOff f ∨ frOff f + f.data.length ≤ b → t.mem.get b = s.mem.get b) ∧ t.ctxs = s.ctxs := by
  obtain ⟨u, hu, heq⟩ := exec_atomic_taken hf ht
  rw [State.request'_serve fun _ => (hu.homeHeld (frOff f)).trans hfree, State.serve_atomic u ht,
    State.serveAtomic_add hcode hfit (hu.ckBusy.trans hidle) (by rwa [hu.mem]), hu.mem] at heq
  obtain ⟨hmem, hctxs, -⟩ := ((u.added (frOff f) f.data).respond_sentOnly f 5 (s.mem.read (frOff f) f.data.length) false).kept
  have hlinked : (u.added (frOff f) f.data).linked := hu.linked hf
  refine ⟨_, heq, State.respond_answers hlinked (frame_src_lt hf) (by decide) _ _, ?_, fun b hb => ?_, hctxs.trans hu.ctxs⟩
  · rw [hmem, State.added_read, hu.mem]
  · rw [hmem, State.added_get u hb, hu.mem]

/-- An ATOMIC other than ACAS on poisoned bytes changes nothing and returns poison (R254). -/
theorem exec_atomic_poisoned {s : State} {p : Nat} {f : Frame} (hf : Claims.InTurn s p f) (ht : f.type = 4)
    (hfree : s.homeHeld (frOff f) = false) (hcode : f.attr.toNat / 64 % 16 ≠ 7) (hbad : s.mem.poisoned (frOff f) f.data.length = true) :
    ∃ t, exec (.atomic p f) s = .next t ∧ t.Answers f 5 1 (List.replicate f.data.length 0) true ∧ t.mem = s.mem ∧ t.ctxs = s.ctxs := by
  obtain ⟨u, hu, heq⟩ := exec_atomic_taken hf ht
  rw [State.request'_serve fun _ => (hu.homeHeld (frOff f)).trans hfree, State.serve_atomic u ht,
    State.serveAtomic_poisoned hcode (by rwa [hu.mem])] at heq
  obtain ⟨hmem, hctxs, -⟩ := (u.respond_sentOnly f 5 (List.replicate f.data.length 0) true).kept
  exact ⟨_, heq, State.respond_answers (hu.linked hf) (frame_src_lt hf) (by decide) _ _, hmem.trans hu.mem, hctxs.trans hu.ctxs⟩

/-- What the column of a READ or a WRITE holds waits there (R27, R158). -/
theorem exec_request_held {s : State} {f : Frame} {i : Instr} (hoff : frOff f < dramBytes) (hheld : s.homeHeld (frOff f) = true)
    (htaken : ∃ u, s.Heard u ∧ exec i s = .next (u.request' f)) :
    ∃ t, exec i s = .next t ∧ (t.mem = s.mem ∧ t.ctxs = s.ctxs) ∧ t.homeWait = s.homeWait ++ [(devKey, s.ids)] ∧
      t.devReqs.get? s.ids = some (.frame f) := by
  obtain ⟨u, hu, heq⟩ := htaken
  obtain ⟨t, rfl, hkept⟩ := hu.held hoff hheld
  exact ⟨_, heq, hkept⟩

end Sys2Proof.Machine

end

section
open Sys2Proof Sys2Proof.Machine

/-- Settles O40: a request in turn is acted on in a state that has only heard of it, so each clause is what its home column, the register
window or the engine of the restore does there, and the response is the last frame sent. -/
theorem requestsFromOtherModules : Obligations.RequestsFromOtherModules := by
  unfold Obligations.RequestsFromOtherModules
  intro s p f b off n len busy last lastData lastPoison kept refused base hf
  have hoff : frOff f = off := frOff_eq f
  clear_value off
  subst hoff
  have hwindow : base = windowBase := rfl
  refine ⟨?_, ?_, ?_, ?_, ?_, ?_, ?_, ?_, ?_, ?_, ?_, ?_⟩
  -- READ: the bytes of DRAM
  · intro ht hcls hlen hfree hfit hclean
    have hserve : ∀ u, s.Heard u → u.serveRead f = u.respond f 1 (s.mem.read (frOff f) n) false := fun u hu => by
      rw [← hu.mem] at hclean ⊢
      exact State.serveRead_bytes hlen hfit hclean
    obtain ⟨t, heq, hkept, hhead, hdata, hpoison⟩ := exec_read_answers hf ht hcls (fun _ => hfree) hserve
    exact ⟨t, heq, hkept, hhead, hdata, hpoison⟩
  -- past the end of DRAM
  · intro ht hcls hout hlow hfree
    by_cases hlen : 4096 < f.len.toNat
    · obtain ⟨t, heq, hkept, hhead, -, hpoison⟩ := exec_read_answers hf ht hcls hfree fun u _ => u.serveRead_long hlen
      exact ⟨t, heq, hkept, hhead, hpoison⟩
    · obtain ⟨t, heq, hkept, hhead, -, hpoison⟩ := exec_read_answers hf ht hcls hfree fun u _ =>
        u.serveRead_outside hlen (by rwa [← hwindow, not_le]) hout
      exact ⟨t, heq, hkept, hhead, hpoison⟩
  -- poisoned bytes
  · intro ht hcls hfree hfit hbad
    by_cases hlen : 4096 < f.len.toNat
    · obtain ⟨t, heq, hkept, hhead, -, hpoison⟩ := exec_read_answers hf ht hcls (fun _ => hfree) fun u _ => u.serveRead_long hlen
      exact ⟨t, heq, hkept, hhead, hpoison⟩
    · obtain ⟨t, heq, hkept, hhead, -, hpoison⟩ := exec_read_answers hf ht hcls (fun _ => hfree) fun u hu =>
        State.serveRead_poisoned hlen hfit (by rwa [hu.mem])
      exact ⟨t, heq, hkept, hhead, hpoison⟩
  -- more than a frame carries
  · intro ht hcls hlen _ hfree
    obtain ⟨t, heq, hkept, hhead, hdata, hpoison⟩ := exec_read_answers hf ht hcls hfree fun u _ => u.serveRead_long hlen
    exact ⟨t, heq, hkept, hhead, hpoison, hdata⟩
  -- OWNER in the register window
  · intro ht hcls hwin hlen
    have hhigh : ¬ frOff f < dramBytes := by
      have := dramBytes_lt_windowBase
      omega
    obtain ⟨t, heq, hkept, hhead, hdata, -⟩ := exec_read_answers hf ht (by simp [hcls]) (fun h => absurd h hhigh) fun u hu => by
      rw [u.serveRead_owner hcls hwin hlen, hu.2 _ (by decide)]
    exact ⟨t, heq, hkept, hhead, hdata⟩
  -- READ of class 2
  · intro ht hcls hfit hpiece hfree
    obtain ⟨t, heq, hkept, ⟨hhead, hdata, -⟩, hcrc⟩ := exec_read_piece hf ht hcls hfit hpiece hfree
    exact ⟨t, heq, hkept, hhead, hdata, hcrc⟩
  -- WRITE
  · intro ht hfree hfit hlow hidle
    obtain ⟨t, heq, ⟨hhead, -, hpoison⟩, hread, hframe, hctxs⟩ := exec_write_performed hf ht hfree hfit hlow (State.ckIdle hidle)
    exact ⟨t, heq, hhead, hpoison, hread, hframe b, hctxs⟩
  -- WRITE during a restore
  · intro ht hfree hfit _ hdata hbusy hrestore
    obtain ⟨t, heq, ⟨hhead, -⟩, hrefused⟩ := exec_write_refused hf ht hfree hfit hdata (s.ckBusy_iff.2 hbusy) hrestore
    exact ⟨t, heq, hhead, hrefused⟩
  -- ATOMIC
  · intro ht hfree hcode hfit _ hidle hclean _
    obtain ⟨t, heq, ⟨hhead, hdata, hpoison⟩, hsum, hframe, hctxs⟩ := exec_atomic_added hf ht hfree hcode hfit (State.ckIdle hidle) hclean
    exact ⟨t, heq, hhead, hdata, hpoison, hsum, hframe b, hctxs⟩
  -- ATOMIC on poisoned bytes
  · intro ht hfree hcode _ _ hbad
    obtain ⟨t, heq, ⟨hhead, -, hpoison⟩, hkept⟩ := exec_atomic_poisoned hf ht hfree hcode hbad
    exact ⟨t, heq, hhead, hpoison, hkept⟩
  -- a column that holds
  · exact fun ht hlow hheld => exec_request_held hlow hheld (exec_read_taken hf ht)
  · exact fun ht hlow hheld => exec_request_held hlow hheld (exec_write_taken hf ht)

end

section
/-! SUPPORT. A page of a receiving channel that is FREE and yet keeps the LASTPG of a page before (R185, R459): the state in which the flit of
`Obligations.LinesAndFlits` is taken for the last that its page awaits. -/

namespace Sys2Proof.Machine

/-- A channel of one page of one scalar record, which is FREE and names offset 0 as its last flit. -/
def leftover : Chan :=
  { base := 0, rpp := 1, prod := .rein, array := false, scal := true, scope := 0, pages := [{ last := some 0 }] }
/-- Context 0 on stall 0 with that channel as its channel 0. -/
def receiving : State := { State.reset with ctxs := [(0, { Ctx.reset with loc := .on 0 0, chans := [(0, leftover)] })] }

theorem flitBits_zero (h l : Nat) : flitBits 0 h l = 0 := by
  simp only [flitBits, BitVec.ofNat_eq_ofNat, BitVec.toNat_zero, Nat.zero_div, Nat.zero_mod]

/-- The flit makes the page whole; none of its records is present, so that the page is freed and its full-empty bits clear (R185). -/
theorem receiving_freed : (receiving.reinReceive [0] none 0 none).mem.isFull ((receiving.ctx 0).scratch 0) = false := by decide +kernel

end Sys2Proof.Machine

end

section
namespace Sys2Proof.Machine

/-- Refutes O28: its clause on a rein flit asks for a FREE page and not for one without a LASTPG. In `receiving` the flit at offset 0 completes the
page of 16 bytes, which holds no whole flit of 32 and so no present record, and the bits that the flit has just filled are cleared again. -/
theorem not_linesAndFlits : ¬ Obligations.LinesAndFlits := by
  unfold Obligations.LinesAndFlits
  intro h
  obtain ⟨-, -, -, hflit, -⟩ := h receiving 0 0 0 0 { pa := 0, bytes := [], filled := 0 } 0 leftover none 0 { tok := 0, i := .nop {} } {} 0 0 0
  rw [flitBits_zero, flitBits_zero, flitBits_zero] at hflit
  obtain ⟨t, ht, -, -, hfull, -⟩ := hflit rfl rfl rfl (by decide) rfl rfl
  have heq : t = receiving.reinReceive [0] none 0 none := (Host.Outcome.next.inj ht).symm
  rw [heq] at hfull
  exact absurd (hfull.symm.trans receiving_freed) (by decide)

end Sys2Proof.Machine
end

section
/-! SUPPORT. What becomes of any frame at a port: it is not taken, or dropped, or greeted, and then acted on or acknowledged again
(R49, R50, R52, R53). -/

namespace Sys2Proof.Machine

/-! ## Ways in (R48, R49, R52) -/

theorem State.deaf_iff (s : State) (p : Nat) (f : Frame) :
    (!s.portUp p || decide (16 ≤ p) || decide (maxFrame < frameBytes f) || f.etype != (s.reg .soetype).setWidth 16) = true ↔
      ¬ (s.portUp p = true ∧ p < 16 ∧ Claims.OfTransport s f) := by
  have hbytes : frameBytes f = 50 + f.data.length := by
    unfold frameBytes
    omega
  have hfit : ¬ maxFrame < frameBytes f ↔ 50 + f.data.length ≤ 9216 := by rw [hbytes, not_lt, maxFrame]
  rw [← not_iff_not, not_not, Claims.OfTransport, ← hfit]
  simp only [Bool.not_eq_true, Bool.or_eq_false_iff, Bool.not_eq_false', decide_eq_false_iff_not, bne_eq_false_iff_eq, not_le]
  tauto

/-- A port that is down, or a frame that is not of this transport. -/
theorem State.frameIn_deaf {s : State} {p : Nat} {f : Frame} (h : ¬ (s.portUp p = true ∧ p < 16 ∧ Claims.OfTransport s f)) (act : State → State) :
    s.frameIn p f act = s := if_pos ((s.deaf_iff p f).2 h)

theorem State.frameIn_bad {s : State} {p : Nat} {f : Frame} (hin : s.portUp p = true ∧ p < 16 ∧ Claims.OfTransport s f) (hbad : badFrame f = true)
    (act : State → State) : s.frameIn p f act = s.dropFrame p := by
  unfold State.frameIn
  rw [if_neg (mt (s.deaf_iff p f).1 (not_not.2 hin)), if_pos hbad]

/-- A good frame that comes while the domain is off, or that is for another module. -/
theorem State.frameIn_astray {s : State} {f : Frame} (hgood : badFrame f = false) (h : s.domainOn = false ∨ f.dst.toNat ≠ s.myMod) (p : Nat)
    (act : State → State) : s.frameIn p f act = s := by
  by_cases hin : s.portUp p = true ∧ p < 16 ∧ Claims.OfTransport s f
  · unfold State.frameIn
    rw [if_neg (mt (s.deaf_iff p f).1 (not_not.2 hin)), if_neg (by simp [hgood]), if_pos (by simpa using h)]
  · exact State.frameIn_deaf hin act

/-- A frame of a known type is bad by its FCS, its version or a reserved bit, and not by its type. -/
theorem badFrame_of_reserved {f : Frame} 
    (h : f.fcsOk = false ∨ f.ver ≠ 1 ∨ f.resv ≠ 0 ∨ f.addr.toNat / 2 ^ 45 ≠ 0 ∨ f.attr.toNat / 2 ^ 11 ≠ 0) : badFrame f = true := by
  have haddr : bits f.addr 63 45 = f.addr.toNat / 2 ^ 45 := by
    have := f.addr.isLt
    unfold bits
    omega
  simp only [badFrame, haddr, Bool.or_eq_true, Bool.not_eq_true', bne_iff_ne, decide_eq_true_eq]
  tauto

/-! ## A frame greeted (R50, R53) -/

/-- The state in which the sender of a frame is reachable and the frame's acknowledgement is noted. -/
def State.greeted (s : State) (f : Frame) : State :=
  { s.gainReach f.src.toNat with
    streams := (s.gainReach f.src.toNat).streams.put (streamKey f.src.toNat f.cls.toNat) ((Claims.inStream s f).acked f.ackn s.clock) }

theorem State.greeted_heard (s : State) (f : Frame) : s.Heard (s.greeted f) := (s.gainReach_heard f.src.toNat).sent ⟨_, _, rfl⟩

theorem State.greeted_inStream (s : State) (f : Frame) : Claims.inStream (s.greeted f) f = (Claims.inStream s f).acked f.ackn s.clock :=
  SMap.getD_put_same _ _ _ _

theorem State.greeted_out (s : State) (f : Frame) : (s.greeted f).out = s.out := by
  unfold State.greeted State.gainReach
  split
  · rfl
  · rfl

theorem State.greeted_reaches {s : State} {f : Frame} (hsrc : f.src.toNat < 64) :
    f.src.toNat = s.myMod ∨ bit ((s.greeted f).reg .domreach) f.src.toNat = true := by
  have hreg : (s.greeted f).reg .domreach = (s.gainReach f.src.toNat).reg .domreach := rfl
  by_cases h : f.src.toNat = s.myMod
  · exact .inl h
  · rw [hreg, State.gainReach, if_neg h, State.setReg_reg, bit_setBit_same hsrc]
    exact .inr rfl

/-- The frames that a cumulative acknowledgement covers are those that come before it. -/
theorem Stream.acked_unacked (st : Stream) (ackn : Word) (now : Nat) :
    (st.acked ackn now).unacked = st.unacked.filter (fun g => 2 ^ 31 ≤ (ackn - g.seq - 1).toNat) := by
  unfold Stream.acked
  dsimp only
  split
  next hall => exact (List.filter_eq_self.2 (List.length_filter_eq_length_iff.1 hall)).symm
  · rfl

theorem State.frameIn_greets {s : State} {p : Nat} {f : Frame} (h : Claims.LetIn s p f) (act : State → State) :
    (f.type.toNat = 6 → s.frameIn p f act = s.greeted f) ∧
    (f.type.toNat ≠ 6 → f.seq ≠ (Claims.inStream s f).rxSeq → s.frameIn p f act = (s.greeted f).sendAck p f.src.toNat f.cls.toNat) := by
  obtain ⟨hp, hup, hmine, hgood, hon, hdst⟩ := h
  have hst : (s.gainReach f.src.toNat).streams.getD (streamKey f.src.toNat f.cls.toNat) {} = Claims.inStream s f := by
    rw [State.gainReach_streams]
    rfl
  unfold State.frameIn
  rw [if_neg (mt (s.deaf_iff p f).1 (not_not.2 ⟨hup, hp, hmine⟩)), if_neg (by simp [hgood]), if_neg (by simp [hon, hdst])]
  dsimp only
  rw [hst, Stream.acked_rxSeq]
  refine ⟨fun hack => if_pos hack, fun hack hseq => ?_⟩
  rw [if_neg hack, if_pos hseq]
  rfl

/-! ## An acknowledgement sent again (R50) -/

theorem State.sendAck_streams (s : State) (p dst cls : Nat) : (s.sendAck p dst cls).streams = s.streams := by
  unfold State.sendAck
  dsimp only
  split
  · rfl
  · rfl

theorem State.sendAck_lastFrame {s : State} (h : s.linked) (p dst cls : Nat) :
    ∃ g, Claims.lastFrame (s.sendAck p dst cls) = some g ∧ g.type = 6 ∧ g.dst = BitVec.ofNat 8 dst ∧
      g.ackn = (s.streams.getD (streamKey dst cls) {}).rxSeq := by
  unfold State.sendAck
  dsimp only
  split
  · exact ⟨_, State.lastFrame_sendOut _ _ _, rfl, rfl, rfl⟩
  next hnone =>
    obtain ⟨q, hq⟩ := State.streamPort_some h _
    exact absurd (hq.symm.trans hnone) (by simp)

theorem State.Heard.portUp {s u : State} (h : s.Heard u) {p : Nat} (hp : p < 16) : u.portUp p = s.portUp p := by
  rw [State.portUp, h.2 _ (by simp only [Reg.key]; omega)]
  rfl

theorem State.Heard.outstanding {s u : State} (h : s.Heard u) : u.outstanding = s.outstanding := by
  obtain ⟨⟨g, w, o, rfl⟩, -⟩ := h
  rfl

/-! ## The frames of R49 -/

/-- The steps in which a port takes a frame, by the frame's type. -/
def frameForms (p : Nat) (f : Frame) : List (Nat × Instr) :=
  [(0, .read p f), (1, .rdata p f), (2, .write p f), (3, .wdone p f), (4, .atomic p f), (5, .atomrsp p f), (6, .ack p f), (7, .nak p f),
    (8, .ckdata p f), (9, .ckack p f)]

/-- Each of them looks at its frame as every port does, and acts on it in a way of its own. -/
theorem exec_frame {p : Nat} {f : Frame} {i : Nat × Instr} (h : i ∈ frameForms p f) (s : State) (ht : f.type.toNat = i.1) :
    ∃ act, exec i.2 s = .next (s.frameIn p f act) := by
  have htyped : ∀ i ∈ frameForms p f, ∃ act, exec i.2 s = .next (s.typed p f i.1 act) := by
    simp only [frameForms, List.forall_mem_cons]
    exact ⟨⟨_, rfl⟩, ⟨_, rfl⟩, ⟨_, rfl⟩, ⟨_, rfl⟩, ⟨_, rfl⟩, ⟨_, rfl⟩, ⟨_, rfl⟩, ⟨_, rfl⟩, ⟨_, rfl⟩, ⟨_, rfl⟩, List.forall_mem_nil _⟩
  obtain ⟨act, hact⟩ := htyped i h
  exact ⟨act, by rw [hact, s.typed_own p ht act]⟩

theorem State.dropFrame_count {s : State} (p : Nat) :
    bits ((s.dropFrame p).reg (.soport p)) 23 8 = Nat.min 0xFFFF (bits (s.reg (.soport p)) 23 8 + 1) := by
  rw [State.dropFrame, State.setField_reg, bits_setBits_same (by decide)]
  exact Nat.mod_eq_of_lt (lt_of_le_of_lt (Nat.min_le_left _ _) (by decide))

end Sys2Proof.Machine

end

section
open Sys2Proof Sys2Proof.Machine

/-- Settles O39: a frame of any type is looked at alike, so each clause is what `State.frameIn` makes of a frame that is not taken, dropped,
acknowledged again, or an acknowledgement itself. -/
theorem framesAtAPort : Obligations.FramesAtAPort := by
  unfold Obligations.FramesAtAPort
  intro s p f forms mine bad kept heard acked i hi ht
  obtain ⟨act, hexec⟩ := exec_frame (p := p) hi s ht
  rw [hexec]
  have hheard := s.greeted_heard f
  refine ⟨fun hp hdown => ?_, fun hp hnot => ?_, fun hp hup hmine hbad => ?_, fun _ _ hgood haway => ?_, fun hin hack hseq => ?_, fun hin hack => ?_⟩
  -- a port that is down
  · rw [State.frameIn_deaf fun h => absurd h.1 (by simp [hdown])]
  -- not of this transport
  · rw [State.frameIn_deaf fun h => hnot h.2.2]
  -- a bad frame
  · rw [State.frameIn_bad ⟨hup, hp, hmine⟩ (badFrame_of_reserved hbad)]
    refine ⟨_, rfl, State.dropFrame_count p, State.setField_reg_ne ?_, rfl, rfl, rfl, rfl, rfl⟩
    simp only [Reg.key]
    omega
  -- the domain off, or another module's
  · rw [State.frameIn_astray hgood haway]
  -- out of turn
  · rw [(State.frameIn_greets hin act).2 (ht ▸ hack) hseq]
    obtain ⟨hp, hup, -, hgood, -⟩ := hin
    have hlinked : (s.greeted f).linked := ⟨p, hp, (hheard.portUp hp).trans hup⟩
    obtain ⟨g, hlast, htype, hdst, hackn⟩ := State.sendAck_lastFrame hlinked p f.src.toNat f.cls.toNat
    have hsent := (s.greeted f).sendAck_sentOnly p f.src.toNat f.cls.toNat
    have hstream : Claims.inStream ((s.greeted f).sendAck p f.src.toNat f.cls.toNat) f = (Claims.inStream s f).acked f.ackn s.clock := by
      rw [Claims.inStream, State.sendAck_streams]
      exact s.greeted_inStream f
    have hkept := hheard.sent hsent
    refine ⟨_, rfl, ?_, ?_, ?_, ⟨hkept.mem, hkept.ctxs, hkept.outstanding, hkept.ckpt⟩, ?_⟩
    · simp only [heard, hsent.kept.2.2]
      exact State.greeted_reaches (badFrame_src hgood)
    · simp only [acked, hstream, Stream.acked_unacked]
    · rw [hstream, Stream.acked_rxSeq]
    · rw [hlast, Option.map_some, htype, hdst, hackn, BitVec.ofNat_toNat, BitVec.setWidth_eq]
      exact congrArg (fun st : Stream => some (6, f.src, st.rxSeq)) (s.greeted_inStream f) |>.trans (by rw [Stream.acked_rxSeq])
  -- an acknowledgement
  · rw [(State.frameIn_greets hin act).1 (ht.trans hack)]
    obtain ⟨-, -, -, hgood, -⟩ := hin
    refine ⟨_, rfl, State.greeted_reaches (badFrame_src hgood), ?_, s.greeted_out f, hheard.mem, hheard.ctxs, hheard.outstanding, hheard.ckpt⟩
    show (Claims.inStream (s.greeted f) f).unacked = _
    rw [State.greeted_inStream, Stream.acked_unacked]
end

section
/-! SUPPORT. The answer to an ACAS that has stored (R54, R460): the state in which `Obligations.ResponsesAndRetransmission` misses a note. -/

namespace Sys2Proof.Machine

/-- An ACAS of context 0 on a word of module 9, which compares with 3. -/
def casCmd : XCmd := { tok := 7, i := .acas {} 5 1 {}, v1 := 3, st := .performed }
/-- The request that has gone to module 9 for it. -/
def casRequest : Outstanding := { dst := 9, tag := 77, addr := 9 * 2 ^ 39, kind := .atomic, key := 0, tok := 7 }
/-- Module 5 of a domain, port 15 up, awaits the answer. -/
def swapping : State :=
  { (State.reset.setReg .domcfg 0x45).setReg (.soport 15) 3 with outstanding := [casRequest], ctxs := [(0, { Ctx.reset with xq := [casCmd] })] }
/-- Module 9 answers that the word was 3. -/
def casAnswer : Frame :=
  { type := 5, cls := 1, len := 4, src := 9, dst := 5, tag := 77, seq := 0, ackn := 0, addr := 0, attr := 0, pcrc := 0, data := leBytes 4 3 }

theorem swapping_inTurn : Claims.InTurn swapping 15 casAnswer := by
  unfold Claims.InTurn Claims.LetIn Claims.OfTransport
  decide

/-- The answer finds its request, and besides the old value the command notes that the compare was equal (R460). -/
theorem exec_atomrsp_swapping : ∃ t, exec (.atomrsp 15 casAnswer) swapping = .next t ∧
    (t.ctx 0).xq = [{ casCmd with data := some ⟨3, 0⟩, data2 := 1 }] := by
  obtain ⟨u, ⟨⟨g, w, o, rfl⟩, -⟩, heq⟩ := State.frameIn_taken swapping_inTurn (by decide) fun s => s.takeOld casAnswer
  exact ⟨_, congrArg Host.Outcome.next ((swapping.typed_own 15 rfl _).trans heq), rfl⟩

end Sys2Proof.Machine

end

section
namespace Sys2Proof.Machine

/-- Refutes O41: its clause on ATOMRSP leaves every part of the command but `data` as it was, and an answer to an ACAS whose compare was equal also
notes in `data2` that it stored (R460). In `swapping` the word was 3, as the ACAS asks, and `data2` goes from 0 to 1. -/
theorem not_responsesAndRetransmission : ¬ Obligations.ResponsesAndRetransmission := by
  unfold Obligations.ResponsesAndRetransmission
  intro h
  obtain ⟨hresponses, -⟩ := h swapping 15 casAnswer casRequest 0 0 0 casCmd
  obtain ⟨-, -, hatomic⟩ := hresponses swapping_inTurn rfl
  obtain ⟨t, ht, -, -, hmem⟩ := hatomic rfl (by decide) rfl (List.mem_singleton_self _) rfl
  obtain ⟨t', ht', hxq⟩ := exec_atomrsp_swapping
  cases ht.symm.trans ht'
  have hsame := List.mem_singleton.1 (hxq ▸ hmem)
  exact absurd (congrArg XCmd.data2 hsame) (by decide)

end Sys2Proof.Machine
end

section
/-! SUPPORT. The fields of a register word after a masked write (R66), and what the loss of reachability and of requests leaves (R50, R53, R54). -/

namespace Sys2Proof.Machine

/-! ## Masked writes (R66) -/

theorem getLsbD_mergeMask (x w m : DWord) (i : Nat) : (mergeMask x w m).getLsbD i = if m.getLsbD i then w.getLsbD i else x.getLsbD i := by
  by_cases hi : i < 64
  · simp only [mergeMask, BitVec.getLsbD_or, BitVec.getLsbD_and, BitVec.getLsbD_not, hi, decide_true, Bool.true_and]
    cases m.getLsbD i <;> simp
  · simp [BitVec.getLsbD_of_ge _ _ (not_lt.1 hi)]

theorem getLsbD_fmask {h l i : Nat} (hi : i < 64) : (fmask h l).getLsbD i = decide (l ≤ i ∧ i ≤ h) := by
  simp only [fmask, BitVec.getLsbD_ofNat, Nat.testBit_mul_two_pow, Nat.testBit_two_pow_sub_one, hi, decide_true, Bool.true_and]
  by_cases hl : l ≤ i
  · simp [hl]
    omega
  · simp [hl]

/-- A field lies in words that agree there. -/
theorem bits_congr {x y : DWord} {h l : Nat} (hxy : ∀ i, l ≤ i → i ≤ h → x.getLsbD i = y.getLsbD i) : bits x h l = bits y h l := by
  apply Nat.eq_of_testBit_eq
  intro i
  rw [testBit_bits, testBit_bits]
  by_cases hi : i < h + 1 - l
  · rw [hxy (l + i) (by omega) (by omega)]
  · simp [hi]

theorem bits_mergeMask_set {x w m : DWord} {h l : Nat} (hm : ∀ i, l ≤ i → i ≤ h → m.getLsbD i = true) :
    bits (mergeMask x w m) h l = bits w h l :=
  bits_congr fun i hl hh => by rw [getLsbD_mergeMask, if_pos (hm i hl hh)]

theorem bits_mergeMask_kept {x w m : DWord} {h l : Nat} (hm : ∀ i, l ≤ i → i ≤ h → m.getLsbD i = false) :
    bits (mergeMask x w m) h l = bits x h l :=
  bits_congr fun i hl hh => by rw [getLsbD_mergeMask, hm i hl hh, if_neg (by decide)]

theorem bit_mergeMask_set {x w m : DWord} {i : Nat} (hm : m.getLsbD i = true) : bit (mergeMask x w m) i = bit w i := by
  rw [bit, getLsbD_mergeMask, if_pos hm, bit]

/-- A field whose top bit is clear reads as the field below it. -/
theorem bits_of_top_clear {x y : DWord} {h : Nat} (htop : x.getLsbD (h + 1) = false) (hxy : ∀ i ≤ h, x.getLsbD i = y.getLsbD i) :
    bits x (h + 1) 0 = bits y h 0 := by
  apply Nat.eq_of_testBit_eq
  intro i
  rw [testBit_bits, testBit_bits, Nat.zero_add]
  rcases Nat.lt_trichotomy i (h + 1) with hi | rfl | hi
  · rw [hxy i (by omega)]
    simp [hi, Nat.lt_succ_of_lt hi]
  · simp [htop]
  · simp [Nat.not_lt.2 hi.le, Nat.not_lt.2 (Nat.succ_le_of_lt hi)]

/-! ## What an operation leaves -/

/-- The second state has the memory of the first, and all of its registers but some. -/
def State.Leaves (keys : List Nat) (s t : State) : Prop := t.mem = s.mem ∧ ∀ r : Reg, r.key ∉ keys → t.reg r = s.reg r

theorem State.Leaves.refl (keys : List Nat) (s : State) : s.Leaves keys s := ⟨rfl, fun _ _ => rfl⟩

theorem State.Leaves.trans {keys : List Nat} {s t u : State} (h1 : s.Leaves keys t) (h2 : t.Leaves keys u) : s.Leaves keys u :=
  ⟨h2.1.trans h1.1, fun r hr => (h2.2 r hr).trans (h1.2 r hr)⟩

theorem State.Leaves.mono {keys more : List Nat} {s t : State} (h : s.Leaves keys t) (hsub : keys ⊆ more) : s.Leaves more t :=
  ⟨h.1, fun r hr => h.2 r (mt (@hsub r.key) hr)⟩

theorem State.Leaves.foldl {α : Type} {keys : List Nat} {f : State → α → State} (hf : ∀ (s : State) (x : α), s.Leaves keys (f s x)) (l : List α) :
    ∀ s : State, s.Leaves keys (l.foldl f s) := by
  induction l with
  | nil => exact .refl keys
  | cons x l ih => exact fun s => (hf s x).trans (ih (f s x))

theorem State.setReg_leaves (s : State) (r : Reg) (v : DWord) : s.Leaves [r.key] (s.setReg r v) :=
  ⟨rfl, fun _ hq => State.setReg_reg_ne _ _ _ _ fun h => hq (List.mem_singleton.2 h.symm)⟩

/-- The registers that a signal or a change of owner may write. -/
def signalKeys : List Nat := [Reg.owner.key, Reg.intcause.key, Reg.msixPba.key]

theorem State.signal_leaves (s : State) (v : Nat) : s.Leaves signalKeys (s.signal v) :=
  ⟨s.signal_mem v, fun r hr => State.signal_reg_ne fun h => hr (by simp [signalKeys, h])⟩

theorem State.raiseInt_leaves (s : State) (b : Nat) : s.Leaves signalKeys (s.raiseInt b) :=
  ⟨s.raiseInt_mem b, fun r hr => State.raiseInt_reg_ne (fun h => hr (by simp [signalKeys, h])) fun h => hr (by simp [signalKeys, h])⟩

theorem State.deliverHeld_leaves (s : State) : s.Leaves signalKeys s.deliverHeld := by
  unfold State.deliverHeld
  split
  · exact State.Leaves.foldl (fun s v => s.signal_leaves v) s.heldSignals { s with heldSignals := [] }
  · exact .refl _ s

theorem State.setOwner_leaves (s : State) (v : DWord) : s.Leaves signalKeys (s.setOwner v) := by
  unfold State.setOwner
  split
  · exact .refl _ s
  · exact (((s.setReg_leaves .owner v).mono (by decide)).trans (State.raiseInt_leaves _ 5)).trans (State.deliverHeld_leaves _)

/-! ## Reachability lost (R53, R73) -/

theorem State.loseReach_leaves (s : State) (d : Nat) : s.Leaves (Reg.domreach.key :: signalKeys) (s.loseReach d) := by
  have hreg : s.Leaves (Reg.domreach.key :: signalKeys) (s.setReg .domreach (setBit (s.reg .domreach) d false)) :=
    (s.setReg_leaves _ _).mono (by decide)
  unfold State.loseReach
  dsimp only
  split
  · exact hreg.trans ((State.setOwner_leaves _ _).mono (List.subset_cons_self _ _))
  · exact hreg

theorem State.loseReach_domreach (s : State) (d : Nat) : (s.loseReach d).reg .domreach = setBit (s.reg .domreach) d false := by
  unfold State.loseReach
  dsimp only
  split
  · exact ((State.setOwner_leaves _ _).2 _ (by decide)).trans (State.setReg_reg _ _ _)
  · exact State.setReg_reg _ _ _

theorem State.foldl_loseReach_domreach (l : List Nat) : ∀ (s : State) (i : Nat), i < 64 →
    bit ((l.foldl State.loseReach s).reg .domreach) i = (bit (s.reg .domreach) i && !l.contains i) := by
  induction l with
  | nil => simp
  | cons d l ih =>
    intro s i hi
    rw [List.foldl_cons, ih _ i hi, State.loseReach_domreach]
    by_cases hd : i = d
    · subst hd
      simp [bit_setBit_same hi]
    · simp [bit_setBit_ne hd, hd]

/-- Once every module is out of reach DOMREACH reads 0. -/
theorem State.foldl_loseReach_zero (s : State) : ((List.range 64).foldl State.loseReach s).reg .domreach = 0 := by
  apply BitVec.eq_of_getLsbD_eq
  intro i hi
  have h := State.foldl_loseReach_domreach (List.range 64) s i hi
  simpa [bit, hi] using h

/-! ## Requests lost (R50, R52, R54) -/

theorem State.answer_leaves (s : State) (o : Outstanding) (data : List Byte) (poison : BitVec 4) : s.Leaves [] (s.answer o data poison) := by
  unfold State.answer State.giveLine
  cases o.kind
  · dsimp only
    split <;> exact ⟨rfl, fun _ _ => rfl⟩
  · exact ⟨rfl, fun _ _ => rfl⟩
  · dsimp only
    split <;> exact ⟨rfl, fun _ _ => rfl⟩

theorem State.answer_outstanding (s : State) (o : Outstanding) (data : List Byte) (poison : BitVec 4) :
    (s.answer o data poison).outstanding = s.outstanding.erase o := by
  unfold State.answer State.giveLine
  cases o.kind
  · dsimp only
    split <;> rfl
  · rfl
  · dsimp only
    split <;> rfl

/-- A request lost leaves all registers but DOMCFG, and of that all but LOSTW. -/
theorem State.lost_leaves (s : State) (o : Outstanding) : s.Leaves [Reg.domcfg.key] (s.lost o) := by
  have hanswer : ∀ (s : State) (data : List Byte) (poison : BitVec 4), s.Leaves [Reg.domcfg.key] (s.answer o data poison) := fun s data poison =>
    (s.answer_leaves o data poison).mono (List.nil_subset _)
  unfold State.lost
  cases o.kind
  · exact hanswer s _ _
  · exact (s.setReg_leaves _ _).trans (hanswer _ _ _)
  · exact hanswer s _ _

theorem State.lost_domcfg (s : State) (o : Outstanding) : bits ((s.lost o).reg .domcfg) 6 0 = bits (s.reg .domcfg) 6 0 := by
  have hanswer : ∀ (s : State) (data : List Byte) (poison : BitVec 4), (s.answer o data poison).reg .domcfg = s.reg .domcfg := fun s data poison =>
    (s.answer_leaves o data poison).2 _ (by decide)
  unfold State.lost
  cases o.kind
  · exact congrArg (bits · 6 0) (hanswer s _ _)
  · dsimp only
    rw [hanswer, State.setReg_reg, bits_setBits_apart (by decide)]
  · exact congrArg (bits · 6 0) (hanswer s _ _)

theorem State.lost_outstanding (s : State) (o : Outstanding) : (s.lost o).outstanding = s.outstanding.erase o := by
  unfold State.lost
  cases o.kind
  · exact s.answer_outstanding _ _ _
  · exact State.answer_outstanding _ _ _ _
  · exact s.answer_outstanding _ _ _

/-- The end of every request. -/
theorem State.foldl_lost (l : List Outstanding) : ∀ s : State, s.outstanding = l →
    (l.foldl State.lost s).outstanding = [] ∧ bits ((l.foldl State.lost s).reg .domcfg) 6 0 = bits (s.reg .domcfg) 6 0 := by
  induction l with
  | nil => exact fun s hs => ⟨hs, rfl⟩
  | cons o l ih =>
    intro s hs
    obtain ⟨hnone, hcfg⟩ := ih (s.lost o) (by rw [State.lost_outstanding, hs, List.erase_cons_head])
    exact ⟨hnone, hcfg.trans (s.lost_domcfg o)⟩

end Sys2Proof.Machine
end

section
/-! SUPPORT. DOMCFG and CKPTCTL as the owner writes them (R52, R58, R59, R62). -/

namespace Sys2Proof.Machine

/-! ## The engine stops (R62, R88) -/

theorem State.raiseInt_outstanding (s : State) (b : Nat) : (s.raiseInt b).outstanding = s.outstanding := by
  obtain h | h := s.raiseInt_cases b
  · rw [h]
    rfl
  · rw [h]
    obtain h' | h' | ⟨m, h'⟩ | h' := State.signal_cases (s.setReg .intcause (setBit (s.reg .intcause) b true)) 0
    all_goals
      rw [h']
      rfl

/-- A checkpoint under way ends with STATE 5 and the cause CKPT. -/
theorem State.ckFail_busy {s : State} (h : s.ckBusy = true) : s.ckFail = { (s.setField .ckptstat 2 0 5).raiseInt 8 with ckpt := {} } := by
  simp [State.ckFail, State.setCk, h]

/-- A failure leaves what it does not end. -/
theorem State.ckFail_leaves (s : State) :
    s.Leaves (Reg.ckptstat.key :: signalKeys) s.ckFail ∧ s.ckFail.ctxs = s.ctxs ∧ s.ckFail.outstanding = s.outstanding := by
  by_cases h : s.ckBusy = true
  · rw [State.ckFail_busy h]
    refine ⟨((s.setReg_leaves .ckptstat (setBits (s.reg .ckptstat) 2 0 5)).mono (by decide)).trans ?_, State.raiseInt_ctxs _ 8, State.raiseInt_outstanding _ 8⟩
    exact (State.raiseInt_leaves (s.setField .ckptstat 2 0 5) 8).mono (List.subset_cons_self _ _)
  · rw [State.ckFail, if_neg h]
    exact ⟨.refl _ s, rfl, rfl⟩

theorem State.ckFail_failed {s : State} (h : s.ckBusy = true) :
    bits (s.ckFail.reg .ckptstat) 2 0 = 5 ∧ bit (s.ckFail.reg .intcause) 8 = true ∧ s.ckFail.ckpt = {} := by
  rw [State.ckFail_busy h]
  refine ⟨?_, ?_, rfl⟩
  · show bits (((s.setField .ckptstat 2 0 5).raiseInt 8).reg .ckptstat) 2 0 = 5
    rw [State.raiseInt_reg_ne (by decide) (by decide), State.setField_reg]
    exact bits_setBits_same (by decide)
  · show bit (((s.setField .ckptstat 2 0 5).raiseInt 8).reg .intcause) 8 = true
    rw [State.raiseInt_intcause, bit_setBit_same (by decide)]

/-! ## DOMCFG (R52) -/

/-- A whole write of some fields of a register. -/
theorem State.writeFields_all (s : State) (r : Reg) (v fields : DWord) :
    s.writeFields r v (BitVec.allOnes 64) fields = s.setReg r (mergeMask (s.reg r) v fields) := by
  rw [State.writeFields, BitVec.allOnes_and]

/-- While the domain is off MYMOD and ENABLE are written. -/
theorem State.writeDomcfg_off {s : State} {v : DWord} (hoff : s.domainOn = false) :
    s.writeDomcfg v (BitVec.allOnes 64) = s.setReg .domcfg (mergeMask (s.reg .domcfg) v (fmask 6 0)) := by
  unfold State.writeDomcfg
  dsimp only
  rw [if_neg (by simp [hoff]), hoff, if_neg (by decide), State.writeFields_all]

theorem State.domainOn_written (s : State) (v : DWord) :
    (s.setReg .domcfg (mergeMask (s.reg .domcfg) v (fmask 6 6))).domainOn = bit v 6 := by
  rw [State.domainOn, State.setReg_reg, bit_mergeMask_set (by decide)]

/-- ENABLE written as it is. -/
theorem State.writeDomcfg_same {s : State} {v : DWord} (hon : s.domainOn = true) (hv : bit v 6 = true) :
    s.writeDomcfg v (BitVec.allOnes 64) = s.setReg .domcfg (s.reg .domcfg) := by
  have hsame : mergeMask (s.reg .domcfg) v (fmask 6 6) = s.reg .domcfg := by
    apply BitVec.eq_of_getLsbD_eq
    intro i hi
    rw [getLsbD_mergeMask, getLsbD_fmask hi]
    by_cases h6 : i = 6
    · subst h6
      exact hv.trans hon.symm
    · rw [if_neg (by simp; omega)]
  unfold State.writeDomcfg
  dsimp only
  rw [hon, if_pos rfl, State.writeFields_all, if_neg (by rw [State.domainOn_written, hv]; decide), hsame]

/-- The state in which ENABLE is clear, no module is reachable and no request awaits an answer. -/
def State.parted (s : State) (v : DWord) : State :=
  let s1 := (List.range 64).foldl State.loseReach (s.setReg .domcfg (mergeMask (s.reg .domcfg) v (fmask 6 6)))
  s1.outstanding.foldl State.lost s1

theorem State.writeDomcfg_parts {s : State} {v : DWord} (hon : s.domainOn = true) (hv : bit v 6 = false) :
    s.writeDomcfg v (BitVec.allOnes 64) = (s.parted v).ckFail := by
  have hfail : ∀ t : State, (if t.ckBusy then t.ckFail else t) = t.ckFail := fun t => by
    by_cases h : t.ckBusy = true
    · rw [if_pos h]
    · rw [if_neg h, State.ckFail, if_neg h]
  unfold State.writeDomcfg
  dsimp only
  rw [hon, if_pos rfl, State.writeFields_all, if_pos (by rw [State.domainOn_written, hv]; decide)]
  exact hfail (s.parted v)

/-- The registers that leaving the domain may write before a checkpoint fails. -/
theorem State.parted_leaves (s : State) (v : DWord) : s.Leaves (Reg.domcfg.key :: Reg.domreach.key :: signalKeys) (s.parted v) := by
  have hreach := State.Leaves.foldl State.loseReach_leaves (List.range 64) (s.setReg .domcfg (mergeMask (s.reg .domcfg) v (fmask 6 6)))
  refine (((s.setReg_leaves .domcfg _).mono (by decide)).trans (hreach.mono (List.subset_cons_self _ _))).trans ?_
  exact (State.Leaves.foldl State.lost_leaves _ _).mono (by decide)

theorem State.parted_rules {s : State} {v : DWord} (hv : bit v 6 = false) :
    bits ((s.parted v).reg .domcfg) 6 0 = bits (s.reg .domcfg) 5 0 ∧ (s.parted v).reg .domreach = 0 ∧ (s.parted v).outstanding = [] := by
  obtain ⟨hnone, hcfg⟩ := State.foldl_lost _
    ((List.range 64).foldl State.loseReach (s.setReg .domcfg (mergeMask (s.reg .domcfg) v (fmask 6 6)))) rfl
  refine ⟨hcfg.trans ?_, ?_, hnone⟩
  · have hkept : ∀ i ≤ 5, (mergeMask (s.reg .domcfg) v (fmask 6 6)).getLsbD i = (s.reg .domcfg).getLsbD i := fun i hi => by
      rw [getLsbD_mergeMask, getLsbD_fmask (by omega), if_neg (by simp; omega)]
    have htop : (mergeMask (s.reg .domcfg) v (fmask 6 6)).getLsbD 6 = false := (bit_mergeMask_set (by decide)).trans hv
    rw [(State.Leaves.foldl State.loseReach_leaves (List.range 64) _).2 _ (by decide), State.setReg_reg, bits_of_top_clear htop hkept]
  · exact ((State.Leaves.foldl State.lost_leaves _ _).2 _ (by decide)).trans (State.foldl_loseReach_zero _)

/-! ## GO (R59) -/

theorem State.quiescent_iff (s : State) : s.quiescent = true ↔
    bit (s.reg .dispctl) 1 = true ∧ ∀ c ∈ s.ctxs, c.1 < groomKey → c.2.resident = false := by
  simp [State.quiescent, isGroom]

theorem State.reach_iff (s : State) {d : Nat} (hd : d < 64) : s.reach.getLsbD d = true ↔
    bit (s.reg .domcfg) 6 = true ∧ (d = bits (s.reg .domcfg) 5 0 ∨ bit (s.reg .domreach) d = true) := by
  have hbit : (setBit (s.reg .domreach) s.myMod true).getLsbD d = true ↔ d = s.myMod ∨ bit (s.reg .domreach) d = true := by
    by_cases h : d = s.myMod
    · subst h
      exact iff_of_true (bit_setBit_same hd) (.inl rfl)
    · rw [or_iff_right h]
      exact Bool.eq_iff_iff.1 (bit_setBit_ne h)
  by_cases hon : s.domainOn = true
  · rw [State.reach, if_pos hon, hbit]
    exact (and_iff_right hon).symm
  · rw [State.reach, if_neg hon]
    simp only [State.domainOn] at hon
    simp [hon]

theorem State.ckPorts_iff (s : State) : s.ckPorts.isEmpty = false ↔
    ∃ i < 16, bit (s.reg .ckptctl) (16 + i) = true ∧ bit (s.reg (.soport i)) 0 = true := by
  simp [State.ckPorts, State.portUp]

/-- R59's conditions. -/
theorem State.ckAccepts_iff (s : State) : s.ckAccepts = true ↔
    (bit (s.reg .dispctl) 1 = true ∧ ∀ c ∈ s.ctxs, c.1 < groomKey → c.2.resident = false) ∧ bits (s.reg .ckptdst) 15 0 = 0 ∧
    (bit (s.reg .domcfg) 6 = true ∧ (bits (s.reg .ckptdst) 44 39 = bits (s.reg .domcfg) 5 0 ∨
      bit (s.reg .domreach) (bits (s.reg .ckptdst) 44 39) = true)) ∧
    ∃ i < 16, bit (s.reg .ckptctl) (16 + i) = true ∧ bit (s.reg (.soport i)) 0 = true := by
  have hbase : bits (s.reg .ckptdst) 38 0 % 65536 = bits (s.reg .ckptdst) 15 0 := by
    unfold bits
    omega
  rw [← s.quiescent_iff, ← s.reach_iff (bits_lt (s.reg .ckptdst) 44 39), ← s.ckPorts_iff, ← hbase]
  simp only [State.ckAccepts, Bool.and_eq_true, beq_iff_eq, Bool.not_eq_true', State.ckBase, State.ckMod]
  tauto

/-- The state with the written fields of CKPTCTL: the direction and the ports. -/
def State.ckSet (s : State) (v : DWord) (dir : Bool) : State :=
  s.setReg .ckptctl (mergeMask (s.reg .ckptctl) (setBit (setBit v 0 true) 1 dir) (fmask 1 1 ||| fmask 31 16))

theorem State.writeCkptctl_go (s : State) (v : DWord) (dir : Bool) :
    s.writeCkptctl (setBit (setBit v 0 true) 1 dir) (BitVec.allOnes 64) = (s.ckSet v dir).ckGo := by
  have hgo : bit (setBit (setBit v 0 true) 1 dir &&& BitVec.allOnes 64) 0 = true := by
    rw [BitVec.and_allOnes, bit_setBit_ne (by decide), bit_setBit_same (by decide)]
  unfold State.writeCkptctl
  rw [State.writeFields_all]
  exact if_pos hgo

theorem getLsbD_ckMask {i : Nat} (hi : i < 64) : (fmask 1 1 ||| fmask 31 16).getLsbD i = decide (i = 1 ∨ 16 ≤ i ∧ i ≤ 31) := by
  rw [BitVec.getLsbD_or, getLsbD_fmask hi, getLsbD_fmask hi, ← Bool.decide_or]
  exact decide_eq_decide.2 (by omega)

theorem State.ckSet_ckptctl (s : State) (v : DWord) (dir : Bool) : bit ((s.ckSet v dir).reg .ckptctl) 1 = dir ∧
    bits ((s.ckSet v dir).reg .ckptctl) 31 16 = bits v 31 16 ∧ ∀ i < 16, bit ((s.ckSet v dir).reg .ckptctl) (16 + i) = bit v (16 + i) := by
  rw [State.ckSet, State.setReg_reg]
  refine ⟨?_, ?_, fun i hi => ?_⟩
  · rw [bit_mergeMask_set (by decide), bit_setBit_same (by decide)]
  · rw [bits_mergeMask_set fun i hl hh => by rw [getLsbD_ckMask (by omega)]; exact decide_eq_true (by omega)]
    rw [bits_setBit_apart (by decide), bits_setBit_apart (by decide)]
  · rw [bit_mergeMask_set (by rw [getLsbD_ckMask (by omega)]; exact decide_eq_true (by omega)), bit_setBit_ne (by omega), bit_setBit_ne (by omega)]

theorem State.ckSet_leaves (s : State) (v : DWord) (dir : Bool) : s.Leaves [Reg.ckptctl.key] (s.ckSet v dir) := s.setReg_leaves _ _

theorem State.ckSet_ckBusy (s : State) (v : DWord) (dir : Bool) : (s.ckSet v dir).ckBusy = s.ckBusy := by
  rw [State.ckBusy, State.ckState, (s.ckSet_leaves v dir).2 _ (by decide)]
  rfl

/-- GO with CKPTCTL written in the same step is judged by the ports of that write (R58, R59). -/
theorem State.ckSet_accepts (s : State) (v : DWord) (dir : Bool) : (s.ckSet v dir).ckAccepts = true ↔
    (bit (s.reg .dispctl) 1 = true ∧ ∀ c ∈ s.ctxs, c.1 < groomKey → c.2.resident = false) ∧ bits (s.reg .ckptdst) 15 0 = 0 ∧
    (bit (s.reg .domcfg) 6 = true ∧ (bits (s.reg .ckptdst) 44 39 = bits (s.reg .domcfg) 5 0 ∨
      bit (s.reg .domreach) (bits (s.reg .ckptdst) 44 39) = true)) ∧
    ∃ i < 16, bit v (16 + i) = true ∧ bit (s.reg (.soport i)) 0 = true := by
  have hleaves := (s.ckSet_leaves v dir).2
  have hports : (∃ i < 16, bit ((s.ckSet v dir).reg .ckptctl) (16 + i) = true ∧ bit ((s.ckSet v dir).reg (.soport i)) 0 = true) ↔
      ∃ i < 16, bit v (16 + i) = true ∧ bit (s.reg (.soport i)) 0 = true := by
    refine exists_congr fun i => and_congr_right fun hi => ?_
    have hport : (Reg.soport i).key ∉ [Reg.ckptctl.key] := by
      simp only [Reg.key, List.mem_singleton]
      omega
    rw [(s.ckSet_ckptctl v dir).2.2 i hi, hleaves _ hport]
  rw [State.ckAccepts_iff, hports, hleaves .dispctl (by decide), hleaves .ckptdst (by decide), hleaves .domcfg (by decide),
    hleaves .domreach (by decide)]
  rfl

end Sys2Proof.Machine

end

section
/-! SUPPORT. What the answers to the checkpoint engine, and the pieces that it receives, come to (R60 to R62). -/

namespace Sys2Proof.Machine

/-! ## In a state that has only heard of the frame -/

/-- A frame in turn, of its step's type, is acted on in a state that has only heard of it. -/
theorem exec_typed_taken {s : State} {p : Nat} {f : Frame} {i : Instr} {type : Nat} {act : State → State} (h : Claims.InTurn s p f)
    (hexec : exec i s = .next (s.typed p f type act)) (ht : f.type.toNat = type) (hack : type ≠ 6) :
    ∃ u, s.Heard u ∧ exec i s = .next (act u) := by
  obtain ⟨u, hu, heq⟩ := State.frameIn_taken h (ht ▸ hack) act
  exact ⟨u, hu, by rw [hexec, s.typed_own p ht, heq]⟩

theorem exec_ckdata_taken {s : State} {p : Nat} {f : Frame} (h : Claims.InTurn s p f) (ht : f.type = 8) :
    ∃ u, s.Heard u ∧ exec (.ckdata p f) s = .next (u.takeCk p f) :=
  exec_typed_taken (act := fun s => s.takeCk p f) h rfl (by simp [ht]) (by decide)

theorem exec_ckack_taken {s : State} {p : Nat} {f : Frame} (h : Claims.InTurn s p f) (ht : f.type = 9) :
    ∃ u, s.Heard u ∧ exec (.ckack p f) s = .next (u.ckAcked f) :=
  exec_typed_taken (act := fun s => s.ckAcked f) h rfl (by simp [ht]) (by decide)

theorem exec_nak_taken {s : State} {p : Nat} {f : Frame} (h : Claims.InTurn s p f) (ht : f.type = 7) :
    ∃ u, s.Heard u ∧ exec (.nak p f) s = .next (u.ckNaked f) :=
  exec_typed_taken (act := fun s => s.ckNaked f) h rfl (by simp [ht]) (by decide)

theorem State.Heard.ckMod {s u : State} (h : s.Heard u) : u.ckMod = s.ckMod := by
  rw [State.ckMod, h.2 _ (by decide)]
  rfl

theorem State.Heard.ckBase {s u : State} (h : s.Heard u) : u.ckBase = s.ckBase := by
  rw [State.ckBase, h.2 _ (by decide)]
  rfl

theorem State.Heard.ckState {s u : State} (h : s.Heard u) : u.ckState = s.ckState := by
  rw [State.ckState, h.2 _ (by decide)]
  rfl

theorem State.Heard.myMod {s u : State} (h : s.Heard u) : u.myMod = s.myMod := by
  rw [State.myMod, h.2 _ (by decide)]
  rfl

/-! ## CKDATA (R60, R61) -/

/-- A restore is under way. -/
def State.restores (s : State) : Prop := s.ckBusy = true ∧ s.ckpt.restore = true

theorem State.Heard.restores {s u : State} (h : s.Heard u) : u.restores ↔ s.restores := by
  rw [State.restores, h.ckBusy, h.ckpt]
  rfl

theorem State.restores_iff (s : State) : (s.ckBusy && s.ckpt.restore) = true ↔ s.restores := Bool.and_eq_true_iff

theorem State.ckAsked_some {s : State} {f : Frame} {piece : Nat} (hsrc : f.src.toNat = s.ckMod) (hlen : f.data.length = 4096)
    (hfind : s.ckpt.pending.find? (fun x => x % 65536 == f.tag.toNat) = some piece) : s.ckAsked f = some piece := by
  rw [State.ckAsked, if_pos (by simp [hsrc, hlen]), hfind]

/-- The memory and the engine's account after a piece of a restore that leaves its page incomplete. -/
def State.pieceStored (s : State) (piece : Nat) (f : Frame) : State :=
  { s with
    mem := s.mem.write (ckOffset (piece / 16) + piece % 16 * 4096) f.data
    ckpt := { s.ckpt with
      pending := s.ckpt.pending.erase piece
      ports := s.ckpt.ports.del piece
      arrived := s.ckpt.arrived.put (piece / 16) (Nat.lor (s.ckpt.arrived.getD (piece / 16) 0 % 65536) (2 ^ (piece % 16)) +
        65536 * if piece % 16 = 15 then f.pcrc.toNat else s.ckpt.arrived.getD (piece / 16) 0 / 65536) } }

theorem State.ckPiece_stored {s : State} {piece : Nat} {f : Frame} (hclean : frPoison f = false)
    (hpart : Nat.lor (s.ckpt.arrived.getD (piece / 16) 0 % 65536) (2 ^ (piece % 16)) ≠ 65535) :
    s.ckPiece piece f = s.pieceStored piece f := by
  unfold State.ckPiece
  dsimp only
  rw [if_pos hpart, hclean]
  rfl

/-- A piece that the engine has asked for, at a column that does not hold. -/
theorem State.takeCk_piece {s : State} {p : Nat} {f : Frame} {piece : Nat} (hrestores : s.restores) (hasked : s.ckAsked f = some piece)
    (hfree : ckOffset (piece / 16) + piece % 16 * 4096 < dramBytes → s.homeHeld (ckOffset (piece / 16) + piece % 16 * 4096) = false) :
    s.takeCk p f = s.ckPiece piece f := by
  have hplace : s.ckPlace f = some (ckOffset (piece / 16) + piece % 16 * 4096) := by
    rw [State.ckPlace, if_pos (s.restores_iff.2 hrestores), hasked]
    rfl
  have hnot : ¬ (decide (ckOffset (piece / 16) + piece % 16 * 4096 < dramBytes) &&
      s.homeHeld (ckOffset (piece / 16) + piece % 16 * 4096)) = true := by
    rw [Bool.and_eq_true, decide_eq_true_eq, not_and, Bool.not_eq_true]
    exact hfree
  unfold State.takeCk
  rw [hplace]
  dsimp only
  rw [if_neg hnot, State.storeCk, if_pos (s.restores_iff.2 hrestores), hasked]

/-- A stray CKDATA: not from the module that a restore reads, or, with no restore, for another module. -/
theorem State.takeCk_stray {s : State} {p : Nat} {f : Frame}
    (h : s.restores ∧ f.src.toNat ≠ s.ckMod ∨ ¬ s.restores ∧ bits f.addr 44 39 ≠ s.myMod) : s.takeCk p f = s.dropFrame p := by
  have hplace : s.ckPlace f = none := by
    obtain ⟨hrestores, hsrc⟩ | ⟨hserves, haddr⟩ := h
    · rw [State.ckPlace, if_pos (s.restores_iff.2 hrestores), State.ckAsked, if_neg (by simp [hsrc])]
      rfl
    · rw [State.ckPlace, if_neg (mt s.restores_iff.1 hserves), if_neg haddr]
  unfold State.takeCk
  rw [hplace]

/-- With no restore under way a CKDATA for this module goes to the offset it names. -/
theorem State.takeCk_serves {s : State} {p : Nat} {f : Frame} (hserves : ¬ s.restores) (haddr : bits f.addr 44 39 = s.myMod)
    (hfree : s.homeHeld (frOff f) = false) : s.takeCk p f = s.storeCk f := by
  have hplace : s.ckPlace f = some (frOff f) := by
    rw [State.ckPlace, if_neg (mt s.restores_iff.1 hserves), if_pos haddr]
  unfold State.takeCk
  rw [hplace]
  exact if_neg (by simp [hfree])

/-- Without a restore a write from outside is performed, and noted by a save under way (R60). -/
theorem State.deviceWrite_serves {s : State} {o : Nat} (hserves : ¬ s.restores) (hfree : s.homeHeld o = false) (ho : o ≤ dramBytes)
    (data : List Byte) (poison : Bool) : ∃ c, s.deviceWrite o data poison = State.wrote { s with ckpt := c } o data poison := by
  have hnoted : ∃ c, s.ckWrite o data.length = some { s with ckpt := c } := by
    unfold State.ckWrite
    by_cases hquiet : (!s.ckBusy || decide (data.length = 0)) = true
    · exact ⟨s.ckpt, if_pos hquiet⟩
    · have hbusy : s.ckBusy = true := by
        by_contra hidle
        exact hquiet (by simp [hidle])
      rw [if_neg hquiet, if_neg fun hrestore => hserves ⟨hbusy, hrestore⟩]
      exact ⟨_, rfl⟩
  obtain ⟨c, hc⟩ := hnoted
  have hfree' : ¬ State.homeHeld { s with ckpt := c } o = true := by
    rw [Bool.not_eq_true]
    exact hfree
  refine ⟨c, ?_⟩
  unfold State.deviceWrite
  rw [hc]
  dsimp only
  unfold State.homeWrite
  rw [if_pos (lt_of_le_of_lt ho (by decide)), if_neg hfree']
  rfl

/-- The answer of the safe tier to the last piece of a page, after the state that has stored it (R61). -/
def State.tierAnswers (s : State) (f : Frame) : State :=
  s.sendFrame (stallQuarter (homeStall (frOff f / 65536 * 65536))) f.src.toNat 2
    (mkFrame (if s.pageCrc (frOff f / 65536 * 65536) = f.pcrc then 9 else 7) 0 f.tag.toNat (f.addr.toNat / 65536 * 65536) 0 [])

theorem State.tierAnswers_sentOnly (s : State) (f : Frame) : s.SentOnly (s.tierAnswers f) := s.sendFrame_sentOnly _ _ _ _

/-- What the safe tier receives is stored, and the last piece of a page is answered. -/
theorem State.storeCk_serves {s : State} {f : Frame} (hserves : ¬ s.restores) (hfit : frOff f + f.data.length ≤ dramBytes)
    (hfree : s.homeHeld (frOff f) = false) : ∃ w : State, w.mem.read (frOff f) f.data.length = f.data ∧ w.ctxs = s.ctxs ∧ w.regs = s.regs ∧
      s.storeCk f = if frOff f / 4096 % 16 ≠ 15 then w else w.tierAnswers f := by
  obtain ⟨c, hc⟩ := State.deviceWrite_serves hserves hfree (by omega) f.data (frPoison f)
  refine ⟨_, State.wrote_read { s with ckpt := c } (frOff f) f.data (frPoison f), rfl, rfl, ?_⟩
  unfold State.storeCk
  rw [if_neg (mt s.restores_iff.1 hserves), if_neg (by omega)]
  dsimp only
  rw [hc]
  rfl

/-- What the last frame sent has of a given one and of its stream. -/
theorem State.sendFrame_lastFrame {s : State} (h : s.linked) (q dst cls : Nat) (f : Frame) : ∃ g, Claims.lastFrame (s.sendFrame q dst cls f) = some g ∧
    g.type = f.type ∧ g.addr = f.addr ∧ g.cls = BitVec.ofNat 8 cls ∧ g.dst = BitVec.ofNat 8 dst := by
  unfold State.sendFrame State.sendFrom
  dsimp only
  split
  · exact ⟨_, State.lastFrame_sendOut _ _ _, rfl, rfl, rfl, rfl⟩
  next hnone =>
    obtain ⟨p, hp⟩ := State.streamPort_some h (((s.streams.getD (streamKey dst cls) {}).port).getD (homePort q dst))
    exact absurd (hp.symm.trans hnone) (by simp)

/-- The safe tier accepts a page whose CRC-32C agrees, and else rejects it. -/
theorem State.tierAnswers_sent {s : State} (hs : s.linked) {f : Frame} (hsrc : f.src.toNat < 64) :
    (Claims.lastFrame (s.tierAnswers f)).map (fun g => (g.type.toNat, g.cls.toNat, g.dst.toNat % 64, g.addr.toNat)) =
      some (if crc32c (s.mem.read (frOff f / 65536 * 65536) 65536) = f.pcrc then 9 else 7, 2, f.src.toNat, f.addr.toNat / 65536 * 65536) := by
  obtain ⟨g, hlast, htype, haddr, hcls, hdst⟩ := State.sendFrame_lastFrame hs (stallQuarter (homeStall (frOff f / 65536 * 65536))) f.src.toNat 2
    (mkFrame (if s.pageCrc (frOff f / 65536 * 65536) = f.pcrc then 9 else 7) 0 f.tag.toNat (f.addr.toNat / 65536 * 65536) 0 [])
  have hpage : s.pageCrc (frOff f / 65536 * 65536) = crc32c (s.mem.read (frOff f / 65536 * 65536) 65536) := by
    rw [State.pageCrc, Nat.mul_div_cancel _ (by decide)]
  have hfits : f.addr.toNat / 65536 * 65536 % 2 ^ 64 = f.addr.toNat / 65536 * 65536 :=
    Nat.mod_eq_of_lt (lt_of_le_of_lt (Nat.div_mul_le_self _ _) f.addr.isLt)
  rw [State.tierAnswers, hlast, Option.map_some, htype, haddr, hcls, hdst, hpage]
  simp only [mkFrame, BitVec.toNat_ofNat, hfits, BitVec.ofNat_toNat, BitVec.setWidth_eq, Nat.mod_eq_of_lt hsrc]
  split
  · rfl
  · rfl

/-! ## CKACK and NAK (R60 to R62) -/

/-- The page that an answer of the destination of a save names is done. -/
theorem State.ckAcked_done {s : State} {f : Frame} (hbusy : s.ckBusy = true) (hsave : s.ckpt.restore = false) (hsrc : f.src.toNat = s.ckMod) :
    s.ckAcked f = { s with ckpt := { s.ckpt with pending := s.ckpt.pending.erase (s.ckNamed f), tries := s.ckpt.tries.del (s.ckNamed f) } } :=
  if_pos (by simp [hbusy, hsave, hsrc])

theorem State.ckNaked_pending {s : State} {f : Frame} (hbusy : s.ckBusy = true) (hsave : s.ckpt.restore = false) (hsrc : f.src.toNat = s.ckMod)
    (hpend : s.ckNamed f ∈ s.ckpt.pending) : s.ckNaked f = match s.ckReject (s.ckNamed f) with
      | (t, false) => t
      | (t, true) => { t with ckpt := { t.ckpt with pending := t.ckpt.pending.erase (s.ckNamed f), todo := s.ckNamed f :: t.ckpt.todo } } :=
  if_pos (by simp [hbusy, hsave, hsrc, hpend])

/-- A page rejected for the first or the second time is to be sent again before all else. -/
theorem State.ckNaked_again {s : State} {f : Frame} (hbusy : s.ckBusy = true) (hsave : s.ckpt.restore = false) (hsrc : f.src.toNat = s.ckMod)
    (hpend : s.ckNamed f ∈ s.ckpt.pending) (htries : s.ckpt.tries.getD (s.ckNamed f) 0 < 2) : s.ckNaked f =
      { s with ckpt := { s.ckpt with
        tries := s.ckpt.tries.put (s.ckNamed f) (s.ckpt.tries.getD (s.ckNamed f) 0 + 1)
        pending := s.ckpt.pending.erase (s.ckNamed f)
        todo := s.ckNamed f :: s.ckpt.todo } } := by
  rw [State.ckNaked_pending hbusy hsave hsrc hpend, State.ckReject]
  dsimp only
  rw [if_neg (by omega)]

/-- The third rejection of a page ends the save. -/
theorem State.ckNaked_ends {s : State} {f : Frame} (hbusy : s.ckBusy = true) (hsave : s.ckpt.restore = false) (hsrc : f.src.toNat = s.ckMod)
    (hpend : s.ckNamed f ∈ s.ckpt.pending) (htries : 2 ≤ s.ckpt.tries.getD (s.ckNamed f) 0) : s.ckNaked f = s.ckFail := by
  rw [State.ckNaked_pending hbusy hsave hsrc hpend, State.ckReject]
  dsimp only
  rw [if_pos (by omega)]

theorem State.Heard.ckNamed {s u : State} (h : s.Heard u) (f : Frame) : u.ckNamed f = s.ckNamed f := by
  rw [State.ckNamed, h.ckBase]
  rfl

end Sys2Proof.Machine

end

section
/-! SUPPORT. The clauses of O42, one lemma for each step. -/

namespace Sys2Proof.Machine

/-! ## Writes of the owner (R52, R58, R59) -/

theorem exec_domcfgWrite {s : State} {m : Master} (howns : Claims.Owns s m) (v : DWord) :
    exec (.domcfgWrite m v) s = .next (s.writeDomcfg v (BitVec.allOnes 64)) :=
  congrArg Host.Outcome.next (State.blockWrite_of_owns howns)

/-- While the domain is off a write of DOMCFG sets MYMOD and ENABLE and keeps LOSTW (R52). -/
theorem exec_domcfgWrite_off {s : State} {m : Master} (howns : Claims.Owns s m) (v : DWord) (hoff : bit (s.reg .domcfg) 6 = false) :
    ∃ t, exec (.domcfgWrite m v) s = .next t ∧ bits (t.reg .domcfg) 6 0 = bits v 6 0 ∧
      bits (t.reg .domcfg) 31 16 = bits (s.reg .domcfg) 31 16 ∧ t.mem = s.mem ∧ t.ctxs = s.ctxs := by
  refine ⟨_, (exec_domcfgWrite howns v).trans (congrArg _ (State.writeDomcfg_off hoff)), ?_, ?_, rfl, rfl⟩
  · rw [State.setReg_reg]
    exact bits_mergeMask_set fun i _ hi => by rw [getLsbD_fmask (by omega)]; exact decide_eq_true ⟨Nat.zero_le i, hi⟩
  · rw [State.setReg_reg]
    exact bits_mergeMask_kept fun i hl hi => by rw [getLsbD_fmask (by omega)]; exact decide_eq_false (by omega)

/-- A write that leaves the domain ends every request, and a checkpoint under way (R52, R54, R62). -/
theorem exec_domcfgWrite_parts {s : State} {m : Master} (howns : Claims.Owns s m) {v : DWord} (hon : bit (s.reg .domcfg) 6 = true)
    (hv : bit v 6 = false) : ∃ t, exec (.domcfgWrite m v) s = .next t ∧ bits (t.reg .domcfg) 6 0 = bits (s.reg .domcfg) 5 0 ∧
      t.reg .domreach = 0 ∧ t.outstanding = [] ∧ t.mem = s.mem ∧
      (s.ckBusy = true → bits (t.reg .ckptstat) 2 0 = 5 ∧ bit (t.reg .intcause) 8 = true) := by
  obtain ⟨⟨hmem, hreg⟩, -, hout⟩ := (s.parted v).ckFail_leaves
  obtain ⟨hmem', hreg'⟩ := s.parted_leaves v
  obtain ⟨hcfg, hreach, hnone⟩ := s.parted_rules hv
  refine ⟨_, (exec_domcfgWrite howns v).trans (congrArg _ (State.writeDomcfg_parts hon hv)), ?_, ?_, hout.trans hnone, hmem.trans hmem', ?_⟩
  · rw [hreg _ (by decide), hcfg]
  · rw [hreg _ (by decide), hreach]
  · intro hbusy
    have hstill : (s.parted v).ckBusy = true := by
      rw [State.ckBusy, State.ckState, hreg' _ (by decide)]
      exact hbusy
    obtain ⟨hstate, hcause, -⟩ := State.ckFail_failed hstill
    exact ⟨hstate, hcause⟩

/-- SAVE and RESTORE write CKPTCTL with GO, and with their direction (R58, R60, R61). -/
theorem exec_checkpoint {s : State} {m : Master} (howns : Claims.Owns s m) (v : DWord) :
    ∀ x ∈ [(Instr.checkpointSave m v, false), (.checkpointRestore m v, true)], exec x.1 s = .next (s.ckSet v x.2).ckGo := by
  have hgo : ∀ dir, s.blockWrite m (fun s => s.writeCkptctl (setBit (setBit v 0 true) 1 dir) (BitVec.allOnes 64)) = (s.ckSet v dir).ckGo :=
    fun dir => (State.blockWrite_of_owns howns).trans (s.writeCkptctl_go v dir)
  simp only [List.forall_mem_cons]
  exact ⟨congrArg Host.Outcome.next (hgo false), congrArg Host.Outcome.next (hgo true), List.forall_mem_nil _⟩

/-- GO with R59's conditions met. -/
theorem State.ckGo_accepted {s : State} (hidle : s.ckBusy = false) (h : s.ckAccepts = true) :
    s.ckGo = { s.setReg .ckptstat 1 with ckpt := { restore := bit (s.reg .ckptctl) 1 } } := by
  rw [State.ckGo, if_neg (by simp [hidle]), if_neg (by simp [h])]

/-- GO without them: STATE is 6 (R59). -/
theorem State.ckGo_refused {s : State} (hidle : s.ckBusy = false) (h : ¬ s.ckAccepts = true) : s.ckGo = s.setField .ckptstat 2 0 6 := by
  rw [State.ckGo, if_neg (by simp [hidle]), if_pos (by simpa using h)]
  simp [State.setCk, hidle]

/-! ## CKDATA, CKACK and NAK (R60 to R62) -/

/-- A piece that a restore has asked for is written where it belongs (R61). -/
theorem exec_ckdata_piece {s : State} {p : Nat} {f : Frame} {piece : Nat} (hf : Claims.InTurn s p f) (ht : f.type = 8) (hrestores : s.restores)
    (hsrc : f.src.toNat = s.ckMod) (hlen : f.data.length = 4096)
    (hfind : s.ckpt.pending.find? (fun x => x % 65536 == f.tag.toNat) = some piece) (hclean : frPoison f = false)
    (hpart : Nat.lor (s.ckpt.arrived.getD (piece / 16) 0 % 65536) (2 ^ (piece % 16)) ≠ 65535)
    (hfree : ckOffset (piece / 16) + piece % 16 * 4096 < dramBytes → s.homeHeld (ckOffset (piece / 16) + piece % 16 * 4096) = false) :
    ∃ t, exec (.ckdata p f) s = .next t ∧ t.mem = s.mem.write (ckOffset (piece / 16) + piece % 16 * 4096) f.data ∧
      t.ckpt.pending = s.ckpt.pending.erase piece ∧ t.ckState = s.ckState ∧ t.ctxs = s.ctxs := by
  obtain ⟨u, hu, heq⟩ := exec_ckdata_taken hf ht
  have hasked : u.ckAsked f = some piece := State.ckAsked_some (hsrc.trans hu.ckMod.symm) hlen (by rwa [hu.ckpt])
  rw [State.takeCk_piece (hu.restores.2 hrestores) hasked (by rwa [hu.homeHeld]), State.ckPiece_stored hclean (by rwa [hu.ckpt])] at heq
  refine ⟨_, heq, ?_, ?_, hu.ckState, hu.ctxs⟩
  · rw [State.pieceStored, hu.mem]
  · rw [State.pieceStored, hu.ckpt]

/-- A stray CKDATA is dropped and counted (R61). -/
theorem exec_ckdata_stray {s : State} {p : Nat} {f : Frame} (hf : Claims.InTurn s p f) (ht : f.type = 8)
    (h : s.restores ∧ f.src.toNat ≠ s.ckMod ∨ ¬ s.restores ∧ bits f.addr 44 39 ≠ s.myMod) :
    ∃ t, exec (.ckdata p f) s = .next t ∧ bits (t.reg (.soport p)) 23 8 = Nat.min 0xFFFF (bits (s.reg (.soport p)) 23 8 + 1) ∧
      t.ckpt = s.ckpt ∧ t.mem = s.mem ∧ t.ctxs = s.ctxs := by
  obtain ⟨u, hu, heq⟩ := exec_ckdata_taken hf ht
  obtain ⟨⟨hp, -⟩, -⟩ := hf
  rw [State.takeCk_stray (by rwa [hu.restores, hu.ckMod, hu.myMod])] at heq
  refine ⟨_, heq, ?_, hu.ckpt, hu.mem, hu.ctxs⟩
  rw [State.dropFrame_count, hu.2 _ (by simp only [Reg.key]; omega)]

/-- A module that serves as the safe tier writes what it receives, and answers for a page with the page's last piece (R61). -/
theorem exec_ckdata_serves {s : State} {p : Nat} {f : Frame} (hf : Claims.InTurn s p f) (ht : f.type = 8) (hserves : ¬ s.restores)
    (haddr : bits f.addr 44 39 = s.myMod) (hfree : s.homeHeld (frOff f) = false) (hfit : frOff f + f.data.length ≤ dramBytes) :
    ∃ t, exec (.ckdata p f) s = .next t ∧ t.mem.read (frOff f) f.data.length = f.data ∧ t.ctxs = s.ctxs ∧
      (frOff f / 4096 % 16 = 15 →
        (Claims.lastFrame t).map (fun g => (g.type.toNat, g.cls.toNat, g.dst.toNat % 64, g.addr.toNat)) =
          some (if crc32c (t.mem.read (frOff f / 65536 * 65536) 65536) = f.pcrc then 9 else 7, 2, f.src.toNat,
            f.addr.toNat / 65536 * 65536)) := by
  obtain ⟨u, hu, heq⟩ := exec_ckdata_taken hf ht
  have hserves' : ¬ u.restores := mt hu.restores.1 hserves
  have hfree' : u.homeHeld (frOff f) = false := (hu.homeHeld _).trans hfree
  obtain ⟨w, hread, hctxs, hregs, hstore⟩ := State.storeCk_serves hserves' hfit hfree'
  rw [State.takeCk_serves hserves' (haddr.trans hu.myMod.symm) hfree', hstore] at heq
  by_cases hlast : frOff f / 4096 % 16 = 15
  · rw [if_neg (not_not.2 hlast)] at heq
    obtain ⟨hmem, hctxs', -⟩ := (w.tierAnswers_sentOnly f).kept
    have hlinked : w.linked := by
      obtain ⟨q, hq, hup⟩ := hu.linked hf
      exact ⟨q, hq, by rwa [State.portUp, State.reg_of_regs hregs]⟩
    refine ⟨_, heq, ?_, (hctxs'.trans hctxs).trans hu.ctxs, fun _ => ?_⟩
    · rw [hmem, hread]
    · rw [hmem]
      exact State.tierAnswers_sent hlinked (frame_src_lt hf)
  · rw [if_pos hlast] at heq
    exact ⟨_, heq, hread, hctxs.trans hu.ctxs, fun h => absurd h hlast⟩

end Sys2Proof.Machine

end

section
open Sys2Proof Sys2Proof.Machine

/-- Settles O42: a write of the owner by what `State.writeDomcfg` and `State.ckGo` make of the registers, and a frame by what the checkpoint engine
does with it in a state that has only heard of it. -/
theorem domainAndCheckpoint : Obligations.DomainAndCheckpoint := by
  unfold Obligations.DomainAndCheckpoint
  intro s m v p f piece cfg stat state busy dstMod reachable paused ports accepts kept off page at' serving last
  have hoff : frOff f = off := frOff_eq f
  clear_value off
  subst hoff
  have hbusy : s.ckBusy = true ↔ busy := s.ckBusy_iff
  have hrestores : s.restores ↔ busy ∧ s.ckpt.restore = true := and_congr_left fun _ => hbusy
  refine ⟨fun howns => ⟨exec_domcfgWrite_off howns v, fun hon hv => ?_, fun hon hv => ?_, fun x hx => ⟨fun hb => ?_, fun hb hgo => ?_, fun hb hno => ?_⟩⟩,
    fun hf ht hb hrestore hsrc hlen hfind hclean hpart hfree => ?_, fun hf ht hstray => ?_, fun hf ht hserves haddr hfree hfit _ => ?_,
    fun hf ht hserves haddr hfree hfit hlast hlen => ?_, fun hf hb hsave hsrc => ⟨fun ht => ?_, fun ht hpend htries => ?_, fun ht hpend htries => ?_⟩⟩
  -- ENABLE written as it is
  · exact ⟨_, (exec_domcfgWrite howns v).trans (congrArg _ (State.writeDomcfg_same hon hv)), State.setReg_reg _ _ _, rfl, rfl⟩
  -- the domain left
  · obtain ⟨t, heq, hcfg, hreach, hnone, hmem, hfails⟩ := exec_domcfgWrite_parts howns hon hv
    exact ⟨t, heq, hcfg, hreach, hnone, hmem, fun hb => hfails (hbusy.2 hb)⟩
  -- GO while a checkpoint is under way
  · have hstill : (s.ckSet v x.2).ckBusy = true := (s.ckSet_ckBusy v x.2).trans (hbusy.2 hb)
    exact ⟨_, (exec_checkpoint howns v x hx).trans (congrArg _ (if_pos hstill)), (s.ckSet_leaves v x.2).2 _ (by decide), rfl, rfl, rfl⟩
  -- GO accepted
  · have hidle : (s.ckSet v x.2).ckBusy = false := (s.ckSet_ckBusy v x.2).trans (State.ckIdle hb)
    obtain ⟨hdir, hports, -⟩ := s.ckSet_ckptctl v x.2
    refine ⟨_, (exec_checkpoint howns v x hx).trans (congrArg _ (State.ckGo_accepted hidle ((s.ckSet_accepts v x.2).2 hgo))), ?_, ?_, ?_, rfl, rfl⟩
    · exact State.setReg_reg _ _ _
    · rw [hdir]
    · exact (congrArg (bits · 31 16) (State.setReg_reg_ne _ _ _ _ (by decide))).trans hports
  -- GO refused
  · have hidle : (s.ckSet v x.2).ckBusy = false := (s.ckSet_ckBusy v x.2).trans (State.ckIdle hb)
    refine ⟨_, (exec_checkpoint howns v x hx).trans (congrArg _ (State.ckGo_refused hidle (mt (s.ckSet_accepts v x.2).1 hno))), ?_, rfl, rfl⟩
    exact (congrArg (bits · 2 0) (State.setField_reg _ _ _ _ _)).trans (bits_setBits_same (by decide))
  -- a piece of a restore
  · obtain ⟨t, heq, hmem, hpend, hstate, hctxs⟩ := exec_ckdata_piece hf ht (hrestores.2 ⟨hb, hrestore⟩) hsrc hlen hfind hclean hpart hfree
    have hread := s.mem.read_write at' f.data
    rw [hlen, ← hmem] at hread
    exact ⟨t, heq, hmem, hread, hpend, hstate, hctxs⟩
  -- a stray piece
  · refine exec_ckdata_stray hf ht (hstray.imp (fun ⟨hb, hrestore, hsrc⟩ => ⟨hrestores.2 ⟨hb, hrestore⟩, hsrc⟩) ?_)
    exact fun ⟨hserves, haddr⟩ => ⟨mt hrestores.1 hserves, haddr⟩
  -- the safe tier: a piece before the last
  · obtain ⟨t, heq, hread, hctxs, -⟩ := exec_ckdata_serves hf ht (mt hrestores.1 hserves) haddr hfree hfit
    exact ⟨t, heq, hread, hctxs⟩
  -- the safe tier: the last piece of a page
  · obtain ⟨t, heq, hread, hctxs, hsent⟩ := exec_ckdata_serves hf ht (mt hrestores.1 hserves) haddr hfree hfit
    exact ⟨t, heq, hlen ▸ hread, hctxs, hsent hlast⟩
  -- CKACK
  · obtain ⟨u, hu, heq⟩ := exec_ckack_taken hf ht
    rw [State.ckAcked_done (hu.ckBusy.trans (hbusy.2 hb)) (hu.ckpt ▸ hsave) (hsrc.trans hu.ckMod.symm), hu.ckpt, hu.ckNamed] at heq
    exact ⟨_, heq, rfl, rfl, hu.mem, hu.ctxs⟩
  -- NAK, for the first or the second time
  · obtain ⟨u, hu, heq⟩ := exec_nak_taken hf ht
    rw [State.ckNaked_again (hu.ckBusy.trans (hbusy.2 hb)) (hu.ckpt ▸ hsave) (hsrc.trans hu.ckMod.symm) (by rwa [hu.ckNamed, hu.ckpt])
      (by rwa [hu.ckNamed, hu.ckpt]), hu.ckpt, hu.ckNamed] at heq
    exact ⟨_, heq, rfl, rfl, SMap.get?_put_same _ _ _, hu.mem, hu.ctxs⟩
  -- NAK, for the third time
  · obtain ⟨u, hu, heq⟩ := exec_nak_taken hf ht
    have hbusy' : u.ckBusy = true := hu.ckBusy.trans (hbusy.2 hb)
    rw [State.ckNaked_ends hbusy' (hu.ckpt ▸ hsave) (hsrc.trans hu.ckMod.symm) (by rwa [hu.ckNamed, hu.ckpt]) (by rwa [hu.ckNamed, hu.ckpt])] at heq
    obtain ⟨hstate, hcause, hckpt⟩ := State.ckFail_failed hbusy'
    obtain ⟨⟨hmem, -⟩, hctxs, -⟩ := u.ckFail_leaves
    exact ⟨_, heq, hstate, hckpt, hcause, hmem.trans hu.mem, hctxs.trans hu.ctxs⟩

end

section
/-! SUPPORT. The two directions of a UCIe module (R45): the state in which `Obligations.LinksAndPorts` looks at another register than the step. -/

namespace Sys2Proof.Machine

/-- UCIe module 0 retrains, and all else is as at reset. -/
def retraining : State := State.reset.setReg (.xlink 0) 2

/-- XLINK.STATE is that of the module of the direction (R45, R47). -/
theorem State.setLink_state (s : State) (l n : Nat) : (s.setLink l n).linkState l = n % 4 := by
  have hcause : Reg.intcause.key ≠ (Reg.xlink (l % linkCount)).key := by
    simp only [Reg.key]
    omega
  have hpba : Reg.msixPba.key ≠ (Reg.xlink (l % linkCount)).key := by
    simp only [Reg.key]
    omega
  rw [State.linkState, State.setLink, State.raiseInt_reg_ne hcause hpba, State.setField_reg]
  exact bits_setBits_same (by decide)

/-- The retraining of module 0 may end in its other direction, number 384; nothing was in flight there. -/
theorem exec_retrainComplete_retraining : exec (.retrainComplete 384 true) retraining = .next (retraining.setLink 384 1) := rfl

end Sys2Proof.Machine

end

section
namespace Sys2Proof.Machine

/-- Refutes O43: direction 384 is the other direction of module 0 (R45), so RETRAIN_COMPLETE there acts on the register of module 0, while the
last clause on it asks for a register 384, which no module has. In `retraining` the latter reads 0, and module 0 goes from RETRAIN to UP. -/
theorem not_linksAndPorts : ¬ Obligations.LinksAndPorts := by
  unfold Obligations.LinksAndPorts
  intro h
  obtain ⟨-, -, -, -, -, -, -, -, -, hidle, -⟩ := h retraining .host 384 0 0 true 0
    { pass := 0, row := 0, sums := [], poison := false, next := 0, ready := 0 }
    { row := 0, members := [], cfg := [], epi := [], mode := 0, depth := 0 }
  have hsame := hidle (by decide)
  rw [exec_retrainComplete_retraining, Host.Outcome.next.injEq] at hsame
  have hup := retraining.setLink_state 384 1
  rw [hsame] at hup
  exact absurd hup (by decide)

end Sys2Proof.Machine
end

section
/-! SUPPORT. The owner of the module (R69 to R73, R88, R90): what a change of OWNER writes, and what it leaves. -/

namespace Sys2Proof.Machine

/-! ## A change of OWNER (R72, R88, R89) -/

@[simp] theorem State.deliverHeld_ctxs (s : State) : s.deliverHeld.ctxs = s.ctxs := by
  have hfold : ∀ (l : List Nat) (t : State), (l.foldl (fun s v => s.signal v) t).ctxs = t.ctxs := by
    intro l
    induction l with
    | nil => exact fun _ => rfl
    | cons v l ih => exact fun t => (ih _).trans (t.signal_ctxs v)
  unfold State.deliverHeld
  split
  · exact hfold s.heldSignals { s with heldSignals := [] }
  · rfl

theorem State.deliverHeld_reg_ne {s : State} {r : Reg} (hr : Reg.msixPba.key ≠ r.key) : s.deliverHeld.reg r = s.reg r := by
  have hfold : ∀ (l : List Nat) (t : State), (l.foldl (fun s v => s.signal v) t).reg r = t.reg r := by
    intro l
    induction l with
    | nil => exact fun _ => rfl
    | cons v l ih => exact fun t => (ih _).trans (State.signal_reg_ne hr)
  unfold State.deliverHeld
  split
  · exact hfold s.heldSignals { s with heldSignals := [] }
  · rfl

theorem State.setOwner_changes {s : State} {v : DWord} (h : v ≠ s.reg .owner) : s.setOwner v = ((s.setReg .owner v).raiseInt 5).deliverHeld :=
  if_neg h

@[simp] theorem State.setOwner_owner (s : State) (v : DWord) : (s.setOwner v).reg .owner = v := by
  by_cases h : v = s.reg .owner
  · rw [State.setOwner, if_pos h, h]
  · rw [State.setOwner_changes h, State.deliverHeld_reg_ne (by decide), State.raiseInt_reg_ne (by decide) (by decide), State.setReg_reg]

/-- A change of OWNER leaves memory and contexts. -/
theorem State.setOwner_kept (s : State) (v : DWord) : (s.setOwner v).mem = s.mem ∧ (s.setOwner v).ctxs = s.ctxs := by
  refine ⟨(s.setOwner_leaves v).1, ?_⟩
  by_cases h : v = s.reg .owner
  · rw [State.setOwner, if_pos h]
  · rw [State.setOwner_changes h, State.deliverHeld_ctxs, State.raiseInt_ctxs, State.setReg_ctxs]

/-- A change of OWNER sets INTCAUSE.OWNCHG. -/
theorem State.setOwner_ownchg {s : State} {v : DWord} (h : v ≠ s.reg .owner) : bit ((s.setOwner v).reg .intcause) 5 = true := by
  rw [State.setOwner_changes h, State.deliverHeld_reg_ne (by decide), State.raiseInt_intcause]
  exact bit_setBit_same (by decide)

/-! ## A new owner -/

theorem masterNum_lt (m : Master) : masterNum m < 4 := by
  cases m <;> simp [masterNum]

/-- OWNER for a new owner: who it is, VALID set, HANDING clear, EPOCH one higher. -/
theorem State.ownedBy_fields (s : State) (m : Master) : bits (s.ownedBy m) 1 0 = masterNum m ∧ bit (s.ownedBy m) 2 = true ∧
    bit (s.ownedBy m) 3 = false ∧ bits (s.ownedBy m) 15 8 = (bits (s.reg .owner) 15 8 + 1) % 256 := by
  simp [State.ownedBy, masterNum_lt]

/-- The module that a new owner at a peer names (R69). -/
theorem State.ownedBy_source (s : State) (src : BitVec 6) : bits (s.ownedBy (.peer src)) 21 16 = src.toNat := by
  rw [State.ownedBy, bits_setBits_same (by decide)]
  exact Nat.mod_eq_of_lt src.isLt

/-- EPOCH tells a new owner's OWNER from the one before. -/
theorem State.ownedBy_ne (s : State) (m : Master) : s.ownedBy m ≠ s.reg .owner := by
  intro h
  obtain ⟨-, -, -, hepoch⟩ := s.ownedBy_fields m
  rw [h] at hepoch
  have hlt : bits (s.reg .owner) 15 8 < 256 := bits_lt _ 15 8
  omega

theorem State.isOwner_ownedBy (s : State) (m : Master) : (s.setOwner (s.ownedBy m)).isOwner m = true := by
  obtain ⟨hnum, hvalid, -, -⟩ := s.ownedBy_fields m
  cases m with
  | peer src => simp [State.isOwner, State.ownerValid, State.ownerId, hnum, hvalid, State.ownedBy_source]
  | host | host2 | bmc => simp [State.isOwner, State.ownerValid, State.ownerId, hnum, hvalid]

/-- The owner's number is in OWNER, and OWNER is VALID. -/
theorem State.isOwner_valid {s : State} {m : Master} (h : s.isOwner m = true) : s.ownerValid = true := by
  simp only [State.isOwner, Bool.and_eq_true] at h
  exact h.1.1

/-- A new owner has taken the module (R71, R72, R88). -/
theorem State.setOwner_ownedBy (s : State) (m : Master) : bits ((s.setOwner (s.ownedBy m)).reg .owner) 1 0 = masterNum m ∧
    bit ((s.setOwner (s.ownedBy m)).reg .owner) 2 = true ∧ bit ((s.setOwner (s.ownedBy m)).reg .owner) 3 = false ∧
    bits ((s.setOwner (s.ownedBy m)).reg .owner) 15 8 = (bits (s.reg .owner) 15 8 + 1) % 256 ∧
    bit ((s.setOwner (s.ownedBy m)).reg .intcause) 5 = true ∧ (s.setOwner (s.ownedBy m)).isOwner m = true ∧
    (s.setOwner (s.ownedBy m)).mem = s.mem ∧ (s.setOwner (s.ownedBy m)).ctxs = s.ctxs := by
  rw [State.setOwner_owner]
  obtain ⟨hnum, hvalid, hhanding, hepoch⟩ := s.ownedBy_fields m
  exact ⟨hnum, hvalid, hhanding, hepoch, State.setOwner_ownchg (s.ownedBy_ne m), s.isOwner_ownedBy m, s.setOwner_kept _⟩

/-- A module with an owner loses it: VALID and HANDING clear, OWNCHG set (R71, R73, R88). -/
theorem State.losePath_rules {s : State} (h : s.ownerValid = true) : bit (s.losePath.reg .owner) 2 = false ∧ bit (s.losePath.reg .owner) 3 = false ∧
    bit (s.losePath.reg .intcause) 5 = true ∧ s.losePath.mem = s.mem ∧ s.losePath.ctxs = s.ctxs := by
  have hclear : bit (setBit (setBit (s.reg .owner) 2 false) 3 false) 2 = false := by simp
  have hne : setBit (setBit (s.reg .owner) 2 false) 3 false ≠ s.reg .owner := fun heq => by
    rw [heq] at hclear
    exact absurd (h.symm.trans hclear) (by decide)
  rw [State.losePath, State.setOwner_owner]
  exact ⟨hclear, bit_setBit_same (by decide), State.setOwner_ownchg hne, s.setOwner_kept _⟩

/-! ## The requests (R71) -/

theorem State.claim_taken {s : State} {m : Master} (h : s.ownerValid = false ∨ masterNum m = 2) : s.claim m = s.setOwner (s.ownedBy m) :=
  if_pos (by simpa using h)

theorem State.claim_refused {s : State} {m : Master} (hvalid : s.ownerValid = true) (hm : masterNum m ≠ 2) : s.claim m = s :=
  if_neg (by simp [hvalid, hm])

theorem State.offer_hands {s : State} {m : Master} {dest : Nat} (h : s.isOwner m = true) (hdest : dest ≠ masterNum m) :
    s.offer m dest = s.setOwner (setBits (setBit (s.reg .owner) 3 true) 5 4 dest) := by
  simp [State.offer, h, hdest]

theorem State.offer_withdraws {s : State} {m : Master} {dest : Nat} (h : s.isOwner m = true) (hdest : dest = masterNum m) :
    s.offer m dest = s.setOwner (setBit (s.reg .owner) 3 false) := by
  simp [State.offer, h, hdest]

theorem State.accept_taken {s : State} {m : Master} (hhanding : bit (s.reg .owner) 3 = true) (hdest : bits (s.reg .owner) 5 4 = masterNum m) :
    s.accept m = s.setOwner (s.ownedBy m) := if_pos (by simp [hhanding, hdest])

theorem State.accept_refused {s : State} {m : Master} (h : bit (s.reg .owner) 3 = false ∨ bits (s.reg .owner) 5 4 ≠ masterNum m) :
    s.accept m = s := if_neg (by rcases h with h | h <;> simp [h])

theorem State.release_owner {s : State} {m : Master} (h : s.isOwner m = true) : s.release m = s.losePath := if_pos h

/-- A request that needs the owner has no effect for another master. -/
theorem State.request_other {s : State} {m : Master} (h : s.isOwner m = false) (dest : Nat) :
    s.offer m dest = s ∧ s.release m = s ∧ (if s.isOwner m && masterNum m < 2 then s.losePath else s) = s := by
  simp [State.offer, State.release, h]

end Sys2Proof.Machine

end

section
namespace Sys2Proof.Machine

/-- Settles O29: each request writes OWNER or leaves the state; what a new value of OWNER brings is said once, for a new owner and for a lost one. -/
theorem ownership : Obligations.Ownership := by
  unfold Obligations.Ownership
  intro s m dest
  refine ⟨?_, ?_, ?_, ?_, ?_, ?_, ?_, ?_, ?_, ?_⟩
  -- CLAIM
  · exact fun h => ⟨_, congrArg Host.Outcome.next (State.claim_taken h), s.setOwner_ownedBy m⟩
  · exact fun hvalid hm => congrArg Host.Outcome.next (State.claim_refused hvalid hm)
  -- OFFER to another master, and to the owner itself
  · intro howner hdest
    refine ⟨_, congrArg Host.Outcome.next (State.offer_hands howner hdest), ?_⟩
    rw [State.setOwner_owner]
    refine ⟨by simp, ?_, by simp, by simp, s.setOwner_kept _⟩
    rw [bits_setBits_same (by decide)]
    exact Nat.mod_eq_of_lt dest.isLt
  · intro howner hdest
    refine ⟨_, congrArg Host.Outcome.next (State.offer_withdraws howner hdest), ?_⟩
    rw [State.setOwner_owner]
    exact ⟨by simp, by simp, by simp, s.setOwner_kept _⟩
  -- ACCEPT
  · exact fun hhanding hdest => ⟨_, congrArg Host.Outcome.next (State.accept_taken hhanding hdest), s.setOwner_ownedBy m⟩
  · exact fun h => congrArg Host.Outcome.next (State.accept_refused h)
  -- RELEASE, and the loss of the owner's path
  · exact fun h => ⟨_, congrArg Host.Outcome.next (State.release_owner h), State.losePath_rules (State.isOwner_valid h)⟩
  · exact fun h hm => ⟨_, congrArg Host.Outcome.next (if_pos (by simp [h, hm])), State.losePath_rules (State.isOwner_valid h)⟩
  -- HIFERR, and what another master may not do
  · exact fun h => congrArg Host.Outcome.next (if_pos h)
  · intro h
    obtain ⟨hoffer, hrelease, hlink⟩ := State.request_other h dest.toNat
    refine ⟨?_, s.nonOwner, congrArg Host.Outcome.next (if_neg (by simp [h])), s.nonOwner_rules⟩
    simp only [List.forall_mem_cons, List.not_mem_nil, false_imp_iff, implies_true, and_true]
    exact ⟨congrArg Host.Outcome.next hoffer, congrArg Host.Outcome.next hrelease, congrArg Host.Outcome.next hlink⟩

end Sys2Proof.Machine
end

section
/-! SUPPORT. A COPY of LEN 0 (R121): the state in which `Obligations.CommandsAct` asks for STATUS 3 although no source piece is poisoned. -/

namespace Sys2Proof.Machine

/-- A COPY in module DRAM of no bytes, whose source and destination are offset 8 (R110). -/
def emptyCopy : Cmd :=
  { queue := 0, die := 0, opc := 4, irq := false, prio := 0, space := true, tag := 0, ptr := 0, level := 0,
    desc := List.replicate 16 0 ++ (leBytes 8 8 ++ leBytes 8 8 ++ leBytes 8 0 ++ [3] ++ List.replicate 23 0) }

/-- Command 7 is that COPY, and the granule that holds offset 8 is poisoned. -/
def copying : State := { State.reset with cmds := [(7, emptyCopy)], mem := { poison := [0] } }

/-- The COPY completes at once with STATUS 0. -/
theorem copying_copy : ((copying.copy 7).cmds.get? 7).map (fun x => x.status) = some 0 := by decide +kernel

end Sys2Proof.Machine

end

section
namespace Sys2Proof.Machine

/-- Refutes O46: its clause on a COPY within module DRAM asks for STATUS 3 wherever `Mem.poisoned` holds of the source, also for LEN 0, when
`Mem.poisoned` still looks at the granule around an unaligned address. R121 has a COPY of LEN 0 complete at once, and gives STATUS 3 to a poisoned
source piece alone: in `copying` there is none, and the command completes with STATUS 0. -/
theorem not_commandsAct : ¬ Obligations.CommandsAct := by
  unfold Obligations.CommandsAct
  intro h
  obtain ⟨-, -, -, -, -, -, -, -, hcopy, -⟩ := h copying 7 emptyCopy 0
  obtain ⟨t, ht, -, -, -, hfin, -⟩ := hcopy rfl rfl rfl (by decide +kernel) (by decide +kernel) (by decide +kernel) (by decide +kernel) (by decide +kernel)
  have heq : t = copying.copy 7 := (Host.Outcome.next.inj ht).symm
  have hstatus := copying_copy
  rw [← heq, hfin] at hstatus
  exact absurd hstatus (by decide +kernel)

end Sys2Proof.Machine
end

section
/-! SUPPORT. Life-cycle requests (R101, R102): the four changes that exist, what authorises each, and where a request ends. -/

namespace Sys2Proof.Machine

/-! ## The changes (R102) -/

/-- The changes of the life-cycle state that exist. -/
def lcPairs : List (Nat × Nat) := [(0, 1), (1, 2), (1, 3), (2, 3)]

theorem transition_none {a b : Nat} (h : (a, b) ∉ lcPairs) : transition a b = none := by
  unfold transition
  split
  case h_5 => rfl
  all_goals exact absurd (by decide) h

/-- The first of the two keys that authorise a change; a change to DEPLOYED needs none. -/
theorem transition_some {a b : Nat} (h : (a, b) ∈ lcPairs) :
    transition a b = some (if b = 2 then none else some (if b = 1 then 0 else 4)) := by
  simp only [lcPairs, List.mem_cons, Prod.mk.injEq, List.not_mem_nil, or_false] at h
  obtain ⟨rfl, rfl⟩ | ⟨rfl, rfl⟩ | ⟨rfl, rfl⟩ | ⟨rfl, rfl⟩ := h <;> rfl

/-- A request of a master for a change is authorised (R102). -/
def State.lcSigned (s : State) (m : Master) (b : Nat) : Prop :=
  b = 2 ∨ (s.lcauthOk b (if b = 1 then 0 else 4) = true ∧ (b = 1 → m = .bmc))

theorem masterNum_bmc (m : Master) : masterNum m = 2 ↔ m = .bmc := by
  cases m <;> simp [masterNum]

/-- The authorisation that a change looks at, by the keys that it needs. -/
def State.lcAuthorised (s : State) (m : Master) (b : Nat) (auth : Option Nat) : Bool :=
  match auth with
  | none => true
  | some key => s.lcauthOk b key && (key != 0 || masterNum m == 2)

theorem State.lcAuthorised_iff (s : State) (m : Master) (b : Nat) :
    s.lcAuthorised m b (if b = 2 then none else some (if b = 1 then 0 else 4)) = true ↔ s.lcSigned m b := by
  unfold State.lcSigned
  by_cases h2 : b = 2
  · simp [h2, State.lcAuthorised]
  · by_cases h1 : b = 1
    · simp [h1, State.lcAuthorised, masterNum_bmc]
    · simp [h1, h2, State.lcAuthorised]

/-! ## The request (R101, R102) -/

/-- A request that is turned down with a RESULT; LCNONCE is drawn again. -/
def State.lcRefused (s : State) (n : Nat) : State := (s.lcResult n).newNonce

/-- The fuse of a new life-cycle state is written, in RMA with the identity keys erased (R102, R103). -/
def State.lcFused (s : State) (b : Nat) : State :=
  ({ s with nv := { s.nv with lcs := b, idKeys := s.nv.idKeys && b != 3 } } : State).lcResult 1

/-- A request while none is under way: the first check that fails refuses it. -/
theorem State.lifeChange_idle {s : State} {m : Master} {b : Nat} (hidle : bit (s.reg .lcstate) 3 = false) : s.lifeChange m b =
    match transition s.nv.lcs b with
    | none => s.lcRefused 2
    | some auth =>
      if !s.lcAuthorised m b auth then s.lcRefused 3
      else if !s.quiescent then s.lcRefused 4
      else if Config.fuseFails s.fresh then s.lcRefused 5
      else (s.lcFused b).moduleReset := by
  unfold State.lifeChange
  rw [if_neg (by simp [hidle])]
  rfl

theorem State.lifeChange_unnamed {s : State} {m : Master} {b : Nat} (hidle : bit (s.reg .lcstate) 3 = false) (h : (s.nv.lcs, b) ∉ lcPairs) :
    s.lifeChange m b = s.lcRefused 2 := by
  rw [State.lifeChange_idle hidle, transition_none h]

theorem State.lifeChange_unsigned {s : State} {m : Master} {b : Nat} (hidle : bit (s.reg .lcstate) 3 = false) (hnamed : (s.nv.lcs, b) ∈ lcPairs)
    (h : ¬ s.lcSigned m b) : s.lifeChange m b = s.lcRefused 3 := by
  rw [State.lifeChange_idle hidle, transition_some hnamed]
  exact if_pos (by simpa using mt (s.lcAuthorised_iff m b).1 h)

/-- An authorised change that exists: quiescence, then the fuse. -/
theorem State.lifeChange_signed {s : State} {m : Master} {b : Nat} (hidle : bit (s.reg .lcstate) 3 = false) (hnamed : (s.nv.lcs, b) ∈ lcPairs)
    (h : s.lcSigned m b) : s.lifeChange m b =
    if !s.quiescent then s.lcRefused 4 else if Config.fuseFails s.fresh then s.lcRefused 5 else (s.lcFused b).moduleReset := by
  rw [State.lifeChange_idle hidle, transition_some hnamed]
  exact if_neg (by simpa using (s.lcAuthorised_iff m b).2 h)

/-- A refused request writes RESULT and LCNONCE alone. -/
theorem State.lcRefused_rules {s : State} {n : Nat} (hn : n < 16) : bits ((s.lcRefused n).reg .lcstate) 7 4 = n ∧
    (s.lcRefused n).reg .lcnonce = Config.entropy s.fresh ∧ (s.lcRefused n).nv = s.nv ∧ (s.lcRefused n).mem = s.mem ∧
    (s.lcRefused n).ctxs = s.ctxs := by
  refine ⟨?_, State.newNonce_lcnonce _, rfl, rfl, rfl⟩
  rw [State.lcRefused, State.newNonce_reg_ne (by decide), State.lcResult, State.setField_reg, bits_setBits_same (by decide)]
  exact Nat.mod_eq_of_lt hn

/-- A change that passes: the module is reset, with RESULT 1 and the new state in LCSTATE (R101, R102). -/
theorem State.lcFused_reset {s : State} (hs : Claims.LifeTables s) {b : Nat} (hb : b < 8) : Claims.Wiped s (s.lcFused b).moduleReset ∧
    bits ((s.lcFused b).moduleReset.reg .lcstate) 7 4 = 1 ∧ bits ((s.lcFused b).moduleReset.reg .lcstate) 2 0 = b ∧
    (s.lcFused b).moduleReset.nv = { s.nv with lcs := b, idKeys := s.nv.idKeys && b != 3 } := by
  have hlife : Claims.LifeTables (s.lcFused b) := hs
  refine ⟨State.moduleReset_wiped hlife, ?_, ?_, State.moduleReset_nv _⟩
  · rw [State.moduleReset_lcstate hlife, bits_setBits_same (by decide), State.lcFused, State.lcResult, State.setField_reg,
      bits_setBits_same (by decide)]
    decide
  · rw [State.moduleReset_lcstate hlife, bits_setBits_apart (.inl (by decide)), bits_setBits_apart (.inl (by decide)),
      bits_setBits_same (by decide)]
    exact Nat.mod_eq_of_lt hb

/-- GO of the owner (R74). -/
theorem exec_lifeCycleChange {s : State} {m : Master} (h : s.isOwner m = true) (target : BitVec 3) :
    exec (.lifeCycleChange m target) s = .next (s.lifeChange m target.toNat) := congrArg Host.Outcome.next (if_pos h)

end Sys2Proof.Machine

end

section
namespace Sys2Proof.Machine

/-- Settles O34: which check fails first says where a request ends, and a request that is refused, or that passes, is described once. -/
theorem lifeCycleChanges : Obligations.LifeCycleChanges := by
  unfold Obligations.LifeCycleChanges
  intro s m target
  refine ⟨?_, ?_, ?_⟩
  -- GO while BUSY, and GO of another master
  · exact fun howner hbusy => (exec_lifeCycleChange howner target).trans (congrArg Host.Outcome.next (if_pos hbusy))
  · intro hother
    obtain ⟨hcount, hmem, -⟩ := s.nonOwner_rules
    exact ⟨s.nonOwner, congrArg Host.Outcome.next (if_neg (by simp [hother])), rfl, hmem, hcount⟩
  -- GO of the owner
  · intro howner hidle
    have hexec := exec_lifeCycleChange howner target
    have hquiet := s.quiescent_iff
    refine ⟨?_, ?_, ?_, ?_, ?_⟩
    · intro hunnamed
      rw [State.lifeChange_unnamed hidle hunnamed] at hexec
      exact ⟨_, hexec, State.lcRefused_rules (by decide)⟩
    · intro hnamed hunsigned
      rw [State.lifeChange_unsigned hidle hnamed hunsigned] at hexec
      exact ⟨_, hexec, State.lcRefused_rules (by decide)⟩
    · intro hnamed hsigned hbusy
      rw [State.lifeChange_signed hidle hnamed hsigned, if_pos (by simpa using mt hquiet.1 hbusy)] at hexec
      exact ⟨_, hexec, State.lcRefused_rules (by decide)⟩
    · intro hnamed hsigned hcalm hfails
      rw [State.lifeChange_signed hidle hnamed hsigned, if_neg (by simp [hquiet.2 hcalm]), if_pos hfails] at hexec
      exact ⟨_, hexec, State.lcRefused_rules (by decide)⟩
    · intro hs hnamed hsigned hcalm hfused
      rw [State.lifeChange_signed hidle hnamed hsigned, if_neg (by simp [hquiet.2 hcalm]), if_neg (by simp [hfused])] at hexec
      exact ⟨_, hexec, State.lcFused_reset hs target.isLt⟩

end Sys2Proof.Machine
end

section
/-! SUPPORT. Bytes read back: a read byte by byte, a part of what was written, and one of a run of blocks of equal length. -/

namespace Sys2Proof.Machine

theorem Mem.getElem_read (m : Mem) (a n i : Nat) (h : i < (m.read a n).length) : (m.read a n)[i] = m.get (a + i) := by
  induction n generalizing a i with
  | zero => simp [Mem.read] at h
  | succ n ih =>
    simp only [Mem.read]
    cases i with
    | zero => rfl
    | succ i =>
      rw [List.getElem_cons_succ, ih]
      congr 1
      omega

/-- Reads that agree byte by byte. -/
theorem Mem.read_ext {m m' : Mem} {a b n : Nat} (h : ∀ i < n, m'.get (a + i) = m.get (b + i)) : m'.read a n = m.read b n := by
  refine List.ext_getElem (by simp only [Mem.read_length]) fun i h1 h2 => ?_
  rw [Mem.getElem_read, Mem.getElem_read]
  exact h i (by rwa [Mem.read_length] at h1)

/-- A part of what has been written. -/
theorem Mem.read_write_part (m : Mem) {a o n : Nat} {l : List Byte} (h : o + n ≤ l.length) :
    (m.write a l).read (a + o) n = (l.drop o).take n := by
  refine List.ext_getElem (by simp only [Mem.read_length, List.length_take, List.length_drop]; omega) fun i h1 h2 => ?_
  rw [Mem.read_length] at h1
  rw [Mem.getElem_read, Mem.get_write, dif_pos (by omega), List.getElem_take, List.getElem_drop]
  congr 1
  omega

/-- The j-th of a run of blocks of equal length. -/
theorem flatMap_block {α β : Type} {f : α → List β} {k : Nat} (hf : ∀ x, (f x).length = k) (l : List α) : ∀ (j : Nat) (h : j < l.length),
    ((l.flatMap f).drop (k * j)).take k = f l[j] := by
  induction l with
  | nil => exact fun j h => absurd h (Nat.not_lt_zero j)
  | cons x l ih =>
    intro j h
    rw [List.flatMap_cons]
    cases j with
    | zero => rw [Nat.mul_zero, List.drop_zero, List.take_left' (hf x), List.getElem_cons_zero]
    | succ j =>
      rw [Nat.mul_succ, Nat.add_comm, ← List.drop_drop, List.drop_left' (hf x), ih j (by simpa using h), List.getElem_cons_succ]

end Sys2Proof.Machine

end

section
/-! SUPPORT. The owner's writes to the translation unit (R74, R90, R209, R214 to R216): an invalidation, the stages of a splinter, and a write
that is turned away. -/

namespace Sys2Proof.Machine

/-! ## Writes turned away (R74, R90) -/

/-- A count of HIFERR is one higher, and holds at its greatest value. -/
theorem State.countErr_rules (s : State) {h l : Nat} (hh : h < 64) (hw : h + 1 - l = 16) :
    bits ((s.countErr h l).reg .hiferr) h l = Nat.min 0xFFFF (bits (s.reg .hiferr) h l + 1) := by
  have hlt : Nat.min 0xFFFF (bits (s.reg .hiferr) h l + 1) < 2 ^ (h + 1 - l) := by
    rw [hw]
    exact lt_of_le_of_lt (Nat.min_le_left _ _) (by decide)
  rw [State.countErr, State.setField_reg, bits_setBits_same hh]
  exact Nat.mod_eq_of_lt hlt

/-- A write of another master, or before stage 4, is turned away whatever it writes. -/
theorem State.blockWrite_turnedAway {s : State} {m : Master} (h : s.isOwner m = false ∨ s.stage ≠ 4) (f : State → State) :
    s.blockWrite m f = Claims.turnedAway s m := by
  unfold State.blockWrite State.ownerWrite Claims.turnedAway
  by_cases hstage : s.stage = 4
  · have hother : ¬ s.isOwner m = true := by simpa [hstage] using h
    rw [if_pos hstage, if_pos hstage, if_neg hother, if_neg hother]
  · rw [if_neg hstage, if_neg hstage]

/-- A write that is turned away is counted, and nothing else changes. -/
theorem State.turnedAway_rules {s : State} {m : Master} (h : s.isOwner m = false ∨ s.stage ≠ 4) :
    Claims.countOf s ((Claims.turnedAway s m).reg .hiferr) = Nat.min 0xFFFF (Claims.countOf s (s.reg .hiferr) + 1) ∧
    (Claims.turnedAway s m).ctxs = s.ctxs ∧ (Claims.turnedAway s m).mem = s.mem ∧ (Claims.turnedAway s m).stallTlb = s.stallTlb ∧
    (Claims.turnedAway s m).faults = s.faults := by
  unfold Claims.turnedAway Claims.countOf
  by_cases hstage : s.stage = 4
  · have hother : ¬ s.isOwner m = true := by simpa [hstage] using h
    simp only [if_pos hstage, if_neg hother]
    exact ⟨s.countErr_rules (by decide) rfl, rfl, rfl, rfl, rfl⟩
  · simp only [if_neg hstage]
    exact ⟨s.countErr_rules (by decide) rfl, rfl, rfl, rfl, rfl⟩

/-! ## Invalidation (R209) -/

/-- An entry of a TLB lies in the range that TLBINV names. -/
def tlbHit (v : DWord) (e : TlbEntry) : Bool :=
  v.getLsbD 12 || (e.asid == bits v 11 0 &&
    (bits v 63 49 == 0x7FFF || overlaps e.va e.size (bits v 48 16 * 65536) ((bits v 63 49 + 1) * 65536)))

theorem getLsbD_tlbinvMask {i : Nat} (hi : i < 64) : (fmask 12 0 ||| fmask 63 16).getLsbD i = decide (i ≤ 12 ∨ 16 ≤ i) := by
  rw [BitVec.getLsbD_or, getLsbD_fmask hi, getLsbD_fmask hi, ← Bool.decide_or]
  exact decide_eq_decide.2 (by omega)

/-- The fields of TLBINV are those of the word written. -/
theorem tlbHit_written (r v : DWord) (e : TlbEntry) :
    tlbHit (mergeMask r (setBit v 13 true) (fmask 12 0 ||| fmask 63 16)) e = tlbHit v e := by
  have hfield : ∀ h l, h < 64 → (h ≤ 12 ∨ 16 ≤ l) → bits (mergeMask r (setBit v 13 true) (fmask 12 0 ||| fmask 63 16)) h l = bits v h l := by
    intro h l hh hd
    rw [bits_mergeMask_set fun i hl hi => by rw [getLsbD_tlbinvMask (by omega)]; exact decide_eq_true (by omega)]
    exact bits_setBit_apart (by omega)
  have hall : (mergeMask r (setBit v 13 true) (fmask 12 0 ||| fmask 63 16)).getLsbD 12 = v.getLsbD 12 :=
    (bit_mergeMask_set (by decide)).trans (bit_setBit_ne (by decide))
  unfold tlbHit
  rw [hall, hfield 11 0 (by decide) (by decide), hfield 63 49 (by decide) (by decide), hfield 48 16 (by decide) (by decide)]

theorem State.writeTlbinv_go (s : State) (v : DWord) : s.writeTlbinv (setBit v 13 true) (BitVec.allOnes 64) =
    (s.setReg .tlbinv (mergeMask (s.reg .tlbinv) (setBit v 13 true) (fmask 12 0 ||| fmask 63 16))).dropTlb (tlbHit v) := by
  have hgo : ¬ (!bit (setBit v 13 true) 13) = true := by simp
  unfold State.writeTlbinv
  rw [State.writeFields_all]
  refine (if_neg hgo).trans (congrArg (State.dropTlb _) (funext fun e => ?_))
  rw [State.setReg_reg]
  exact tlbHit_written _ _ _

/-- A list of TLBs without some entries. -/
theorem SMap.getD_map_filter (m : SMap (List TlbEntry)) (p : TlbEntry → Bool) (k : Nat) :
    SMap.getD (m.map (fun t => (t.1, t.2.filter p))) k [] = (m.getD k []).filter p := by
  have hget := SMap.get?_map (fun t : Nat × List TlbEntry => t.2.filter p) m k
  rw [SMap.getD, hget, SMap.getD]
  cases m.get? k with
  | none => rfl
  | some l => rfl

theorem State.dropTlb_stallTlb (s : State) (p : TlbEntry → Bool) (st : Nat) :
    (s.dropTlb p).stallTlb.getD st [] = (s.stallTlb.getD st []).filter (fun e => !p e) := SMap.getD_map_filter _ _ _

theorem State.dropTlb_paddockTlb (s : State) (p : TlbEntry → Bool) (pd : Nat) :
    (s.dropTlb p).paddockTlb.getD pd [] = (s.paddockTlb.getD pd []).filter (fun e => !p e) := SMap.getD_map_filter _ _ _

/-! ## GO of a splinter (R215, R216) -/

/-- SPLCTL with SMALL and TABLE of the word written. -/
def State.splWritten (s : State) (v : DWord) : State :=
  s.setReg .splctl (mergeMask (s.reg .splctl) (setBit v 0 true) (fmask 4 4 ||| fmask 38 8))

theorem State.writeSplctl_go (s : State) (v : DWord) :
    s.writeSplctl (setBit v 0 true) (BitVec.allOnes 64) = (s.splWritten v).splinter := by
  have hgo : bit (setBit v 0 true) 0 = true := bit_setBit_same (by decide)
  unfold State.writeSplctl
  rw [State.writeFields_all]
  exact if_pos hgo

theorem getLsbD_splctlMask {i : Nat} (hi : i < 64) : (fmask 4 4 ||| fmask 38 8).getLsbD i = decide (i = 4 ∨ 8 ≤ i ∧ i ≤ 38) := by
  rw [BitVec.getLsbD_or, getLsbD_fmask hi, getLsbD_fmask hi, ← Bool.decide_or]
  exact decide_eq_decide.2 (by omega)

/-- A write of SPLCTL leaves BUSY, and SMALL and TABLE are those of the word. -/
theorem State.splWritten_splctl (s : State) (v : DWord) : bit ((s.splWritten v).reg .splctl) 1 = bit (s.reg .splctl) 1 ∧
    bits ((s.splWritten v).reg .splctl) 4 4 = bits v 4 4 ∧ bits ((s.splWritten v).reg .splctl) 38 8 = bits v 38 8 := by
  rw [State.splWritten, State.setReg_reg]
  refine ⟨?_, ?_, ?_⟩
  · rw [bit, getLsbD_mergeMask, if_neg (by decide), bit]
  · rw [bits_mergeMask_set fun i hl hh => by rw [getLsbD_splctlMask (by omega)]; exact decide_eq_true (by omega)]
    exact bits_setBit_apart (by decide)
  · rw [bits_mergeMask_set fun i hl hh => by rw [getLsbD_splctlMask (by omega)]; exact decide_eq_true (by omega)]
    exact bits_setBit_apart (by decide)

theorem State.splinter_busy {s : State} (h : bit (s.reg .splctl) 1 = true) : s.splinter = s := if_pos h

/-- GO while BUSY is 0: the splinter of SPLVA, SMALL and TABLE begins. -/
theorem State.splinter_begins {s : State} (h : bit (s.reg .splctl) 1 = false) : s.splinter =
    ({ s.setField .splctl 1 1 1 with spl := some {
        asid := bits (s.reg .splva) 11 0, va := bits (s.reg .splva) 48 16 * 65536, small := bits (s.reg .splctl) 4 4,
        table := bits (s.reg .splctl) 38 8 * 256 } } : State).push [.splinter] := if_neg (by simp [h])

theorem State.splinter_rules (s : State) (v : DWord) (h : bit (s.reg .splctl) 1 = false) :
    (s.splWritten v).splinter.spl = some {
      asid := bits (s.reg .splva) 11 0, va := bits (s.reg .splva) 48 16 * 65536, small := bits v 4 4, table := bits v 38 8 * 256 } ∧
    bit ((s.splWritten v).splinter.reg .splctl) 1 = true ∧ (s.splWritten v).splinter.agenda = s.agenda ++ [.splinter] ∧
    (s.splWritten v).splinter.mem = s.mem ∧ (s.splWritten v).splinter.ctxs = s.ctxs := by
  obtain ⟨hbusy, hsmall, htable⟩ := s.splWritten_splctl v
  have hva : (s.splWritten v).reg .splva = s.reg .splva := State.setReg_reg_ne _ _ _ _ (by decide)
  have hset : ((s.splWritten v).setField .splctl 1 1 1).reg .splctl = setBit ((s.splWritten v).reg .splctl) 1 true := State.setField_reg _ _ _ _ _
  rw [State.splinter_begins (hbusy.trans h), hva, hsmall, htable]
  refine ⟨rfl, ?_, rfl, rfl, rfl⟩
  exact (congrArg (fun r => bit r 1) hset).trans (bit_setBit_same (by decide))

/-! ## The stages of a splinter (R216) -/

/-- A splinter has ended with ERR. -/
def State.SplEnded (s t : State) (err : Nat) : Prop :=
  t.spl = none ∧ bits (t.reg .splctl) 3 2 = err ∧ bit (t.reg .splctl) 1 = false ∧ t.ctxs = s.ctxs

theorem State.splErr_ends (s : State) {err : Nat} (h : err < 4) : s.SplEnded (s.splErr err) err := by
  have hreg : (s.splErr err).reg .splctl = setBit (setBits (s.reg .splctl) 3 2 err) 1 false := by
    have h1 : (s.setField .splctl 3 2 err).reg .splctl = setBits (s.reg .splctl) 3 2 err := State.setField_reg _ _ _ _ _
    have h2 : (s.splErr err).reg .splctl = setBits ((s.setField .splctl 3 2 err).reg .splctl) 1 1 0 := State.setField_reg _ _ _ _ _
    rw [h2, h1]
    rfl
  rw [State.SplEnded, hreg, bits_setBit_apart (by decide), bits_setBits_same (by decide), bit_setBit_same (by decide)]
  exact ⟨rfl, Nat.mod_eq_of_lt h, rfl, rfl⟩

/-- What a splinter reads at its first stage: the leaf of its address, by a walk from the root of its space. -/
def State.splLeaf (s : State) (x : Splinter) : Option (Option (Option (Nat × DWord))) :=
  (s.rootOf x.asid).map (fun r => s.leafAt x.va (x.small + 1) [3, 2, 1, 0] (r * 8192))

theorem State.splStep_reads {s : State} {x : Splinter} (h : s.spl = some x) (hleaf : x.leaf = none) : s.splStep = s.splRead x := by
  unfold State.splStep
  simp only [h, hleaf]

theorem State.splStep_writes {s : State} {x : Splinter} {a : Nat} {e : DWord} (h : s.spl = some x) (hleaf : x.leaf = some (a, e))
    (hwritten : x.written = false) : s.splStep = s.splWrite x e := by
  unfold State.splStep
  simp only [h, hleaf, hwritten, Bool.false_eq_true, if_false]

theorem State.splStep_swaps {s : State} {x : Splinter} {a : Nat} {e : DWord} (h : s.spl = some x) (hleaf : x.leaf = some (a, e))
    (hwritten : x.written = true) : s.splStep = s.splSwap x a e := by
  unfold State.splStep
  simp only [h, hleaf, hwritten, if_true]

/-- Without a leaf of the level the splinter ends with ERR 1. -/
theorem State.splRead_leafless {s : State} {x : Splinter} (h : s.splLeaf x = none ∨ s.splLeaf x = some (some none)) : s.splRead x = s.splErr 1 := by
  unfold State.splLeaf at h
  unfold State.splRead
  obtain h | h := h <;> rw [h]

/-- With a leaf, TABLE decides. -/
theorem State.splRead_leaf {s : State} {x : Splinter} {l : Nat × DWord} (h : s.splLeaf x = some (some (some l))) : s.splRead x =
    if x.table % tableBytes x.small != 0 || s.reservedRange x.table (tableBytes x.small) then s.splErr 1
    else s.splNext { x with leaf := some l } := by
  unfold State.splLeaf at h
  unfold State.splRead
  rw [h]

/-- The state after a write of the new table that does not fail. -/
def State.splTabled (s : State) (x : Splinter) (e : DWord) : State :=
  ({ s with mem := s.mem.write x.table (splinterTable e x.small (levelEntries x.small)), fresh := s.fresh + 1 } : State).splNext
    { x with written := true }

theorem State.splWrite_cases {s : State} {x : Splinter} (e : DWord) (h : s.homeHeld x.table = false) : s.splWrite x e =
    if Config.splinterFails s.fresh then ({ s with fresh := s.fresh + 1 } : State).splErr 3 else s.splTabled x e := if_neg (by simp [h])

theorem splinterTable_length (e : DWord) (small n : Nat) : (splinterTable e small n).length = 8 * n := by
  rw [splinterTable, List.length_flatMap]
  simp [leBytes_length, Nat.mul_comm]

theorem tableBytes_eq (l : Nat) : tableBytes l = 8 * levelEntries l := by
  unfold levelEntries tableBytes
  split <;> rfl

/-- The new table: entry j is the leaf with a frame j pages above its own, and no byte beside the table changes. -/
theorem State.splTabled_table (s : State) (x : Splinter) (e : DWord) :
    (∀ j < levelEntries x.small, (s.splTabled x e).mem.read (x.table + 8 * j) 8 =
      leBytes 8 (e.toNat % 64 + (bits e 56 8 * 256 + j * 2 ^ levelShift x.small))) ∧
    ∀ b, b < x.table ∨ x.table + tableBytes x.small ≤ b → (s.splTabled x e).mem.get b = s.mem.get b := by
  have hmem : (s.splTabled x e).mem = s.mem.write x.table (splinterTable e x.small (levelEntries x.small)) := rfl
  have hlen := splinterTable_length e x.small (levelEntries x.small)
  refine ⟨fun j hj => ?_, fun b hb => ?_⟩
  · rw [hmem, Mem.read_write_part _ (by omega), splinterTable, flatMap_block (fun k => leBytes_length _ _) _ j (by simpa using hj),
      List.getElem_range]
  · rw [tableBytes_eq] at hb
    rw [hmem, Mem.get_write, dif_neg (by omega)]

/-- The parent entry is what the first stage read when its bytes are. -/
theorem ofNat_leNat_read (m : Mem) (a : Nat) (e : DWord) : BitVec.ofNat 64 (leNat (m.read a 8)) = e ↔ m.read a 8 = leBytes 8 e.toNat := by
  have hread := leBytes_leNat_read m a 8
  have hlt : leNat (m.read a 8) < 2 ^ 64 := by
    rw [← hread, leNat_leBytes]
    exact Nat.mod_lt _ (by decide)
  constructor
  · rintro rfl
    rw [BitVec.toNat_ofNat, Nat.mod_eq_of_lt hlt, hread]
  · intro h
    apply BitVec.eq_of_toNat_eq
    rw [h, leNat_leBytes, BitVec.toNat_ofNat]
    have he := e.isLt
    omega

/-- The state in which the parent entry has been replaced, with the large page dropped from every TLB. -/
def State.splSwapped (s : State) (x : Splinter) (a : Nat) : State :=
  ({ s with mem := s.mem.write a (leBytes 8 (1 + x.table)) } : State).dropTlb (fun t =>
    t.asid == x.asid && overlaps t.va t.size x.page.1 x.page.2)

theorem State.splSwap_changed {s : State} {x : Splinter} {a : Nat} {e : DWord} (h : s.homeHeld a = false)
    (hread : s.mem.read a 8 ≠ leBytes 8 e.toNat) : s.splSwap x a e = s.splErr 2 := by
  have hne : (BitVec.ofNat 64 (leNat (s.mem.read a 8)) != e) = true := bne_iff_ne.2 (mt (ofNat_leNat_read s.mem a e).1 hread)
  unfold State.splSwap
  rw [if_neg (by simp [h]), if_pos hne]

theorem State.splSwap_same {s : State} {x : Splinter} {a : Nat} {e : DWord} (h : s.homeHeld a = false)
    (hread : s.mem.read a 8 = leBytes 8 e.toNat) : s.splSwap x a e = (s.splSwapped x a).splErr 0 := by
  have heq : ¬ (BitVec.ofNat 64 (leNat (s.mem.read a 8)) != e) = true := by simp [(ofNat_leNat_read s.mem a e).2 hread]
  unfold State.splSwap
  rw [if_neg (by simp [h]), if_neg heq]
  rfl

/-- The parent entry names the new table, and no other byte changes. -/
theorem State.splSwapped_entry (s : State) (x : Splinter) (a : Nat) : (s.splSwapped x a).mem.read a 8 = leBytes 8 (1 + x.table) ∧
    ∀ b, b < a ∨ a + 8 ≤ b → (s.splSwapped x a).mem.get b = s.mem.get b := by
  have hmem : (s.splSwapped x a).mem = s.mem.write a (leBytes 8 (1 + x.table)) := rfl
  have hlen := leBytes_length 8 (1 + x.table)
  refine ⟨?_, fun b hb => ?_⟩
  · have hread := Mem.read_write s.mem a (leBytes 8 (1 + x.table))
    rwa [hlen] at hread
  · rw [hmem, Mem.get_write, dif_neg (by omega)]

end Sys2Proof.Machine

end

section
namespace Sys2Proof.Machine

/-- Settles O27: the owner's writes come to an invalidation and to a splinter's GO, the three stages of a splinter end or go on as R216 has it,
and a write that is turned away adds to one count. -/
theorem ownersPagingWrites : Obligations.OwnersPagingWrites := by
  unfold Obligations.OwnersPagingWrites
  intro s m v st j a e x
  refine ⟨?_, ?_, ?_, ?_, ?_⟩
  -- TLBINV and SPLCTL written by the owner
  · intro howns
    have hinv : exec (.tlbInvalidate m v) s = .next (s.writeTlbinv (setBit v 13 true) (BitVec.allOnes 64)) :=
      congrArg Host.Outcome.next (State.blockWrite_of_owns howns)
    have hspl : exec (.splinter m v) s = .next (s.splWritten v).splinter :=
      congrArg Host.Outcome.next ((State.blockWrite_of_owns howns).trans (s.writeSplctl_go v))
    refine ⟨?_, ?_, ?_⟩
    · rw [State.writeTlbinv_go] at hinv
      exact ⟨_, hinv, State.dropTlb_stallTlb _ _ _, State.dropTlb_paddockTlb _ _ _, rfl, rfl⟩
    · exact fun hidle => ⟨_, hspl, s.splinter_rules v hidle⟩
    · intro hbusy
      have hstill := (s.splWritten_splctl v).1.trans hbusy
      rw [State.splinter_busy hstill] at hspl
      exact ⟨_, hspl, rfl, hstill, rfl, rfl⟩
  -- the leaf is read
  · intro hx hleaf
    rw [State.splStep_reads hx hleaf]
    refine ⟨fun hnone => ?_, fun hsome hbad => ?_, fun hsome halign hfree => ?_⟩
    · rw [State.splRead_leafless hnone]
      exact ⟨s.splErr_ends (by decide), rfl⟩
    · rw [State.splRead_leaf hsome, if_pos (by simpa using hbad)]
      exact ⟨s.splErr_ends (by decide), rfl⟩
    · rw [State.splRead_leaf hsome, if_neg (by simp [halign, hfree])]
      exact ⟨rfl, rfl, rfl⟩
  -- the new table is written
  · intro hx hleaf hwritten hfree
    rw [State.splStep_writes hx hleaf hwritten, State.splWrite_cases e hfree]
    refine ⟨fun hfails => ?_, fun hpasses => ?_⟩
    · rw [if_pos hfails]
      exact ⟨State.splErr_ends _ (by decide), rfl⟩
    · rw [if_neg (by simp [hpasses])]
      obtain ⟨htable, hbeside⟩ := s.splTabled_table x e
      exact ⟨rfl, rfl, htable j, hbeside⟩
  -- the parent entry is replaced
  · intro hx hleaf hwritten hfree
    rw [State.splStep_swaps hx hleaf hwritten]
    refine ⟨fun hchanged => ?_, fun hsame => ?_⟩
    · rw [State.splSwap_changed hfree hchanged]
      exact ⟨s.splErr_ends (by decide), rfl⟩
    · rw [State.splSwap_same hfree hsame]
      obtain ⟨hentry, hbeside⟩ := s.splSwapped_entry x a
      exact ⟨(s.splSwapped x a).splErr_ends (by decide), hentry, hbeside, State.dropTlb_stallTlb _ _ _⟩
  -- another master, or before stage 4
  · intro haway i hi
    have hexec : exec i s = .next (Claims.turnedAway s m) := by
      simp only [List.mem_cons, List.not_mem_nil, or_false] at hi
      obtain rfl | rfl | rfl | rfl := hi <;> exact congrArg Host.Outcome.next (State.blockWrite_turnedAway haway _)
    exact ⟨_, hexec, State.turnedAway_rules haway⟩

end Sys2Proof.Machine
end

section
/-! SUPPORT. The boot (R88, R92 to R96, R492) and the restart of a die's firmware (R128): what each stage leaves, an accepted image, and the
ROM's two slots. -/

namespace Sys2Proof.Machine

/-! ## States that differ in registers and signals alone -/

/-- The second state is the first with other registers, other signals held and other messages sent. -/
def State.Notified (s t : State) : Prop := ∃ g h o, t = { s with regs := g, heldSignals := h, out := o }

theorem State.Notified.refl (s : State) : s.Notified s := ⟨s.regs, s.heldSignals, s.out, rfl⟩

theorem State.Notified.trans {s t u : State} (h1 : s.Notified t) (h2 : t.Notified u) : s.Notified u := by
  obtain ⟨g, h, o, rfl⟩ := h1
  obtain ⟨g', h', o', rfl⟩ := h2
  exact ⟨g', h', o', rfl⟩

theorem State.Notified.kept {s t : State} (h : s.Notified t) :
    t.mem = s.mem ∧ t.ctxs = s.ctxs ∧ t.nv = s.nv ∧ t.entry = s.entry ∧ t.fresh = s.fresh := by
  obtain ⟨g, h, o, rfl⟩ := h
  exact ⟨rfl, rfl, rfl, rfl, rfl⟩

theorem State.RegsOnly.notified {s t : State} (h : s.RegsOnly t) : s.Notified t := by
  obtain ⟨x, rfl⟩ := h
  exact ⟨x, s.heldSignals, s.out, rfl⟩

theorem State.setReg_notified (s : State) (r : Reg) (v : DWord) : s.Notified (s.setReg r v) := ⟨_, s.heldSignals, s.out, rfl⟩

theorem State.signal_notified (s : State) (v : Nat) : s.Notified (s.signal v) := by
  obtain h | h | ⟨m, h⟩ | h := s.signal_cases v <;> rw [h]
  · exact ⟨s.regs, _, s.out, rfl⟩
  · exact s.setReg_notified _ _
  · exact ⟨s.regs, s.heldSignals, _, rfl⟩
  · exact .refl s

theorem State.raiseInt_notified (s : State) (b : Nat) : s.Notified (s.raiseInt b) := by
  obtain h | h := s.raiseInt_cases b <;> rw [h]
  · exact s.setReg_notified _ _
  · exact (s.setReg_notified _ _).trans (State.signal_notified _ _)

/-! ## BOOTSTAT.STAGE (R88, R92) -/

theorem State.setStage_cases (s : State) (n : Nat) :
    s.setStage n = s.setField .bootstat 3 0 n ∨ s.setStage n = (s.setField .bootstat 3 0 n).raiseInt 6 := by
  unfold State.setStage
  split
  · exact .inr rfl
  · exact .inl rfl

theorem State.setStage_notified (s : State) (n : Nat) : s.Notified (s.setStage n) := by
  obtain h | h := s.setStage_cases n <;> rw [h]
  · exact s.setReg_notified _ _
  · exact (s.setReg_notified _ _).trans (State.raiseInt_notified _ _)

@[simp] theorem State.setStage_bootstat (s : State) (n : Nat) : (s.setStage n).reg .bootstat = setBits (s.reg .bootstat) 3 0 n := by
  obtain h | h := s.setStage_cases n <;> rw [h]
  · exact State.setField_reg _ _ _ _ _
  · rw [State.raiseInt_reg_ne (by decide) (by decide), State.setField_reg]

theorem State.setStage_stage (s : State) {n : Nat} (h : n < 16) : (s.setStage n).stage = n := by
  rw [State.stage, State.setStage_bootstat, bits_setBits_same (by decide)]
  exact Nat.mod_eq_of_lt h

theorem State.setStage_reg_ne {s : State} {n : Nat} {r : Reg} (hb : Reg.bootstat.key ≠ r.key) (hc : Reg.intcause.key ≠ r.key)
    (hp : Reg.msixPba.key ≠ r.key) : (s.setStage n).reg r = s.reg r := by
  obtain h | h := s.setStage_cases n <;> rw [h]
  · exact State.setField_reg_ne hb
  · rw [State.raiseInt_reg_ne hc hp, State.setField_reg_ne hb]

/-- Reaching stage 4 or 15 sets INTCAUSE.BOOT (R88). -/
theorem State.setStage_boot {s : State} {n : Nat} (hn : n = 4 ∨ n = 15) (h : s.stage ≠ n) : bit ((s.setStage n).reg .intcause) 6 = true := by
  have heq : s.setStage n = (s.setField .bootstat 3 0 n).raiseInt 6 := if_pos ⟨hn, h⟩
  rw [heq, State.raiseInt_intcause]
  exact bit_setBit_same (by decide)

/-! ## Training (R492) -/

theorem State.trained_iff (s : State) : s.trained = true ↔ ∀ i < 384, s.linkState i ≠ 0 := by
  simp [State.trained]

theorem State.linkState_eq (s : State) {i : Nat} (hi : i < 384) : s.linkState i = bits (s.reg (.xlink i)) 1 0 := by
  rw [State.linkState, show i % linkCount = i from Nat.mod_eq_of_lt hi]

/-- Training is read off the registers of the UCIe modules. -/
theorem State.trained_congr {s t : State} (h : ∀ i < 384, t.reg (.xlink i) = s.reg (.xlink i)) : t.trained = s.trained := by
  rw [Bool.eq_iff_iff, State.trained_iff, State.trained_iff]
  refine forall₂_congr fun i hi => ?_
  rw [State.linkState_eq t hi, State.linkState_eq s hi, h i hi]

/-! ## Stage 3 (R93, R492) -/

/-- SAVEPOOL of every die. -/
def State.pooled (s : State) : State := (List.range 4).foldl (fun s d => s.writeSavepool d (Config.firmwarePool d)) s

theorem State.pooled_notified (s : State) : s.Notified s.pooled := by
  have hfold : ∀ (l : List Nat) (t : State), t.Notified (l.foldl (fun s d => s.writeSavepool d (Config.firmwarePool d)) t) := by
    intro l
    induction l with
    | nil => exact .refl
    | cons d l ih => exact fun t => (t.setReg_notified _ _).trans (ih _)
  exact hfold _ s

theorem State.pooled_reg {s : State} {r : Reg} (hr : r.key < 0x8400000) : s.pooled.reg r = s.reg r := by
  have hfold : ∀ (l : List Nat) (t : State), (l.foldl (fun s d => s.writeSavepool d (Config.firmwarePool d)) t).reg r = t.reg r := by
    intro l
    induction l with
    | nil => exact fun _ => rfl
    | cons d l ih => exact fun t => (ih _).trans (State.setReg_reg_ne _ _ _ _ (by simp only [Reg.key] at hr ⊢; omega))
  exact hfold _ s

/-- The groom contexts of some stalls enter the image. -/
def State.entered (s : State) (l : List Nat) : State :=
  l.foldl (fun s st => s.setCtx (groomKey + st) (groomEntry st s.entry Config.firmwareRoot)) s

theorem State.entered_kept (l : List Nat) : ∀ s : State, ∃ c, s.entered l = { s with ctxs := c } := by
  induction l with
  | nil => exact fun s => ⟨s.ctxs, rfl⟩
  | cons st l ih =>
    intro s
    obtain ⟨c, h⟩ := ih (s.setCtx (groomKey + st) (groomEntry st s.entry Config.firmwareRoot))
    exact ⟨c, h⟩

theorem State.entered_ctx {st : Nat} (l : List Nat) : ∀ s : State,
    s.ctx (groomKey + st) = groomEntry st s.entry Config.firmwareRoot ∨ st ∈ l →
    (s.entered l).ctx (groomKey + st) = groomEntry st s.entry Config.firmwareRoot := by
  induction l with
  | nil => exact fun s h => h.resolve_right (List.not_mem_nil)
  | cons j l ih =>
    intro s h
    refine ih (s.setCtx (groomKey + j) (groomEntry j s.entry Config.firmwareRoot)) ?_
    by_cases hj : j = st
    · subst hj
      exact .inl (State.setCtx_ctx _ _ _)
    · rw [State.setCtx_ctx_ne _ _ _ _ (by omega)]
      exact h.imp id fun hmem => (List.mem_cons.1 hmem).resolve_left (Ne.symm hj)

theorem State.firmwareStart_eq (s : State) : s.firmwareStart = ((s.setStage 3).pooled.entered (List.range 4096)).push [.bootReady] := rfl

/-- Stage 3: the groom contexts enter the image, and memory, the life record and BOOTSTAT but for its stage are as before. -/
theorem State.firmwareStart_rules (s : State) : s.firmwareStart.mem = s.mem ∧ s.firmwareStart.nv = s.nv ∧
    s.firmwareStart.reg .bootstat = setBits (s.reg .bootstat) 3 0 3 ∧
    ∀ st < 4096, s.firmwareStart.ctx (groomKey + st) = groomEntry st s.entry Config.firmwareRoot := by
  obtain ⟨hmem, -, hnv, hentry, -⟩ := ((s.setStage_notified 3).trans (State.pooled_notified _)).kept
  obtain ⟨c, hc⟩ := State.entered_kept (List.range 4096) (s.setStage 3).pooled
  have hboot : ((s.setStage 3).pooled.entered (List.range 4096)).reg .bootstat = (s.setStage 3).pooled.reg .bootstat := by
    rw [hc]
    rfl
  rw [State.firmwareStart_eq]
  refine ⟨?_, ?_, ?_, fun st hst => ?_⟩
  · rw [State.push_mem, hc]
    exact hmem
  · rw [State.push_nv, hc]
    exact hnv
  · rw [State.push_reg, hboot, State.pooled_reg (by decide), State.setStage_bootstat]
  · rw [State.push_ctx, State.entered_ctx _ _ (.inr (List.mem_range.2 hst)), hentry]

theorem State.leaveLoad_starts {s : State} (hstage : s.stage = 2) (h : s.trained = true) : s.leaveLoad = s.firmwareStart := if_pos ⟨hstage, h⟩

theorem State.leaveLoad_stays {s : State} (h : s.stage = 2 → s.trained = false) : s.leaveLoad = s :=
  if_neg fun hboth => absurd hboth.2 (by simp [h hboth.1])

/-! ## An accepted image (R94) -/

/-- The first check that fails has a code of four bits. -/
theorem State.imageCheck_lt (s : State) (b : List Byte) : s.imageCheck b < 16 := by
  unfold State.imageCheck
  dsimp only
  split_ifs <;> decide

/-- An accepted image fits a groom code store. -/
theorem State.imageCheck_fits {s : State} {b : List Byte} (h : s.imageCheck b = 0) : imgLen b ≤ 2 ^ 23 := by
  unfold State.imageCheck at h
  dsimp only at h
  split_ifs at h with _ _ _ _ _ _ _ hlen
  exact Nat.not_lt.1 hlen

/-- The checks of an image look at the life-cycle state and SVNMIN alone. -/
theorem State.imageCheck_congr {s t : State} (hlcs : t.nv.lcs = s.nv.lcs) (hsvn : t.nv.svnmin = s.nv.svnmin) (b : List Byte) :
    t.imageCheck b = s.imageCheck b := by
  unfold State.imageCheck
  rw [hlcs, hsvn]

theorem imgBody_length (b : List Byte) : (imgBody b).length ≤ imgLen b := List.length_take_le _ _

/-- A body that fits a code store, stored in those of the first dies, is read back in each. -/
theorem Mem.read_groomStores {body : List Byte} (hfit : body.length ≤ 2 ^ 23) (m : Mem) (n : Nat) : ∀ d < n,
    ((List.range n).foldl (fun (m : Mem) d => m.store (groomAddr d 0) body) m).read (groomAddr d 0) body.length = body := by
  induction n with
  | zero => exact fun d h => absurd h (Nat.not_lt_zero d)
  | succ n ih =>
    intro d hd
    rw [List.range_succ, List.foldl_append, List.foldl_cons, List.foldl_nil]
    by_cases hdn : d = n
    · subst hdn
      exact Mem.read_store _ _ _
    · refine (Mem.read_ext fun i hi => Mem.get_store_apart _ (.inl ?_)).trans (ih d (by omega))
      simp only [groomAddr]
      omega

/-- SVNMIN is fused in DEPLOYED when the image's SVN is higher. -/
def State.svnFused (s : State) (b : List Byte) : State :=
  if s.nv.lcs = 2 ∧ s.nv.svnmin < imgSvn b then ({ s with nv := { s.nv with svnmin := imgSvn b } } : State).setField .lcstate 15 8 (imgSvn b)
  else s

theorem State.svnFused_rules (s : State) (b : List Byte) :
    (s.svnFused b).nv.svnmin = (if s.nv.lcs = 2 ∧ s.nv.svnmin < imgSvn b then imgSvn b else s.nv.svnmin) ∧
    (s.svnFused b).mem = s.mem ∧ ∀ r : Reg, Reg.lcstate.key ≠ r.key → (s.svnFused b).reg r = s.reg r := by
  unfold State.svnFused
  split
  · exact ⟨rfl, rfl, fun r hr => State.setField_reg_ne hr⟩
  · exact ⟨rfl, rfl, fun _ _ => rfl⟩

/-- BOOTSTAT at stage 2. -/
def loadedWord (r : DWord) (slot : Nat) (recov : Bool) (svn : Nat) : DWord :=
  setBits (setBits (setBit (setBits (setBits r 7 4 0) 8 8 slot) 9 recov) 23 16 svn) 3 0 2

/-- The state at stage 2, with the image in the code store of each die. -/
def State.imageStored (s : State) (b : List Byte) (slot : Nat) (recov : Bool) : State :=
  { (s.svnFused b).setReg .bootstat (loadedWord ((s.svnFused b).reg .bootstat) slot recov (imgSvn b)) with
    mem := (List.range 4).foldl (fun (m : Mem) d => m.store (groomAddr d 0) (imgBody b)) (s.svnFused b).mem,
    image := b.take (4096 + imgLen b), entry := Config.firmwareEntry (s.svnFused b).fresh, fresh := (s.svnFused b).fresh + 1 }

theorem State.loadImage_eq (s : State) (b : List Byte) (slot : Nat) (recov : Bool) :
    s.loadImage b slot recov = (s.imageStored b slot recov).leaveLoad := rfl

theorem State.imageStored_bootstat (s : State) (b : List Byte) (slot : Nat) (recov : Bool) :
    (s.imageStored b slot recov).reg .bootstat = loadedWord ((s.svnFused b).reg .bootstat) slot recov (imgSvn b) := State.setReg_reg _ _ _

/-- Before stage 3 training alone is looked at. -/
theorem State.imageStored_trained (s : State) (b : List Byte) (slot : Nat) (recov : Bool) : (s.imageStored b slot recov).trained = s.trained := by
  refine State.trained_congr fun i hi => ?_
  have hboot : (s.imageStored b slot recov).reg (.xlink i) = (s.svnFused b).reg (.xlink i) :=
    State.setReg_reg_ne _ _ _ _ (by simp only [Reg.key]; omega)
  exact hboot.trans ((s.svnFused_rules b).2.2 _ (by simp only [Reg.key]; omega))

/-- A number of a few bytes. -/
theorem leNat_lt (l : List Byte) : leNat l < 256 ^ l.length := by
  rw [← leBytes_leNat l, leNat_leBytes, leBytes_length]
  exact Nat.mod_lt _ (Nat.pow_pos (by decide))

theorem fieldOf_lt (l : List Byte) (hi lo : Nat) : fieldOf l hi lo < 256 ^ (hi + 1 - lo) :=
  lt_of_lt_of_le (leNat_lt _) (Nat.pow_le_pow_right (by decide) (List.length_take_le _ _))

theorem imgSvn_lt (b : List Byte) : imgSvn b < 256 := fieldOf_lt b 7 7

/-- What an accepted image leaves of a state: the stage, BOOTSTAT, the code stores and SVNMIN (R92 to R94). -/
def State.Loaded (s t : State) (b : List Byte) (slot : Nat) (recov : Bool) : Prop :=
  t.stage = (if s.trained then 3 else 2) ∧ bits (t.reg .bootstat) 8 8 = slot ∧ bit (t.reg .bootstat) 9 = recov ∧
  bits (t.reg .bootstat) 23 16 = imgSvn b ∧ (∀ d < 4, t.mem.read (groomAddr d 0) (imgBody b).length = imgBody b) ∧
  t.nv.svnmin = (if s.nv.lcs = 2 ∧ s.nv.svnmin < imgSvn b then imgSvn b else s.nv.svnmin)

/-- The fields of BOOTSTAT beside its stage, at stage 2 and after. -/
theorem loadedWord_fields {r : DWord} {slot svn : Nat} {recov : Bool} (hslot : slot < 2) (hsvn : svn < 256) :
    bits (loadedWord r slot recov svn) 3 0 = 2 ∧ bits (loadedWord r slot recov svn) 8 8 = slot ∧ bit (loadedWord r slot recov svn) 9 = recov ∧
    bits (loadedWord r slot recov svn) 23 16 = svn := by
  simp [loadedWord, hslot, hsvn]

theorem State.loadImage_loaded {s : State} {b : List Byte} {slot : Nat} {recov : Bool} (hcheck : s.imageCheck b = 0) (hslot : slot < 2) :
    s.Loaded (s.loadImage b slot recov) b slot recov := by
  obtain ⟨hstage, hslot', hrecov, hsvn⟩ := loadedWord_fields (r := (s.svnFused b).reg .bootstat) (recov := recov) hslot (imgSvn_lt b)
  rw [← State.imageStored_bootstat] at hstage hslot' hrecov hsvn
  have hstores := Mem.read_groomStores ((imgBody_length b).trans (State.imageCheck_fits hcheck)) (s.svnFused b).mem 4
  have hmin := (s.svnFused_rules b).1
  rw [State.loadImage_eq]
  by_cases htrained : s.trained = true
  · obtain ⟨hmem, hnv, hboot, -⟩ := (s.imageStored b slot recov).firmwareStart_rules
    rw [State.leaveLoad_starts hstage ((s.imageStored_trained b slot recov).trans htrained), State.Loaded, State.stage, hboot, hmem, hnv,
      if_pos htrained]
    refine ⟨bits_setBits_same (by decide), ?_, ?_, ?_, hstores, hmin⟩
    · exact (bits_setBits_apart (.inr (by decide))).trans hslot'
    · exact (bit_setBits_apart (.inr (by decide))).trans hrecov
    · exact (bits_setBits_apart (.inr (by decide))).trans hsvn
  · rw [State.leaveLoad_stays fun _ => by rw [State.imageStored_trained]; simpa using htrained, State.Loaded, if_neg htrained]
    exact ⟨hstage, hslot', hrecov, hsvn, hstores, hmin⟩

/-! ## The ROM (R93 to R95, R103) -/

/-- The identity keys are there from the first boot on (R103). -/
def State.keyed (s : State) : State := if s.nv.lcs = 0 then { s with nv := { s.nv with idKeys := true } } else s

/-- Stage 1: COLMAP is loaded, and the slots are tried. -/
def State.romReady (s : State) : State := s.keyed.loadColmap.setStage 1

theorem State.romVerify_eq {s : State} (h : s.stage = 0) : s.romVerify =
    match s.romReady.slotOrder.find? (fun x => s.romReady.imageCheck x.2 == 0) with
    | some x => s.romReady.loadImage x.2 x.1 false
    | none =>
      (s.romReady.setField .bootstat 7 4 (((s.romReady.slotOrder.getLast?).map (fun x => s.romReady.imageCheck x.2)).getD 1)).setStage 15 := by
  unfold State.romVerify
  exact if_neg (by simp [h])

theorem State.keyed_rules (s : State) : s.keyed.regs = s.regs ∧ s.keyed.mem = s.mem ∧ s.keyed.ctxs = s.ctxs ∧
    s.keyed.nv.lcs = s.nv.lcs ∧ s.keyed.nv.svnmin = s.nv.svnmin ∧ s.keyed.nv.retired = s.nv.retired ∧ s.keyed.slotOrder = s.slotOrder := by
  unfold State.keyed
  split
  · exact ⟨rfl, rfl, rfl, rfl, rfl, rfl, rfl⟩
  · exact ⟨rfl, rfl, rfl, rfl, rfl, rfl, rfl⟩

theorem State.romReady_notified (s : State) : s.keyed.Notified s.romReady :=
  s.keyed.loadColmap_rules.1.notified.trans (State.setStage_notified _ _)

/-- Stage 1 leaves what an image is checked by, and the order of the slots. -/
theorem State.romReady_images (s : State) : (∀ b, s.romReady.imageCheck b = s.imageCheck b) ∧ s.romReady.slotOrder = s.slotOrder := by
  obtain ⟨-, -, -, hlcs, hsvn, -, horder⟩ := s.keyed_rules
  obtain ⟨-, -, hnv, -⟩ := s.romReady_notified.kept
  refine ⟨State.imageCheck_congr (by rw [hnv, hlcs]) (by rw [hnv, hsvn]), ?_⟩
  rw [← horder, State.slotOrder, State.slotOrder, hnv]

theorem State.romReady_trained {s : State} (hs : Claims.LifeTables s) : s.romReady.trained = s.trained := by
  obtain ⟨hregs, -, -, -, -, hretired, -⟩ := s.keyed_rules
  obtain ⟨-, -, -, hrows⟩ := hs
  refine State.trained_congr fun i hi => ?_
  have hcolmap : s.keyed.loadColmap.reg (.xlink i) = s.keyed.reg (.xlink i) := s.keyed.loadColmap_rules.2 _ fun e he => by
    have hrow := hrows e (hretired ▸ he)
    simp only [Reg.key]
    omega
  rw [State.romReady, State.setStage_reg_ne (by simp only [Reg.key]; omega) (by simp only [Reg.key]; omega) (by simp only [Reg.key]; omega),
    hcolmap, State.reg_of_regs hregs]

/-- An image accepted in stage 1 is an image accepted. -/
theorem State.Loaded.of_romReady {s t : State} (hs : Claims.LifeTables s) {b : List Byte} {slot : Nat} {recov : Bool}
    (h : s.romReady.Loaded t b slot recov) : s.Loaded t b slot recov := by
  obtain ⟨-, -, -, hlcs, hsvn, -⟩ := s.keyed_rules
  obtain ⟨-, -, hnv, -⟩ := s.romReady_notified.kept
  rw [State.Loaded, State.romReady_trained hs, hnv, hlcs, hsvn] at h
  exact h

/-- The ROM waits for a recovery image, with the code of the last check that failed (R95). -/
def State.Waits (s t : State) (cause : Nat) : Prop :=
  t.stage = 15 ∧ bits (t.reg .bootstat) 7 4 = cause ∧ t.mem = s.mem ∧ t.ctxs = s.ctxs

/-- What the ROM does with two slots in the order in which it tries them. -/
theorem exec_romVerify_two {s : State} (hs : Claims.LifeTables s) (hstage : s.stage = 0) {i j : Nat} {x y : List Byte} (hi : i < 2) (hj : j < 2)
    (horder : s.slotOrder = [(i, x), (j, y)]) :
    (s.imageCheck x = 0 → ∃ t, exec .romVerify s = .next t ∧ s.Loaded t x i false) ∧
    (s.imageCheck x ≠ 0 → s.imageCheck y = 0 → ∃ t, exec .romVerify s = .next t ∧ s.Loaded t y j false) ∧
    (s.imageCheck x ≠ 0 → s.imageCheck y ≠ 0 → ∃ t, exec .romVerify s = .next t ∧ s.Waits t (s.imageCheck y) ∧ bit (t.reg .intcause) 6 = true) := by
  obtain ⟨hcheck, hslots⟩ := s.romReady_images
  have hexec : exec .romVerify s = .next s.romVerify := rfl
  rw [State.romVerify_eq hstage, hslots, horder] at hexec
  refine ⟨fun hx => ?_, fun hx hy => ?_, fun hx hy => ?_⟩
  · rw [List.find?_cons_of_pos (by simp [hcheck, hx])] at hexec
    exact ⟨_, hexec, .of_romReady hs (State.loadImage_loaded (by rw [hcheck, hx]) hi)⟩
  · rw [List.find?_cons_of_neg (by simp [hcheck, hx]), List.find?_cons_of_pos (by simp [hcheck, hy])] at hexec
    exact ⟨_, hexec, .of_romReady hs (State.loadImage_loaded (by rw [hcheck, hy]) hj)⟩
  · rw [List.find?_cons_of_neg (by simp [hcheck, hx]), List.find?_cons_of_neg (by simp [hcheck, hy]), List.find?_nil] at hexec
    have hlast : ((([(i, x), (j, y)].getLast?).map (fun z => s.romReady.imageCheck z.2)).getD 1) = s.imageCheck y := hcheck y
    dsimp only at hexec
    rw [hlast] at hexec
    have hone : (s.romReady.setField .bootstat 7 4 (s.imageCheck y)).stage ≠ 15 := by
      have hstage1 : bits (s.romReady.reg .bootstat) 3 0 = 1 := State.setStage_stage _ (by decide)
      rw [State.stage, State.setField_reg, bits_setBits_apart (.inl (by decide)), hstage1]
      decide
    obtain ⟨-, hmem, hctxs, -⟩ := s.keyed_rules
    obtain ⟨hmem1, hctxs1, -⟩ := (s.romReady_notified.trans
      ((s.romReady.setReg_notified _ _).trans ((s.romReady.setField .bootstat 7 4 (s.imageCheck y)).setStage_notified 15))).kept
    refine ⟨_, hexec, ⟨State.setStage_stage _ (by decide), ?_, hmem1.trans hmem, hctxs1.trans hctxs⟩, State.setStage_boot (.inr rfl) hone⟩
    rw [State.setStage_bootstat, bits_setBits_apart (.inr (by decide)), State.setField_reg, bits_setBits_same (by decide)]
    exact Nat.mod_eq_of_lt (s.imageCheck_lt y)

/-! ## BOOT_READY, BOOT_RETRY, UCIE_TRAINING_COMPLETE (R93, R96, R492) -/

theorem State.bootReady_rules {s : State} (h : s.stage = 3) : s.bootReady.stage = 4 ∧ bit (s.bootReady.reg .intcause) 6 = true ∧
    s.bootReady.mem = s.mem ∧ s.bootReady.ctxs = s.ctxs := by
  obtain ⟨hmem, hctxs, -⟩ := (s.setStage_notified 4).kept
  rw [State.bootReady, if_pos h]
  exact ⟨s.setStage_stage (by decide), State.setStage_boot (.inl rfl) (by rw [h]; decide), hmem, hctxs⟩

/-- The recovery buffer (R96). -/
def State.recoveryImage (s : State) : List Byte :=
  s.mem.read 0 4096 ++ s.mem.read 4096 (Nat.min (2 ^ 26) (imgLen (s.mem.read 0 4096)))

theorem State.bootRetry_accepts {s : State} (m : Master) (hstage : s.stage = 15) (h : s.imageCheck s.recoveryImage = 0) :
    s.bootRetry m = s.loadImage s.recoveryImage 0 true := by
  unfold State.recoveryImage at h ⊢
  unfold State.bootRetry
  rw [if_pos hstage]
  dsimp only
  rw [h]
  rfl

theorem State.bootRetry_waits {s : State} (m : Master) (hstage : s.stage = 15) (h : s.imageCheck s.recoveryImage ≠ 0) :
    s.bootRetry m = s.setField .bootstat 7 4 (s.imageCheck s.recoveryImage) := by
  unfold State.recoveryImage at h ⊢
  unfold State.bootRetry
  rw [if_pos hstage]
  dsimp only
  split
  next hzero => exact absurd hzero h
  next => rfl

theorem State.setField_waits {s : State} (hstage : s.stage = 15) {cause : Nat} (hcause : cause < 16) :
    s.Waits (s.setField .bootstat 7 4 cause) cause := by
  refine ⟨?_, ?_, rfl, rfl⟩
  · rw [State.stage, State.setField_reg, bits_setBits_apart (.inl (by decide))]
    exact hstage
  · rw [State.setField_reg, bits_setBits_same (by decide)]
    exact Nat.mod_eq_of_lt hcause

/-- A UCIe module whose training has ended, before the stage is looked at. -/
def State.linkTrained (s : State) (link : Nat) (up : Bool) (repaired : Nat) : State :=
  (s.setReg (.xlink link) (setBits (setBits (s.reg (.xlink link)) 1 0 (if up then 1 else 3)) 6 4 repaired)).raiseInt 7

theorem State.trainingDone_eq {s : State} {link : Nat} (hlink : link < 384) (htrains : s.linkState link = 0) (up : Bool) (repaired : Nat) :
    s.trainingDone link up repaired = (s.linkTrained link up repaired).leaveLoad := by
  unfold State.trainingDone
  exact if_neg (by simp [htrains, hlink])

theorem State.linkTrained_notified (s : State) (link : Nat) (up : Bool) (repaired : Nat) : s.Notified (s.linkTrained link up repaired) :=
  (s.setReg_notified _ _).trans (State.raiseInt_notified _ _)

theorem State.linkTrained_reg_ne {s : State} {link : Nat} {up : Bool} {repaired : Nat} {r : Reg} (hx : (Reg.xlink link).key ≠ r.key)
    (hc : Reg.intcause.key ≠ r.key) (hp : Reg.msixPba.key ≠ r.key) : (s.linkTrained link up repaired).reg r = s.reg r := by
  rw [State.linkTrained, State.raiseInt_reg_ne hc hp, State.setReg_reg_ne _ _ _ _ hx]

theorem State.linkTrained_stage (s : State) (link : Nat) (up : Bool) (repaired : Nat) : (s.linkTrained link up repaired).stage = s.stage := by
  rw [State.stage, State.linkTrained_reg_ne (by simp only [Reg.key]; omega) (by decide) (by decide), State.stage]

theorem State.linkTrained_xlink (s : State) (link : Nat) (up : Bool) {repaired : Nat} (h : repaired < 8) :
    bits ((s.linkTrained link up repaired).reg (.xlink link)) 1 0 = (if up then 1 else 3) ∧
    bits ((s.linkTrained link up repaired).reg (.xlink link)) 6 4 = repaired := by
  have hreg : (s.linkTrained link up repaired).reg (.xlink link) =
      setBits (setBits (s.reg (.xlink link)) 1 0 (if up then 1 else 3)) 6 4 repaired := by
    rw [State.linkTrained, State.raiseInt_reg_ne (by simp only [Reg.key]; omega) (by simp only [Reg.key]; omega), State.setReg_reg]
  rw [hreg, bits_setBits_apart (.inl (by decide)), bits_setBits_same (by decide), bits_setBits_same (by decide)]
  refine ⟨?_, Nat.mod_eq_of_lt h⟩
  cases up
  · rfl
  · rfl

theorem State.linkTrained_link (s : State) (link : Nat) (up : Bool) (repaired : Nat) :
    bit ((s.linkTrained link up repaired).reg .intcause) 7 = true := by
  rw [State.linkTrained, State.raiseInt_intcause]
  exact bit_setBit_same (by decide)

/-- Training has ended when the last module ends it. -/
theorem State.linkTrained_trained {s : State} {link : Nat} (up : Bool) {repaired : Nat} (hrep : repaired < 8) 
    (h : ∀ i < 384, i ≠ link → s.linkState i ≠ 0) : (s.linkTrained link up repaired).trained = true := by
  refine (State.trained_iff _).2 fun i hi => ?_
  rw [State.linkState_eq _ hi]
  by_cases hlink : i = link
  · subst hlink
    rw [(s.linkTrained_xlink i up hrep).1]
    cases up
    · decide
    · decide
  · have hstate := h i hi hlink
    rw [State.linkState_eq _ hi] at hstate
    rwa [State.linkTrained_reg_ne (by simp only [Reg.key]; omega) (by simp only [Reg.key]; omega) (by simp only [Reg.key]; omega)]

/-! ## A restart of the firmware (R128) -/

/-- The contexts after a restart: a groom context of the die enters the image, every other is as it was. -/
theorem State.firmwareRestart_get? (s : State) (die key : Nat) : (s.firmwareRestart die).ctxs.get? key =
    (s.ctxs.get? key).map fun c =>
      if groomKey ≤ key ∧ stallQuarter (key - groomKey) = die then groomEntry (key - groomKey) s.entry c.root else c := by
  have hmap : (s.firmwareRestart die).ctxs = s.ctxs.map fun e =>
      (e.1, if groomKey ≤ e.1 ∧ stallQuarter (e.1 - groomKey) = die then groomEntry (e.1 - groomKey) s.entry e.2.root else e.2) := by
    refine List.map_congr_left fun e _ => ?_
    by_cases h : groomKey ≤ e.1 ∧ stallQuarter (e.1 - groomKey) = die
    · rw [if_pos (by simpa [isGroom] using h), if_pos h]
    · rw [if_neg (by simpa [isGroom] using h), if_neg h]
  rw [hmap]
  exact SMap.get?_map (fun e : Nat × Ctx =>
    if groomKey ≤ e.1 ∧ stallQuarter (e.1 - groomKey) = die then groomEntry (e.1 - groomKey) s.entry e.2.root else e.2) _ _

/-- A restart sets RESTARTED, counts it, and leaves WDOG. -/
theorem State.firmwareRestart_festat (s : State) (die : Nat) : bit ((s.firmwareRestart die).reg (.festat die)) 1 = true ∧
    bits ((s.firmwareRestart die).reg (.festat die)) 31 16 = Nat.min 0xFFFF (bits (s.reg (.festat die)) 31 16 + 1) ∧
    bits ((s.firmwareRestart die).reg (.festat die)) 55 32 = bits (s.reg (.festat die)) 55 32 := by
  have hreg : (s.firmwareRestart die).reg (.festat die) =
      setBits (setBit (s.reg (.festat die)) 1 true) 31 16 (Nat.min 0xFFFF (bits (s.reg (.festat die)) 31 16 + 1)) := State.setReg_reg _ _ _
  rw [hreg, bit_setBits_apart (.inl (by decide)), bits_setBits_same (by decide), bits_setBits_apart (.inr (by decide)),
    bits_setBit_apart (.inr (by decide))]
  exact ⟨bit_setBit_same (by decide), Nat.mod_eq_of_lt (lt_of_le_of_lt (Nat.min_le_left _ _) (by decide)), rfl⟩

/-- What a restart of a die's firmware does to a context, and what it leaves. -/
theorem State.firmwareRestart_rules (s : State) (die key : Nat) :
    (groomKey ≤ key → s.ctxs.get? key ≠ none → stallQuarter (key - groomKey) = die →
      (s.firmwareRestart die).ctxs.get? key = some (groomEntry (key - groomKey) s.entry (s.ctx key).root)) ∧
    (key < groomKey ∨ stallQuarter (key - groomKey) ≠ die → (s.firmwareRestart die).ctxs.get? key = s.ctxs.get? key) ∧
    (s.firmwareRestart die).mem = s.mem ∧ (s.firmwareRestart die).cmds = s.cmds ∧ (s.firmwareRestart die).replays = s.replays ∧
    (s.firmwareRestart die).reg .intcause = s.reg .intcause ∧ (s.firmwareRestart die).out = s.out := by
  rw [State.firmwareRestart_get?]
  refine ⟨fun hgroom hsome hdie => ?_, fun hother => ?_, rfl, rfl, rfl, ?_, rfl⟩
  · obtain ⟨c, hc⟩ := Option.ne_none_iff_exists'.1 hsome
    rw [State.ctx_of_get? hc, hc, Option.map_some, if_pos ⟨hgroom, hdie⟩]
  · have hno : ¬ (groomKey ≤ key ∧ stallQuarter (key - groomKey) = die) := fun hboth => by omega
    simp only [if_neg hno, Option.map_id']
  · exact State.setReg_reg_ne _ _ _ _ (by simp only [Reg.key]; omega)

end Sys2Proof.Machine

end

section
namespace Sys2Proof.Machine

/-- The slots in the order of R93. -/
theorem State.slotOrder_cases (s : State) :
    (4096 ≤ s.nv.slotA.length ∧ 4096 ≤ s.nv.slotB.length ∧ fieldOf s.nv.slotA 7 7 < fieldOf s.nv.slotB 7 7 →
      s.slotOrder = [(1, s.nv.slotB), (0, s.nv.slotA)]) ∧
    (¬ (4096 ≤ s.nv.slotA.length ∧ 4096 ≤ s.nv.slotB.length ∧ fieldOf s.nv.slotA 7 7 < fieldOf s.nv.slotB 7 7) →
      s.slotOrder = [(0, s.nv.slotA), (1, s.nv.slotB)]) :=
  ⟨fun h => if_pos h, fun h => if_neg h⟩

/-- The boot stages: the ROM's clauses are those of two slots in one order or the other. -/
theorem bootStages : Claims.BootStages := by
  intro s m link up rep
  dsimp only
  intro hs
  obtain ⟨hfirstB, hfirstA⟩ := s.slotOrder_cases
  refine ⟨fun hstage => ⟨?_, ?_, ?_, ?_, ?_, ?_⟩, ?_, ?_, ?_, ?_, ?_, ?_, ?_⟩
  -- the ROM
  · exact fun hfirst => (exec_romVerify_two hs hstage (by decide) (by decide) (hfirstB hfirst)).1
  · exact fun hfirst => (exec_romVerify_two hs hstage (by decide) (by decide) (hfirstB hfirst)).2.1
  · exact fun hfirst => (exec_romVerify_two hs hstage (by decide) (by decide) (hfirstB hfirst)).2.2
  · exact fun hfirst => (exec_romVerify_two hs hstage (by decide) (by decide) (hfirstA hfirst)).1
  · exact fun hfirst => (exec_romVerify_two hs hstage (by decide) (by decide) (hfirstA hfirst)).2.1
  · exact fun hfirst => (exec_romVerify_two hs hstage (by decide) (by decide) (hfirstA hfirst)).2.2
  -- the firmware is ready
  · exact fun hstage => ⟨_, rfl, State.bootReady_rules hstage⟩
  · exact fun hstage => congrArg Host.Outcome.next (if_neg hstage)
  -- a recovery image
  · intro hstage
    refine ⟨fun hzero => ?_, fun hne => ?_⟩
    · exact ⟨_, congrArg Host.Outcome.next (State.bootRetry_accepts m hstage hzero), State.loadImage_loaded hzero (by decide)⟩
    · exact ⟨_, congrArg Host.Outcome.next (State.bootRetry_waits m hstage hne), State.setField_waits hstage (s.imageCheck_lt _)⟩
  · exact fun hstage howner => congrArg Host.Outcome.next ((if_neg hstage).trans (if_pos howner))
  -- training
  · intro hlink htrains hstage
    obtain ⟨hstate, hrep⟩ := s.linkTrained_xlink link up rep.isLt
    obtain ⟨hmem, hctxs, -⟩ := (s.linkTrained_notified link up rep.toNat).kept
    have hstay := State.leaveLoad_stays (s := s.linkTrained link up rep.toNat) fun h => absurd ((s.linkTrained_stage _ _ _).symm.trans h) hstage
    exact ⟨_, congrArg Host.Outcome.next ((State.trainingDone_eq hlink htrains up rep.toNat).trans hstay), hstate, hrep,
      s.linkTrained_link link up rep.toNat, hmem, hctxs⟩
  · intro hlink htrains hstage hothers
    obtain ⟨hmem, -, -, hentry, -⟩ := (s.linkTrained_notified link up rep.toNat).kept
    have hstart := State.leaveLoad_starts ((s.linkTrained_stage link up rep.toNat).trans hstage) (State.linkTrained_trained up rep.isLt hothers)
    obtain ⟨hmem3, -, hboot, hctx⟩ := (s.linkTrained link up rep.toNat).firmwareStart_rules
    refine ⟨_, congrArg Host.Outcome.next ((State.trainingDone_eq hlink htrains up rep.toNat).trans hstart), ?_, hmem3.trans hmem, ?_⟩
    · rw [State.stage, hboot]
      exact bits_setBits_same (by decide)
    · exact fun st hst => (hctx st hst).trans (by rw [hentry])
  · exact fun htrained => congrArg Host.Outcome.next (if_pos (by simp [htrained]))

/-- A restart of a die's firmware, by itself or by its watchdog. -/
theorem firmwareRestarts : Claims.FirmwareRestarts := by
  intro s die key
  obtain ⟨hset, hcount, hwdog⟩ := s.firmwareRestart_festat die
  have hrules := s.firmwareRestart_rules die key
  refine ⟨⟨_, rfl, hset, hcount, hwdog, hrules⟩, fun hdue => ?_, fun hdue => ?_⟩
  · exact ⟨_, congrArg Host.Outcome.next (if_pos hdue), hset, hcount, hwdog, hrules⟩
  · exact congrArg Host.Outcome.next (if_neg hdue)

/-- Settles O35: the boot stages, and the restarts. -/
theorem bootAndFirmwareRestarts : Obligations.BootAndFirmwareRestarts := ⟨bootStages, firmwareRestarts⟩

end Sys2Proof.Machine
end

section
/-! SUPPORT. The causes of a packet (R77, R82, R110): its fields as parts of its first word, what each check finds, and the lowest cause. -/

namespace Sys2Proof.Machine

/-! ## The fields of a packet (R77) -/

theorem Mem.hostRead_length (m : Mem) (a n : Nat) : (m.hostRead a n).length = n := by
  induction n generalizing a with
  | zero => rfl
  | succ n ih => rw [Mem.hostRead, List.length_cons, ih]

theorem Mem.space_length (m : Mem) (dram : Bool) (a n : Nat) : (m.space dram a n).length = n := by
  cases dram
  · exact m.hostRead_length a n
  · exact m.read_length a n

/-- The fields of a packet are those of its first word. -/
theorem packet_word {p : List Byte} (h : p.length = 16) : pkOpc p = fieldOf p 3 0 % 256 ∧ pkQueue p = fieldOf p 3 0 / 2 ^ 8 % 256 ∧
    fieldOf p 2 2 = fieldOf p 3 0 / 2 ^ 16 % 256 := by
  match p, h with
  | a :: b :: c :: d :: l, _ =>
    have ha := a.isLt
    have hb := b.isLt
    have hc := c.isLt
    simp only [pkOpc, pkQueue, fieldOf, List.drop_succ_cons, List.drop_zero, List.take_succ_cons, List.take_zero, leNat]
    omega

/-- A flag of a packet is a bit of its first word. -/
theorem packet_flag {p : List Byte} (h : p.length = 16) {i : Nat} (hi : i < 8) : (fieldOf p 2 2).testBit i = (fieldOf p 3 0).testBit (16 + i) := by
  rw [(packet_word h).2.2, show (256 : Nat) = 2 ^ 8 from rfl, Nat.testBit_mod_two_pow, Nat.testBit_div_two_pow, Nat.add_comm i 16]
  simp [hi]

theorem packet_prio {p : List Byte} (h : p.length = 16) : pkPrio p = fieldOf p 3 0 / 2 ^ 19 % 8 := by
  rw [pkPrio, (packet_word h).2.2]
  omega

/-! ## The lowest cause (R82) -/

theorem leastCode_of_le {l : List Nat} {c : Nat} (hmem : c ∈ l) (hle : ∀ d ∈ l, c ≤ d) : leastCode l = some c := by
  have hfold : ∀ (l : List Nat) (x : Nat), l.foldl (fun m c => match m with
      | none => some c
      | some x => some (Nat.min x c)) (some x) = some (l.foldl Nat.min x) := by
    intro l
    induction l with
    | nil => exact fun _ => rfl
    | cons d l ih => exact fun x => ih (Nat.min x d)
  have hmin : ∀ (l : List Nat) (x : Nat), c ≤ x → (∀ d ∈ l, c ≤ d) → (x = c ∨ c ∈ l) → l.foldl Nat.min x = c := by
    intro l
    induction l with
    | nil => exact fun x _ _ h => h.resolve_right List.not_mem_nil
    | cons d l ih =>
      intro x hx hl h
      obtain ⟨hd, hl⟩ := List.forall_mem_cons.1 hl
      refine ih (Nat.min x d) (Nat.le_min.2 ⟨hx, hd⟩) hl ?_
      obtain rfl | h := h
      · exact .inl (Nat.min_eq_left hd)
      · obtain rfl | h := List.mem_cons.1 h
        · exact .inl (Nat.min_eq_right hx)
        · exact .inr h
  cases l with
  | nil => exact absurd hmem List.not_mem_nil
  | cons d l =>
    obtain ⟨hd, hl⟩ := List.forall_mem_cons.1 hle
    refine (hfold l d).trans (congrArg some (hmin l d hd hl ?_))
    exact (List.mem_cons.1 hmem).imp Eq.symm id

theorem mem_code3 {b : Bool} {c : Nat} : c ∈ code3 b ↔ c = 3 ∧ b = true := by
  cases b
  · simp [code3]
  · simp [code3]

theorem mem_ite_singleton {P : Prop} [Decidable P] {c d : Nat} : (c ∈ if P then [d] else []) ↔ c = d ∧ P := by
  by_cases hP : P <;> simp [hP]

theorem mem_ite_not_singleton {P : Prop} [Decidable P] {c d : Nat} : (c ∈ if P then [] else [d]) ↔ c = d ∧ ¬ P := by
  by_cases hP : P <;> simp [hP]

/-- What the packet itself is refused for. -/
theorem mem_packetCodes {q level c : Nat} {p : List Byte} : c ∈ packetCodes q p level ↔
    c = 1 ∧ 7 < pkOpc p ∨ c = 2 ∧ pkQueue p ≠ q ∨ c = 3 ∧ (2 ^ 23 ≤ fieldOf p 3 0 ∨ (pkOpc p = 5 ∨ pkOpc p = 6) ∧ 2 ^ 48 ≤ pkPtr p) ∨
    c = 4 ∧ pkOpc p = 7 ∧ 4 ≤ level ∨ c = 6 ∧ descBytes (pkOpc p) ≠ 0 ∧ pkPtr p % 16 ≠ 0 := by
  unfold packetCodes
  simp only [List.mem_append, mem_ite_singleton, mem_ite_not_singleton, mem_code3, Bool.or_eq_true, Bool.and_eq_true, decide_eq_true_eq, beq_iff_eq,
    or_assoc, ne_eq]

/-! ## What a packet brings (R109, R110) -/

/-- Causes of 3 and above. -/
def Late (l : List Nat) : Prop := ∀ c ∈ l, 3 ≤ c

theorem Late.nil : Late [] := fun _ h => absurd h List.not_mem_nil

theorem Late.append {l r : List Nat} (hl : Late l) (hr : Late r) : Late (l ++ r) := fun c h => (List.mem_append.1 h).elim (hl c) (hr c)

theorem Late.one {n : Nat} (h : 3 ≤ n) : Late [n] := fun _ hc => (List.mem_singleton.1 hc) ▸ h

theorem Late.ite {P : Prop} [Decidable P] {l r : List Nat} (hl : Late l) (hr : Late r) : Late (if P then l else r) := by
  split
  · exact hl
  · exact hr

theorem Late.flatMap {α : Type} {l : List α} {f : α → List Nat} (hf : ∀ x, Late (f x)) : Late (l.flatMap f) := fun c h => by
  obtain ⟨x, -, hx⟩ := List.mem_flatMap.1 h
  exact hf x c hx

theorem code3_late (b : Bool) : Late (code3 b) := .ite (.one (by decide)) .nil

theorem entryCodes_late (v : Nat) : Late (entryCodes v) := .append (.ite (.one (by decide)) .nil) (.ite .nil (.one (by decide)))

theorem kernelCodes_late (b : List Byte) : Late (kernelCodes b) := .append (entryCodes_late _) (code3_late _)

theorem bankCodes_late (kind : Nat) (b : List Byte) : Late (bankCodes kind b) := by
  unfold bankCodes
  split
  · exact kernelCodes_late b
  · exact code3_late _
  · exact code3_late _
  · exact .append (.append (entryCodes_late _) (entryCodes_late _)) (code3_late _)
  · exact code3_late _
  · exact code3_late _
  · exact .one (by decide)

theorem installCodes_late (first count : Nat) (nodes : Option (List Byte)) (ef ec : Nat) (edges : Option (List Byte)) :
    Late (installCodes first count nodes ef ec edges) := by
  have himages : ∀ l, Late (imageCodes count l) := fun l => .flatMap fun h => .append (code3_late _) (bankCodes_late _ _)
  unfold installCodes
  refine .append (.append ?_ ?_) ?_
  · cases nodes with
    | none => exact .nil
    | some l => exact .append (himages l) (code3_late _)
  · cases edges with
    | none => exact .nil
    | some e => exact code3_late _
  · cases nodes with
    | none => exact .nil
    | some l =>
      cases edges with
      | none => exact .nil
      | some e => exact code3_late _

theorem preambleCodes_late (d : List Byte) : Late (preambleCodes d) := .append (code3_late _) (.ite .nil (.one (by decide)))

theorem State.graphCodes_late (s : State) (die : Nat) (space : Bool) (d : List Byte) : Late (s.graphCodes die space d).1 := by
  unfold State.graphCodes
  dsimp only
  split
  · split
    · exact .one (by decide)
    · exact .append (.ite .nil (.one (by decide))) (installCodes_late _ _ _ _ _ _)
  · exact code3_late _

theorem State.descCodes_late (s : State) (die opc : Nat) (space : Bool) (d : List Byte) : Late (s.descCodes die opc space d).1 := by
  unfold State.descCodes
  split
  · exact .append (preambleCodes_late d) (s.graphCodes_late die space d)
  · exact .append (.append (preambleCodes_late d) (code3_late _)) (.ite (bankCodes_late _ _) .nil)
  · exact .append (preambleCodes_late d) (kernelCodes_late _)
  · exact .append (preambleCodes_late d) (.append (code3_late _) (code3_late _))
  · exact .append (.append (code3_late _) (.ite .nil (.one (by decide)))) (.ite (.one (by decide)) .nil)
  · exact .nil

/-- The causes of the descriptor of an INDIRECT. -/
theorem State.descCodes_indirect (s : State) (die : Nat) (space : Bool) (d : List Byte) : s.descCodes die 7 space d =
    (code3 (!zeroes d 7 4) ++ (if fieldOf d 15 8 % 16 = 0 then [] else [6]) ++ (if fieldOf d 3 0 = 0 ∨ 65536 < fieldOf d 3 0 then [8] else []), []) :=
  rfl

end Sys2Proof.Machine

end

section
/-! SUPPORT. The chaining engine (R76 to R82, R126): where the next packet lies, what is read, and how a packet is taken. -/

namespace Sys2Proof.Machine

/-! ## What can be read (R27, R82) -/

/-- 16 bytes of a space can be read and hold no poison. -/
def State.reads16 (s : State) (dram : Bool) (a : Nat) : Prop := (dram = true → a + 16 ≤ dramBytes ∧ s.mem.poisoned a 16 = false) ∧
  (dram = false → s.mem.hostRefuses a 16 = false ∧ s.mem.hostPoisoned a 16 = false)

theorem State.feRead_iff (s : State) (dram : Bool) (a : Nat) :
    (s.mem.reaches dram a 16 && !s.mem.spoiled dram a 16) = true ↔ s.reads16 dram a := by
  cases dram <;> simp [State.reads16, Mem.reaches, Mem.spoiled]

theorem State.feRead_some {s : State} {dram : Bool} {a : Nat} (h : s.reads16 dram a) : s.feRead dram a 16 = some (s.mem.space dram a 16) :=
  if_pos ((s.feRead_iff dram a).2 h)

theorem State.feRead_none {s : State} {dram : Bool} {a : Nat} (h : ¬ s.reads16 dram a) : s.feRead dram a 16 = none :=
  if_neg (mt (s.feRead_iff dram a).1 h)

/-- No home column holds a request. -/
def State.noneHeld (s : State) : Prop := ∀ st < 4096, s.homeHeld (st * 65536) = false

theorem State.homeHeld_of_noneHeld {s : State} (h : s.noneHeld) (o : Nat) : s.homeHeld o = false := by
  have hst : homeStall o < 4096 := Nat.mod_lt _ (by decide)
  have hcol := h (homeStall o) hst
  have hsame : homeStall (homeStall o * 65536) = homeStall o := by
    rw [homeStall, Nat.mul_div_cancel _ (by decide), Nat.mod_eq_of_lt hst]
  unfold State.homeHeld at hcol ⊢
  rwa [hsame] at hcol

theorem State.feHeld_of_noneHeld {s : State} (h : s.noneHeld) (dram : Bool) (a n : Nat) : s.feHeld dram a n = false := by
  simp [State.feHeld, State.homeHeld_of_noneHeld h]

theorem State.packetHeld_of_noneHeld {s : State} (h : s.noneHeld) (p d : List Byte) : s.packetHeld p d = false := by
  simp [State.packetHeld, State.feHeld_of_noneHeld h]

/-- A packet without a descriptor has nothing else to read. -/
theorem State.packetHeld_immediate (s : State) {p : List Byte} (h : descBytes (pkOpc p) = 0) (d : List Byte) : s.packetHeld p d = false := by
  have hgraph : pkOpc p ≠ 1 := fun h1 => by
    rw [h1] at h
    exact absurd h (by decide)
  simp [State.packetHeld, State.feHeld, h, hgraph]

/-- An INDIRECT has its descriptor to read. -/
theorem State.packetHeld_indirect (s : State) {p : List Byte} (h : pkOpc p = 7) (d : List Byte) :
    s.packetHeld p d = s.feHeld (pkSpace p) (pkPtr p) 16 := by
  have hbytes : descBytes 7 = 16 := rfl
  simp [State.packetHeld, h, hbytes]

/-! ## The next packet (R76, R79, R80) -/

theorem State.queueRuns_iff (s : State) (q : Nat) : s.queueRuns q = true ↔ Claims.MayStart s q := by
  simp [State.queueRuns, Claims.MayStart, and_assoc]

/-- The slot of the ring that START names (R76). -/
def State.slotAddr (s : State) (q : Nat) : Nat :=
  bits (s.reg (.qbase q)) 63 12 * 4096 + 16 * (s.qStart q % 2 ^ bits (s.reg (.qctl q)) 6 2)

theorem State.nextPacket_none {s : State} {q : Nat} (hstack : (s.engines.getD q {}).stack = []) (h : s.qStart q = s.qAdmit q) :
    s.nextPacket q = none := by
  unfold State.nextPacket
  rw [hstack]
  exact if_pos h

theorem State.nextPacket_ring {s : State} {q : Nat} (hstack : (s.engines.getD q {}).stack = []) (h : s.qStart q ≠ s.qAdmit q) :
    s.nextPacket q = some (s.slotAddr q, bit (s.reg (.qctl q)) 1, 0, none) := by
  unfold State.nextPacket
  rw [hstack]
  exact if_neg h

theorem State.nextPacket_listed {s : State} {q : Nat} {x : Expansion} {rest : List Expansion} (hstack : (s.engines.getD q {}).stack = x :: rest) :
    s.nextPacket q = some (x.addr + 16 * x.next, x.space, x.level + 1, some x.cmd) := by
  unfold State.nextPacket
  rw [hstack]

/-! ## A packet taken (R79, R82, R110) -/

/-- A packet waits for the earlier commands of its queue: WAITPREV, or a FLAGSET (R79). -/
def State.packetWaits (s : State) (q : Nat) (parent : Option Nat) (p : List Byte) : Bool :=
  (pkWaitPrev p || pkOpc p == 5) && s.cmds.any (fun x => x.2.queue == q && !(s.enclosing 6 parent).contains x.1)

/-- The descriptor of a packet, when it can be read. -/
def State.packetDesc (s : State) (q level : Nat) (p : List Byte) : Option (List Byte) :=
  if descBytes (pkOpc p) = 0 ∨ (packetCodes q p level).contains 6 then some [] else s.feRead (pkSpace p) (pkPtr p) (descBytes (pkOpc p))

/-- The causes of the descriptor of a packet, and what comes with it. -/
def State.packetBrings (s : State) (q level : Nat) (p : List Byte) : List Nat × List Byte :=
  match s.packetDesc q level p with
  | none => ([5], [])
  | some d => if d.isEmpty then ([], []) else s.descCodes (s.qDie q) (pkOpc p) (pkSpace p) d

/-- What becomes of a packet that has been read. -/
def State.takePacket (s : State) (q level : Nat) (parent : Option Nat) (p : List Byte) : State :=
  if (packetCodes q p level).isEmpty && s.packetWaits q parent p then s
  else if s.packetHeld p ((s.packetDesc q level p).getD []) then s
  else
    match leastCode (packetCodes q p level ++ (s.packetBrings q level p).1) with
    | some code => s.refusePacket q code level
    | none => s.startCommand q level parent p ((s.packetDesc q level p).getD [] ++ (s.packetBrings q level p).2)

theorem State.packetStart_idle {s : State} {q : Nat} (h : ¬ Claims.MayStart s q ∨ s.nextPacket q = none) : s.packetStart q = s := by
  unfold State.packetStart
  split
  · rfl
  next hruns =>
    have hmay : Claims.MayStart s q := (s.queueRuns_iff q).1 (by simpa using hruns)
    rw [h.resolve_left (not_not.2 hmay)]

section Next
variable {s : State} {q addr level : Nat} {space : Bool} {parent : Option Nat}

/-- A queue whose next packet lies in a column that is held waits. -/
theorem State.packetStart_held (hnext : s.nextPacket q = some (addr, space, level, parent)) (h : s.feHeld space addr 16 = true) :
    s.packetStart q = s := by
  unfold State.packetStart
  rw [hnext]
  simp only [h, if_true, ite_self]

theorem State.packetStart_read (hmay : Claims.MayStart s q) (hnext : s.nextPacket q = some (addr, space, level, parent))
    (h : s.feHeld space addr 16 = false) : s.packetStart q =
    match s.feRead space addr 16 with
    | none => s.refusePacket q 5 level
    | some p => s.takePacket q level parent p := by
  unfold State.packetStart
  rw [if_neg (by simp [(s.queueRuns_iff q).2 hmay]), hnext]
  exact if_neg (by simp [h])

theorem State.packetStart_unread (hmay : Claims.MayStart s q) (hnext : s.nextPacket q = some (addr, space, level, parent))
    (h : s.feHeld space addr 16 = false) (hread : ¬ s.reads16 space addr) : s.packetStart q = s.refusePacket q 5 level := by
  rw [State.packetStart_read hmay hnext h, State.feRead_none hread]

theorem State.packetStart_takes (hmay : Claims.MayStart s q) (hnext : s.nextPacket q = some (addr, space, level, parent))
    (h : s.feHeld space addr 16 = false) (hread : s.reads16 space addr) :
    s.packetStart q = s.takePacket q level parent (s.mem.space space addr 16) := by
  rw [State.packetStart_read hmay hnext h, State.feRead_some hread]

end Next

theorem State.packetBrings_late (s : State) (q level : Nat) (p : List Byte) : Late (s.packetBrings q level p).1 := by
  unfold State.packetBrings
  split
  · exact .one (by decide)
  · split
    · exact .nil
    · exact s.descCodes_late _ _ _ _

section Taken
variable {s : State} {q level : Nat} {parent : Option Nat} {p : List Byte}

/-- A packet with no descriptor to read brings nothing. -/
theorem State.packetBrings_nothing (h : descBytes (pkOpc p) = 0 ∨ 6 ∈ packetCodes q p level) :
    s.packetDesc q level p = some [] ∧ s.packetBrings q level p = ([], []) := by
  have hdesc : s.packetDesc q level p = some [] := if_pos (h.imp id List.contains_iff_mem.2)
  refine ⟨hdesc, ?_⟩
  unfold State.packetBrings
  rw [hdesc]
  rfl

/-- A packet with a cause of its own is refused with the lowest. -/
theorem State.takePacket_refuses {code : Nat} (hheld : s.packetHeld p ((s.packetDesc q level p).getD []) = false)
    (hmem : code ∈ packetCodes q p level) (hown : ∀ d ∈ packetCodes q p level, code ≤ d) (hbrings : ∀ d ∈ (s.packetBrings q level p).1, code ≤ d) :
    s.takePacket q level parent p = s.refusePacket q code level := by
  have hempty : (packetCodes q p level).isEmpty = false := by
    rw [List.isEmpty_eq_false_iff_exists_mem]
    exact ⟨code, hmem⟩
  have hleast : leastCode (packetCodes q p level ++ (s.packetBrings q level p).1) = some code :=
    leastCode_of_le (List.mem_append_left _ hmem) fun d hd => (List.mem_append.1 hd).elim (hown d) (hbrings d)
  unfold State.takePacket
  rw [hempty, Bool.false_and, if_neg (by decide), if_neg (by simp [hheld]), hleast]

/-- A packet with no cause of its own, and nothing to wait for, is judged by its descriptor. -/
theorem State.takePacket_judged (hown : packetCodes q p level = []) (hwait : s.packetWaits q parent p = false)
    (hheld : s.packetHeld p ((s.packetDesc q level p).getD []) = false) : s.takePacket q level parent p =
    match leastCode (s.packetBrings q level p).1 with
    | some code => s.refusePacket q code level
    | none => s.startCommand q level parent p ((s.packetDesc q level p).getD [] ++ (s.packetBrings q level p).2) := by
  unfold State.takePacket
  rw [hown, hwait, Bool.and_false, if_neg (by decide), if_neg (by simp [hheld]), List.nil_append]

/-- A packet with no cause of its own waits for the commands before it. -/
theorem State.takePacket_waits (hown : packetCodes q p level = []) (hwait : s.packetWaits q parent p = true) : s.takePacket q level parent p = s := by
  unfold State.takePacket
  rw [hown, hwait]
  rfl

theorem packetCodes_nil (hopc : pkOpc p ≤ 7) (hqueue : pkQueue p = q) (hword : fieldOf p 3 0 < 2 ^ 23)
    (himm : pkOpc p = 5 ∨ pkOpc p = 6 → pkPtr p < 2 ^ 48) (hlevel : pkOpc p = 7 → level < 4)
    (halign : descBytes (pkOpc p) ≠ 0 → pkPtr p % 16 = 0) : packetCodes q p level = [] := by
  refine List.eq_nil_iff_forall_not_mem.2 fun c hc => ?_
  obtain ⟨-, h⟩ | ⟨-, h⟩ | ⟨-, h | ⟨h5, h⟩⟩ | ⟨-, h7, h⟩ | ⟨-, h6, h⟩ := mem_packetCodes.1 hc
  · omega
  · exact h hqueue
  · omega
  · have hsmall := himm h5
    omega
  · have hlow := hlevel h7
    omega
  · exact h (halign h6)

theorem descBytes_of_gt {opc : Nat} (h : 7 < opc) : descBytes opc = 0 := by
  obtain ⟨n, rfl⟩ := Nat.exists_eq_add_of_lt h
  rw [Nat.add_assoc, Nat.add_comm]
  rfl

/-! ## Refusals (R82) -/

/-- An operation that does not exist: code 1. -/
theorem State.takePacket_unknown (h : 7 < pkOpc p) : s.takePacket q level parent p = s.refusePacket q 1 level := by
  refine State.takePacket_refuses (s.packetHeld_immediate (descBytes_of_gt h) _) (mem_packetCodes.2 (.inl ⟨rfl, h⟩)) (fun d hd => ?_)
    fun d hd => le_trans (by decide) (s.packetBrings_late q level p d hd)
  obtain ⟨rfl, -⟩ | ⟨rfl, -⟩ | ⟨rfl, -⟩ | ⟨rfl, -⟩ | ⟨rfl, -⟩ := mem_packetCodes.1 hd <;> decide

/-- A packet that names another queue: code 2. -/
theorem State.takePacket_misplaced (hopc : pkOpc p ≤ 7) (h : pkQueue p ≠ q) (hfree : s.noneHeld) :
    s.takePacket q level parent p = s.refusePacket q 2 level := by
  refine State.takePacket_refuses (State.packetHeld_of_noneHeld hfree _ _) (mem_packetCodes.2 (.inr (.inl ⟨rfl, h⟩))) (fun d hd => ?_)
    fun d hd => le_trans (by decide) (s.packetBrings_late q level p d hd)
  obtain ⟨-, hgt⟩ | ⟨rfl, -⟩ | ⟨rfl, -⟩ | ⟨rfl, -⟩ | ⟨rfl, -⟩ := mem_packetCodes.1 hd
  · omega
  all_goals decide

/-- A reserved bit, or an immediate past its 48 bits: code 3. -/
theorem State.takePacket_reserved (hopc : pkOpc p ≤ 7) (hqueue : pkQueue p = q)
    (h : 2 ^ 23 ≤ fieldOf p 3 0 ∨ (pkOpc p = 5 ∨ pkOpc p = 6) ∧ 2 ^ 48 ≤ pkPtr p) (hfree : s.noneHeld) :
    s.takePacket q level parent p = s.refusePacket q 3 level := by
  refine State.takePacket_refuses (State.packetHeld_of_noneHeld hfree _ _) (mem_packetCodes.2 (.inr (.inr (.inl ⟨rfl, h⟩)))) (fun d hd => ?_)
    (s.packetBrings_late q level p)
  obtain ⟨-, hgt⟩ | ⟨-, hne⟩ | ⟨rfl, -⟩ | ⟨rfl, -⟩ | ⟨rfl, -⟩ := mem_packetCodes.1 hd
  · omega
  · exact absurd hqueue hne
  all_goals decide

/-- An INDIRECT at level 0 to 3 whose descriptor is misaligned: code 6. -/
theorem State.takePacket_misaligned (hopc : pkOpc p = 7) (hqueue : pkQueue p = q) (hword : fieldOf p 3 0 < 2 ^ 23) (hlevel : level < 4)
    (h : pkPtr p % 16 ≠ 0) (hfree : s.noneHeld) : s.takePacket q level parent p = s.refusePacket q 6 level := by
  have hbytes : descBytes (pkOpc p) ≠ 0 := by
    rw [hopc]
    decide
  have hmem : 6 ∈ packetCodes q p level := mem_packetCodes.2 (.inr (.inr (.inr (.inr ⟨rfl, hbytes, h⟩))))
  refine State.takePacket_refuses (State.packetHeld_of_noneHeld hfree _ _) hmem (fun d hd => ?_) fun d hd => ?_
  · obtain ⟨-, hgt⟩ | ⟨-, hne⟩ | ⟨-, hbig | ⟨h56, -⟩⟩ | ⟨-, -, hhigh⟩ | ⟨rfl, -⟩ := mem_packetCodes.1 hd
    · omega
    · exact absurd hqueue hne
    · omega
    · omega
    · omega
    · exact le_refl 6
  · rw [(State.packetBrings_nothing (.inr hmem)).2] at hd
    exact absurd hd List.not_mem_nil

/-- The descriptor of an INDIRECT. -/
theorem State.packetDesc_indirect (hopc : pkOpc p = 7) (halign : pkPtr p % 16 = 0) :
    s.packetDesc q level p = s.feRead (pkSpace p) (pkPtr p) 16 := by
  have hbytes : descBytes 7 = 16 := rfl
  have haligned : ¬ 6 ∈ packetCodes q p level := fun h => by
    obtain ⟨h, -⟩ | ⟨h, -⟩ | ⟨h, -⟩ | ⟨h, -⟩ | ⟨-, -, h⟩ := mem_packetCodes.1 h
    all_goals omega
  unfold State.packetDesc
  rw [if_neg (by simp [hopc, hbytes, haligned]), hopc, hbytes]

/-- What an INDIRECT brings when its descriptor can be read. -/
theorem State.packetBrings_indirect (hopc : pkOpc p = 7) (halign : pkPtr p % 16 = 0) (hread : s.reads16 (pkSpace p) (pkPtr p)) :
    s.packetBrings q level p = s.descCodes (s.qDie q) 7 (pkSpace p) (s.mem.space (pkSpace p) (pkPtr p) 16) := by
  unfold State.packetBrings
  rw [State.packetDesc_indirect hopc halign, State.feRead_some hread]
  refine (if_neg ?_).trans (by rw [hopc])
  rw [List.isEmpty_iff, ← List.length_eq_zero_iff, Mem.space_length]
  decide

/-- And when it cannot. -/
theorem State.packetBrings_unread (hopc : pkOpc p = 7) (halign : pkPtr p % 16 = 0) (hread : ¬ s.reads16 (pkSpace p) (pkPtr p)) :
    s.packetBrings q level p = ([5], []) := by
  unfold State.packetBrings
  rw [State.packetDesc_indirect hopc halign, State.feRead_none hread]

section Indirect
variable (hopc : pkOpc p = 7) (hqueue : pkQueue p = q) (hword : fieldOf p 3 0 < 2 ^ 23) (halign : pkPtr p % 16 = 0)
include hopc hqueue hword halign

theorem packetCodes_indirect (hlevel : level < 4) : packetCodes q p level = [] :=
  packetCodes_nil (by omega) hqueue hword (by omega) (fun _ => hlevel) fun _ => halign

/-- An INDIRECT whose descriptor can be read is judged by it. -/
theorem State.takePacket_indirect (hlevel : level < 4) (hprev : pkWaitPrev p = false) (hread : s.reads16 (pkSpace p) (pkPtr p))
    (hheld : s.feHeld (pkSpace p) (pkPtr p) 16 = false) : s.takePacket q level parent p =
    match leastCode (s.descCodes (s.qDie q) 7 (pkSpace p) (s.mem.space (pkSpace p) (pkPtr p) 16)).1 with
    | some code => s.refusePacket q code level
    | none => s.startCommand q level parent p (s.mem.space (pkSpace p) (pkPtr p) 16) := by
  have hwait : s.packetWaits q parent p = false := by simp [State.packetWaits, hprev, hopc]
  rw [State.takePacket_judged (packetCodes_indirect hopc hqueue hword halign hlevel) hwait (by rw [s.packetHeld_indirect hopc, hheld]),
    State.packetBrings_indirect hopc halign hread, State.packetDesc_indirect hopc halign, State.feRead_some hread, Option.getD_some,
    State.descCodes_indirect, List.append_nil]

/-- An INDIRECT at level 4: code 4 (R79). -/
theorem State.takePacket_deep {space : Bool} (hspace : pkSpace p = space) (hlevel : 4 ≤ level)
    (hzero : fieldOf (s.mem.space space (pkPtr p) 16) 7 4 = 0) (hheld : s.feHeld space (pkPtr p) 16 = false) :
    s.takePacket q level parent p = s.refusePacket q 4 level := by
  subst hspace
  refine State.takePacket_refuses (by rw [s.packetHeld_indirect hopc, hheld]) (mem_packetCodes.2 (.inr (.inr (.inr (.inl ⟨rfl, hopc, hlevel⟩)))))
    (fun d hd => ?_) fun d hd => ?_
  · obtain ⟨-, hgt⟩ | ⟨-, hne⟩ | ⟨-, hbig | ⟨h56, -⟩⟩ | ⟨rfl, -⟩ | ⟨rfl, -⟩ := mem_packetCodes.1 hd
    · omega
    · exact absurd hqueue hne
    · omega
    · omega
    all_goals decide
  · by_cases hread : s.reads16 (pkSpace p) (pkPtr p)
    · rw [State.packetBrings_indirect hopc halign hread, State.descCodes_indirect] at hd
      simp only [zeroes, hzero, beq_self_eq_true, Bool.not_true, List.mem_append, mem_code3, Bool.false_eq_true, and_false, false_or,
        mem_ite_singleton, mem_ite_not_singleton] at hd
      obtain ⟨rfl, -⟩ | ⟨rfl, -⟩ := hd <;> decide
    · rw [State.packetBrings_unread hopc halign hread] at hd
      rw [List.mem_singleton.1 hd]
      decide

end Indirect

end Taken

end Sys2Proof.Machine

end

section
/-! SUPPORT. How a packet ends (R76, R77, R79, R80, R82, R126): a refusal halts the queue at it, and a start lists its command. -/

namespace Sys2Proof.Machine

/-! ## What signals leave of the front end -/

theorem State.Notified.frontEnd {s t : State} (h : s.Notified t) : t.engines = s.engines ∧ t.cmds = s.cmds ∧ t.ids = s.ids ∧ t.agenda = s.agenda := by
  obtain ⟨g, h, o, rfl⟩ := h
  exact ⟨rfl, rfl, rfl, rfl⟩

theorem SMap.get?_eq_none_of_not_mem {α : Type} {m : SMap α} {i : Nat} (h : i ∉ m.map (fun e => e.1)) : SMap.get? m i = none := by
  induction m with
  | nil => rfl
  | cons e m ih =>
    rw [List.map_cons, List.mem_cons, not_or] at h
    exact (if_neg (Ne.symm h.1)).trans (ih h.2)

theorem SMap.get?_upd_ne {α : Type} {m : SMap α} {i j : Nat} (f : α → α) (h : i ≠ j) : (SMap.upd m i f).get? j = m.get? j := by
  unfold SMap.upd
  split
  · rfl
  · exact SMap.get?_put_ne _ _ _ _ h

/-! ## A refusal (R82) -/

/-- The queue has halted at a packet, and nothing else has changed. -/
def State.Halted (s t : State) (q code level index : Nat) : Prop :=
  bits (t.reg (.qerr q)) 7 0 = code ∧ bits (t.reg (.qerr q)) 9 8 = level % 4 ∧ bits (t.reg (.qerr q)) 47 16 = index ∧
  bit (t.reg (.qctl q)) 31 = true ∧ bit (t.reg .intcause) 0 = true ∧ t.reg (.feq q) = s.reg (.feq q) ∧
  (t.engines.getD q {}).stack = [] ∧ t.mem = s.mem ∧ t.ctxs = s.ctxs

/-- Lists whose INDIRECTs are gone are dropped without a trace. -/
theorem State.dropLists_orphans {s : State} {q : Nat} (h : ∀ x ∈ (s.engines.getD q {}).stack, s.cmds.get? x.cmd = none) :
    s.dropLists q = { s with engines := s.engines.put q { s.engines.getD q {} with stack := [] } } := by
  have hfold : ∀ (l : List Expansion) (t : State), (∀ x ∈ l, t.cmds.get? x.cmd = none) →
      l.foldl (fun s x => (s.modCmd x.cmd (fun c => { c with listed := true })).indirectCheck x.cmd) t = t := by
    intro l
    induction l with
    | nil => exact fun _ _ => rfl
    | cons x l ih =>
      intro t ht
      obtain ⟨hx, hl⟩ := List.forall_mem_cons.1 ht
      have hmod : t.modCmd x.cmd (fun c => { c with listed := true }) = t := by
        unfold State.modCmd SMap.upd
        rw [hx]
      have hcheck : t.indirectCheck x.cmd = t := by
        unfold State.indirectCheck
        rw [hx]
      rw [List.foldl_cons, hmod, hcheck]
      exact ih t hl
  exact hfold _ _ h

/-- QERR and HALTED of a refusal. -/
def State.refusing (s : State) (q code level index : Nat) : State :=
  (s.setReg (.qerr q) (setBits (setBits (setBits (s.reg (.qerr q)) 7 0 code) 9 8 level) 47 16 index)).setReg (.qctl q)
    (setBit ((s.setReg (.qerr q) (setBits (setBits (setBits (s.reg (.qerr q)) 7 0 code) 9 8 level) 47 16 index)).reg (.qctl q)) 31 true)

theorem State.refusing_qerr {s : State} {q code level index : Nat} (hcode : code < 256) (hindex : index < 2 ^ 32) :
    bits ((s.refusing q code level index).reg (.qerr q)) 7 0 = code ∧ bits ((s.refusing q code level index).reg (.qerr q)) 9 8 = level % 4 ∧
    bits ((s.refusing q code level index).reg (.qerr q)) 47 16 = index := by
  rw [State.refusing, State.setReg_reg_ne _ _ _ _ (by simp only [Reg.key]; omega), State.setReg_reg]
  refine ⟨?_, ?_, ?_⟩
  · rw [bits_setBits_apart (by decide), bits_setBits_apart (by decide), bits_setBits_same (by decide)]
    exact Nat.mod_eq_of_lt hcode
  · rw [bits_setBits_apart (by decide), bits_setBits_same (by decide)]
    rfl
  · rw [bits_setBits_same (by decide)]
    exact Nat.mod_eq_of_lt hindex

theorem State.refusing_halted (s : State) (q code level index : Nat) : bit ((s.refusing q code level index).reg (.qctl q)) 31 = true := by
  rw [State.refusing, State.setReg_reg]
  exact bit_setBit_same (by decide)

theorem State.refusing_feq {s : State} {q code level index : Nat} (hq : q < 256) : (s.refusing q code level index).reg (.feq q) = s.reg (.feq q) := by
  rw [State.refusing, State.setReg_reg_ne _ _ _ _ (by simp only [Reg.key]; omega), State.setReg_reg_ne _ _ _ _ (by simp only [Reg.key]; omega)]

/-- A refusal before it signals. -/
def State.refused (s : State) (q code level index : Nat) : State :=
  { (s.refusing q code level index).dropLists q with
    engines := ((s.refusing q code level index).dropLists q).engines.put q
      { ((s.refusing q code level index).dropLists q).engines.getD q {} with refused0 := level == 0 } }

theorem State.refused_orphans {s : State} {q code level index : Nat} (h : ∀ x ∈ (s.engines.getD q {}).stack, s.cmds.get? x.cmd = none) :
    s.refused q code level index = { s.refusing q code level index with
      engines := (s.engines.put q { s.engines.getD q {} with stack := [] }).put q
        { s.engines.getD q {} with stack := [], refused0 := level == 0 } } := by
  rw [State.refused, State.dropLists_orphans (s := s.refusing q code level index) h]
  simp only [SMap.getD_put_same]
  rfl

/-- A refusal where every list of the queue has lost its INDIRECT, as where there is none. -/
theorem State.refusePacket_halts {s : State} {q code level : Nat} (hq : q < 256) (hcode : code < 256)
    (horphans : ∀ x ∈ (s.engines.getD q {}).stack, s.cmds.get? x.cmd = none) :
    s.Halted (s.refusePacket q code level) q code level (if level = 0 then s.qStart q else (s.qStart q + 2 ^ 32 - 1) % 2 ^ 32) := by
  have hstart : s.qStart q < 2 ^ 32 := bits_lt _ 63 32
  have hindex : (if level = 0 then s.qStart q else (s.qStart q + 2 ^ 32 - 1) % 2 ^ 32) < 2 ^ 32 := by
    split
    · exact hstart
    · exact Nat.mod_lt _ (by decide)
  have heq : s.refusePacket q code level =
      (s.refused q code level (if level = 0 then s.qStart q else (s.qStart q + 2 ^ 32 - 1) % 2 ^ 32)).raiseInt 0 := rfl
  generalize (if level = 0 then s.qStart q else (s.qStart q + 2 ^ 32 - 1) % 2 ^ 32) = index at heq hindex ⊢
  obtain ⟨hcode', hlevel', hindex'⟩ := State.refusing_qerr (s := s) (q := q) (level := level) hcode hindex
  have hreg : ∀ r : Reg, Reg.intcause.key ≠ r.key → Reg.msixPba.key ≠ r.key →
      (s.refusePacket q code level).reg r = (s.refusing q code level index).reg r := fun r hc hp => by
    rw [heq, State.raiseInt_reg_ne hc hp, State.refused_orphans horphans]
    rfl
  have hqerr := hreg (.qerr q) (by simp only [Reg.key]; omega) (by simp only [Reg.key]; omega)
  have hqctl := hreg (.qctl q) (by simp only [Reg.key]; omega) (by simp only [Reg.key]; omega)
  have hfeq := hreg (.feq q) (by simp only [Reg.key]; omega) (by simp only [Reg.key]; omega)
  refine ⟨hqerr ▸ hcode', hqerr ▸ hlevel', hqerr ▸ hindex', hqctl ▸ s.refusing_halted q code level index, ?_, hfeq.trans (State.refusing_feq hq), ?_, ?_, ?_⟩
  · rw [heq, State.raiseInt_intcause]
    exact bit_setBit_same (by decide)
  · rw [heq, (State.raiseInt_notified _ 0).frontEnd.1, State.refused_orphans horphans, SMap.getD_put_same]
  · rw [heq, State.raiseInt_mem, State.refused_orphans horphans]
    rfl
  · rw [heq, State.raiseInt_ctxs, State.refused_orphans horphans]
    rfl

end Sys2Proof.Machine

end

section
/-! SUPPORT. A start (R76, R78 to R80): the command that a packet lists, and where the queue goes on. -/

namespace Sys2Proof.Machine

/-- The command of a packet. -/
def State.newCommand (s : State) (q level : Nat) (parent : Option Nat) (p d : List Byte) : Cmd :=
  { queue := q, die := s.qDie q, opc := pkOpc p, irq := pkIrq p, prio := if pkPrioV p then pkPrio p else bits (s.reg (.qctl q)) 12 10,
    space := pkSpace p, tag := BitVec.ofNat 32 (pkTag p), ptr := BitVec.ofNat 64 (pkPtr p), level := level, parent := parent,
    cpl := if 1 ≤ pkOpc p ∧ pkOpc p ≤ 4 then fieldOf d 7 0 else 0, desc := d, node := 0xFFFF }

/-- The command listed. -/
def State.listing (s : State) (q level : Nat) (parent : Option Nat) (p d : List Byte) : State :=
  { s with cmds := s.cmds.put s.ids (s.newCommand q level parent p d), ids := s.ids + 1 }

/-- The command of a packet has started at a level, under its INDIRECT, and memory and the contexts are as they were. -/
def State.Started (s t : State) (q : Nat) (p : List Byte) (level : Nat) (parent : Option Nat) : Prop :=
  (t.cmds.get? s.ids).map (fun y => (y.queue, y.die, y.opc, y.irq, y.prio, y.tag.toNat, y.ptr.toNat)) =
    some (q, s.qDie q, fieldOf p 3 0 % 256, (fieldOf p 3 0).testBit 16,
      if (fieldOf p 3 0).testBit 18 then fieldOf p 3 0 / 2 ^ 19 % 8 else bits (s.reg (.qctl q)) 12 10, fieldOf p 7 4, fieldOf p 15 8) ∧
  (t.cmds.get? s.ids).map (fun y => (y.level, y.parent, y.waiting, y.done, y.space)) = some (level, parent, true, false, (fieldOf p 3 0).testBit 22) ∧
  t.ids = s.ids + 1 ∧ t.mem = s.mem ∧ t.ctxs = s.ctxs

section
variable {s : State} {q level : Nat} {parent : Option Nat} {p d : List Byte}

theorem State.startCommand_eq : s.startCommand q level parent p d =
    ((s.listing q level parent p d).passPacket q level).push [commandDue (pkOpc p) s.ids (graphInstalls d && pkOpc p == 1)] :=
  rfl

theorem State.passPacket_listed {x : Expansion} {rest : List Expansion} (h : (s.engines.getD q {}).stack = x :: rest) : s.passPacket q (level + 1) =
    if x.next + 1 = x.count then
      ({ s with engines := s.engines.put q { s.engines.getD q {} with stack := rest } } : State).modCmd x.cmd (fun c => { c with listed := true })
    else { s with engines := s.engines.put q { s.engines.getD q {} with stack := { x with next := x.next + 1 } :: rest } } := by
  unfold State.passPacket
  dsimp only
  rw [if_neg (Nat.succ_ne_zero level), h]

/-- The fields of the command are those of the packet. -/
theorem State.started_of_listed {t : State} (hp : p.length = 16) (hcmd : t.cmds.get? s.ids = some (s.newCommand q level parent p d))
    (hids : t.ids = s.ids + 1) (hmem : t.mem = s.mem) (hctxs : t.ctxs = s.ctxs) : s.Started t q p level parent := by
  have htag : (BitVec.ofNat 32 (pkTag p)).toNat = fieldOf p 7 4 :=
    (BitVec.toNat_ofNat _ _).trans (Nat.mod_eq_of_lt (fieldOf_lt p 7 4))
  have hptr : (BitVec.ofNat 64 (pkPtr p)).toNat = fieldOf p 15 8 :=
    (BitVec.toNat_ofNat _ _).trans (Nat.mod_eq_of_lt (fieldOf_lt p 15 8))
  refine ⟨?_, ?_, hids, hmem, hctxs⟩
  · rw [hcmd, Option.map_some]
    simp only [State.newCommand, htag, hptr, (packet_word hp).1, pkIrq, pkPrioV, packet_prio hp, packet_flag hp (show 0 < 8 by decide),
      packet_flag hp (show 2 < 8 by decide)]
  · rw [hcmd, Option.map_some]
    simp only [State.newCommand, pkSpace, packet_flag hp (show 6 < 8 by decide)]

theorem State.listing_get (s : State) (q level : Nat) (parent : Option Nat) (p d : List Byte) :
    (s.listing q level parent p d).cmds.get? s.ids = some (s.newCommand q level parent p d) :=
  SMap.get?_put_same _ _ _

/-- A packet of the ring starts its command, and START moves on (R76). -/
theorem State.startCommand_ring (hp : p.length = 16) : s.Started (s.startCommand q 0 parent p d) q p 0 parent ∧
    ((s.startCommand q 0 parent p d).cmds.get? s.ids).map (fun y => y.desc) = some d ∧
    bits ((s.startCommand q 0 parent p d).reg (.feq q)) 63 32 = (s.qStart q + 1) % 2 ^ 32 ∧
    bits ((s.startCommand q 0 parent p d).reg (.feq q)) 31 0 = s.qAdmit q ∧
    (s.startCommand q 0 parent p d).agenda = s.agenda ++ [commandDue (pkOpc p) s.ids (graphInstalls d && pkOpc p == 1)] := by
  have hcmd : (s.startCommand q 0 parent p d).cmds.get? s.ids = some (s.newCommand q 0 parent p d) := s.listing_get q 0 parent p d
  have hfeq : (s.startCommand q 0 parent p d).reg (.feq q) = setBits (s.reg (.feq q)) 63 32 (s.qStart q + 1) := State.setReg_reg _ _ _
  refine ⟨State.started_of_listed hp hcmd rfl rfl rfl, ?_, ?_, ?_, rfl⟩
  · rw [hcmd]
    rfl
  · rw [hfeq, bits_setBits_same (by decide)]
  · rw [hfeq, bits_setBits_apart (by decide)]
    rfl

/-- A listed packet starts its command, and its list moves on (R79). -/
theorem State.startCommand_listed {x : Expansion} {rest : List Expansion} (hp : p.length = 16) (h : (s.engines.getD q {}).stack = x :: rest)
    (hx : x.cmd < s.ids) : s.Started (s.startCommand q (level + 1) parent p d) q p (level + 1) parent ∧
    (s.startCommand q (level + 1) parent p d).reg (.feq q) = s.reg (.feq q) ∧
    ((s.startCommand q (level + 1) parent p d).engines.getD q {}).stack =
      if x.next + 1 = x.count then rest else { x with next := x.next + 1 } :: rest := by
  have hget := s.listing_get q (level + 1) parent p d
  rw [State.startCommand_eq, State.passPacket_listed (s := s.listing q (level + 1) parent p d) h]
  split
  · refine ⟨State.started_of_listed hp ((SMap.get?_upd_ne _ (Nat.ne_of_lt hx)).trans hget) rfl rfl rfl, rfl, ?_⟩
    exact congrArg Engine.stack (SMap.getD_put_same _ _ _ _)
  · refine ⟨State.started_of_listed hp hget rfl rfl rfl, rfl, ?_⟩
    exact congrArg Engine.stack (SMap.getD_put_same _ _ _ _)

end

end Sys2Proof.Machine

end

section
/-! SUPPORT. What becomes of each kind of packet (R78, R79, R82), with the step that reads it. -/

namespace Sys2Proof.Machine

section Kinds
variable {s : State} {q level : Nat} {parent : Option Nat} {p : List Byte}

/-- An immediate reads no descriptor. -/
theorem descBytes_immediate (h : pkOpc p = 0 ∨ pkOpc p = 5 ∨ pkOpc p = 6) : descBytes (pkOpc p) = 0 := by
  obtain h | h | h := h <;> rw [h] <;> rfl

theorem commandDue_immediate (c : Nat) (install : Bool) (h : pkOpc p = 0 ∨ pkOpc p = 5 ∨ pkOpc p = 6) : commandDue (pkOpc p) c install =
    if pkOpc p = 0 then .commandNop c else if pkOpc p = 5 then .flagset c else .flagwait c := by
  obtain h | h | h := h <;> rw [h] <;> rfl

section Immediate
variable (hopc : pkOpc p = 0 ∨ pkOpc p = 5 ∨ pkOpc p = 6) (hqueue : pkQueue p = q) (hword : fieldOf p 3 0 < 2 ^ 23)
  (himm : pkOpc p ≠ 0 → pkPtr p < 2 ^ 48)
include hopc hqueue hword himm

theorem packetCodes_immediate : packetCodes q p level = [] :=
  packetCodes_nil (by omega) hqueue hword (fun _ => himm (by omega)) (by omega) (absurd (descBytes_immediate hopc))

/-- An immediate with nothing to wait for starts. -/
theorem State.takePacket_immediate (hwait : s.packetWaits q parent p = false) :
    s.takePacket q level parent p = s.startCommand q level parent p [] := by
  obtain ⟨hdesc, hbrings⟩ := State.packetBrings_nothing (s := s) (q := q) (level := level) (.inl (descBytes_immediate hopc))
  rw [State.takePacket_judged (packetCodes_immediate hopc hqueue hword himm) hwait (s.packetHeld_immediate (descBytes_immediate hopc) _),
    hbrings, hdesc]
  rfl

end Immediate

/-- A packet that names no earlier command waits for none. -/
theorem State.packetWaits_not_asked (hprev : pkWaitPrev p = false) (hopc : pkOpc p ≠ 5) : s.packetWaits q parent p = false := by
  simp [State.packetWaits, hprev, hopc]

theorem State.packetWaits_alone (h : ∀ y ∈ s.cmds, y.2.queue ≠ q) : s.packetWaits q parent p = false := by
  rw [State.packetWaits, Bool.and_eq_false_iff, List.any_eq_false]
  exact .inr fun y hy => by simp [h y hy]

/-- At level 0 no command encloses the packet, so every command of the queue is an earlier one. -/
theorem State.packetWaits_behind (hasked : pkWaitPrev p = true ∨ pkOpc p = 5) (h : ∃ y ∈ s.cmds, y.2.queue = q) : s.packetWaits q none p = true := by
  obtain ⟨y, hy, hqueue⟩ := h
  have henclosing : s.enclosing 6 none = [] := rfl
  rw [State.packetWaits, henclosing, Bool.and_eq_true, List.any_eq_true]
  exact ⟨by simpa using hasked, y, hy, by simp [hqueue]⟩

/-- An INDIRECT whose descriptor is sound but for its count is judged by the count. -/
theorem State.takePacket_counted {space : Bool} (hopc : pkOpc p = 7) (hqueue : pkQueue p = q) (hword : fieldOf p 3 0 < 2 ^ 23)
    (halign : pkPtr p % 16 = 0) (hlevel : level < 4) (hprev : pkWaitPrev p = false) (hspace : pkSpace p = space)
    (hread : s.reads16 space (pkPtr p)) (hheld : s.feHeld space (pkPtr p) 16 = false) (hzero : fieldOf (s.mem.space space (pkPtr p) 16) 7 4 = 0)
    (hlist : fieldOf (s.mem.space space (pkPtr p) 16) 15 8 % 16 = 0) : s.takePacket q level parent p =
    if fieldOf (s.mem.space space (pkPtr p) 16) 3 0 = 0 ∨ 65536 < fieldOf (s.mem.space space (pkPtr p) 16) 3 0 then s.refusePacket q 8 level
    else s.startCommand q level parent p (s.mem.space space (pkPtr p) 16) := by
  subst hspace
  rw [State.takePacket_indirect hopc hqueue hword halign hlevel hprev hread hheld, State.descCodes_indirect, zeroes, hzero, if_pos hlist]
  by_cases hcount : fieldOf (s.mem.space (pkSpace p) (pkPtr p) 16) 3 0 = 0 ∨ 65536 < fieldOf (s.mem.space (pkSpace p) (pkPtr p) 16) 3 0
  · rw [if_pos hcount, if_pos hcount]
    rfl
  · rw [if_neg hcount, if_neg hcount]
    rfl

end Kinds

/-! ## The next packet of the ring -/

section Ring
variable {s : State} {q : Nat}

/-- The packet of the ring that START names. -/
def State.ringPacket (s : State) (q : Nat) : List Byte := s.mem.space (bit (s.reg (.qctl q)) 1) (s.slotAddr q) 16

/-- A queue that may start a packet of its ring, which no held column hides. -/
def State.AtRing (s : State) (q : Nat) : Prop :=
  Claims.MayStart s q ∧ (s.engines.getD q {}).stack = [] ∧ s.qStart q ≠ s.qAdmit q ∧
    s.feHeld (bit (s.reg (.qctl q)) 1) (s.slotAddr q) 16 = false

/-- The step refuses a packet of the ring with a code. -/
def State.Refuses (s : State) (q code : Nat) : Prop :=
  ∃ t, exec (.packetStart q) s = .next t ∧ s.Halted t q code 0 (s.qStart q)

theorem State.ringPacket_length (s : State) (q : Nat) : (s.ringPacket q).length = 16 := s.mem.space_length _ _ _

theorem State.packetStart_ring (htop : s.AtRing q) (hread : s.reads16 (bit (s.reg (.qctl q)) 1) (s.slotAddr q)) :
    s.packetStart q = s.takePacket q 0 none (s.ringPacket q) := by
  obtain ⟨hmay, hstack, hne, hheld⟩ := htop
  exact State.packetStart_takes hmay (State.nextPacket_ring hstack hne) hheld hread

theorem State.packetStart_ring_unread (htop : s.AtRing q) (hread : ¬ s.reads16 (bit (s.reg (.qctl q)) 1) (s.slotAddr q)) :
    s.packetStart q = s.refusePacket q 5 0 := by
  obtain ⟨hmay, hstack, hne, hheld⟩ := htop
  exact State.packetStart_unread hmay (State.nextPacket_ring hstack hne) hheld hread

theorem State.packetStart_waits_held (hstack : (s.engines.getD q {}).stack = []) (hheld : s.feHeld (bit (s.reg (.qctl q)) 1) (s.slotAddr q) 16 = true) :
    s.packetStart q = s := by
  by_cases hne : s.qStart q = s.qAdmit q
  · exact State.packetStart_idle (.inr (State.nextPacket_none hstack hne))
  · exact State.packetStart_held (State.nextPacket_ring hstack hne) hheld

theorem State.refuses_of_step {code : Nat} (hq : q < 256) (hcode : code < 256) (htop : s.AtRing q)
    (hstep : s.packetStart q = s.refusePacket q code 0) : s.Refuses q code := by
  obtain ⟨-, hstack, -, -⟩ := htop
  refine ⟨_, congrArg Host.Outcome.next hstep, State.refusePacket_halts hq hcode ?_⟩
  rw [hstack]
  exact fun x hx => absurd hx List.not_mem_nil

end Ring

end Sys2Proof.Machine

end

section

namespace Sys2Proof.Machine

/-- Settles O45: each packet is read where START or the innermost list points, its causes are those of its own fields and then of its descriptor,
and with none it is listed as a command. -/
theorem packetsStart : Obligations.PacketsStart := by
  intro s q x rest c e start adm addr at' canRead at16 p w opc ptr top kept command halted refuses noHold d
  have hp : p.length = 16 := s.ringPacket_length q
  obtain ⟨hopcOf, hqueueOf, -⟩ := packet_word hp
  have hprevOf : pkWaitPrev p = w.testBit 17 := packet_flag hp (by decide)
  have hspaceOf : pkSpace p = w.testBit 22 := packet_flag hp (by decide)
  refine ⟨?idle, ?held, ?unread, fun hq htop hread => ?ring, fun hq hmay hstack hheld hread => ?listed⟩
  case idle =>
    intro h
    exact congrArg Host.Outcome.next (State.packetStart_idle (h.imp id fun ⟨hstack, h⟩ => State.nextPacket_none hstack h))
  case held => exact fun hstack hheld => congrArg Host.Outcome.next (State.packetStart_waits_held hstack hheld)
  case unread => exact fun hq htop hread => State.refuses_of_step hq (by decide) htop (State.packetStart_ring_unread htop hread)
  case ring =>
    have hstep : s.packetStart q = s.takePacket q 0 none p := State.packetStart_ring htop hread
    have hrefuses : ∀ code, code < 256 → s.takePacket q 0 none p = s.refusePacket q code 0 → refuses code :=
      fun code hcode h => State.refuses_of_step hq hcode htop (hstep.trans h)
    have hstarts : ∀ l, s.takePacket q 0 none p = s.startCommand q 0 none p l → exec (.packetStart q) s = .next (s.startCommand q 0 none p l) :=
      fun l h => congrArg Host.Outcome.next (hstep.trans h)
    refine ⟨?unknown, ?misplaced, ?reserved, ?misaligned, ?badCount, ?indirect, ?immediate, ?waits⟩
    case unknown => exact fun h => hrefuses 1 (by decide) (State.takePacket_unknown (lt_of_lt_of_eq h hopcOf.symm))
    case misplaced =>
      exact fun h hqueue hfree => hrefuses 2 (by decide) (State.takePacket_misplaced (hopcOf.trans_le h) (fun h => hqueue (hqueueOf.symm.trans h)) hfree)
    case reserved =>
      intro h hqueue hres hfree
      refine hrefuses 3 (by decide) (State.takePacket_reserved (hopcOf.trans_le h) (hqueueOf.trans hqueue) ?_ hfree)
      exact hres.imp id (And.imp_left (Or.imp hopcOf.trans hopcOf.trans))
    case misaligned =>
      exact fun h hqueue hword hptr hfree =>
        hrefuses 6 (by decide) (State.takePacket_misaligned (hopcOf.trans h) (hqueueOf.trans hqueue) hword (by decide) hptr hfree)
    case badCount =>
      intro h hqueue hword hptr hprev hread' hzero hheld hlist hcount
      have htake := State.takePacket_counted (level := 0) (parent := none) (hopcOf.trans h) (hqueueOf.trans hqueue) hword hptr (by decide)
        (hprevOf.trans hprev) hspaceOf hread' hheld hzero hlist
      exact hrefuses 8 (by decide) (htake.trans (if_pos hcount))
    case indirect =>
      intro h hqueue hword hptr hprev hread' hzero hheld hlist hone hmost
      have htake := State.takePacket_counted (level := 0) (parent := none) (hopcOf.trans h) (hqueueOf.trans hqueue) hword hptr (by decide)
        (hprevOf.trans hprev) hspaceOf hread' hheld hzero hlist
      have hcount : ¬ (fieldOf d 3 0 = 0 ∨ 65536 < fieldOf d 3 0) := by omega
      obtain ⟨hstarted, hdesc, hstart, -, hagenda⟩ := State.startCommand_ring (s := s) (q := q) (parent := none) (d := d) hp
      rw [hopcOf.trans h] at hagenda
      exact ⟨_, hstarts d (htake.trans (if_neg hcount)), hstarted, hdesc, hstart, hagenda⟩
    case immediate =>
      intro h hqueue hword himm hwait
      have hopc : pkOpc p = 0 ∨ pkOpc p = 5 ∨ pkOpc p = 6 := h.imp hopcOf.trans (Or.imp hopcOf.trans hopcOf.trans)
      have hfree : s.packetWaits q none p = false := by
        obtain ⟨hprev, hnot⟩ | halone := hwait
        · exact State.packetWaits_not_asked (hprevOf.trans hprev) fun h5 => hnot (hopcOf.symm.trans h5)
        · exact State.packetWaits_alone halone
      have htake := State.takePacket_immediate (level := 0) hopc (hqueueOf.trans hqueue) hword (fun h0 => himm fun h => h0 (hopcOf.trans h)) hfree
      obtain ⟨hstarted, -, hstart, hadmit, hagenda⟩ := State.startCommand_ring (s := s) (q := q) (parent := none) (d := []) hp
      rw [commandDue_immediate _ _ hopc, hopcOf] at hagenda
      exact ⟨_, hstarts [] htake, hstarted, hstart, hadmit, hagenda⟩
    case waits =>
      intro h hqueue hword himm hasked hbehind
      have hopc : pkOpc p = 0 ∨ pkOpc p = 5 ∨ pkOpc p = 6 := h.imp hopcOf.trans (Or.imp hopcOf.trans hopcOf.trans)
      have hcodes := packetCodes_immediate (level := 0) hopc (hqueueOf.trans hqueue) hword fun h0 => himm fun h => h0 (hopcOf.trans h)
      have hwait := State.packetWaits_behind (hasked.imp hprevOf.trans hopcOf.trans) hbehind
      exact congrArg Host.Outcome.next (hstep.trans (State.takePacket_waits hcodes hwait))
  case listed =>
    intro pk v
    have hpk : pk.length = 16 := s.mem.space_length _ _ _
    obtain ⟨hopcOf, hqueueOf, -⟩ := packet_word hpk
    have hstep : s.packetStart q = s.takePacket q (x.level + 1) (some x.cmd) pk :=
      State.packetStart_takes hmay (State.nextPacket_listed hstack) hheld hread
    refine ⟨fun h hqueue hword hlevel hptr horphan hrest hheld' hzero => ?deep, fun h hqueue hword hprev hids => ?nop⟩
    case deep =>
      have htake : s.takePacket q (x.level + 1) (some x.cmd) pk = s.refusePacket q 4 (x.level + 1) :=
        State.takePacket_deep (hopcOf.trans h) (hqueueOf.trans hqueue) hword hptr (packet_flag hpk (by decide)) (by omega) hzero hheld'
      have horphans : ∀ y ∈ (s.engines.getD q {}).stack, s.cmds.get? y.cmd = none := fun y hy => by
        rw [hstack, hrest, List.mem_singleton] at hy
        exact hy ▸ SMap.get?_eq_none_of_not_mem horphan
      have hhalts := State.refusePacket_halts (code := 4) (level := 4) hq (by decide) horphans
      rw [if_neg (by decide)] at hhalts
      rw [hlevel] at hstep htake
      exact ⟨_, congrArg Host.Outcome.next (hstep.trans htake), hhalts⟩
    case nop =>
      have hopc : pkOpc pk = 0 := hopcOf.trans h
      have hfree : s.packetWaits q (some x.cmd) pk = false :=
        State.packetWaits_not_asked ((packet_flag hpk (by decide)).trans hprev) (by omega)
      have htake := State.takePacket_immediate (level := x.level + 1) (.inl hopc) (hqueueOf.trans hqueue) hword (absurd hopc) hfree
      obtain ⟨hstarted, hfeq, hgoes⟩ := State.startCommand_listed (s := s) (level := x.level) (parent := some x.cmd) (d := []) hpk hstack hids
      exact ⟨_, congrArg Host.Outcome.next (hstep.trans htake), hstarted, hfeq, hgoes⟩

end Sys2Proof.Machine

end

section
/-! SUPPORT. A memory that lists one byte twice (log entry 4): the state in which `Obligations.RidersAndStallsLeave` sees a byte of DRAM change at
the end of a maintenance move. -/

namespace Sys2Proof.Machine

/-- The move of the stall at column 0 of die row 0 has been copied to its end, and the memory lists the byte at offset 0 as 1 and then as 2. -/
def relisting : State :=
  { State.reset with clock := copyCycles, moves := [(0, { col := 0, pos := 0, copying := true })], mem := { bytes := [(0, 1), (0, 2)] } }

/-- The first entry counts. -/
theorem relisting_byte : relisting.mem.get 0 = 1 := by decide

/-- The memory is listed anew, in the order of its entries, so that the last one counts (R20). -/
theorem relisting_endMove : (relisting.endMove 0).mem.get 0 = 2 := by decide +kernel

end Sys2Proof.Machine

end

section
namespace Sys2Proof.Machine

/-- Refutes O51: its clause on the end of a move keeps every byte of DRAM, in any state, whether or not its memory is in the canonical form of
log entry 4 (`Mem.wf`). In `relisting` offset 0 is listed twice; `Mem.get` reads the first entry, and the numbering of the row's stalls shifts by
listing the entries anew, the last one on top. -/
theorem not_ridersAndStallsLeave : ¬ Obligations.RidersAndStallsLeave := by
  unfold Obligations.RidersAndStallsLeave
  intro h
  obtain ⟨-, -, -, -, hmove, -⟩ := h relisting 0 0 0 0 0
    { kind := .kernel, die := 0, cmd := 0, bank := [], prio := 0, asid := 0, root := 0, aspace := false, total := 0 }
    { col := 0, pos := 0, copying := true }
  obtain ⟨t, ht, -, -, -, -, -, hmem⟩ := hmove (by decide) rfl rfl (by decide) (by decide) rfl
  have heq : t = relisting.endMove 0 := (Host.Outcome.next.inj ht).symm
  have hbyte := hmem (by decide)
  rw [heq, relisting_endMove, relisting_byte] at hbyte
  exact absurd hbyte (by decide)

end Sys2Proof.Machine
end

section
/-! SUPPORT. Maps that are changed at one key or filled key by key, and the fields of the launch node table (R105, R106) as parts of memory. -/

namespace Sys2Proof.Machine

/-! ## Maps -/

section Maps
variable {α : Type} {m : SMap α} {i : Nat}

theorem SMap.get?_upd_same {x : α} (f : α → α) (h : m.get? i = some x) : (m.upd i f).get? i = some (f x) := by
  unfold SMap.upd
  rw [h]
  exact SMap.get?_put_same _ _ _

theorem SMap.get?_del_same (h : rising (m.map (fun e => e.1)) = true) : (m.del i).get? i = none := by
  induction m with
  | nil => rfl
  | cons e m ih =>
    obtain ⟨hlow, hrising⟩ := (rising_cons _ _).1 h
    unfold SMap.del
    split
    · next hi => exact SMap.get?_eq_none_of_not_mem fun hmem => Nat.lt_irrefl i (hi ▸ hlow i hmem)
    · next hi => exact (if_neg hi).trans (ih hrising)

theorem SMap.get?_foldl_put (g : Nat → α) (k : Nat) (l : List Nat) : ∀ m : SMap α,
    (l.foldl (fun m n => m.put n (g n)) m).get? k = if k ∈ l then some (g k) else m.get? k := by
  induction l with
  | nil => exact fun m => (if_neg List.not_mem_nil).symm
  | cons n l ih =>
    intro m
    rw [List.foldl_cons, ih, SMap.get?_put]
    by_cases hk : k ∈ l
    · rw [if_pos hk, if_pos (List.mem_cons_of_mem _ hk)]
    · by_cases hn : n = k
      · subst hn
        rw [if_neg hk, if_pos rfl, if_pos List.mem_cons_self]
      · rw [if_neg hk, if_neg hn, if_neg (by rw [List.mem_cons, not_or]; exact ⟨Ne.symm hn, hk⟩)]

end Maps

/-! ## Parts of a read -/

theorem Mem.take_drop_read (m : Mem) (a : Nat) {o n len : Nat} (h : o + n ≤ len) : ((m.read a len).drop o).take n = m.read (a + o) n := by
  refine List.ext_getElem (by simp only [List.length_take, List.length_drop, Mem.read_length]; omega) fun i h1 h2 => ?_
  rw [List.getElem_take, List.getElem_drop, Mem.getElem_read, Mem.getElem_read, Nat.add_assoc]

theorem fieldOf_read (m : Mem) (a : Nat) {hi lo len : Nat} (hlo : lo ≤ hi) (hhi : hi < len) :
    fieldOf (m.read a len) hi lo = leNat (m.read (a + lo) (hi + 1 - lo)) :=
  congrArg leNat (m.take_drop_read a (by omega))

theorem fieldOf_node (s : State) (die n : Nat) {hi lo : Nat} (hlo : lo ≤ hi) (hhi : hi < 128) :
    fieldOf (s.node die n) hi lo = leNat (s.mem.read (nodeAddr die n + lo) (hi + 1 - lo)) := fieldOf_read _ _ hlo hhi

/-- A field of a node's header. -/
theorem fieldOf_header (s : State) (die n : Nat) {hi lo : Nat} (hlo : lo ≤ hi) (hhi : hi < 32) :
    fieldOf (s.mem.read (nodeAddr die n) 32) hi lo = fieldOf (s.node die n) hi lo :=
  (fieldOf_read _ _ hlo hhi).trans (fieldOf_node s die n hlo (by omega)).symm

/-- A byte of a read. -/
theorem fieldOf_read_byte (m : Mem) (a : Nat) {i len : Nat} (hi : i < len) : fieldOf (m.read a len) i i = (m.get (a + i)).toNat := by
  rw [fieldOf_read m a le_rfl hi, show i + 1 - i = 1 by omega]
  simp only [Mem.read, leNat, Nat.mul_zero, Nat.add_zero]

/-! ## The launch node table (R105, R106) -/

/-- The second memory holds the same beyond module DRAM. -/
def Mem.SameBeyond (m m' : Mem) : Prop := ∀ b, dramBytes ≤ b → m'.get b = m.get b

theorem dramBytes_le_nodeAddr (die n : Nat) : dramBytes ≤ nodeAddr die n := by unfold dramBytes nodeAddr; omega

theorem dramBytes_le_edgeAddr (die e : Nat) : dramBytes ≤ edgeAddr die e := by unfold dramBytes edgeAddr; omega

theorem Mem.SameBeyond.read {m m' : Mem} (h : m.SameBeyond m') {a : Nat} (ha : dramBytes ≤ a) (n : Nat) : m'.read a n = m.read a n :=
  Mem.read_ext fun i _ => h (a + i) (by omega)

theorem State.node_congr {s t : State} (h : s.mem.SameBeyond t.mem) (die n : Nat) : t.node die n = s.node die n :=
  h.read (dramBytes_le_nodeAddr die n) 128

theorem State.successors_congr {s t : State} (h : s.mem.SameBeyond t.mem) (die n : Nat) (setB : Bool) :
    Claims.successors t die n setB = Claims.successors s die n setB := by
  unfold Claims.successors
  simp only [State.node_congr h, h.read (dramBytes_le_edgeAddr die _)]

end Sys2Proof.Machine

end

section
/-! SUPPORT. A replay (R113 to R120): what it takes from a launched node, what a node that ends leaves it, and a status noted in its command. -/

namespace Sys2Proof.Machine

/-! ## What a step of a replay may change -/

/-- The second state is the first with other replays and other steps due. -/
def State.ReplaysOnly (s t : State) : Prop := ∃ R A, t = { s with replays := R, agenda := A }

theorem State.ReplaysOnly.refl (s : State) : s.ReplaysOnly s := ⟨s.replays, s.agenda, rfl⟩

theorem State.ReplaysOnly.trans {s t u : State} (h1 : s.ReplaysOnly t) (h2 : t.ReplaysOnly u) : s.ReplaysOnly u := by
  obtain ⟨R, A, rfl⟩ := h1
  obtain ⟨R', A', rfl⟩ := h2
  exact ⟨R', A', rfl⟩

theorem State.ReplaysOnly.mem {s t : State} (h : s.ReplaysOnly t) : t.mem = s.mem := by
  obtain ⟨R, A, rfl⟩ := h
  rfl

theorem State.ReplaysOnly.ctxs {s t : State} (h : s.ReplaysOnly t) : t.ctxs = s.ctxs := by
  obtain ⟨R, A, rfl⟩ := h
  rfl

theorem State.ReplaysOnly.cmds {s t : State} (h : s.ReplaysOnly t) : t.cmds = s.cmds := by
  obtain ⟨R, A, rfl⟩ := h
  rfl

theorem State.ReplaysOnly.patches {s t : State} (h : s.ReplaysOnly t) : t.patches = s.patches := by
  obtain ⟨R, A, rfl⟩ := h
  rfl

theorem State.modReplay_replaysOnly (s : State) (r : Nat) (f : Replay → Replay) : s.ReplaysOnly (s.modReplay r f) := ⟨_, s.agenda, rfl⟩

theorem State.push_replaysOnly (s : State) (l : List Due) : s.ReplaysOnly (s.push l) := ⟨s.replays, _, rfl⟩

theorem State.modReplay_get {s : State} {r : Nat} {x : Replay} (f : Replay → Replay) (h : s.replays.get? r = some x) :
    (s.modReplay r f).replays.get? r = some (f x) := SMap.get?_upd_same f h

/-! ## Nodes that become due, LIVE (R115) -/

theorem State.makeDue_replaysOnly (s : State) (r : Nat) (l : List Nat) : s.ReplaysOnly (s.makeDue r l) := by
  unfold State.makeDue
  split
  · exact .refl s
  · exact (s.modReplay_replaysOnly r _).trans (State.push_replaysOnly _ _)

theorem State.makeDue_get {s : State} {r : Nat} {x : Replay} (l : List Nat) (h : s.replays.get? r = some x) :
    (s.makeDue r l).replays.get? r = some { x with due := x.due ++ l } := by
  unfold State.makeDue
  rw [h]
  exact State.modReplay_get _ h

/-- Nodes become due; with none of them another step is. -/
def State.makeDueOr (s : State) (r : Nat) (l : List Nat) (d : Due) : State := if l.isEmpty then (s.makeDue r l).push [d] else s.makeDue r l

theorem State.makeDueOr_replaysOnly (s : State) (r : Nat) (l : List Nat) (d : Due) : s.ReplaysOnly (s.makeDueOr r l d) := by
  unfold State.makeDueOr
  split
  · exact (s.makeDue_replaysOnly r l).trans (State.push_replaysOnly _ _)
  · exact s.makeDue_replaysOnly r l

theorem State.makeDueOr_get {s : State} {r : Nat} {x : Replay} (l : List Nat) (d : Due) (h : s.replays.get? r = some x) :
    (s.makeDueOr r l d).replays.get? r = some { x with due := x.due ++ l } := by
  unfold State.makeDueOr
  split
  · exact State.makeDue_get l h
  · exact State.makeDue_get l h

/-- LIVE of a node is one lower; from 1 to 0 the node is due. -/
def Replay.lower (x : Replay) (n : Nat) : Replay :=
  match x.live.getD n 0 with
  | 0 => x
  | v + 1 => { x with live := x.live.put n v, due := if v = 0 then x.due ++ [n] else x.due }

theorem State.decLive_replaysOnly (s : State) (r n : Nat) : s.ReplaysOnly (s.decLive r n) := by
  unfold State.decLive
  split
  · exact .refl s
  · split
    · exact .refl s
    · dsimp only
      split
      · exact (s.modReplay_replaysOnly r _).trans (State.makeDue_replaysOnly _ _ _)
      · exact s.modReplay_replaysOnly r _

theorem State.decLive_get {s : State} {r : Nat} {x : Replay} (n : Nat) (h : s.replays.get? r = some x) :
    (s.decLive r n).replays.get? r = some (x.lower n) := by
  unfold State.decLive Replay.lower
  rw [h]
  dsimp only
  cases x.live.getD n 0 with
  | zero => exact h
  | succ v =>
    dsimp only
    have hput := State.modReplay_get (fun x => { x with live := x.live.put n v }) h
    by_cases hv : v = 0
    · rw [if_pos hv, if_pos hv]
      exact State.makeDue_get [n] hput
    · rw [if_neg hv, if_neg hv]
      exact hput

/-- The successors are read from a memory that no step of them changes. -/
theorem State.foldl_decLive_read (r : Nat) (f : Mem → Nat → Nat) (l : List Nat) : ∀ s : State,
    l.foldl (fun s i => s.decLive r (f s.mem i)) s = (l.map (f s.mem)).foldl (fun s m => s.decLive r m) s := by
  induction l with
  | nil => exact fun _ => rfl
  | cons i l ih =>
    intro s
    rw [List.foldl_cons, ih, (s.decLive_replaysOnly r _).mem, List.map_cons, List.foldl_cons]

theorem State.foldl_decLive (r : Nat) (l : List Nat) : ∀ (s : State) (x : Replay), s.replays.get? r = some x →
    (l.foldl (fun s m => s.decLive r m) s).replays.get? r = some (l.foldl Replay.lower x) ∧ s.ReplaysOnly (l.foldl (fun s m => s.decLive r m) s) := by
  induction l with
  | nil => exact fun s x h => ⟨h, .refl s⟩
  | cons n l ih =>
    intro s x h
    obtain ⟨hget, hrest⟩ := ih (s.decLive r n) (x.lower n) (State.decLive_get n h)
    exact ⟨hget, (s.decLive_replaysOnly r n).trans hrest⟩

theorem Replay.lower_live (x : Replay) (n m : Nat) : (x.lower n).live.getD m 0 = x.live.getD m 0 - [n].count m := by
  unfold Replay.lower
  by_cases hn : n = m
  · subst hn
    rw [List.count_singleton_self]
    split
    · next h => omega
    · next v h => rw [SMap.getD_put_same, h, Nat.succ_sub_one]
  · rw [List.count_singleton, if_neg (by simpa using hn), Nat.sub_zero]
    split
    · rfl
    · exact SMap.getD_put_ne _ _ _ _ _ hn

theorem Replay.mem_lower_due (x : Replay) (n m : Nat) : m ∈ (x.lower n).due ↔ m ∈ x.due ∨ n = m ∧ x.live.getD m 0 = 1 := by
  unfold Replay.lower
  split
  · next h => exact ⟨.inl, Or.rec id fun ⟨hn, h1⟩ => absurd (hn ▸ h) (by omega)⟩
  · next v h =>
    dsimp only
    split
    · next hv => grind
    · next hv => grind

theorem Replay.lower_rest (x : Replay) (n : Nat) : ∃ live due, x.lower n = { x with live := live, due := due } := by
  unfold Replay.lower
  split
  · exact ⟨x.live, x.due, rfl⟩
  · exact ⟨_, _, rfl⟩

/-- LIVE of a node after its successors' turn is lower by the number of its edges, and one that has come to 0 makes its node due. -/
theorem Replay.foldl_lower (m : Nat) (l : List Nat) : ∀ x : Replay, (l.foldl Replay.lower x).live.getD m 0 = x.live.getD m 0 - l.count m ∧
    (m ∈ (l.foldl Replay.lower x).due ↔ m ∈ x.due ∨ 0 < x.live.getD m 0 ∧ x.live.getD m 0 ≤ l.count m) := by
  induction l with
  | nil => exact fun x => ⟨rfl, by simp only [List.foldl_nil, List.count_nil]; exact ⟨.inl, Or.rec id fun h => by omega⟩⟩
  | cons n l ih =>
    intro x
    obtain ⟨hlive, hdue⟩ := ih (x.lower n)
    have hcount : (n :: l).count m = l.count m + [n].count m := by
      rw [List.count_cons, List.count_singleton]
    rw [x.lower_live n m] at hlive hdue
    rw [x.mem_lower_due n m] at hdue
    have hone : [n].count m = if n = m then 1 else 0 := by simp [List.count_singleton]
    rw [List.foldl_cons, hcount, hlive, hdue, hone]
    refine ⟨by omega, ?_⟩
    by_cases hdue' : m ∈ x.due
    · simp only [hdue', true_or]
    · by_cases hn : n = m
      · simp only [hdue', hn, if_true, true_and, false_or]
        omega
      · simp only [hdue', hn, if_false, false_and, false_or]
        omega

theorem Replay.foldl_lower_rest (l : List Nat) : ∀ x : Replay, ∃ live due, l.foldl Replay.lower x = { x with live := live, due := due } := by
  induction l with
  | nil => exact fun x => ⟨x.live, x.due, rfl⟩
  | cons n l ih =>
    intro x
    obtain ⟨live, due, h⟩ := x.lower_rest n
    obtain ⟨live', due', h'⟩ := ih (x.lower n)
    exact ⟨live', due', by rw [List.foldl_cons, h', h]⟩

/-! ## A node that ends (R115, R118, R120) -/

theorem State.replayCheck_push (s : State) (r n : Nat) : ∃ l, s.replayCheck r n = s.push l := by
  have hnone : s = s.push [] := by rw [State.push, List.append_nil]
  unfold State.replayCheck
  split
  · exact ⟨[], hnone⟩
  · split
    · exact ⟨_, rfl⟩
    · split
      · exact ⟨_, rfl⟩
      · exact ⟨[], hnone⟩

/-- A replay in which a node no longer runs. -/
def Replay.ended (x : Replay) (n : Nat) : Replay := { x with running := x.running.erase n, loops := x.loops.del n }

theorem State.finishNode_sound {s : State} {r : Nat} {x : Replay} (n : Nat) (setB : Bool) (h : s.replays.get? r = some x) :
    (s.finishNode r n false setB).replays.get? r = some ((Claims.successors s x.die n setB).foldl Replay.lower (x.ended n)) ∧
    s.ReplaysOnly (s.finishNode r n false setB) := by
  have hended := State.modReplay_get (fun x => x.ended n) h
  obtain ⟨hget, hreplays⟩ := State.foldl_decLive r (Claims.successors s x.die n setB) _ _ hended
  have heq : s.finishNode r n false setB =
      ((Claims.successors s x.die n setB).foldl (fun s m => s.decLive r m) (s.modReplay r fun x => x.ended n)).replayCheck r n := by
    unfold State.finishNode
    rw [h]
    exact congrArg (fun t : State => t.replayCheck r n)
      (State.foldl_decLive_read r (fun m i => leNat (m.read (edgeAddr x.die ((nodeSet (s.node x.die n) setB).1 + i)) 2) % 2 ^ 14) _ _)
  obtain ⟨l, hpush⟩ := State.replayCheck_push
    ((Claims.successors s x.die n setB).foldl (fun s m => s.decLive r m) (s.modReplay r fun x => x.ended n)) r n
  rw [heq, hpush]
  exact ⟨hget, ((s.modReplay_replaysOnly r _).trans hreplays).trans (State.push_replaysOnly _ _)⟩

theorem State.finishNode_replaysOnly {s : State} {r : Nat} {x : Replay} (n : Nat) (setB : Bool) (h : s.replays.get? r = some x) :
    s.ReplaysOnly (s.finishNode r n false setB) := (State.finishNode_sound n setB h).2

/-- A node that ends without fault has completed. -/
theorem State.finishNode_completes {s : State} {r : Nat} {x : Replay} (n : Nat) (setB : Bool) (h : s.replays.get? r = some x) :
    Claims.Completed s (s.finishNode r n false setB) r n x setB := by
  obtain ⟨hget, -⟩ := State.finishNode_sound n setB h
  obtain ⟨live, due, hrest⟩ := Replay.foldl_lower_rest (Claims.successors s x.die n setB) (x.ended n)
  refine ⟨by rw [hget, hrest]; rfl, fun m _ => ?_⟩
  obtain ⟨hlive, hdue⟩ := Replay.foldl_lower m (Claims.successors s x.die n setB) (x.ended n)
  rw [hget, Option.map_some, Option.map_some, hlive]
  refine ⟨rfl, congrArg some ?_⟩
  rw [Bool.eq_iff_iff, List.contains_iff_mem, hdue]
  simp [Replay.ended]

theorem State.completed_congr {s s' t : State} {r n : Nat} {x : Replay} {setB : Bool} (h : Claims.Completed s' t r n x setB)
    (hmem : s.mem.SameBeyond s'.mem) : Claims.Completed s t r n x setB := by
  unfold Claims.Completed at h ⊢
  rwa [State.successors_congr hmem] at h

/-! ## A status noted (R111) -/

theorem lowStatus_eq {a b : Nat} (hb : b ≠ 0) : lowStatus a b = if a = 0 then b else Nat.min a b := by
  unfold lowStatus
  rw [if_neg hb]

/-- The status and the node of a command in which a fault or an ITERMAX has been noted. -/
theorem State.noteStatus_get {s : State} {k n code : Nat} {c : Cmd} (h : s.cmds.get? k = some c) (h0 : code ≠ 0) (h3 : code < 3) :
    ((s.noteStatus k n code).cmds.get? k).map (fun y => (y.status, y.node)) =
      some (if c.status = 0 then code else Nat.min c.status code, if c.node = 0xFFFF then n else c.node) := by
  have hget : (s.noteStatus k n code).cmds.get? k = _ := SMap.get?_upd_same _ h
  rw [hget, Option.map_some, lowStatus_eq h0]
  simp only [h3, decide_true, Bool.true_and, beq_iff_eq]

/-- A replay in which a fault is noted for the loop, if any, that holds its node. -/
def Replay.faulted (x : Replay) (loop : Option Nat) : Replay :=
  { x with loopFault := match loop with
      | some l => setAdd x.loopFault l
      | none => x.loopFault }

theorem State.finishNode_fault {s : State} {r : Nat} {x : Replay} {c : Cmd} (n : Nat) (setB : Bool) (h : s.replays.get? r = some x)
    (hc : s.cmds.get? x.cmd = some c) :
    ((s.finishNode r n true setB).cmds.get? x.cmd).map (fun y => (y.status, y.node)) =
      some (if c.status = 0 then 1 else Nat.min c.status 1, if c.node = 0xFFFF then n else c.node) ∧
    ((s.finishNode r n true setB).replays.get? r).map (fun y => (y.running, y.live, y.due)) = some (x.running.erase n, x.live, x.due) ∧
    (s.finishNode r n true setB).mem = s.mem ∧ (s.finishNode r n true setB).ctxs = s.ctxs := by
  have heq : s.finishNode r n true setB = (((s.modReplay r fun x => x.ended n).noteStatus x.cmd n 1).modReplay r
      fun y => y.faulted (innerLoop (s.replayLoops x) n)).replayCheck r n := by
    unfold State.finishNode
    rw [h]
    rfl
  have hreplay := State.modReplay_get (s := (s.modReplay r fun x => x.ended n).noteStatus x.cmd n 1)
    (fun y => y.faulted (innerLoop (s.replayLoops x) n)) (State.modReplay_get (fun x => x.ended n) h)
  obtain ⟨l, hpush⟩ := State.replayCheck_push
    (((s.modReplay r fun x => x.ended n).noteStatus x.cmd n 1).modReplay r fun y => y.faulted (innerLoop (s.replayLoops x) n)) r n
  rw [heq, hpush]
  exact ⟨State.noteStatus_get (s := s.modReplay r fun x => x.ended n) hc (by decide) (by decide), congrArg (Option.map _) hreplay, rfl, rfl⟩

end Sys2Proof.Machine

end

section
/-! SUPPORT. What an INSTALL writes (R112), what the start of a replay makes of its nodes (R114), and the end of a command (R111). -/

namespace Sys2Proof.Machine

/-! ## Blocks stored side by side -/

section Blocks
variable {f : Nat → List Byte} {addr : Nat → Nat} {base k : Nat} (haddr : ∀ j, addr j = base + k * j)
include haddr

theorem Mem.get_foldl_store (m : Mem) (n : Nat) (hf : ∀ j < n, (f j).length = k) {b : Nat} (hb : b < base ∨ base + k * n ≤ b) :
    ((List.range n).foldl (fun (m : Mem) j => m.store (addr j) (f j)) m).get b = m.get b := by
  induction n with
  | zero => rfl
  | succ n ih =>
    rw [Nat.mul_succ] at hb
    rw [List.range_succ, List.foldl_append, List.foldl_cons, List.foldl_nil, Mem.get_store_apart _ (by rw [haddr, hf n n.lt_succ_self]; omega)]
    exact ih (fun j hj => hf j (by omega)) (by omega)

theorem Mem.read_foldl_store (m : Mem) (n : Nat) (hf : ∀ j < n, (f j).length = k) {i : Nat} (hi : i < n) :
    ((List.range n).foldl (fun (m : Mem) j => m.store (addr j) (f j)) m).read (addr i) k = f i := by
  induction n with
  | zero => exact absurd hi (Nat.not_lt_zero i)
  | succ n ih =>
    rw [List.range_succ, List.foldl_append, List.foldl_cons, List.foldl_nil]
    by_cases hin : i = n
    · subst hin
      have hread := Mem.read_store ((List.range i).foldl (fun (m : Mem) j => m.store (addr j) (f j)) m) (addr i) (f i)
      rwa [hf i hi] at hread
    · have hend : k * i + k ≤ k * n := by rw [← Nat.mul_succ]; exact Nat.mul_le_mul_left k (by omega)
      refine (Mem.read_ext fun o ho => Mem.get_store_apart _ (.inl ?_)).trans (ih (fun j hj => hf j (by omega)) (by omega))
      rw [haddr, haddr]
      omega

end Blocks

/-! ## The end of a command (R111) -/

theorem State.cmdDone_get {s : State} {c : Nat} {x : Cmd} (h : s.cmds.get? c = some x) :
    (s.cmdDone c).cmds.get? c = some { x with done := true, waiting := false } := by
  have hstatus : lowStatus x.status 0 = x.status := by
    unfold lowStatus
    split <;> simp_all
  have hget := SMap.get?_upd_same (fun x => { x with done := true, waiting := false, status := lowStatus x.status 0 }) h
  rwa [hstatus] at hget

theorem State.releasePatches_nil {s : State} (h : s.patches = []) : s.releasePatches = s := by
  unfold State.releasePatches
  rw [h, List.foldl_nil]

/-! ## GRAPH (R112, R113) -/

section Graph
variable {s : State} {c : Nat} {x : Cmd}

theorem State.graphRun_waits (h : s.cmds.get? c = some x) (hturn : s.graphTurn c x = false) : s.graphRun c = s ∧ s.graphInstall c = s := by
  unfold State.graphRun State.graphInstall
  rw [h]
  simp only [hturn, Bool.not_false, Bool.or_true, if_true, and_self]

theorem State.graphRun_begins (h : s.cmds.get? c = some x) (hopc : x.opc = 1) (hwait : x.waiting = true) (hrun : fieldOf x.desc 20 20 ≠ 1)
    (hturn : s.graphTurn c x = true) : s.graphRun c =
      ({ s.modCmd c (fun x => { x with waiting := false }) with
         replays := s.replays.put s.ids { cmd := c, die := x.die, first := graphFirst x.desc, count := graphCount x.desc },
         ids := s.ids + 1 } : State).push [.replayStart s.ids] := by
  unfold State.graphRun
  rw [h]
  simp [hopc, hwait, hturn, graphInstalls, hrun]

/-- The 128 bytes of a node as an INSTALL writes them: its image with VALID and active bank 0, and the bank of the image in both places. -/
def installedNode (h : List Byte) : List Byte :=
  ([h.getD 0 0, BitVec.ofNat 8 ((h.getD 1 0).toNat % 2 + 8)] ++ h.drop 2) ++ h.drop 32

theorem installedNode_length {h : List Byte} (hlen : h.length = 80) : (installedNode h).length = 128 := by
  simp [installedNode, hlen]

theorem imageNode_length {nodes : List Byte} {i count : Nat} (hi : i < count) (hlen : 80 * count ≤ nodes.length) : (imageNode nodes i).length = 80 := by
  have : 80 * i + 80 ≤ 80 * count := by omega
  simp only [imageNode, List.length_take, List.length_drop]
  omega

/-- The nodes of an INSTALL in memory. -/
def Mem.withNodes (m : Mem) (die first count : Nat) (nodes : List Byte) : Mem :=
  (List.range count).foldl (fun (m : Mem) i => m.store (nodeAddr die (first + i)) (installedNode (imageNode nodes i))) m

/-- The edges of an INSTALL in memory. -/
def Mem.withEdges (m : Mem) (die first count : Nat) (edges : List Byte) : Mem :=
  (List.range count).foldl (fun (m : Mem) i => m.store (edgeAddr die (first + i)) (leBytes 2 (imageEdge edges i))) m

/-- Memory after the INSTALL of a descriptor. -/
def Mem.withGraph (m : Mem) (die : Nat) (d : List Byte) : Mem :=
  (m.withNodes die (graphFirst d) (graphCount d) (d.drop 48)).withEdges die (graphEdges d).1 (graphEdges d).2
    ((d.drop 48).drop (80 * graphCount d))

theorem State.graphInstall_writes (h : s.cmds.get? c = some x) (hopc : x.opc = 1) (hwait : x.waiting = true) (hinstall : fieldOf x.desc 20 20 = 1)
    (hturn : s.graphTurn c x = true) (hpatches : s.patches = []) :
    s.graphInstall c = ({ s with mem := s.mem.withGraph x.die x.desc } : State).cmdDone c := by
  have hgo : (x.opc != 1 || !graphInstalls x.desc || !x.waiting || !s.graphTurn c x) = false := by
    simp [hopc, hwait, hturn, graphInstalls, hinstall]
  unfold State.graphInstall
  rw [h]
  exact (if_neg (by rw [hgo]; exact Bool.false_ne_true)).trans (State.releasePatches_nil hpatches)

theorem nodeAddr_add (die first j : Nat) : nodeAddr die (first + j) = nodeAddr die first + 128 * j := by
  unfold nodeAddr
  omega

theorem edgeAddr_add (die first j : Nat) : edgeAddr die (first + j) = edgeAddr die first + 2 * j := by
  unfold edgeAddr
  omega

theorem Mem.get_withEdges (m : Mem) (die first count : Nat) (edges : List Byte) {b : Nat} (hb : b < edgeAddr die first) :
    (m.withEdges die first count edges).get b = m.get b :=
  Mem.get_foldl_store (edgeAddr_add die first) m count (fun _ _ => leBytes_length _ _) (.inl hb)

theorem Mem.withEdges_edge (m : Mem) (die first : Nat) {count : Nat} (edges : List Byte) {i : Nat} (hi : i < count) :
    leNat ((m.withEdges die first count edges).read (edgeAddr die (first + i)) 2) = imageEdge edges i := by
  have hlt : imageEdge edges i < 256 ^ 2 := by
    have := fieldOf_lt edges (2 * i + 1) (2 * i)
    rwa [show 2 * i + 1 + 1 - 2 * i = 2 by omega] at this
  rw [Mem.withEdges, Mem.read_foldl_store (edgeAddr_add die first) m count (fun _ _ => leBytes_length _ _) hi, leNat_leBytes, Nat.mod_eq_of_lt hlt]

section Nodes
variable {count : Nat} {nodes : List Byte} (hlen : 80 * count ≤ nodes.length)
include hlen

theorem Mem.get_withNodes (m : Mem) (die first : Nat) {b : Nat} (hb : b < nodeAddr die first) : (m.withNodes die first count nodes).get b = m.get b :=
  Mem.get_foldl_store (nodeAddr_add die first) m count (fun _ hj => installedNode_length (imageNode_length hj hlen)) (.inl hb)

theorem Mem.withNodes_image (m : Mem) (die first : Nat) {i : Nat} (hi : i < count) :
    (m.withNodes die first count nodes).read (nodeAddr die (first + i)) 80 =
      [(imageNode nodes i).getD 0 0, BitVec.ofNat 8 (((imageNode nodes i).getD 1 0).toNat % 2 + 8)] ++ (imageNode nodes i).drop 2 := by
  have hnode : (m.withNodes die first count nodes).read (nodeAddr die (first + i)) 128 = installedNode (imageNode nodes i) :=
    Mem.read_foldl_store (nodeAddr_add die first) m count (fun _ hj => installedNode_length (imageNode_length hj hlen)) hi
  have hpart := (m.withNodes die first count nodes).take_drop_read (nodeAddr die (first + i)) (o := 0) (n := 80) (len := 128) (by decide)
  rw [Nat.add_zero] at hpart
  rw [← hpart, hnode, List.drop_zero, installedNode]
  exact List.take_left' (by simp [imageNode_length hi hlen])

end Nodes

end Graph

/-! ## Loops and top-level nodes (R106, R114, R118) -/

theorem foldl_some_isSome {α β : Type} (f : Option α → β → Option α) (hf : ∀ x b, (f (some x) b).isSome = true) (l : List β) :
    ∀ x : α, (l.foldl f (some x)).isSome = true := by
  induction l with
  | nil => exact fun _ => rfl
  | cons b l ih =>
    intro x
    obtain ⟨y, hy⟩ := Option.isSome_iff_exists.1 (hf x b)
    rw [List.foldl_cons, hy]
    exact ih y

/-- A node has no loop around it exactly when it lies in the body of none. -/
theorem innerLoop_isNone (loops : List (Nat × Nat × Nat)) (n : Nat) :
    (innerLoop loops n).isNone = loops.all (fun l => !(l.2.1 ≤ n && n ≤ l.2.2)) := by
  have hall : loops.all (fun l => !(l.2.1 ≤ n && n ≤ l.2.2)) = (loops.filter (inBody n)).isEmpty := by
    rw [Bool.eq_iff_iff, List.isEmpty_iff, List.filter_eq_nil_iff, List.all_eq_true]
    refine forall₂_congr fun l _ => ?_
    rw [Bool.not_eq_true', Bool.not_eq_true]
    rfl
  rw [hall, innerLoop, Option.isNone_map]
  cases loops.filter (inBody n) with
  | nil => rfl
  | cons l ls =>
    have hsome := foldl_some_isSome (fun (m : Option (Nat × Nat × Nat)) l =>
      match m with
      | none => some l
      | some x => if l.2.2 - l.2.1 < x.2.2 - x.2.1 then some l else m) (fun x b => by dsimp only; split <;> rfl) ls l
    rw [List.isEmpty_cons, Option.isNone_eq_false_iff]
    exact hsome

/-- The nodes of a replay outside every loop. -/
def State.topNodes (s : State) (y : Replay) : List Nat :=
  ((List.range y.count).map (fun i => y.first + i)).filter (fun n => (innerLoop (s.replayLoops y) n).isNone)

/-- LIVE of the nodes of a list, armed with NPRED. -/
def State.armed (s : State) (die : Nat) (l : List Nat) : SMap Nat := l.foldl (fun (m : SMap Nat) n => m.put n (nodeNpred (s.node die n))) []

theorem State.armed_get (s : State) (die : Nat) (l : List Nat) (i : Nat) :
    (s.armed die l).get? i = if i ∈ l then some (nodeNpred (s.node die i)) else none :=
  SMap.get?_foldl_put (fun n => nodeNpred (s.node die n)) i l []

/-- The nodes of a list without predecessor. -/
def State.unled (s : State) (die : Nat) (l : List Nat) : List Nat := l.filter (fun n => nodeNpred (s.node die n) == 0)

theorem State.mem_topNodes {s : State} {y : Replay} {i : Nat} : i ∈ s.topNodes y ↔
    (y.first ≤ i ∧ i < y.first + y.count) ∧ (s.replayLoops y).all (fun l => !(l.2.1 ≤ i && i ≤ l.2.2)) = true := by
  rw [State.topNodes, List.mem_filter, innerLoop_isNone, List.mem_map]
  refine and_congr_left fun _ => ⟨?_, fun h => ⟨i - y.first, List.mem_range.2 (by omega), by omega⟩⟩
  rintro ⟨j, hj, rfl⟩
  have := List.mem_range.1 hj
  omega

/-! ## Banks that change (R114) -/

/-- A node whose bank changes when a PATCH is pending. -/
def State.bankChanged (s : State) (die n : Nat) : State :=
  if nodePend (s.node die n) then s.setNodeBits die n (1 - nodeActb (s.node die n)) false else s

/-- RESTART, ACTB, PEND and VALID after the change. -/
def turnedFlags (v : Nat) : Nat := if v.testBit 2 then v % 2 + 2 * (1 - v / 2 % 2) + 8 else v

theorem State.bankChanged_mem (s : State) (die n : Nat) : ∃ m, s.bankChanged die n = { s with mem := m } ∧
    (m.get (nodeAddr die n + 1)).toNat = turnedFlags (s.mem.get (nodeAddr die n + 1)).toNat ∧
    ∀ b, b ≠ nodeAddr die n + 1 → m.get b = s.mem.get b := by
  have hflags : fieldOf (s.node die n) 1 1 = (s.mem.get (nodeAddr die n + 1)).toNat := fieldOf_read_byte _ _ (by decide)
  unfold State.bankChanged turnedFlags nodePend nodeActb State.setNodeBits
  rw [hflags]
  generalize hv : (s.mem.get (nodeAddr die n + 1)).toNat = v
  split
  · refine ⟨_, rfl, ?_, fun b hb => ?_⟩
    · rw [Mem.store, Mem.store, Mem.get_set, if_pos rfl, BitVec.toNat_ofNat, Bool.toNat_false]
      omega
    · rw [Mem.store, Mem.store, Mem.get_set, if_neg (Ne.symm hb)]
  · exact ⟨s.mem, rfl, hv, fun _ _ => rfl⟩

theorem nodeFlag_inj {die n m : Nat} (h : nodeAddr die n + 1 = nodeAddr die m + 1) : n = m := by
  unfold nodeAddr at h
  omega

/-- Each node of a list changes its flags by itself, and nothing else changes. -/
theorem State.foldl_bankChanged (die : Nat) (l : List Nat) : l.Nodup → ∀ s : State,
    ∃ m, l.foldl (fun s n => s.bankChanged die n) s = { s with mem := m } ∧
      (∀ n ∈ l, (m.get (nodeAddr die n + 1)).toNat = turnedFlags (s.mem.get (nodeAddr die n + 1)).toNat) ∧
      ∀ b, (∀ n ∈ l, b ≠ nodeAddr die n + 1) → m.get b = s.mem.get b := by
  induction l with
  | nil => exact fun _ s => ⟨s.mem, rfl, fun _ hn => absurd hn List.not_mem_nil, fun _ _ => rfl⟩
  | cons n l ih =>
    intro hnodup s
    obtain ⟨hn, hl⟩ := List.nodup_cons.1 hnodup
    obtain ⟨m, hm, hflag, hkept⟩ := s.bankChanged_mem die n
    obtain ⟨m', hm', hflags, hkept'⟩ := ih hl { s with mem := m }
    refine ⟨m', by rw [List.foldl_cons, hm, hm'], fun k hk => ?_, fun b hb => ?_⟩
    · obtain rfl | hk := List.mem_cons.1 hk
      · rw [hkept' (nodeAddr die k + 1) fun j hj he => hn (by rwa [nodeFlag_inj he]), hflag]
      · rw [hflags k hk, hkept (nodeAddr die k + 1) fun he => hn (by rwa [← nodeFlag_inj he])]
    · exact (hkept' b fun k hk => hb k (List.mem_cons_of_mem n hk)).trans (hkept b (hb n List.mem_cons_self))

/-! ## The start of a replay (R114) -/

/-- The state in which the banks of a replay's nodes have changed. -/
def State.banksChanged (s : State) (y : Replay) : State :=
  ((List.range y.count).map (fun i => y.first + i)).foldl (fun s n => s.bankChanged y.die n) s

/-- The fields of a node but its flags are the same. -/
theorem State.banksChanged_mem (s : State) (y : Replay) : ∃ m, s.banksChanged y = { s with mem := m } ∧
    (∀ i, y.first ≤ i → i < y.first + y.count → (m.get (nodeAddr y.die i + 1)).toNat = turnedFlags (s.mem.get (nodeAddr y.die i + 1)).toNat) ∧
    ∀ b, (∀ n, b ≠ nodeAddr y.die n + 1) → m.get b = s.mem.get b := by
  have hnodup : ((List.range y.count).map (fun i => y.first + i)).Nodup := List.nodup_range.map fun a b h => Nat.add_left_cancel h
  obtain ⟨m, hm, hflags, hkept⟩ := State.foldl_bankChanged y.die _ hnodup s
  exact ⟨m, hm, fun i hlo hhi => hflags i (List.mem_map.2 ⟨i - y.first, List.mem_range.2 (by omega), by omega⟩), fun b hb => hkept b fun n _ => hb n⟩

theorem State.fieldOf_banksChanged (s : State) (y : Replay) (n : Nat) {hi lo : Nat} (hlo : lo ≤ hi) (hhi : hi < 128) (hflags : hi = 0 ∨ 2 ≤ lo) :
    fieldOf ((s.banksChanged y).node y.die n) hi lo = fieldOf (s.node y.die n) hi lo := by
  obtain ⟨m, hm, -, hkept⟩ := s.banksChanged_mem y
  rw [fieldOf_node _ _ _ hlo hhi, fieldOf_node _ _ _ hlo hhi, hm]
  refine congrArg leNat (Mem.read_ext fun i hi' => hkept _ fun k hk => ?_)
  unfold nodeAddr at hk
  omega

theorem State.nodeKind_banksChanged (s : State) (y : Replay) (n : Nat) : nodeKind ((s.banksChanged y).node y.die n) = nodeKind (s.node y.die n) :=
  congrArg (· % 16) (s.fieldOf_banksChanged y n le_rfl (by decide) (.inl rfl))

theorem State.nodeNpred_banksChanged (s : State) (y : Replay) (n : Nat) : nodeNpred ((s.banksChanged y).node y.die n) = nodeNpred (s.node y.die n) :=
  congrArg (· % 2 ^ 14) (s.fieldOf_banksChanged y n (by decide) (by decide) (.inr le_rfl))

theorem State.nodeBody_banksChanged (s : State) (y : Replay) (n : Nat) : nodeBody ((s.banksChanged y).node y.die n) = nodeBody (s.node y.die n) := by
  unfold nodeBody
  rw [s.fieldOf_banksChanged y n (by decide) (by decide) (.inr (by decide)), s.fieldOf_banksChanged y n (by decide) (by decide) (.inr (by decide))]

theorem State.replayLoops_banksChanged (s : State) (y : Replay) : (s.banksChanged y).replayLoops y = s.replayLoops y := by
  unfold State.replayLoops loopsOf
  simp only [List.zipIdx_map, List.filter_map, List.map_map, Function.comp_def, Prod.map_fst, Prod.map_snd, State.nodeKind_banksChanged,
    State.nodeBody_banksChanged]

theorem State.topNodes_banksChanged (s : State) (y : Replay) : (s.banksChanged y).topNodes y = s.topNodes y := by
  unfold State.topNodes
  rw [State.replayLoops_banksChanged]

theorem State.replayStart_eq {s : State} {r : Nat} {y : Replay} (h : s.replays.get? r = some y) (hlive : y.live = []) : s.replayStart r =
    ((s.banksChanged y).modReplay r fun x => { x with live := (s.banksChanged y).armed y.die ((s.banksChanged y).topNodes y) }).makeDueOr r
      ((s.banksChanged y).unled y.die ((s.banksChanged y).topNodes y)) (.replayComplete r) := by
  unfold State.replayStart
  rw [h]
  exact if_neg (by rw [hlive]; decide)

theorem State.replayStart_begins {s : State} {r : Nat} {y : Replay} (h : s.replays.get? r = some y) (hlive : y.live = []) :
    (s.replayStart r).replays.get? r = some { y with
      live := (s.banksChanged y).armed y.die (s.topNodes y), due := y.due ++ (s.banksChanged y).unled y.die (s.topNodes y) } ∧
    (s.banksChanged y).ReplaysOnly (s.replayStart r) := by
  obtain ⟨m, hm, -⟩ := s.banksChanged_mem y
  have hget : (s.banksChanged y).replays.get? r = some y := by rw [hm]; exact h
  rw [State.replayStart_eq h hlive, State.topNodes_banksChanged]
  exact ⟨State.makeDueOr_get _ _ (State.modReplay_get _ hget), (State.modReplay_replaysOnly _ _ _).trans (State.makeDueOr_replaysOnly _ _ _ _)⟩

/-! ## The end of a replay (R120) -/

/-- The top-level nodes of a replay that never ran. -/
def State.neverRan (s : State) (y : Replay) : Nat :=
  ((List.range y.count).map (fun j => y.first + j)).countP (fun n => (innerLoop (s.replayLoops y) n).isNone && !y.launched.contains n)

theorem State.neverRan_eq (s : State) (y : Replay) : s.neverRan y = ((List.range y.count).map (fun j => y.first + j)).countP
    (fun n => (s.replayLoops y).all (fun l => !(l.2.1 ≤ n && n ≤ l.2.2)) && !y.launched.contains n) := by
  unfold State.neverRan
  simp only [innerLoop_isNone]

theorem State.replayComplete_ends {s : State} {r : Nat} {y : Replay} {x : Cmd} (h : s.replays.get? r = some y) (hlive : y.live ≠ [])
    (hrunning : y.running = []) (hdue : y.due = []) (hx : s.cmds.get? y.cmd = some x) (hrising : rising (s.replays.map (fun z => z.1)) = true) :
    (s.replayComplete r).replays.get? r = none ∧ (s.replayComplete r).mem = s.mem ∧
    (s.replayComplete r).cmds.get? y.cmd = some { x with done := true, waiting := false, skipped := s.neverRan y } := by
  have hends : s.replayComplete r =
      (({ s with replays := s.replays.del r } : State).modCmd y.cmd fun c => { c with skipped := s.neverRan y }).cmdDone y.cmd := by
    unfold State.replayComplete
    rw [h]
    exact if_neg (by simp [hlive, hrunning, hdue])
  rw [hends]
  exact ⟨SMap.get?_del_same hrising, rfl, State.cmdDone_get (x := { x with skipped := s.neverRan y }) (SMap.get?_upd_same _ hx)⟩

theorem State.replayComplete_waits {s : State} {r : Nat} {y : Replay} (h : s.replays.get? r = some y) (hleft : y.running ≠ [] ∨ y.due ≠ []) :
    s.replayComplete r = s := by
  unfold State.replayComplete
  rw [h]
  refine if_pos ?_
  obtain hleft | hleft := hleft <;> simp [hleft]

end Sys2Proof.Machine

end

section
namespace Sys2Proof.Machine

/-- Settles O47: a GRAPH in its turn lists its replay or stores its nodes and edges block by block; the start of a replay changes the flags of each
node by itself, so that loops and NPRED are still those of the state before it; and a replay without a node left completes its command. -/
theorem graphsAndReplays : Obligations.GraphsAndReplays := by
  unfold Obligations.GraphsAndReplays
  intro s c r i x y d first count ef ec image edge has node b1 loops isTop npred
  refine ⟨?run, ?waits, ?install, ?start, ?complete, ?left⟩
  case run =>
    rintro ⟨hx, hopc, hwait⟩ hrun hturn
    refine ⟨_, congrArg Host.Outcome.next (State.graphRun_begins hx hopc hwait hrun hturn), SMap.get?_put_same _ _ _, rfl, ?_, rfl, rfl⟩
    exact SMap.get?_upd_same _ hx
  case waits =>
    rintro ⟨hx, -⟩ hturn
    obtain ⟨hrun, hinstall⟩ := State.graphRun_waits hx hturn
    exact ⟨congrArg Host.Outcome.next hrun, congrArg Host.Outcome.next hinstall⟩
  case install =>
    rintro ⟨hx, hopc, hwait⟩ hinstall hturn hdie hnodes hedges hpatches hlen
    have hlist : 80 * graphCount x.desc ≤ (x.desc.drop 48).length := by
      rw [List.length_drop]
      change d.length = _ at hlen
      change 80 * count ≤ d.length - 48
      omega
    refine ⟨_, congrArg Host.Outcome.next (State.graphInstall_writes hx hopc hwait hinstall hturn hpatches), State.cmdDone_get hx, rfl,
      fun hi => ?_, fun hi => Mem.withEdges_edge _ _ _ _ hi, fun hi => ?_⟩
    · refine (Mem.read_ext fun o ho => Mem.get_withEdges _ _ _ _ _ ?_).trans (Mem.withNodes_image hlist s.mem x.die first hi)
      change nodeAddr x.die (first + i) + o < edgeAddr x.die ef
      unfold nodeAddr edgeAddr
      omega
    · have hnode := dramBytes_le_nodeAddr x.die (graphFirst x.desc)
      have hedge := dramBytes_le_edgeAddr x.die (graphEdges x.desc).1
      exact (Mem.get_withEdges _ _ _ _ _ (by omega)).trans (Mem.get_withNodes hlist _ _ _ (by omega))
  case start =>
    intro hy hlive hcount hdie hrange hpatches
    obtain ⟨hget, honly⟩ := State.replayStart_begins hy hlive
    obtain ⟨m, hm, hflags, hkept⟩ := s.banksChanged_mem y
    have hmem : (s.replayStart r).mem = m := honly.mem.trans (by rw [hm])
    have hctxs : (s.replayStart r).ctxs = s.ctxs := honly.ctxs.trans (by rw [hm])
    have hpatches' : (s.replayStart r).patches = s.patches := honly.patches.trans (by rw [hm])
    have hstep : exec (.replayStart r) s = .next (s.replayStart r) :=
      congrArg Host.Outcome.next (State.releasePatches_nil (hpatches'.trans hpatches))
    have htop : i ∈ s.topNodes y ↔ (y.first ≤ i ∧ i < y.first + y.count) ∧ isTop i = true := State.mem_topNodes
    have hnpred : nodeNpred ((s.banksChanged y).node y.die i) = npred i :=
      (s.nodeNpred_banksChanged y i).trans (congrArg (· % 2 ^ 14) (fieldOf_header s y.die i (by decide) (by decide)).symm)
    refine ⟨_, hstep, hctxs, fun hlo hhi => ⟨?flags, ?live, ?due⟩, fun hi => ?_⟩
    case flags =>
      have hread := fun u : State => fieldOf_read_byte u.mem (nodeAddr y.die i) (i := 1) (len := 32) (by decide)
      exact (hread _).trans ((congrArg (fun u : Mem => (u.get _).toNat) hmem).trans ((hflags i hlo hhi).trans (congrArg turnedFlags (hread s).symm)))
    case live =>
      rw [hget, Option.map_some, State.armed_get, hnpred]
      simp only [htop, hlo, hhi, and_self, true_and]
    case due =>
      rw [hget, Option.map_some, State.unled]
      refine congrArg some ?_
      rw [List.contains_eq_mem, List.contains_eq_mem, Bool.eq_iff_iff]
      simp only [decide_eq_true_eq, List.mem_append, List.mem_filter, htop, hlo, hhi, and_self, true_and, hnpred, Bool.or_eq_true, Bool.and_eq_true]
    · rw [hmem]
      refine hkept i fun n hn => ?_
      have := dramBytes_le_nodeAddr y.die n
      omega
  case complete =>
    intro hy hlive hrunning hdue hx hrising
    obtain ⟨hgone, hmem, hcmd⟩ := State.replayComplete_ends hy hlive hrunning hdue hx hrising
    exact ⟨_, rfl, hgone, hmem, by rw [hcmd, State.neverRan_eq]⟩
  case left => exact fun hy hleft => congrArg Host.Outcome.next (State.replayComplete_waits hy hleft)

end Sys2Proof.Machine
end

section
/-! SUPPORT. A launch whose riders are created one by one on a die with free records (R117, R162, R167): record i holds rider i. -/

namespace Sys2Proof.Machine

/-! ## Records (R163, R164) -/

theorem SMap.put_perm {α : Type} {m : SMap α} {i : Nat} (x : α) (h : m.get? i = none) : (SMap.put m i x).Perm ((i, x) :: m) := by
  induction m with
  | nil => exact .refl _
  | cons e m ih =>
    obtain ⟨k, v⟩ := e
    have hk : k ≠ i := fun hk => absurd ((if_pos hk).symm.trans h) (Option.some_ne_none v)
    have hm : SMap.get? m i = none := (if_neg hk).symm.trans h
    unfold SMap.put
    split
    · exact .refl _
    · rw [if_neg (Ne.symm hk)]
      exact ((ih hm).cons (k, v)).trans (.swap _ _ _)

theorem SMap.mem_of_get? {α : Type} {m : SMap α} {i : Nat} {x : α} (h : m.get? i = some x) : (i, x) ∈ m := by
  induction m with
  | nil => exact absurd h.symm (Option.some_ne_none x)
  | cons e m ih =>
    obtain ⟨k, v⟩ := e
    by_cases hk : k = i
    · have hv : some v = some x := (if_pos hk).symm.trans h
      rw [hk, Option.some.inj hv]
      exact List.mem_cons_self
    · exact List.mem_cons_of_mem _ (ih ((if_neg hk).symm.trans h))

section Records
variable {s : State} {die i : Nat} (hdie : die < 4)
include hdie

theorem riderKey_div (i : Nat) : riderKey die i / 4 = i := by unfold riderKey; omega

theorem keyDie_riderKey (i : Nat) : keyDie (riderKey die i) = die := by unfold keyDie riderKey; omega

omit hdie in
theorem riderKey_inj {i j : Nat} (h : riderKey die i = riderKey die j) : i = j := by unfold riderKey at h; omega

theorem isGroom_riderKey (hi : i < poolSize) : isGroom (riderKey die i) = false := by
  unfold isGroom groomKey riderKey
  unfold poolSize at hi
  exact decide_eq_false (by omega)

/-- A record that is not in use has no context. -/
theorem State.get?_of_free (hi : i < poolSize) (h : i ∉ s.recordsOf die) : s.ctxs.get? (riderKey die i) = none := by
  rw [Option.eq_none_iff_forall_ne_some]
  intro c hc
  refine h (List.mem_map.2 ⟨(riderKey die i, c), List.mem_filter.2 ⟨SMap.mem_of_get? hc, ?_⟩, riderKey_div hdie i⟩)
  simp [isGroom_riderKey hdie hi, keyDie_riderKey hdie]

theorem State.recordsOf_putRider (hi : i < poolSize) (h : i ∉ s.recordsOf die) (c : Ctx) :
    ((s.putRider die i c).recordsOf die).Perm (i :: s.recordsOf die) := by
  have hperm := ((SMap.put_perm c (State.get?_of_free hdie hi h)).filter (fun c => !isGroom c.1 && keyDie c.1 == die)).map (fun c => c.1 / 4)
  rwa [List.filter_cons_of_pos (by simp [isGroom_riderKey hdie hi, keyDie_riderKey hdie]), List.map_cons, riderKey_div hdie] at hperm

omit hdie in
/-- The first records in use leave the next one as the lowest that is free. -/
theorem State.freeRecord_next (hi : i < poolSize) (h : (s.recordsOf die).Perm (List.range i)) : s.freeRecord die = some i := by
  have hused : ∀ j, j ∈ s.recordsOf die ↔ j < i := fun j => by rw [h.mem_iff, List.mem_range]
  have hlen : (s.recordsOf die).length = i := h.length_eq.trans List.length_range
  unfold State.freeRecord
  dsimp only
  rw [hlen, if_neg (by omega), List.range_succ, List.find?_append, List.find?_eq_none.2 (by simp [hused]), Option.none_or]
  simp [hused]

end Records

/-! ## Riders created one by one (R117) -/

/-- The second state is the first with other launches, contexts, generations and numbers given out. -/
def State.Creates (s t : State) : Prop := ∃ L C G I, t = { s with launches := L, ctxs := C, gens := G, ids := I }

theorem State.Creates.trans {s t u : State} (h1 : s.Creates t) (h2 : t.Creates u) : s.Creates u := by
  obtain ⟨L, C, G, I, rfl⟩ := h1
  obtain ⟨L', C', G', I', rfl⟩ := h2
  exact ⟨L', C', G', I', rfl⟩

theorem State.Creates.replays {s t : State} (h : s.Creates t) : t.replays = s.replays := by
  obtain ⟨L, C, G, I, rfl⟩ := h
  rfl

theorem State.Creates.mem {s t : State} (h : s.Creates t) : t.mem = s.mem := by
  obtain ⟨L, C, G, I, rfl⟩ := h
  rfl

theorem State.Creates.recordWait {s t : State} (h : s.Creates t) : t.recordWait = s.recordWait := by
  obtain ⟨L, C, G, I, rfl⟩ := h
  rfl

/-- One rider more of a launch, in the record of its number. -/
def State.withRider (s : State) (li i : Nat) (l : Launch) : State :=
  ({ s with launches := s.launches.put li { l with created := i + 1 } } : State).putRider l.die i
    (l.rider li i i (s.gens.getD (riderKey l.die i) 0) s.ids s.clock false)

section Grant
variable {l : Launch} {li : Nat} (hdie : l.die < 4) (hbound : bankBound l.kind l.bank = false) (hexact : l.exact = []) (htotal : l.total ≤ poolSize)
include hbound hexact htotal

omit hdie in
theorem State.grantFree_step {s : State} {i n : Nat} (hl : s.launches.get? li = some { l with created := i }) (hi : i < l.total)
    (hrecords : (s.recordsOf l.die).Perm (List.range i)) : s.grantFree li (n + 1) = (s.withRider li i l).grantFree li n := by
  have hfree : s.freeRecord l.die = some i := State.freeRecord_next (by omega) hrecords
  have hcreate : ({ s with launches := s.launches.put li { l with created := i + 1 } } : State).createRider li i false = s.withRider li i l := by
    unfold State.createRider
    rw [show ({ s with launches := s.launches.put li { l with created := i + 1 } } : State).launches.get? li = some { l with created := i + 1 } from
      SMap.get?_put_same _ _ _]
    dsimp only
    rw [hbound, Bool.false_and, if_neg Bool.false_ne_true]
    rw [show ({ s with launches := s.launches.put li { l with created := i + 1 } } : State).freeRecord l.die = some i from hfree]
    rfl
  rw [State.grantFree, hl]
  dsimp only
  rw [hfree, hexact, Option.isNone_some, if_neg Bool.false_ne_true]
  dsimp only
  rw [if_neg (by omega), hexact.symm]
  exact congrArg (fun t : State => t.grantFree li n) hcreate

include hdie

/-- Each rider that is left gets the record of its number, and the other contexts stay. -/
theorem State.grantFree_all (n : Nat) : ∀ (s : State) (i : Nat), i + n = l.total → s.launches.get? li = some { l with created := i } →
    (s.recordsOf l.die).Perm (List.range i) →
    s.Creates (s.grantFree li n) ∧ (s.grantFree li n).launches.get? li = some { l with created := l.total } ∧
    (∀ j < i, (s.grantFree li n).ctxs.get? (riderKey l.die j) = s.ctxs.get? (riderKey l.die j)) ∧
    ∀ j, i ≤ j → j < l.total → ∃ gen order, (s.grantFree li n).ctxs.get? (riderKey l.die j) = some (l.rider li j j gen order s.clock false) := by
  induction n with
  | zero =>
    intro s i hin hl _
    rw [Nat.add_zero] at hin
    subst hin
    exact ⟨⟨s.launches, s.ctxs, s.gens, s.ids, rfl⟩, hl, fun _ _ => rfl, fun j hj hj' => absurd hj' (by omega)⟩
  | succ n ih =>
    intro s i hin hl hrecords
    have hi : i < poolSize := by omega
    have hnew : i ∉ s.recordsOf l.die := by rw [hrecords.mem_iff, List.mem_range]; omega
    have hnext : ((s.withRider li i l).recordsOf l.die).Perm (List.range (i + 1)) := by
      refine (State.recordsOf_putRider (s := { s with launches := s.launches.put li { l with created := i + 1 } }) hdie hi hnew _).trans ?_
      rw [List.range_succ]
      exact (hrecords.cons i).trans (List.perm_append_singleton i (List.range i)).symm
    obtain ⟨hcreates, hlaunch, hold, hriders⟩ := ih (s.withRider li i l) (i + 1) (by omega) (SMap.get?_put_same _ _ _) hnext
    rw [State.grantFree_step hbound hexact htotal hl (by omega) hrecords]
    refine ⟨State.Creates.trans ⟨_, _, _, _, rfl⟩ hcreates, hlaunch, fun j hj => ?_, fun j hij hj => ?_⟩
    · exact (hold j (by omega)).trans (SMap.get?_put_ne _ _ _ _ fun h => by have := riderKey_inj h; omega)
    · by_cases hji : j = i
      · subst hji
        exact ⟨_, _, (hold j (by omega)).trans (SMap.get?_put_same _ _ _)⟩
      · exact hriders j (by omega) hj

end Grant

/-! ## A launch alone at the dispatcher (R117, R167) -/

/-- The only launch that waits takes its riders at once, and none waits any more. -/
theorem State.grantAll_alone {s : State} {l : Launch} {li : Nat} (hwait : s.recordWait = [li]) (hl : s.launches.get? li = some l) (hdie : l.die < 4)
    (hbound : bankBound l.kind l.bank = false) (hhitch : bankHitch l.kind l.bank = false) (hexact : l.exact = []) (hcreated : l.created = 0)
    (htotal : l.total ≤ poolSize) (hrecords : s.recordsOf l.die = []) :
    s.grantAll l.die = { s.grantFree li l.total with recordWait := [] } := by
  have hl0 : s.launches.get? li = some { l with created := 0 } := hcreated ▸ hl
  obtain ⟨hcreates, hlaunch, -⟩ := State.grantFree_all hdie hbound hexact htotal l.total s 0 (by omega) hl0 (by rw [hrecords]; exact .refl _)
  have hholder : s.holder l.die = none := by simp [State.holder, hwait, hl, hhitch]
  have horder : s.recordOrder l.die = [li] := by
    unfold State.recordOrder
    rw [hholder, hwait]
    simp [hl, sortBy, insertBy]
  have hone : s.grantOne li = (s.grantFree li l.total, false) := by
    unfold State.grantOne
    rw [hl]
    dsimp only
    rw [hhitch, if_neg Bool.false_ne_true, hexact]
    rfl
  have hleft : (s.grantFree li l.total).recordWait.filter (fun li' =>
      ((s.grantFree li l.total).launches.get? li').any (fun l => l.created != l.total || !l.exact.isEmpty)) = [] := by
    rw [hcreates.recordWait, hwait]
    simp [hlaunch, hexact]
  have hpass : s.grantPass l.die = { s.grantFree li l.total with recordWait := [] } := by
    unfold State.grantPass
    rw [horder, List.foldl_cons, List.foldl_nil]
    dsimp only
    rw [if_neg Bool.false_ne_true, hone]
    dsimp only
    rw [hleft]
  unfold State.grantAll
  rw [hwait]
  change (if (s.grantPass l.die).holder l.die = s.holder l.die then s.grantPass l.die else _) = _
  rw [hpass, hholder]
  exact if_pos rfl

/-- The bits of STATUS that hold a rider's priority (R286). -/
theorem prio_of_status (prio : Nat) (guarded : Bool) : bits (setBit (BitVec.ofNat 64 (prio * 64)) 5 guarded) 8 6 = prio % 8 := by
  rw [bits_setBit_apart (.inr (by decide)), bits, BitVec.toNat_ofNat]
  omega

/-- What a launch's rider holds when it is created (R117). -/
theorem Launch.rider_holds (l : Launch) (li i slot gen order clock : Nat) :
    (l.rider li i slot gen order clock false).launch = li ∧ (l.rider li i slot gen order clock false).index = i ∧
    (l.rider li i slot gen order clock false).pc = BitVec.ofNat 64 (bankEntry l.bank) ∧
    (l.rider li i slot gen order clock false).prio = l.prio % 8 ∧
    rget (l.rider li i slot gen order clock false).f.s 1 = ⟨BitVec.ofNat 64 (bankArgs l.kind l.bank), 0⟩ ∧
    rget (l.rider li i slot gen order clock false).f.s 2 = ⟨BitVec.ofNat 64 i, 0⟩ ∧
    rget (l.rider li i slot gen order clock false).f.s 3 = ⟨BitVec.ofNat 64 l.total, 0⟩ := by
  refine ⟨rfl, rfl, rfl, prio_of_status _ _, ?_, ?_, ?_⟩ <;> simp [Launch.rider, newRider, rget, rset]

/-- A launch as it begins. -/
def State.launchOf (s : State) (kind : LaunchKind) (die cmd q : Nat) (node : Option (Nat × Nat)) (bank : List Byte) (prio : Nat) (restart : Bool) :
    Launch :=
  { kind := kind, die := die, cmd := cmd, node := node, bank := bank, prio := prio, asid := bits (s.reg (.asroot q)) 11 0,
    root := bits (s.reg (.asroot q)) 38 13, aspace := bit (s.reg (.asroot q)) 12, total := bankRiders kind bank, restart := restart }

/-- The launch waits for records. -/
def State.withLaunch (s : State) (l : Launch) : State :=
  { s with launches := s.launches.put s.ids l, recordWait := s.recordWait ++ [s.ids], ids := s.ids + 1 }

theorem State.newLaunch_eq (s : State) (kind : LaunchKind) (die cmd q : Nat) (node : Option (Nat × Nat)) (bank : List Byte) (prio : Nat)
    (restart : Bool) : s.newLaunch kind die cmd q node bank prio restart =
      (s.withLaunch (s.launchOf kind die cmd q node bank prio restart)).grantAll die := rfl

/-- A launch with the given fields, all its riders created. -/
theorem State.withLaunch_grantAll {s : State} {l : Launch} (hp : Claims.PlainBank s l.kind l.die l.bank) (hexact : l.exact = [])
    (hcreated : l.created = 0) (htotal : l.total = bankRiders l.kind l.bank) :
    ((s.withLaunch l).grantAll l.die).replays = s.replays ∧ ((s.withLaunch l).grantAll l.die).mem = s.mem ∧
    ((s.withLaunch l).grantAll l.die).launches.get? s.ids = some { l with created := l.total } ∧
    ∀ i < l.total, ∃ gen order, ((s.withLaunch l).grantAll l.die).ctxs.get? (riderKey l.die i) = some (l.rider s.ids i i gen order s.clock false) := by
  obtain ⟨hwait, hrecords, hdie, hbound, hhitch, hriders⟩ := hp
  have hl : (s.withLaunch l).launches.get? s.ids = some l := SMap.get?_put_same _ _ _
  have hl0 : (s.withLaunch l).launches.get? s.ids = some { l with created := 0 } := hcreated ▸ hl
  have hroom : l.total ≤ poolSize := htotal ▸ hriders
  have hrange : ((s.withLaunch l).recordsOf l.die).Perm (List.range 0) := by
    rw [show (s.withLaunch l).recordsOf l.die = [] from hrecords]
    exact .refl _
  obtain ⟨hcreates, hlaunch, -, hall⟩ := State.grantFree_all hdie hbound hexact hroom l.total _ 0 (Nat.zero_add _) hl0 hrange
  rw [State.grantAll_alone (congrArg (· ++ [s.ids]) hwait) hl hdie hbound hhitch hexact hcreated hroom hrecords]
  exact ⟨hcreates.replays, hcreates.mem, hlaunch, fun i hi => hall i (Nat.zero_le i) hi⟩

theorem State.newLaunch_plain {s : State} {kind : LaunchKind} {die : Nat} (cmd q : Nat) (node : Option (Nat × Nat)) {bank : List Byte} (prio : Nat)
    (restart : Bool) (hp : Claims.PlainBank s kind die bank) :
    Claims.Launches s (s.newLaunch kind die cmd q node bank prio restart) kind die cmd q node bank prio restart ∧
    (s.newLaunch kind die cmd q node bank prio restart).replays = s.replays ∧ (s.newLaunch kind die cmd q node bank prio restart).mem = s.mem := by
  rw [State.newLaunch_eq]
  obtain ⟨hreplays, hmem, hlaunch, hriders⟩ :=
    State.withLaunch_grantAll (l := s.launchOf kind die cmd q node bank prio restart) hp rfl rfl rfl
  refine ⟨⟨congrArg (Option.map _) hlaunch, congrArg (Option.map _) hlaunch, fun i hi => ?_⟩, hreplays, hmem⟩
  obtain ⟨gen, order, hrider⟩ := hriders i hi
  obtain ⟨hli, hindex, hpc, hprio, h1, h2, h3⟩ := (s.launchOf kind die cmd q node bank prio restart).rider_holds s.ids i i gen order s.clock
  refine ⟨(congrArg (Option.map _) hrider).trans ?_, (congrArg (Option.map _) hrider).trans ?_⟩
  · rw [Option.map_some, hli, hindex, hpc, hprio]
    rfl
  · rw [Option.map_some, h1, h2, h3]
    rfl

end Sys2Proof.Machine

end

section
/-! SUPPORT. What a node reads and writes: a copy within module DRAM (R121), host memory after a write (R121, R301), and the test of a flag word
(R108). -/

namespace Sys2Proof.Machine

/-! ## Copies within module DRAM (R121) -/

/-- Poison changes no byte. -/
theorem Mem.get_foldl_taint (p : Nat → Bool) (f : Nat → Nat) (b : Nat) (l : List Nat) : ∀ m : Mem,
    (l.foldl (fun (m : Mem) i => if p i then m.taint (f i) 1 else m) m).get b = m.get b := by
  induction l with
  | nil => exact fun _ => rfl
  | cons i l ih =>
    intro m
    rw [List.foldl_cons, ih]
    split <;> rfl

/-- One piece of a copy. -/
theorem copyPiece_get (m : Mem) (src dst k b : Nat) :
    (copyPiece m true true src dst k).get b = if dst ≤ b ∧ b < dst + k then m.get (src + (b - dst)) else m.get b := by
  have hpiece : (copyPiece m true true src dst k).get b = (m.write dst (m.read src k)).get b :=
    Mem.get_foldl_taint (fun i => m.spoiled true (src + i) 1) (fun i => dst + i) b (List.range k) _
  rw [hpiece, Mem.get_write]
  simp only [Mem.read_length, Mem.getElem_read]
  split <;> rfl

theorem copyPieces_inDram (fuel : Nat) : ∀ (n src dst : Nat) (x : Copied), n ≤ 64 * fuel → src + n ≤ dst → n = 0 ∨ dst + n ≤ dramBytes →
    (copyPieces true true src dst fuel n x).fault = x.fault ∧
    (∀ i < n, (copyPieces true true src dst fuel n x).mem.get (dst + i) = x.mem.get (src + i)) ∧
    ∀ b, b < dst ∨ dst + n ≤ b → (copyPieces true true src dst fuel n x).mem.get b = x.mem.get b := by
  induction fuel with
  | zero => exact fun n src dst x hn _ _ => ⟨rfl, fun i hi => absurd hi (by omega), fun _ _ => rfl⟩
  | succ fuel ih =>
    intro n src dst x hn hapart hfit
    by_cases h0 : n = 0
    · have hdone : copyPieces true true src dst (fuel + 1) n x = x := if_pos h0
      rw [hdone]
      exact ⟨rfl, fun i hi => absurd hi (by omega), fun _ _ => rfl⟩
    · obtain ⟨k, hk⟩ : ∃ k, k = Nat.min n 64 := ⟨_, rfl⟩
      have hmin : k = min n 64 := hk
      have hreaches : (!x.mem.reaches true src k || !x.mem.reaches true dst k) = false := by
        simp only [Mem.reaches, if_true, Bool.or_eq_false_iff, Bool.not_eq_false', decide_eq_true_eq]
        omega
      have hstep : copyPieces true true src dst (fuel + 1) n x = copyPieces true true (src + 64) (dst + 64) fuel (n - 64)
          { x with mem := copyPiece x.mem true true src dst k, poison := x.poison || x.mem.spoiled true src k } := by
        rw [copyPieces, if_neg h0, ← hk, hreaches, if_neg Bool.false_ne_true]
      obtain ⟨hfault, hcopied, hkept⟩ := ih (n - 64) (src + 64) (dst + 64)
        { x with mem := copyPiece x.mem true true src dst k, poison := x.poison || x.mem.spoiled true src k } (by omega) (by omega) (by omega)
      simp only [copyPiece_get] at hcopied hkept
      rw [hstep]
      refine ⟨hfault, fun i hi => ?_, fun b hb => ?_⟩
      · by_cases hi64 : i < 64
        · rw [hkept (dst + i) (.inl (by omega)), if_pos (by omega), Nat.add_sub_cancel_left]
        · have hlater := hcopied (i - 64) (by omega)
          rwa [if_neg (by omega), show dst + 64 + (i - 64) = dst + i by omega, show src + 64 + (i - 64) = src + i by omega] at hlater
      · rw [hkept b (by omega), if_neg (by omega)]

/-- A copy within module DRAM whose source lies before its destination. -/
theorem State.copyBank_inDram {s : State} {b : List Byte} (hspace : fieldOf b 24 24 = 3) (hapart : fieldOf b 7 0 + fieldOf b 23 16 ≤ fieldOf b 15 8)
    (hfit : fieldOf b 15 8 + fieldOf b 23 16 ≤ dramBytes) : (s.copyBank b).fault = false ∧
    (s.copyBank b).mem.read (fieldOf b 15 8) (fieldOf b 23 16) = s.mem.read (fieldOf b 7 0) (fieldOf b 23 16) ∧
    s.mem.SameBeyond (s.copyBank b).mem := by
  obtain ⟨hfault, hcopied, hkept⟩ := copyPieces_inDram (fieldOf b 23 16 / 64 + 1) (fieldOf b 23 16) (fieldOf b 7 0) (fieldOf b 15 8)
    { mem := s.mem } (by omega) hapart (.inr hfit)
  have heq : s.copyBank b = copyPieces true true (fieldOf b 7 0) (fieldOf b 15 8) (fieldOf b 23 16 / 64 + 1) (fieldOf b 23 16) { mem := s.mem } := by
    unfold State.copyBank
    rw [hspace]
    rfl
  rw [heq]
  exact ⟨hfault, Mem.read_ext hcopied, fun a ha => hkept a (by omega)⟩

/-! ## Host memory (R121, R301) -/

theorem Mem.hostGet_hostWrite (l : List Byte) : ∀ (m : Mem) (a b : Nat),
    (m.hostWrite a l).hostGet b = if h : a ≤ b ∧ b < a + l.length then l[b - a]'(by omega) else m.hostGet b := by
  induction l with
  | nil =>
    intro m a b
    rw [dif_neg (by rw [List.length_nil]; omega)]
    rfl
  | cons x l ih =>
    intro m a b
    have hput : ({ m with host := cellsPut m.host a x } : Mem).hostGet b = if a = b then x else m.hostGet b := by
      unfold Mem.hostGet
      rw [cellsGet_put]
      split <;> rfl
    rw [Mem.hostWrite, ih, hput]
    by_cases hab : a = b
    · subst hab
      rw [dif_neg (by omega), if_pos rfl, dif_pos (by rw [List.length_cons]; omega)]
      simp only [Nat.sub_self, List.getElem_cons_zero]
    · by_cases hin : a + 1 ≤ b ∧ b < a + 1 + l.length
      · rw [dif_pos hin, dif_pos (by rw [List.length_cons]; omega)]
        simp only [show b - a = b - (a + 1) + 1 by omega, List.getElem_cons_succ]
      · rw [dif_neg hin, if_neg hab, dif_neg (by rw [List.length_cons]; omega)]

theorem Mem.getElem_hostRead (m : Mem) (a n i : Nat) (h : i < (m.hostRead a n).length) : (m.hostRead a n)[i] = m.hostGet (a + i) := by
  induction n generalizing a i with
  | zero => exact absurd h (Nat.not_lt_zero i)
  | succ n ih =>
    cases i with
    | zero => rfl
    | succ i =>
      simp only [Mem.hostRead, List.getElem_cons_succ, ih]
      rw [Nat.add_assoc, Nat.add_comm 1 i]

theorem Mem.hostPut_bytes (m : Mem) (a : Nat) (l : List Byte) (p : Bool) : (m.hostPut a l p).bytes = m.bytes := by
  unfold Mem.hostPut
  split
  · rfl
  · exact Mem.hostWrite_bytes l m a

/-- Host memory that takes a write gives it back. -/
theorem Mem.hostRead_hostPut {m : Mem} {a : Nat} {l : List Byte} (p : Bool) (h : m.hostRefuses a l.length = false) :
    (m.hostPut a l p).hostRead a l.length = l := by
  have hput : ∀ b, (m.hostPut a l p).hostGet b = (m.hostWrite a l).hostGet b := fun b => by
    unfold Mem.hostPut
    rw [h, if_neg Bool.false_ne_true]
    rfl
  refine List.ext_getElem (Mem.hostRead_length _ _ _) fun i h1 h2 => ?_
  rw [Mem.getElem_hostRead, hput, Mem.hostGet_hostWrite, dif_pos (by omega)]
  simp only [Nat.add_sub_cancel_left]

theorem Mem.sameBeyond_of_bytes {m m' : Mem} (h : m'.bytes = m.bytes) : m.SameBeyond m' := fun b _ => by
  unfold Mem.get
  rw [h]

end Sys2Proof.Machine

end

section
/-! SUPPORT. The nodes of a replay (R115, R116, R118 to R121, R156), one lemma for each way a node can go. -/

namespace Sys2Proof.Machine

/-- A replay in which a due node has been launched. -/
def Replay.started (x : Replay) (n : Nat) : Replay :=
  { x with due := x.due.erase n, running := x.running ++ [n], launched := setAdd x.launched n }

/-- A COPY of a launched node that has been performed. -/
def State.nodeCopied (s : State) (r n cmd : Nat) (b : List Byte) : State :=
  let s1 : State := { s.startNode r n with mem := (s.copyBank b).mem }
  if (s.copyBank b).poison then s1.noteStatus cmd n 3 else s1

theorem State.nodeCopied_kept (s : State) (r n cmd : Nat) (b : List Byte) : (s.nodeCopied r n cmd b).replays = (s.startNode r n).replays ∧
    (s.nodeCopied r n cmd b).mem = (s.copyBank b).mem ∧ (s.nodeCopied r n cmd b).ctxs = s.ctxs := by
  unfold State.nodeCopied
  dsimp only
  split <;> exact ⟨rfl, rfl, rfl⟩

section Due
variable {s : State} {r n : Nat} {x : Replay} (hx : s.replays.get? r = some x) (hdue : n ∈ x.due)
include hx

theorem State.startNode_get : (s.startNode r n).replays.get? r = some (x.started n) := State.modReplay_get _ hx

include hdue

theorem State.dueNode_due {kind : Nat} (hkind : nodeKind (s.node x.die n) = kind) : s.dueNode r n kind = some (x, s.node x.die n) := by
  unfold State.dueNode
  rw [hx]
  exact if_pos (by simp [hdue, hkind])

/-! ## KERNEL and SURROGATE (R116, R156) -/

/-- The launch of a node, and its replay. -/
theorem State.launchNode_plain {c : Cmd} {kind : LaunchKind} (hkind : nodeKind (s.node x.die n) = if kind = .kernel then 0 else 3)
    (hc : s.cmds.get? x.cmd = some c) (hp : Claims.PlainBank s kind x.die (nodeActive (s.node x.die n))) :
    Claims.Launches s (s.launchNode r n kind) kind x.die x.cmd c.queue (some (r, n)) (nodeActive (s.node x.die n))
      (if nodeUsePrio (s.node x.die n) then nodePrio (s.node x.die n) else c.prio) (kind == .kernel && nodeRestart (s.node x.die n)) ∧
    (s.launchNode r n kind).replays.get? r = some { x.started n with runs := x.runs.put n s.ids } := by
  have heq : s.launchNode r n kind = ((s.startNode r n).modReplay r fun y => { y with runs := y.runs.put n s.ids }).newLaunch kind x.die x.cmd c.queue
      (some (r, n)) (nodeActive (s.node x.die n)) (if nodeUsePrio (s.node x.die n) then nodePrio (s.node x.die n) else c.prio)
      (kind == .kernel && nodeRestart (s.node x.die n)) := by
    unfold State.launchNode
    rw [State.dueNode_due hx hdue hkind]
    dsimp only
    rw [hc]
  obtain ⟨hlaunch, hreplays, -⟩ := State.newLaunch_plain (s := (s.startNode r n).modReplay r fun y => { y with runs := y.runs.put n s.ids })
    x.cmd c.queue (some (r, n)) (if nodeUsePrio (s.node x.die n) then nodePrio (s.node x.die n) else c.prio)
    (kind == .kernel && nodeRestart (s.node x.die n)) hp
  rw [heq, hreplays]
  exact ⟨hlaunch, State.modReplay_get _ (State.startNode_get hx)⟩

/-! ## CONDITIONAL (R116) -/

theorem State.condNode_eq (hkind : nodeKind (s.node x.die n) = 1) : s.condNode r n =
    (s.startNode r n).finishNode r n false (!s.flagTest x.die (nodeActive (s.node x.die n))) := by
  unfold State.condNode
  rw [State.dueNode_due hx hdue hkind]

/-! ## SIGNAL (R116, R120) -/

/-- A SIGNAL that has been performed. -/
def State.signalled (s : State) (b : List Byte) : State :=
  let m := fieldOf b 0 0
  let s2 := if m.testBit 1 then s.feWrite false (fieldOf b 15 8) ((b.drop 16).take 8) else s
  if m.testBit 0 then s2.signal (fieldOf b 1 1) else s2

theorem State.signalNode_refused (hkind : nodeKind (s.node x.die n) = 4) (hwrites : (fieldOf (nodeActive (s.node x.die n)) 0 0).testBit 1 = true)
    (href : s.mem.reaches false (fieldOf (nodeActive (s.node x.die n)) 15 8) 8 = false) :
    s.signalNode r n = (s.startNode r n).finishNode r n true false := by
  unfold State.signalNode
  rw [State.dueNode_due hx hdue hkind]
  exact if_pos (by rw [hwrites, href]; rfl)

theorem State.signalNode_done (hkind : nodeKind (s.node x.die n) = 4) (hok : (fieldOf (nodeActive (s.node x.die n)) 0 0).testBit 1 = false ∨
      s.mem.reaches false (fieldOf (nodeActive (s.node x.die n)) 15 8) 8 = true) :
    s.signalNode r n = ((s.startNode r n).signalled (nodeActive (s.node x.die n))).finishNode r n false false := by
  unfold State.signalNode
  rw [State.dueNode_due hx hdue hkind]
  refine if_neg ?_
  obtain hok | hok := hok <;> simp [hok]

/-! ## COPY (R120, R121) -/

theorem State.copyNode_done (hkind : nodeKind (s.node x.die n) = 5) (hheld : s.copyHeld (nodeActive (s.node x.die n)) = false)
    (hfault : (s.copyBank (nodeActive (s.node x.die n))).fault = false) :
    s.copyNode r n = (s.nodeCopied r n x.cmd (nodeActive (s.node x.die n))).finishNode r n false false := by
  unfold State.copyNode
  rw [State.dueNode_due hx hdue hkind]
  dsimp only
  rw [hheld, hfault, if_neg Bool.false_ne_true]
  rfl

/-! ## LOOP (R118 to R120) -/

theorem State.loopNode_eq (hkind : nodeKind (s.node x.die n) = 2) : s.loopNode r n =
    ((s.startNode r n).modReplay r fun y => { y with loopFault := y.loopFault.erase n }).loopStep r n 0 := by
  unfold State.loopNode
  rw [State.dueNode_due hx hdue hkind]

end Due

/-- The signal leaves the bytes of the module and the replays; host memory that takes the write holds it. -/
theorem State.signalled_kept (s : State) (b : List Byte) : (s.signalled b).replays = s.replays ∧ (s.signalled b).mem.bytes = s.mem.bytes ∧
    (24 ≤ b.length → (fieldOf b 0 0).testBit 1 = true → s.mem.reaches false (fieldOf b 15 8) 8 = true →
      (s.signalled b).mem.hostRead (fieldOf b 15 8) 8 = (b.drop 16).take 8) := by
  have hsignal : ∀ t : State, (if (fieldOf b 0 0).testBit 0 then t.signal (fieldOf b 1 1) else t).replays = t.replays ∧
      (if (fieldOf b 0 0).testBit 0 then t.signal (fieldOf b 1 1) else t).mem = t.mem := fun t => by
    split
    · obtain ⟨g, h, o, hsig⟩ := t.signal_notified (fieldOf b 1 1)
      rw [hsig]
      exact ⟨rfl, rfl⟩
    · exact ⟨rfl, rfl⟩
  obtain ⟨hreplays, hmem⟩ := hsignal (if (fieldOf b 0 0).testBit 1 then s.feWrite false (fieldOf b 15 8) ((b.drop 16).take 8) else s)
  refine ⟨hreplays.trans ?_, (congrArg Mem.bytes hmem).trans ?_, fun hlen hwrites hreach => ?_⟩
  · split <;> rfl
  · split
    · exact Mem.hostPut_bytes _ _ _ _
    · rfl
  · have hput : (if (fieldOf b 0 0).testBit 1 then s.feWrite false (fieldOf b 15 8) ((b.drop 16).take 8) else s).mem =
        s.mem.hostPut (fieldOf b 15 8) ((b.drop 16).take 8) false := by
      rw [if_pos hwrites]
      rfl
    have hdata : ((b.drop 16).take 8).length = 8 := by simp only [List.length_take, List.length_drop]; omega
    have hrefuses : s.mem.hostRefuses (fieldOf b 15 8) ((b.drop 16).take 8).length = false := by
      rw [hdata]
      simpa [Mem.reaches] using hreach
    have hread := Mem.hostRead_hostPut false hrefuses
    rw [hdata] at hread
    exact (congrArg (fun m : Mem => m.hostRead (fieldOf b 15 8) 8) (hmem.trans hput)).trans hread

section Loop
variable {s : State} {r n it : Nat} {x : Replay} (hx : s.replays.get? r = some x)
include hx

theorem State.loopStep_capped (hcap : fieldOf (nodeActive (s.node x.die n)) 11 8 ≠ 0) (hit : it = fieldOf (nodeActive (s.node x.die n)) 11 8) :
    s.loopStep r n it = (s.noteStatus x.cmd n 2).finishNode r n false false := by
  unfold State.loopStep
  rw [hx]
  exact if_pos (by simp [hcap, hit])

section Uncapped
variable (hcap : fieldOf (nodeActive (s.node x.die n)) 11 8 = 0 ∨ it ≠ fieldOf (nodeActive (s.node x.die n)) 11 8)
include hcap

theorem State.loopStep_over (htest : s.flagTest x.die (nodeActive (s.node x.die n)) = false) : s.loopStep r n it = s.finishNode r n false false := by
  unfold State.loopStep
  rw [hx]
  refine (if_neg ?_).trans (if_pos (by rw [htest]; rfl))
  obtain hcap | hcap := hcap <;> simp [hcap]

/-- The nodes whose innermost loop is that of a LOOP node. -/
def State.bodyNodes (s : State) (x : Replay) (n : Nat) : List Nat :=
  ((List.range x.count).map (fun i => x.first + i)).filter (fun m => innerLoop (s.replayLoops x) m == some n)

/-- LIVE of the nodes of the body of a LOOP node is armed again (R118). -/
def State.bodyArmed (s : State) (x : Replay) (n : Nat) : SMap Nat :=
  (s.bodyNodes x n).foldl (fun (l : SMap Nat) m => l.put m (nodeNpred (s.node x.die m))) x.live

/-- A replay in an iteration of a LOOP node: the nodes of its body are armed again, and those without predecessor are due. -/
def State.iterating (s : State) (x : Replay) (n it : Nat) : Replay :=
  { x with live := s.bodyArmed x n, loops := x.loops.put n it, due := x.due ++ s.unled x.die (s.bodyNodes x n) }

theorem State.loopStep_iterates (htest : s.flagTest x.die (nodeActive (s.node x.die n)) = true) :
    (s.loopStep r n it).replays.get? r = some (s.iterating x n it) ∧ s.ReplaysOnly (s.loopStep r n it) := by
  have heq : s.loopStep r n it = (s.modReplay r fun y => { y with live := s.bodyArmed x n, loops := y.loops.put n it }).makeDueOr r
      (s.unled x.die (s.bodyNodes x n)) (.loopEnd r n) := by
    unfold State.loopStep
    rw [hx]
    refine (if_neg ?_).trans (if_neg (by rw [htest]; decide))
    obtain hcap | hcap := hcap <;> simp [hcap]
  rw [heq]
  exact ⟨State.makeDueOr_get _ _ (State.modReplay_get _ hx), (s.modReplay_replaysOnly r _).trans (State.makeDueOr_replaysOnly _ _ _ _)⟩

end Uncapped

end Loop

end Sys2Proof.Machine

end

section
/-! SUPPORT. The ends of a LOOP's iteration and of a launched node (R115, R118, R120), and what the body of a LOOP is given for an iteration. -/

namespace Sys2Proof.Machine

variable {s : State} {r n it : Nat} {x : Replay}

theorem State.mem_bodyNodes {m : Nat} : m ∈ s.bodyNodes x n ↔
    (x.first ≤ m && m < x.first + x.count && innerLoop (s.replayLoops x) m == some n) = true := by
  rw [State.bodyNodes, List.mem_filter, List.mem_map, Bool.and_eq_true, Bool.and_eq_true, decide_eq_true_eq, decide_eq_true_eq]
  refine and_congr_left fun _ => ⟨?_, fun h => ⟨m - x.first, List.mem_range.2 (by omega), by omega⟩⟩
  rintro ⟨j, hj, rfl⟩
  have := List.mem_range.1 hj
  omega

/-- LIVE of a node of the body, and that the node is due when it has no predecessor (R118). -/
theorem State.iterating_body {m : Nat} (hm : m ∈ s.bodyNodes x n) :
    (s.iterating x n it).live.get? m = some (nodeNpred (s.node x.die m)) ∧
    ((s.iterating x n it).due.contains m || nodeNpred (s.node x.die m) != 0) = true := by
  refine ⟨(SMap.get?_foldl_put (fun m => nodeNpred (s.node x.die m)) m _ _).trans (if_pos hm), ?_⟩
  by_cases h0 : nodeNpred (s.node x.die m) = 0
  · rw [Bool.or_eq_true, List.contains_iff_mem]
    exact .inl (List.mem_append_right _ (List.mem_filter.2 ⟨hm, by rw [h0]; rfl⟩))
  · rw [Bool.or_eq_true, bne_iff_ne]
    exact .inr h0

theorem State.loopEnd_waits (hx : s.replays.get? r = some x) (hit : x.loops.get? n = some it)
    (hbusy : ∃ k ∈ x.running ++ x.due, (nodeBody (s.node x.die n)).1 ≤ k ∧ k ≤ (nodeBody (s.node x.die n)).2) : s.loopEnd r n = s := by
  obtain ⟨k, hk, hlo, hhi⟩ := hbusy
  unfold State.loopEnd
  rw [hx]
  dsimp only
  rw [hit]
  exact if_pos (List.any_eq_true.2 ⟨k, hk, by simp [hlo, hhi]⟩)

/-- The end of an iteration of which no node is left: the end of the loop after a fault, else the next iteration. -/
theorem State.loopEnd_goes (hx : s.replays.get? r = some x) (hit : x.loops.get? n = some it)
    (hfree : ∀ k ∈ x.running ++ x.due, k < (nodeBody (s.node x.die n)).1 ∨ (nodeBody (s.node x.die n)).2 < k) :
    s.loopEnd r n = if n ∈ x.loopFault then s.finishNode r n true false else s.loopStep r n (it + 1) := by
  have hnone : (x.running ++ x.due).any (fun m => (nodeBody (s.node x.die n)).1 ≤ m && m ≤ (nodeBody (s.node x.die n)).2) = false := by
    rw [List.any_eq_false]
    intro k hk
    have := hfree k hk
    simp only [Bool.and_eq_true, decide_eq_true_eq]
    omega
  unfold State.loopEnd
  rw [hx]
  dsimp only
  rw [hit]
  dsimp only
  rw [hnone, if_neg Bool.false_ne_true]
  simp only [List.contains_iff_mem]

theorem State.nodeComplete_over {l : Launch} {k : Nat} (hx : s.replays.get? r = some x) (hrunning : n ∈ x.running) (hrun : x.runs.get? n = some k)
    (hl : s.launches.get? k = some l) (hnode : l.node = some (r, n)) (hover : l.finished = true) :
    s.nodeComplete r n = s.finishNode r n l.fault false := by
  have hfound : ((s.replays.get? r).bind fun x => if x.running.contains n then (x.runs.get? n).bind s.launches.get? else none) = some l := by
    rw [hx, Option.bind_some, if_pos (List.contains_iff_mem.2 hrunning), hrun, Option.bind_some, hl]
  unfold State.nodeComplete
  rw [hfound]
  exact if_pos (by simp [hover, hnode])

theorem State.nodeComplete_none (h : s.launches = []) : s.nodeComplete r n = s := by
  have hnone : ((s.replays.get? r).bind fun x => if x.running.contains n then (x.runs.get? n).bind s.launches.get? else none) = none := by
    rw [h]
    cases s.replays.get? r with
    | none => rfl
    | some x =>
      rw [Option.bind_some]
      split
      · cases x.runs.get? n <;> rfl
      · rfl
  unfold State.nodeComplete
  rw [hnone]

end Sys2Proof.Machine

end

section
namespace Sys2Proof.Machine

/-- Settles O48: each kind of node by the lemma for the way it goes. A node that ends without fault lowers LIVE of its successors one edge at a time
(`State.finishNode_completes`), one that faults notes its status (`State.finishNode_fault`), and a LOOP goes on with its body armed again
(`State.loopStep_iterates`). -/
theorem graphNodes : Obligations.GraphNodes := by
  unfold Obligations.GraphNodes
  intro s r n x c l it m h kind b due started f word v cap test prio body inside npred noted iterates
  have htest : f / 2 ^ 16 % 8 < 6 → s.flagTest x.die b = test := by
    intro hf
    change cmpCode (f / 2 ^ 16 % 8) word v = test
    simp only [test]
    generalize f / 2 ^ 16 % 8 = code at hf
    interval_cases code <;> rfl
  have hiterates : ∀ {t u : State} {y : Replay} {k : Nat}, t.replays.get? r = some (u.iterating y n k) → n ∈ y.running →
      (inside m = true → m ∈ u.bodyNodes y n) → nodeNpred (u.node y.die m) = npred m → t.mem = s.mem → iterates t k := by
    intro t u y k hget hrunning hbody hnpred hmem
    refine ⟨?_, fun hinside => ?_, hmem⟩
    · rw [hget, Option.map_some]
      exact congrArg some (Prod.ext (List.contains_iff_mem.2 hrunning) (SMap.get?_put_same _ _ _))
    · obtain ⟨hlive, hdue⟩ := State.iterating_body (it := k) (hbody hinside)
      rw [hget, Option.map_some]
      rw [hnpred] at hlive hdue
      exact congrArg some (Prod.ext hlive hdue)
  refine ⟨?launch, ?cond, ?refused, ?signal, ?copy, ?skips, ?begins, ?waits, ?ends, ?complete, ?none⟩
  case launch =>
    rintro ⟨hx, hdue, -⟩ hc -
    refine ⟨fun hkind hp => ?_, fun hkind hp => ?_⟩
    · obtain ⟨hlaunch, hget⟩ := State.launchNode_plain (kind := .kernel) hx hdue hkind hc hp
      exact ⟨_, rfl, hlaunch, congrArg (Option.map _) hget⟩
    · obtain ⟨hlaunch, hget⟩ := State.launchNode_plain (kind := .surrogate) hx hdue hkind hc hp
      exact ⟨_, rfl, hlaunch, congrArg (Option.map _) hget⟩
  case cond =>
    rintro ⟨hx, hdue, -⟩ hkind hf
    have heq := State.condNode_eq hx hdue hkind
    have hends := State.finishNode_completes n (!test) (State.startNode_get (n := n) hx)
    have honly := State.finishNode_replaysOnly n (!test) (State.startNode_get (n := n) hx)
    rw [show s.flagTest x.die (nodeActive (s.node x.die n)) = test from htest hf] at heq
    exact ⟨_, congrArg Host.Outcome.next heq, hends, honly.mem, honly.ctxs⟩
  case refused =>
    rintro ⟨hx, hdue, -⟩ hkind hwrites href hc
    have heq := State.signalNode_refused hx hdue hkind hwrites href
    obtain ⟨hnoted, -, hmem, hctxs⟩ := State.finishNode_fault (s := s.startNode r n) n false (State.startNode_get hx) hc
    exact ⟨_, congrArg Host.Outcome.next heq, hnoted, hmem, hctxs⟩
  case signal =>
    rintro ⟨hx, hdue, -⟩ hkind hok
    have heq := State.signalNode_done hx hdue hkind hok
    obtain ⟨hreplays, hbytes, hdata⟩ := (s.startNode r n).signalled_kept b
    have hget : ((s.startNode r n).signalled b).replays.get? r = some (x.started n) := by
      rw [hreplays]
      exact State.startNode_get hx
    have hmem := (State.finishNode_replaysOnly n false hget).mem
    have hends := State.completed_congr (s := s) (State.finishNode_completes n false hget) (Mem.sameBeyond_of_bytes hbytes)
    refine ⟨_, congrArg Host.Outcome.next heq, hends, ?_, fun hwrites => ?_⟩
    · exact (congrArg Mem.bytes hmem).trans hbytes
    · have hlen : 24 ≤ b.length := by
        simp only [b, h, State.node, List.length_take, List.length_drop, Mem.read_length]
        omega
      exact (congrArg (fun u : Mem => u.hostRead _ 8) hmem).trans (hdata hlen hwrites (hok.resolve_left (by rw [hwrites]; decide)))
  case copy =>
    rintro ⟨hx, hdue, -⟩ hkind hheld hspace hapart hfit
    obtain ⟨hfault, hread, hbeyond⟩ := State.copyBank_inDram (s := s) hspace hapart hfit
    obtain ⟨hreplays, hmem, hctxs⟩ := s.nodeCopied_kept r n x.cmd b
    have hget : (s.nodeCopied r n x.cmd b).replays.get? r = some (x.started n) := by
      rw [hreplays]
      exact State.startNode_get hx
    have honly := State.finishNode_replaysOnly n false hget
    have heq := State.copyNode_done hx hdue hkind hheld hfault
    have hends := State.completed_congr (s := s) (State.finishNode_completes n false hget) (hmem ▸ hbeyond)
    refine ⟨_, congrArg Host.Outcome.next heq, hends, ?_, honly.ctxs.trans hctxs⟩
    exact (congrArg (fun u : Mem => u.read _ _) (honly.mem.trans hmem)).trans hread
  case skips =>
    rintro ⟨hx, hdue, -⟩ hkind hf hfalse
    have hget := State.modReplay_get (fun y => { y with loopFault := y.loopFault.erase n }) (State.startNode_get (n := n) hx)
    have heq := (State.loopNode_eq hx hdue hkind).trans (State.loopStep_over hget (Nat.eq_zero_or_pos _ |>.imp_right Nat.ne_of_lt) ((htest hf).trans hfalse))
    have hends := State.finishNode_completes n false hget
    exact ⟨_, congrArg Host.Outcome.next heq, hends, (State.finishNode_replaysOnly n false hget).mem⟩
  case begins =>
    rintro ⟨hx, hdue, -⟩ hkind hf htrue
    have hget := State.modReplay_get (fun y => { y with loopFault := y.loopFault.erase n }) (State.startNode_get (n := n) hx)
    obtain ⟨hiter, honly⟩ := State.loopStep_iterates hget (Nat.eq_zero_or_pos _ |>.imp_right Nat.ne_of_lt) ((htest hf).trans htrue)
    exact ⟨_, congrArg Host.Outcome.next (State.loopNode_eq hx hdue hkind),
      hiterates hiter (List.mem_append_right _ (List.mem_singleton_self n)) State.mem_bodyNodes.2 rfl honly.mem⟩
  case waits => exact fun hx _ hit hbusy => congrArg Host.Outcome.next (State.loopEnd_waits hx hit hbusy)
  case ends =>
    intro hx hrunning hit hfree _ hf hc
    have hgoes : s.loopEnd r n = if n ∈ x.loopFault then s.finishNode r n true false else s.loopStep r n (it + 1) :=
      State.loopEnd_goes hx hit hfree
    refine ⟨fun hfault => ?_, fun hsound hcap hlast => ?_, fun hsound hmore hfalse => ?_, fun hsound hmore htrue => ?_⟩
    · rw [if_pos hfault] at hgoes
      obtain ⟨hnoted, hreplay, -⟩ := State.finishNode_fault n false hx hc
      exact ⟨_, congrArg Host.Outcome.next hgoes, hnoted, hreplay⟩
    · rw [if_neg hsound, State.loopStep_capped hx hcap hlast] at hgoes
      have hget : (s.noteStatus x.cmd n 2).replays.get? r = some x := hx
      refine ⟨_, congrArg Host.Outcome.next hgoes, ?_, State.finishNode_completes n false hget⟩
      exact (congrArg (fun u : SMap Cmd => (u.get? x.cmd).map _) (State.finishNode_replaysOnly n false hget).cmds).trans
        (State.noteStatus_get hc (by decide) (by decide))
    · rw [if_neg hsound, State.loopStep_over hx hmore ((htest hf).trans hfalse)] at hgoes
      exact ⟨_, congrArg Host.Outcome.next hgoes, State.finishNode_completes n false hx⟩
    · rw [if_neg hsound] at hgoes
      obtain ⟨hiter, honly⟩ := State.loopStep_iterates hx hmore ((htest hf).trans htrue)
      exact ⟨_, congrArg Host.Outcome.next hgoes, hiterates hiter hrunning State.mem_bodyNodes.2 rfl honly.mem⟩
  case complete =>
    intro hx hrunning _ hrun hl hnode _ hover hc
    have heq := State.nodeComplete_over hx hrunning hrun hl hnode hover
    refine ⟨fun hfault => ?_, fun hfault => ?_⟩
    · rw [hfault] at heq
      exact ⟨_, congrArg Host.Outcome.next heq, State.finishNode_completes n false hx, (State.finishNode_replaysOnly n false hx).mem⟩
    · rw [hfault] at heq
      obtain ⟨hnoted, hreplay, hmem, -⟩ := State.finishNode_fault n false hx hc
      exact ⟨_, congrArg Host.Outcome.next heq, hnoted, hreplay, hmem⟩
  case none => exact fun hnone => congrArg Host.Outcome.next (State.nodeComplete_none hnone)

end Sys2Proof.Machine
end

section
/-! SUPPORT. A line of another module that is dirty when the domain is off (R50, R52): the state in which the save of a victim, which writes its
paddock back, loses a store and counts it in DOMCFG. -/

namespace Sys2Proof.Machine

/-- A line of module 9, with its first byte dirty. -/
def strandedLine : Line := { pa := remoteKey + 9 * 2 ^ 39, bytes := List.replicate 64 0, dirty := 1, filled := 0 }

/-- A rider that collection 3 has stopped on stall 0, with nothing but its fixed image to save. -/
def victim : Ctx := { Ctx.reset with loc := .stopped 0 0 3 }

/-- The collection of that rider, every class of which has acknowledged, with one unit of space reserved at the pool's first. -/
def collecting : Coll := { victims := [0], sent := true, acks := engineClasses.map (fun e => (0, e)), space := [(0, (0, 0, 1))] }

/-- A module whose domain is off, with one unit in the pool of die 0, and the dirty line of another module in the slice of the rider's paddock. -/
def saving : State :=
  { State.reset.setReg (.savepool 0) 0x10000000000 with ctxs := [(0, victim)], colls := [(3, collecting)], slices := [(0, [strandedLine])] }

theorem saving_lostw : bits (saving.reg .domcfg) 31 16 = 0 := by decide

/-- The write-back of the line is a request that is lost (`State.lost`), so that LOSTW counts one (R50, R52). -/
theorem saveDone_saving_lostw : bits ((saving.saveDone 3).reg .domcfg) 31 16 = 1 := by decide +kernel

end Sys2Proof.Machine

end

section
namespace Sys2Proof.Machine

/-- Refutes O50: its clause on SAVE_IMAGE_COMPLETE says that no register changes, and does not keep out a dirty line of another module in the
victim's paddock. In `saving` the domain is off when the paddock is written back (`State.leaveStall`), the store of that line is lost, and DOMCFG.LOSTW
counts it (R50, R52). -/
theorem not_preemptionAndCollections : ¬ Obligations.PreemptionAndCollections := by
  rintro ⟨-, hcollections⟩
  obtain ⟨-, -, -, hsaved, -⟩ := hcollections saving 3 0 0 .scu collecting
    { kind := .kernel, die := 0, cmd := 0, bank := [], prio := 0, asid := 0, root := 0, aspace := false, total := 0 } 0 0 1
  obtain ⟨t, ht, -, -, -, -, -, -, -, hregs⟩ :=
    hsaved (by decide) (by decide) (by decide) (by decide) (by decide) rfl rfl rfl (by decide) rfl rfl
  have heq : t = saving.saveDone 3 := (Host.Outcome.next.inj ht).symm
  have hlostw := saveDone_saving_lostw
  rw [← heq, State.reg_of_regs hregs, saving_lostw] at hlostw
  exact absurd hlostw (by decide)

end Sys2Proof.Machine
end

section
/-! SUPPORT. What the landings of a group leave: the registers of the module (R175), and so the temperature factor of wear units (R139). -/

namespace Sys2Proof.Machine

theorem State.freePage_regs (s : State) (k : Nat) (c : CIdx) (i : Nat) : (s.freePage k c i).regs = s.regs := by
  unfold State.freePage
  dsimp only
  split <;> rfl

theorem State.skipEmpty_regs (k : Nat) (c : CIdx) (n : Nat) : ∀ s : State, (s.skipEmpty k c n).regs = s.regs := by
  induction n with
  | zero => exact fun _ => rfl
  | succ n ih =>
    intro s
    unfold State.skipEmpty
    split
    · rfl
    · split
      · rw [ih, State.freePage_regs]
      · rfl

theorem State.settlePage_regs (s : State) (k : Nat) (c : CIdx) (i : Nat) : (s.settlePage k c i).regs = s.regs := by
  unfold State.settlePage
  dsimp only
  split
  · rfl
  · rw [State.skipEmpty_regs, State.setCtx_regs]

theorem State.writeRecord_regs (s : State) (k : Nat) (c : CIdx) (page rec : Nat) (bytes : List Byte) (lame : Lame) :
    (s.writeRecord k c page rec bytes lame).regs = s.regs := by
  unfold State.writeRecord
  dsimp only
  split
  · rfl
  · rw [State.settlePage_regs, State.setCtx_regs]

theorem State.landEffect_regs (s : State) (k : Nat) (w : RegWrite) : (s.landEffect k w).regs = s.regs := by
  cases w
  case hitch id =>
    unfold State.landEffect
    dsimp only
    split <;> rfl
  case push => exact State.writeRecord_regs ..
  all_goals rfl

theorem State.foldl_regs {α : Type} {f : State → α → State} (hf : ∀ s x, (f s x).regs = s.regs) (l : List α) :
    ∀ s : State, (l.foldl f s).regs = s.regs := by
  induction l with
  | nil => exact fun _ => rfl
  | cons x l ih => exact fun s => (ih (f s x)).trans (hf s x)

theorem State.landOne_regs (s : State) (k : Nat) (e : Landing) : (s.landOne k e).regs = s.regs :=
  State.foldl_regs (fun s w => s.landEffect_regs k w) e.writes _

theorem State.tick_regs (s : State) (k : Nat) : (s.tick k).1.regs = s.regs :=
  State.foldl_regs (fun s e => s.landOne_regs k e) _ _

theorem State.wearFactor_of_regs {s t : State} (h : t.regs = s.regs) (st : Nat) : t.wearFactor st = s.wearFactor st := by
  change ({ s with regs := t.regs } : State).wearFactor st = _
  rw [h]

theorem State.wearFactor_landed (s : State) (k st : Nat) : (Claims.landed s k).wearFactor st = s.wearFactor st :=
  State.wearFactor_of_regs (State.tick_regs ..) st

end Sys2Proof.Machine

end

section
/-! SUPPORT. What a word that decodes says of its instruction: an S word names a selector of R323, and SEL is an S word (R317, R324). -/

namespace Sys2Proof

/-- What a decoding yields, when it yields an instruction, has a property. -/
def Yields (P : Instr → Prop) (r : DecodeResult) : Prop := ∀ i, r = .ok i → P i

namespace Yields
variable {P : Instr → Prop} {n : Nat} {lit : Option Word}

@[simp] theorem ok {i : Instr} : Yields P (.ok i) ↔ P i := ⟨fun h => h i rfl, fun h _ hi => Except.ok.inj hi ▸ h⟩

@[simp] theorem error (e : DecodeError) : Yields P (.error e) := fun _ h => nomatch h

@[simp] theorem ite {c : Prop} [Decidable c] {a b : DecodeResult} : Yields P (if c then a else b) ↔ (c → Yields P a) ∧ (¬ c → Yields P b) := by
  split <;> simp [*]

@[simp] theorem need {c : Bool} {e : DecodeError} {r : DecodeResult} : Yields P (need c e r) ↔ (c = true → Yields P r) := by
  simp [Sys2Proof.need]

@[simp] theorem noLit {r : DecodeResult} : Yields P (noLit lit r) ↔ (lit = none → Yields P r) := by
  cases lit <;> simp [Sys2Proof.noLit]

theorem immOf {f : BitVec n} {k : Imm n → DecodeResult} (h : ∀ x, Yields P (k x)) : Yields P (immOf f lit k) := by
  cases lit <;> simp [Sys2Proof.immOf, h]

theorem ordScope {p : Order → Bool} {x : BitVec 6} {k : Order → Scope → DecodeResult} (h : ∀ o s, Yields P (k o s)) :
    Yields P (ordScope p x k) := by
  unfold Sys2Proof.ordScope
  split <;> simp [h]

theorem ordDef {p : Order → Bool} {x : BitVec 7} {k : Order → Option Scope → DecodeResult} (h : ∀ o s, Yields P (k o s)) :
    Yields P (ordDef p x k) := by
  unfold Sys2Proof.ordDef
  split <;> simp [h]

theorem memCtl {p : Order → Bool} {b : BitVec 7} {k : MemCtl → DecodeResult} (h : ∀ c, Yields P (k c)) : Yields P (memCtl p b lit k) := by
  cases lit <;> simp [Sys2Proof.memCtl, ordDef, h]

theorem vecCtl {p : Order → Bool} {b : BitVec 7} {k : VecCtl → DecodeResult} (h : ∀ c, Yields P (k c)) : Yields P (vecCtl p b lit k) := by
  cases lit with
  | none => exact ordDef (k := fun o s => k ⟨o, s, none⟩) fun _ _ => h _
  | some v =>
    refine need.2 fun _ => ordDef fun _ _ => ?_
    split <;> simp [h]

theorem xLdfe {f : XFields} {k : XDst → RIdx → LdfeCtl → Instr} (h : ∀ d a c, P (k d a c)) : Yields P (xLdfe f lit k) := by
  cases lit <;> simp [Sys2Proof.xLdfe, xdst, r6, ordDef, h]

theorem xStfe {f : XFields} {k : RIdx → XSrc → StfeCtl → Instr} (h : ∀ d a c, P (k d a c)) : Yields P (xStfe f lit k) := by
  cases lit <;> simp [Sys2Proof.xStfe, r6, ordDef, h]

theorem xFeclr {f : XFields} {k : RIdx → RIdx → Option (BitVec 25) → Instr} (h : ∀ d a t, P (k d a t)) : Yields P (xFeclr f lit k) := by
  cases lit <;> simp [Sys2Proof.xFeclr, r6, h]

theorem xChcfg {f : XFields} {h : WHead} (hoff : ∀ d a, P (.chcfgOff h d a)) (hon : ∀ d a, P (.chcfg h d a)) : Yields P (xChcfg f lit h) := by
  refine noLit.2 fun _ => need.2 fun _ => need.2 fun _ => need.2 fun _ => ok.2 ?_
  split <;> simp [hoff, hon]

theorem xFlgwait {f : XFields} {k : PIdx → RIdx → RIdx → FlgLit → Instr} (h : ∀ p a b l, P (k p a b l)) : Yields P (xFlgwait f lit k) := by
  refine need.2 fun _ => need.2 fun _ => need.2 fun _ => ?_
  cases lit with
  | none => exact error _
  | some v =>
    refine ordDef fun _ _ => ?_
    split <;> simp [h]

theorem xGcheck {f : XFields} {k : PIdx → RIdx → Scope → Bool → Instr} (h : ∀ p a s b, P (k p a s b)) : Yields P (xGcheck f lit k) := by
  refine noLit.2 fun _ => need.2 fun _ => need.2 fun _ => need.2 fun _ => ?_
  split <;> simp [h]

end Yields

namespace Machine

/-- No opcode of the X pipe's map is SEL (R327). -/
theorem isSel_of_decodeX (f : XFields) (lit : Option Word) : Yields (fun i => isSel i = false) (decodeX f lit) := by
  unfold decodeX decodeXOp
  split
  all_goals simp [isSel, xLd, xSt, xLdv, xStv, Yields.xLdfe, Yields.xStfe, Yields.xFeclr, xTdesc, xTread, xTwrite, xTgather, xTscat, Yields.xChcfg,
    xC, xCs, xChw, xChstat, xRsend, xRcast, xAtom, xAcas, xFlgset, xFence, xAA, xAAA, xA, Yields.xFlgwait, xBs, Yields.xGcheck, xAaddi, xPref,
    xdst, vdst, r6, r7, p6, csrc, cdst, Yields.immOf, Yields.ordScope, Yields.ordDef, Yields.memCtl, Yields.vecCtl]

end Machine
end Sys2Proof
end

section
/-! SUPPORT. The selector of an S word (R323): which outcome each value of NX asks for. -/

namespace Sys2Proof.Machine

/-- The next address of a selector; a word that names none goes on at its successor, as `Run.select` has it. -/
def execNext (nx : Option Nx) (s : State) : Host.Outcome State Fault Refusal :=
  match nx with
  | none | some .seq => execSeq s
  | some .loop => execLoop s
  | some .brk => execBrk s
  | some .ret => execRet s
  | some (.jmp j) => execJmp j s
  | some (.call j) => execCall j s
  | some .yield => execYield s
  | some .waitbrk => execWaitbrk s
  | some .stop => execStop s

theorem nxOf_jmp : ∀ b : BitVec 4, b.toNat / 4 = 1 → nxOf b = some (.jmp (b.setWidth 2)) := by decide

theorem nxOf_call : ∀ b : BitVec 4, b.toNat / 4 = 2 → nxOf b = some (.call (b.setWidth 2)) := by decide

theorem setWidth_selector (w : Word) : (w.extractLsb' 24 4).setWidth 2 = w.extractLsb' 24 2 := by
  ext i hi
  simp
  omega

/-- An S word that decodes names a selector. -/
theorem nxOf_of_decode {w x : Word} {i : Instr} (hdec : decodeWord w x = .ok i) (hpipe : pipeOf w = 0) : (w.extractLsb' 24 4).toNat ≠ 15 := by
  intro hnx
  have hnone : nxOf (w.extractLsb' 24 4) = none := by simp [nxOf, hnx]
  have herr : decodeWord w x = .error .badSelector := by
    simp only [pipeOf] at hpipe
    simp [decodeWord, hpipe, decodeS, SFields.of, hnone]
  rw [herr] at hdec
  cases hdec

/-- An X word that decodes is not SEL. -/
theorem isSel_of_decode {w x : Word} {i : Instr} (hdec : decodeWord w x = .ok i) (hpipe : pipeOf w = 3) : isSel i = false := by
  simp only [pipeOf] at hpipe
  simp only [decodeWord, hpipe] at hdec
  exact isSel_of_decodeX _ _ i hdec

end Sys2Proof.Machine

end

section
/-! SUPPORT. A group of one word (R315, R316, R323, R331): what `judge` and `runGroup` make of it. -/

namespace Sys2Proof.Machine

/-! ## The words of a group, then its next address -/

/-- The state in which the words of a group begin. -/
def begun (s : State) (base : Pos) : State := { s with pos := base, raised := none, pendPush := none }

/-- The words of a group run in the order of R186, before the next address is formed. -/
def wordsRun (s : State) (base : Pos) (ws : List GWord) : Run :=
  let all := fun (r : Run) (l : List GWord) => l.foldl (fun r w => r.word base w) r
  let csrr := all { s := begun s base } ((ofPipe ws 0).filter (fun w => isCsrr w.i))
  let x := all (all csrr (ofPipe ws 1)) (ofPipe ws 3)
  all (all x.push (ofPipe ws 2)) ((ofPipe ws 0).filter (fun w => !isCsrr w.i))

/-- A group none of whose words raises a cause goes on at its next address. -/
theorem runGroup_select {s t : State} {base : Pos} {ws : List GWord} (h : wordsRun s base ws = { s := t }) :
    runGroup s base ws = Run.select { s := t } base ws := by
  have hrun : runGroup s base ws = if (wordsRun s base ws).causes.isEmpty && !(wordsRun s base ws).held then (wordsRun s base ws).select base ws
      else { wordsRun s base ws with causes := _ } := rfl
  rw [hrun, h]
  rfl

/-- A group whose words raise causes takes no effect, and its selector adds its own. -/
theorem runGroup_raise {s t : State} {base : Pos} {ws : List GWord} {e : Cause} (h : wordsRun s base ws = { s := t, causes := [e] }) :
    runGroup s base ws = { s := t, causes := e :: (Run.select { s := { s with pos := base, raised := none } } base
      (ws.filter (fun w => pipeOf w.word = 0 && !selfSelects w.i))).causes } := by
  have hrun : runGroup s base ws = if (wordsRun s base ws).causes.isEmpty && !(wordsRun s base ws).held then (wordsRun s base ws).select base ws
      else { wordsRun s base ws with causes := (wordsRun s base ws).causes ++ (Run.select { s := { s with pos := base, raised := none } } base
        (ws.filter (fun w => pipeOf w.word = 0 && !selfSelects w.i))).causes } := rfl
  rw [hrun, h]
  rfl

theorem Run.after_next {r : Run} {t : State} (h : t.raised = none) : r.after (.next t) = { r with s := t } := by
  simp only [Run.after, h]

theorem Run.after_cause {r : Run} {t : State} {e : Cause} (h : t.raised = some (.cause e)) :
    r.after (.next t) = { r with causes := r.causes ++ [e] } := by
  simp only [Run.after, h]

/-- Where no V result waits for room there is nothing to serve (R186). -/
theorem Run.push_none {r : Run} (h : r.s.pendPush = none) : r.push = r := by
  simp only [Run.push, servePush, h]

theorem Run.push_served {r : Run} {t : State} (h : servePush r.s = .ok t) : r.push = { r with s := t } := by
  simp only [Run.push, h]

section One
variable {s : State} {base : Pos} {g : GWord}

theorem ofPipe_one (g : GWord) (p : BitVec 2) : ofPipe [g] p = if pipeOf g.word = p then [g] else [] := by
  by_cases h : pipeOf g.word = p <;> simp [ofPipe, h]

theorem wordsRun_vx (h : pipeOf g.word = 1 ∨ pipeOf g.word = 3) : wordsRun s base [g] = (Run.word { s := begun s base } base g).push := by
  rcases h with h | h <;> simp [wordsRun, ofPipe_one, h]

theorem wordsRun_m (h : pipeOf g.word = 2) : wordsRun s base [g] = Run.word { s := begun s base } base g := by
  have hpush : Run.push { s := begun s base } = { s := begun s base } := Run.push_none rfl
  simp [wordsRun, ofPipe_one, h, hpush]

theorem wordsRun_s (h : pipeOf g.word = 0) (hpend : (Run.word { s := begun s base } base g).s.pendPush = none) :
    wordsRun s base [g] = Run.word { s := begun s base } base g := by
  have hpush : Run.push { s := begun s base } = { s := begun s base } := Run.push_none rfl
  have hword := Run.push_none hpend
  cases hcsrr : isCsrr g.i <;> simp [wordsRun, ofPipe_one, h, hpush, hword, hcsrr]

/-! ## The next address of a group of one word -/

theorem select_noS {r : Run} (h : pipeOf g.word ≠ 0) : r.select base [g] = r.after (execSeq r.s) := by
  simp only [Run.select, List.find?_cons, decide_eq_false h, List.find?_nil]

theorem select_none {r : Run} : r.select base [] = r.after (execSeq r.s) := rfl

theorem select_squashed {r : Run} (h : pipeOf g.word = 0) (hlive : g.live r.s.me = false) (hnx : (g.word.extractLsb' 24 4).toNat ≠ 14) :
    r.select base [g] = r.after (execSeq { r.s with pos := base }) := by
  have hne : (g.word.extractLsb' 24 4 == 14) = false := by
    rw [beq_eq_false_iff_ne]
    exact fun h => hnx (congrArg BitVec.toNat h)
  simp only [Run.select, List.find?_cons, h, decide_true, hlive, hne]
  rfl

theorem select_self {r : Run} (h : pipeOf g.word = 0) (hlive : g.live r.s.me = true) (hself : selfSelects g.i = true) : r.select base [g] = r := by
  simp only [Run.select, List.find?_cons, h, decide_true, hlive, hself]
  rfl

theorem select_live {r : Run} (h : pipeOf g.word = 0) (hlive : g.live r.s.me = true) (hself : selfSelects g.i = false) :
    r.select base [g] = r.after (execNext (nxOf (g.word.extractLsb' 24 4))
      { r.s with pos := { base with idx := BitVec.ofNat 2 g.idx, word := g.word, lit := g.lit }, raised := none }) := by
  simp only [Run.select, List.find?_cons, h, decide_true, hlive, hself]
  rcases nxOf (g.word.extractLsb' 24 4) with _ | nx
  · rfl
  · cases nx <;> rfl

end One

end Sys2Proof.Machine

end

section
/-! SUPPORT. A step that issues a group of one word (R175, R186, R290, R323): the step is that of the group, and the group that of its word. -/

namespace Sys2Proof.Machine

section OneWord
variable {a b s : State} {users : List Nat} {st k idx succ : Nat} {w x : Word}

/-! ## The step -/

/-- The step fetches the packet of the group, and ends with what the group leaves. -/
theorem OneWord.step_issues (h : Claims.OneWord a b s users st k idx succ w x) :
    ∃ ws, formGroup ws (s.ctx k).pc = { words := [(idx, w, x)], succ := succ, bad := none } ∧
      ∀ u, s.issueFormed k ws false = some u → step a = .next (u.tookSlot st k users) := by
  obtain ⟨ws, hfetch, hform⟩ := h.fetched
  refine ⟨ws, hform, fun u hu => ?_⟩
  have hissue : b.issue k = (u, true) := by simp only [State.issue, hfetch, hu]
  have hslot : a.slot st = u.tookSlot st k users := by simp only [State.slot, h.next, hissue]
  have halive : a.alive = true := by simp only [State.alive, h.power, Bool.true_or]
  simp only [step, State.stepOnce, halive, h.idle, h.turn, hslot]
  rfl

/-! ## The judgement (R330, R331) -/

theorem judge_error {e : DecodeError} (divBusy : Bool) (hdec : decodeWord w x = .error e) :
    judge { words := [(idx, w, x)], succ := succ, bad := none } divBusy = .error (idx, w) := by
  simp [judge, hdec]

theorem judge_ok {g : GWord} {divBusy : Bool} (hdec : decodeWord g.word g.lit = .ok g.i) (hdiv : isDivide g.i = true → divBusy = false) :
    judge { words := [(g.idx, g.word, g.lit)], succ := succ, bad := none } divBusy = .ok [g] := by
  simpa [judge, hdec] using hdiv

/-- A word that is no instruction raises ILLEGAL_ENCODING. -/
theorem OneWord.step_illegal (h : Claims.OneWord a b s users st k idx succ w x) {e : DecodeError} (hdec : decodeWord w x = .error e) :
    step a = .next ((((Claims.landed s k).untick k).takeCause k
      { code := 1, info := w.setWidth 64, word := BitVec.ofNat 2 idx, pipe := pipeOf w } (s.ctx k).pc).tookSlot st k users) := by
  obtain ⟨ws, hform, hstep⟩ := OneWord.step_issues h
  have hcalm := h.calm
  refine hstep _ ?_
  simp only [State.issueFormed, hform, judge_error _ hdec, hcalm]
  rfl

/-! ## The effect (R175, R290) -/

/-- An X word sees at its place whether its guard lets it take effect; SEL, which takes effect whatever its guard, is no X word. -/
theorem withX_one {g : GWord} (hsel : pipeOf g.word = 3 → isSel g.i = false) (c : Ctx) :
    (ofPipe [g] 3).any (fun w => w.live c) = (pipeOf g.word == 3 && (c.preg (wordGuard g.word)).val) := by
  by_cases hpipe : pipeOf g.word = 3
  · simp [ofPipe_one, hpipe, GWord.live, hsel hpipe]
  · rw [ofPipe_one, if_neg hpipe, beq_false_of_ne hpipe]
    rfl

theorem selector_one (g : GWord) : (ofPipe [g] 0).any (fun w => w.word.extractLsb' 24 4 != 0) = (pipeOf g.word == 0 && g.word.extractLsb' 24 4 != 0) := by
  by_cases hpipe : pipeOf g.word = 0
  · simp [ofPipe_one, hpipe]
  · rw [ofPipe_one, if_neg hpipe, beq_false_of_ne hpipe]
    rfl

/-- The words of the group, run at its place. -/
theorem OneWord.step_run {g : GWord} (h : Claims.OneWord a b s users st k g.idx succ g.word g.lit) (hdec : decodeWord g.word g.lit = .ok g.i)
    (hdiv : isDivide g.i = true → ((Claims.landed s k).ctx k).land.any (fun e => e.divide) = false)
    (hloops : ((Claims.landed s k).ctx k).loops = [] ∨ ((Claims.landed s k).ctx k).groups < 1024) {t : State} {causes : List Cause}
    (hrun : runGroup (Claims.landed s k) (Claims.groupAt s k succ g.word) [g] = { s := t, causes := causes }) :
    (causes = [] → step a = .next (Claims.issuedGroup s users st k g.word t)) ∧
    ∀ e, causes = [e] → step a = .next (((({ Claims.landed s k with pos := Claims.groupAt s k succ g.word } : State).untick k).takeCause k e
      (s.ctx k).pc).tookSlot st k users) := by
  obtain ⟨ws, hform, hstep⟩ := OneWord.step_issues h
  have hcalm := h.calm
  have hwithX := withX_one (g := g) (isSel_of_decode hdec)
  have hselector := selector_one g
  have hwear := s.wearFactor_landed k
  have hlong : ¬ (0 < ((Claims.landed s k).ctx k).loops.length ∧ 1024 ≤ ((Claims.landed s k).ctx k).groups) := by
    rintro ⟨hlen, hgroups⟩
    rcases hloops with hnil | hfew
    · rw [hnil] at hlen
      exact absurd hlen (Nat.lt_irrefl 0)
    · omega
  simp only [Claims.landed, Claims.groupAt] at hrun hdiv hlong
  refine ⟨fun hnone => ?_, fun e hone => ?_⟩
  · refine hstep _ ?_
    subst hnone
    simp only [State.issueFormed, hform, judge_ok hdec hdiv, hcalm, hwithX, hselector, hrun, hlong, hwear, Bool.false_eq_true, if_false,
      List.append_nil]
    rfl
  · refine hstep _ ?_
    subst hone
    simp only [State.issueFormed, hform, judge_ok hdec hdiv, hcalm, hwithX, hrun, hlong, Bool.false_eq_true, if_false, List.append_nil]
    rfl

end OneWord

end Sys2Proof.Machine

end

section
/-! SUPPORT. What the one word of a group leaves, and where the group goes on, pipe by pipe (R186, R290, R323). -/

namespace Sys2Proof.Machine

section Landed
variable {s u : State} {k succ : Nat} {g : GWord}

/-- The word of a group of one word, run at its place. -/
def landedWord (s : State) (k succ : Nat) (g : GWord) : Run :=
  Run.word { s := begun (Claims.landed s k) (Claims.groupAt s k succ g.word) } (Claims.groupAt s k succ g.word) g

/-- The words of that group. -/
def landedRun (s : State) (k succ : Nat) (g : GWord) : Run := wordsRun (Claims.landed s k) (Claims.groupAt s k succ g.word) [g]

section Exec
variable (hexec : exec g.i (Claims.wordAt s k g.idx succ g.word g.lit) = .next u)
include hexec

theorem landedWord_eq : landedWord s k succ g = Run.after { s := begun (Claims.landed s k) (Claims.groupAt s k succ g.word) } (.next u) :=
  congrArg (Run.after _) hexec

theorem landedWord_quiet (hquiet : u.raised = none) : landedWord s k succ g = { s := u } := by
  rw [landedWord_eq hexec, Run.after_next hquiet]

theorem landedRun_vx {v : State} (hpipe : pipeOf g.word = 1 ∨ pipeOf g.word = 3) (hquiet : u.raised = none) (hpush : servePush u = .ok v) :
    landedRun s k succ g = { s := v } := by
  have hword := landedWord_quiet hexec hquiet
  rw [landedRun, wordsRun_vx hpipe, ← landedWord, hword, Run.push_served hpush]

theorem landedRun_m (hpipe : pipeOf g.word = 2) (hquiet : u.raised = none) : landedRun s k succ g = { s := u } :=
  (wordsRun_m hpipe).trans (landedWord_quiet hexec hquiet)

theorem landedRun_s (hpipe : pipeOf g.word = 0) (hquiet : u.raised = none) (hpend : u.pendPush = none) : landedRun s k succ g = { s := u } := by
  have hword := landedWord_quiet hexec hquiet
  exact (wordsRun_s hpipe ((congrArg (fun r : Run => r.s.pendPush) hword).trans hpend)).trans hword

/-- A word that raises a cause leaves the group as it began. -/
theorem landedRun_raise {e : Cause} (hpipe : pipeOf g.word ≠ 0) (hraised : u.raised = some (.cause e)) :
    landedRun s k succ g = { s := begun (Claims.landed s k) (Claims.groupAt s k succ g.word), causes := [e] } := by
  have hword : landedWord s k succ g = { s := begun (Claims.landed s k) (Claims.groupAt s k succ g.word), causes := [e] } := by
    rw [landedWord_eq hexec, Run.after_cause hraised]
    rfl
  by_cases hm : pipeOf g.word = 2
  · exact (wordsRun_m hm).trans hword
  · have hvx : pipeOf g.word = 1 ∨ pipeOf g.word = 3 := by
      have : ∀ p : BitVec 2, p ≠ 0 → p ≠ 2 → p = 1 ∨ p = 3 := by decide
      exact this _ hpipe hm
    rw [landedRun, wordsRun_vx hvx, ← landedWord, hword, Run.push_none rfl]

end Exec

/-- A group whose words raise nothing goes on at its next address. -/
theorem runGroup_landed {t : State} (h : landedRun s k succ g = { s := t }) :
    runGroup (Claims.landed s k) (Claims.groupAt s k succ g.word) [g] = Run.select { s := t } (Claims.groupAt s k succ g.word) [g] :=
  runGroup_select h

/-- A cause of a word that is no S word stands alone where the sequential successor raises none. -/
theorem runGroup_landed_raise {t : State} {e : Cause} (hpipe : pipeOf g.word ≠ 0) (h : landedRun s k succ g = { s := t, causes := [e] })
    (hseq : ∀ r, execSeq { Claims.landed s k with pos := Claims.groupAt s k succ g.word, raised := none } = .next r → r.raised = none) :
    runGroup (Claims.landed s k) (Claims.groupAt s k succ g.word) [g] = { s := t, causes := [e] } := by
  have hfilter : [g].filter (fun w => pipeOf w.word = 0 && !selfSelects w.i) = [] := by
    rw [List.filter_eq_nil_iff]
    intro y hy
    rw [List.mem_singleton.1 hy, decide_eq_false hpipe]
    exact Bool.false_ne_true
  have hselect : Run.select { s := { Claims.landed s k with pos := Claims.groupAt s k succ g.word, raised := none } }
      (Claims.groupAt s k succ g.word) [] = { s := _ } := select_none.trans (Run.after_next (hseq _ rfl))
  rw [runGroup_raise h, hfilter, hselect]

/-- The selector of an S word that decodes is one of those of R323. -/
theorem execNext_word {w : Word} {t r : State} (hnx : (w.extractLsb' 24 4).toNat ≠ 15)
    (hseq : (w.extractLsb' 24 4).toNat = 0 → execSeq t = .next r) (hloop : (w.extractLsb' 24 4).toNat = 1 → execLoop t = .next r)
    (hbrk : (w.extractLsb' 24 4).toNat = 2 → execBrk t = .next r) (hret : (w.extractLsb' 24 4).toNat = 3 → execRet t = .next r)
    (hjmp : (w.extractLsb' 24 4).toNat / 4 = 1 → execJmp (w.extractLsb' 24 2) t = .next r)
    (hcall : (w.extractLsb' 24 4).toNat / 4 = 2 → execCall (w.extractLsb' 24 2) t = .next r)
    (hyield : (w.extractLsb' 24 4).toNat = 12 → execYield t = .next r) (hwait : (w.extractLsb' 24 4).toNat = 13 → execWaitbrk t = .next r)
    (hstop : (w.extractLsb' 24 4).toNat = 14 → execStop t = .next r) : execNext (nxOf (w.extractLsb' 24 4)) t = .next r := by
  rw [← setWidth_selector] at hjmp hcall
  generalize w.extractLsb' 24 4 = nx at *
  have hfixed : ∀ n : BitVec 4, nx.toNat = n.toNat → nxOf nx = nxOf n := fun n h => congrArg nxOf (BitVec.eq_of_toNat_eq h)
  have hlt := nx.isLt
  obtain h | h | h | h | h | h | h | h | h : nx.toNat = 0 ∨ nx.toNat = 1 ∨ nx.toNat = 2 ∨ nx.toNat = 3 ∨ nx.toNat / 4 = 1 ∨ nx.toNat / 4 = 2 ∨
      nx.toNat = 12 ∨ nx.toNat = 13 ∨ nx.toNat = 14 := by omega
  · exact (congrArg (execNext · t) (hfixed 0 h)).trans (hseq h)
  · exact (congrArg (execNext · t) (hfixed 1 h)).trans (hloop h)
  · exact (congrArg (execNext · t) (hfixed 2 h)).trans (hbrk h)
  · exact (congrArg (execNext · t) (hfixed 3 h)).trans (hret h)
  · exact (congrArg (execNext · t) (nxOf_jmp nx h)).trans (hjmp h)
  · exact (congrArg (execNext · t) (nxOf_call nx h)).trans (hcall h)
  · exact (congrArg (execNext · t) (hfixed 12 h)).trans (hyield h)
  · exact (congrArg (execNext · t) (hfixed 13 h)).trans (hwait h)
  · exact (congrArg (execNext · t) (hfixed 14 h)).trans (hstop h)

end Landed

end Sys2Proof.Machine

end

section
namespace Sys2Proof.Machine

theorem State.quiet_at {u : State} (hquiet : u.raised = none) (p : Pos) : ({ u with pos := p, raised := none } : State) = { u with pos := p } := by
  rw [← hquiet]

section OneWord
variable {a b s u : State} {users : List Nat} {st k succ : Nat} {g : GWord}
variable (h : Claims.OneWord a b s users st k g.idx succ g.word g.lit) (hdec : decodeWord g.word g.lit = .ok g.i)
variable (hdiv : isDivide g.i = true → ((Claims.landed s k).ctx k).land.any (fun e => e.divide) = false)
variable (hloops : ((Claims.landed s k).ctx k).loops = [] ∨ ((Claims.landed s k).ctx k).groups < 1024)
include h hdec hdiv hloops

/-- A group whose word raises nothing leaves what its next address leaves. -/
theorem OneWord.step_select {t r : State} (hrun : landedRun s k succ g = { s := t })
    (hselect : Run.select { s := t } (Claims.groupAt s k succ g.word) [g] = { s := r }) :
    step a = .next (Claims.issuedGroup s users st k g.word r) :=
  (OneWord.step_run h hdec hdiv hloops ((runGroup_landed hrun).trans hselect)).1 rfl

/-- A group without an S word goes on at its sequential successor. -/
theorem OneWord.step_noS {t r : State} (hpipe : pipeOf g.word ≠ 0) (hrun : landedRun s k succ g = { s := t }) (hseq : execSeq t = .next r)
    (hquiet : r.raised = none) : step a = .next (Claims.issuedGroup s users st k g.word r) := by
  refine OneWord.step_select h hdec hdiv hloops hrun ?_
  rw [select_noS hpipe, hseq, Run.after_next hquiet]

variable (hexec : exec g.i (Claims.wordAt s k g.idx succ g.word g.lit) = .next u)
include hexec

theorem OneWord.step_raise {e : Cause} (hraised : u.raised = some (.cause e)) (hpipe : pipeOf g.word ≠ 0)
    (hseq : ∀ r, execSeq { Claims.landed s k with pos := Claims.groupAt s k succ g.word, raised := none } = .next r → r.raised = none) :
    step a = .next (((({ Claims.landed s k with pos := Claims.groupAt s k succ g.word } : State).untick k).takeCause k e
      (s.ctx k).pc).tookSlot st k users) :=
  (OneWord.step_run h hdec hdiv hloops (runGroup_landed_raise hpipe (landedRun_raise hexec hpipe hraised) hseq)).2 e rfl

variable (hpipe : pipeOf g.word = 0) (hquiet : u.raised = none) (hpend : u.pendPush = none)
include hpipe hquiet hpend

/-- A live S word goes on where its selector says. -/
theorem OneWord.step_live {r : State} (hself : selfSelects g.i = false) (hlive : g.live u.me = true)
    (hnext : execNext (nxOf (g.word.extractLsb' 24 4))
      { u with pos := { Claims.groupAt s k succ g.word with idx := BitVec.ofNat 2 g.idx, word := g.word, lit := g.lit } } = .next r)
    (hr : r.raised = none) : step a = .next (Claims.issuedGroup s users st k g.word r) := by
  refine OneWord.step_select h hdec hdiv hloops (landedRun_s hexec hpipe hquiet hpend) ?_
  rw [select_live hpipe hlive hself, State.quiet_at hquiet, hnext, Run.after_next hr]

/-- A squashed S word goes on at its sequential successor. -/
theorem OneWord.step_squashed {r : State} (hlive : g.live u.me = false) (hnx : (g.word.extractLsb' 24 4).toNat ≠ 14)
    (hseq : execSeq { u with pos := Claims.groupAt s k succ g.word } = .next r) (hr : r.raised = none) :
    step a = .next (Claims.issuedGroup s users st k g.word r) := by
  refine OneWord.step_select h hdec hdiv hloops (landedRun_s hexec hpipe hquiet hpend) ?_
  rw [select_squashed hpipe hlive hnx, hseq, Run.after_next hr]

/-- A live word that sets the PC itself goes on where it has set it. -/
theorem OneWord.step_self (hself : selfSelects g.i = true) (hlive : g.live u.me = true) :
    step a = .next (Claims.issuedGroup s users st k g.word u) :=
  OneWord.step_select h hdec hdiv hloops (landedRun_s hexec hpipe hquiet hpend) (select_self hpipe hlive hself)

end OneWord

end Sys2Proof.Machine

end

section
namespace Sys2Proof.Machine

/-- Settles O57: the step is that of the group (`OneWord.step_run`), whose one word runs in the state in which its landings have landed
(`landedWord_eq`), and which goes on at the address that its pipe and its selector say (`Run.select`). -/
theorem aGroupRunsItsWord : Obligations.AGroupRunsItsWord := by
  unfold Obligations.AGroupRunsItsWord
  intro a b s users st k idx succ w x h l c base done
  refine ⟨fun e hdec => OneWord.step_illegal h hdec, ?_⟩
  intro i u hdec hdiv hloops hexec live at' nx
  let g : GWord := { idx := idx, word := w, lit := x, i := i }
  refine ⟨?vx, ?m, ?selector, ?squashed, ?self, ?raise⟩
  case vx =>
    intro hpipe hquiet v r hpush hseq hr
    have hne : pipeOf w ≠ 0 := by rcases hpipe with h | h <;> rw [h] <;> decide
    exact OneWord.step_noS (g := g) h hdec hdiv hloops hne (landedRun_vx (g := g) hexec hpipe hquiet hpush) hseq hr
  case m =>
    intro hpipe hquiet r hseq hr
    have hne : pipeOf w ≠ 0 := by rw [hpipe]; decide
    exact OneWord.step_noS (g := g) h hdec hdiv hloops hne (landedRun_m (g := g) hexec hpipe hquiet) hseq hr
  case selector =>
    rintro hpipe hquiet hpend hself hlive r ⟨hseq, hloop, hbrk, hret, hjmp, hcall, hyield, hwait, hstop⟩ hr
    exact OneWord.step_live (g := g) h hdec hdiv hloops hexec hpipe hquiet hpend hself hlive
      (execNext_word (nxOf_of_decode hdec hpipe) hseq hloop hbrk hret hjmp hcall hyield hwait hstop) hr
  case squashed =>
    exact fun hpipe hquiet hpend hlive hnx r =>
      OneWord.step_squashed (g := g) h hdec hdiv hloops hexec hpipe hquiet hpend hlive hnx
  case self => exact OneWord.step_self (g := g) h hdec hdiv hloops hexec
  case raise => exact fun e => OneWord.step_raise (g := g) h hdec hdiv hloops hexec

end Sys2Proof.Machine
end

section
/-! SUPPORT. A push of a lame result to a channel that is not configured (R187, R290, R381): the state in which the word of
`Obligations.ChannelsInBothPipes` raises two causes, of which the lower code is taken. -/

namespace Sys2Proof.Machine

/-- Context 0 on stall 0 with one vector register, which is lame with cause UE, and no channel. -/
def lameNoChannel : State :=
  { State.reset with ctxs := [(0, { Ctx.reset with loc := .on 0 0, vregs := 1, f := { Files.reset with v := [(0, ⟨zeroV, 3⟩)] } })] }

/-- The push is a consuming use, of code 7, and names an unconfigured channel, of code 11 (R290). -/
theorem vmov_lameNoChannel : ∃ t, exec (.vmov {} (.push 0) (.win 0)) lameNoChannel = .next t ∧
    t.raised = some (.cause (Claims.causeAt lameNoChannel 7 (3 + 256 * 255) 3)) :=
  ⟨_, rfl, by decide +kernel⟩

end Sys2Proof.Machine

end

section
namespace Sys2Proof.Machine

/-- Refutes O17: its last clause asks for CHANNEL_CONFIG wherever the channel of a push is not configured, also where the pushed value is lame. In
`lameNoChannel` the push is a consuming use besides (R381), and of the two causes UNCORRECTABLE has the lower code (R290). -/
theorem not_channelsInBothPipes : ¬ Obligations.ChannelsInBothPipes := by
  unfold Obligations.ChannelsInBothPipes Claims.VectorChannelOperands
  rintro ⟨-, h⟩
  obtain ⟨-, -, -, -, -, hnone⟩ := h lameNoChannel {} 0 0 leftover 0 (by unfold Claims.Live; decide +kernel)
    (by unfold Claims.InWindow; decide +kernel)
  obtain ⟨t, ht, hraised⟩ := vmov_lameNoChannel
  have hconfig : t.raised = some (.cause (Claims.causeAt lameNoChannel 11 0)) :=
    congrArg State.raised (Host.Outcome.next.inj (ht.symm.trans (hnone rfl).2))
  exact absurd (hraised.symm.trans hconfig) (by decide +kernel)

end Sys2Proof.Machine

end

section
/-! SUPPORT. A load that a fault of its address generator has spoiled (R307, R444): the state in which `Obligations.AccessesPerformed` lets its data
land as they came. -/

namespace Sys2Proof.Machine

/-- A load into a1 that has been performed, its data 5 without a lame cause, and whose address generator has met its third detection since. -/
def spoiledLoad : XCmd := { tok := 0, i := .ldd {} (.reg 1) 0 {}, st := .performed, data := some ⟨5, 0⟩, ue := true }
/-- The landing entry that awaits the data. -/
def awaiting : Landing := { seq := 0, remain := 1, writes := [.a 1 ⟨0, 1⟩], tok := some 0 }
/-- Context 0 on stall 0 with that load alone in its queue. -/
def spoiled : State := { State.reset with ctxs := [(0, { Ctx.reset with loc := .on 0 0, xq := [spoiledLoad], land := [awaiting] })] }

/-- The data arrive lame, cause UE (R307). -/
theorem loadArrive_spoiled : ((spoiled.loadArrive 0 0).ctx 0).land = [{ awaiting with tok := none, writes := [.a 1 ⟨5, 3⟩] }] := by decide +kernel

end Sys2Proof.Machine

end

section
namespace Sys2Proof.Machine

/-- Refutes O24: its clause on LOAD_DATA_ARRIVAL lets data land with the lame cause they came with, also those of a command that a third detection of
R307 has spoiled. The load of `spoiled` is such a command: its data, which came without a lame cause, land with cause UE. -/
theorem not_accessesPerformed : ¬ Obligations.AccessesPerformed := by
  unfold Obligations.AccessesPerformed Claims.CommandsComplete
  rintro ⟨-, h⟩
  obtain ⟨harrive, -⟩ := h spoiled 0 0 0 spoiledLoad {} 1 0 ⟨5, 0⟩ awaiting 0 0 leftover 0 0 .rlx
  obtain ⟨t, ht, -, hland, -⟩ := harrive rfl rfl rfl rfl rfl rfl rfl
  have heq : t = spoiled.loadArrive 0 0 := (Host.Outcome.next.inj ht).symm
  rw [heq, loadArrive_spoiled] at hland
  exact absurd hland (by decide +kernel)

end Sys2Proof.Machine

end

section
/-! SUPPORT. What the landings of a group make of its context (R175, R176, R320): its files by the results in the order in which they land, VFLAGS by
their flags, and beside these its channels and HITCHID alone. -/

namespace Sys2Proof.Machine

/-! ## What a pushed record and a new HITCHID leave -/

/-- The second context is the first with other channels and another HITCHID. -/
def Ctx.LandedBeside (c d : Ctx) : Prop := ∃ chans id, d = { c with chans := chans, csr := { c.csr with hitchid := id } }

theorem Ctx.LandedBeside.refl (c : Ctx) : c.LandedBeside c := ⟨_, _, rfl⟩

theorem Ctx.LandedBeside.chans (c : Ctx) (m : SMap Chan) : c.LandedBeside { c with chans := m } := ⟨m, _, rfl⟩

theorem Ctx.LandedBeside.trans {c d e : Ctx} (h1 : c.LandedBeside d) (h2 : d.LandedBeside e) : c.LandedBeside e := by
  obtain ⟨_, _, rfl⟩ := h1
  obtain ⟨m, id, rfl⟩ := h2
  exact ⟨m, id, rfl⟩

theorem State.freePage_beside (s : State) (k : Nat) (q : CIdx) (i : Nat) : (s.ctx k).LandedBeside ((s.freePage k q i).ctx k) := by
  unfold State.freePage
  dsimp only
  split
  · exact .refl _
  · exact (State.setCtx_ctx s k _) ▸ .chans _ _

theorem State.skipEmpty_beside (k : Nat) (q : CIdx) (n : Nat) : ∀ s : State, (s.ctx k).LandedBeside ((s.skipEmpty k q n).ctx k) := by
  induction n with
  | zero => exact fun s => .refl _
  | succ n ih =>
    intro s
    unfold State.skipEmpty
    split
    · exact .refl _
    · split
      · exact (s.freePage_beside k q _).trans (ih _)
      · exact .refl _

theorem State.settlePage_beside (s : State) (k : Nat) (q : CIdx) (i : Nat) : (s.ctx k).LandedBeside ((s.settlePage k q i).ctx k) := by
  unfold State.settlePage
  dsimp only
  split
  · exact .refl _
  · refine Ctx.LandedBeside.trans ?_ (State.skipEmpty_beside k q 64 _)
    rw [State.setCtx_ctx]
    exact .chans _ _

theorem State.writeRecord_beside (s : State) (k : Nat) (q : CIdx) (page rec : Nat) (b : List Byte) (l : Lame) :
    (s.ctx k).LandedBeside ((s.writeRecord k q page rec b l).ctx k) := by
  unfold State.writeRecord
  dsimp only
  split
  · exact .refl _
  · refine Ctx.LandedBeside.trans ?_ (State.settlePage_beside _ k q page)
    rw [State.setCtx_ctx]
    exact .chans _ _

theorem State.landEffect_beside (s : State) (k : Nat) (w : RegWrite) : (s.ctx k).LandedBeside ((s.landEffect k w).ctx k) := by
  cases w
  case hitch id =>
    unfold State.landEffect
    dsimp only
    split
    · rw [State.modCtx_ctx]
      exact ⟨_, id, rfl⟩
    · exact .refl _
  case push => exact State.writeRecord_beside ..
  all_goals exact .refl _

theorem State.foldl_landEffect_beside (k : Nat) (ws : List RegWrite) : ∀ s : State,
    (s.ctx k).LandedBeside ((ws.foldl (fun s w => s.landEffect k w) s).ctx k) := by
  induction ws with
  | nil => exact fun s => .refl _
  | cons w ws ih => exact fun s => (s.landEffect_beside k w).trans (ih _)

/-! ## Results in the order in which they land -/

/-- The files after results that land one after another. -/
def Files.landed (f : Files) (ws : List RegWrite) : Files := ws.foldl (fun f w => w.apply f) f

/-- VFLAGS after entries that land one after another. -/
def flagsLanded (v : DWord) (l : List Landing) : DWord := l.foldl (fun v e => v ||| e.flags.setWidth 64) v

/-- The second context is the first with its files and VFLAGS as some entries leave them. -/
def Ctx.Lands (c : Ctx) (l : List Landing) (d : Ctx) : Prop :=
  ∃ chans id, d = { c with f := c.f.landed (l.flatMap (fun e => e.writes)), chans := chans,
                           csr := { c.csr with vflags := flagsLanded c.csr.vflags l, hitchid := id } }

theorem State.landOne_lands (s : State) (k : Nat) (e : Landing) : (s.ctx k).Lands [e] ((s.landOne k e).ctx k) := by
  obtain ⟨m, id, h⟩ := State.foldl_landEffect_beside k e.writes (s.modCtx k (fun c =>
    { c with f := e.writes.foldl (fun f w => w.apply f) c.f, csr := { c.csr with vflags := c.csr.vflags ||| e.flags.setWidth 64 } }))
  rw [State.modCtx_ctx] at h
  refine ⟨m, id, h.trans ?_⟩
  simp only [Files.landed, flagsLanded, List.flatMap_cons, List.flatMap_nil, List.append_nil, List.foldl_cons, List.foldl_nil]

theorem Ctx.Lands.cons {c d b : Ctx} {e : Landing} {l : List Landing} (h1 : c.Lands [e] d) (h2 : d.Lands l b) : c.Lands (e :: l) b := by
  obtain ⟨_, _, rfl⟩ := h1
  obtain ⟨m, id, rfl⟩ := h2
  refine ⟨m, id, ?_⟩
  simp only [Files.landed, flagsLanded, List.flatMap_cons, List.flatMap_nil, List.append_nil, List.foldl_append, List.foldl_cons, List.foldl_nil]

theorem State.foldl_landOne_lands (k : Nat) (l : List Landing) : ∀ s : State,
    (s.ctx k).Lands l ((l.foldl (fun s e => s.landOne k e) s).ctx k) := by
  induction l with
  | nil => exact fun s => ⟨_, _, rfl⟩
  | cons e l ih => exact fun s => (s.landOne_lands k e).cons (ih _)

/-! ## One scalar register, and the flags -/

theorem rget_rset {α : Type} (v : Vector α 32) (r q : RIdx) (x : α) : rget (rset v r x) q = if r = q then x else rget v q := by
  unfold rget rset
  rw [Vector.getElem_set]
  simp only [← BitVec.toNat_inj]

/-- A result that does not name a scalar register leaves it. -/
theorem RegWrite.apply_s_ne {w : RegWrite} {r : RIdx} (h : ∀ x, w ≠ .s r x) (f : Files) : rget (w.apply f).s r = rget f.s r := by
  cases w
  case s q x =>
    have hne : q ≠ r := fun hq => h x (hq ▸ rfl)
    simp only [RegWrite.apply]
    split
    · rfl
    · rw [rget_rset, if_neg hne]
  case a => simp only [RegWrite.apply]; split <;> rfl
  case p => simp only [RegWrite.apply]; split <;> rfl
  all_goals rfl

theorem RegWrite.apply_s {r : RIdx} (hr : r ≠ 0) (x : Lamed DWord) (f : Files) : rget ((RegWrite.s r x).apply f).s r = x := by
  simp only [RegWrite.apply, if_neg hr]
  rw [rget_rset, if_pos rfl]

/-- What is written to s0 is discarded (R320). -/
theorem RegWrite.apply_s0 (w : RegWrite) (f : Files) : rget (w.apply f).s 0 = rget f.s 0 := by
  by_cases h : ∃ x, w = .s 0 x
  · obtain ⟨x, rfl⟩ := h
    rfl
  · exact RegWrite.apply_s_ne (fun x hx => h ⟨x, hx⟩) f

theorem Files.landed_s0 (ws : List RegWrite) : ∀ f : Files, rget (f.landed ws).s 0 = rget f.s 0 := by
  induction ws with
  | nil => exact fun f => rfl
  | cons w ws ih => exact fun f => (ih _).trans (w.apply_s0 f)

theorem Files.landed_s_ne {r : RIdx} {ws : List RegWrite} (h : ∀ x, RegWrite.s r x ∉ ws) (f : Files) :
    rget (f.landed ws).s r = rget f.s r := by
  induction ws generalizing f with
  | nil => rfl
  | cons w ws ih =>
    have hw : ∀ x, w ≠ .s r x := fun x hx => h x (hx ▸ List.mem_cons_self)
    exact (ih (fun x hx => h x (List.mem_cons_of_mem _ hx)) _).trans (RegWrite.apply_s_ne hw f)

/-- The last result for a register is the one that stays. -/
theorem Files.landed_s_last {r : RIdx} (hr : r ≠ 0) (x : Lamed DWord) (pre : List RegWrite) {post : List RegWrite}
    (h : ∀ y, RegWrite.s r y ∉ post) (f : Files) : rget (f.landed (pre ++ .s r x :: post)).s r = x := by
  have hsplit : f.landed (pre ++ .s r x :: post) = ((RegWrite.s r x).apply (f.landed pre)).landed post := by
    simp only [Files.landed, List.foldl_append, List.foldl_cons]
  rw [hsplit, Files.landed_s_ne h, RegWrite.apply_s hr]

/-- Flags that no entry raises stay as they are. -/
theorem flagsLanded_and {b : BitVec 6} {l : List Landing} (h : ∀ e ∈ l, e.flags &&& b = 0) (v : DWord) :
    flagsLanded v l &&& b.setWidth 64 = v &&& b.setWidth 64 := by
  induction l generalizing v with
  | nil => rfl
  | cons e l ih =>
    have he : e.flags.setWidth 64 &&& b.setWidth 64 = 0 := by
      rw [← BitVec.setWidth_and, h e List.mem_cons_self]
      rfl
    have hstep : flagsLanded v (e :: l) = flagsLanded (v ||| e.flags.setWidth 64) l := rfl
    rw [hstep, ih (fun x hx => h x (List.mem_cons_of_mem _ hx)), BitVec.and_or_distrib_right, he]
    exact BitVec.or_zero

/-! ## A group begins (R175, R176) -/

/-- The entries of a landing queue one group nearer. -/
def nearer (l : List Landing) : List Landing := l.map (fun e => { e with remain := e.remain - 1 })

/-- The entries that have waited out. -/
def dueOf (l : List Landing) : List Landing := (nearer l).filter (fun e => decide (e.remain = 0))

/-- The order in which due entries land: VCLRL before all others (R402). -/
def landOrder (due : List Landing) : List Landing := due.filter Landing.clears ++ due.filter (fun e => !e.clears)

theorem mem_landOrder {due : List Landing} {e : Landing} : e ∈ landOrder due ↔ e ∈ due := by
  simp only [landOrder, List.mem_append, List.mem_filter, Bool.not_eq_true']
  cases e.clears <;> simp

/-- The context as its rider begins a group, before anything lands. -/
def Ctx.ticked (c : Ctx) : Ctx :=
  { c with land := (nearer c.land).filter (fun e => decide (e.remain ≠ 0)), seq := c.seq + 1 }

theorem State.tick_eq (s : State) (k : Nat) :
    (s.tick k).1 = (landOrder (dueOf (s.ctx k).land)).foldl (fun s e => s.landOne k e) (s.setCtx k (s.ctx k).ticked) := rfl

theorem State.tick_lands (s : State) (k : Nat) : (s.ctx k).ticked.Lands (landOrder (dueOf (s.ctx k).land)) ((s.tick k).1.ctx k) := by
  have h := State.foldl_landOne_lands k (landOrder (dueOf (s.ctx k).land)) (s.setCtx k (s.ctx k).ticked)
  rwa [State.setCtx_ctx] at h

theorem not_mem_landOrder_writes {due : List Landing} {w : RegWrite} (h : ∀ e ∈ due, w ∉ e.writes) :
    w ∉ (landOrder due).flatMap (fun e => e.writes) := by
  intro hw
  obtain ⟨e, he, hwe⟩ := List.mem_flatMap.1 hw
  exact h e (mem_landOrder.1 he) hwe

/-- An entry of one scalar result does not clear lame bits, so it lands after the entries before it and before those after it. -/
theorem landOrder_split {pre post : List Landing} {e : Landing} (h : e.clears = false) :
    landOrder (pre ++ e :: post) = ((pre ++ e :: post).filter Landing.clears ++ pre.filter (fun e => !e.clears)) ++
      e :: post.filter (fun e => !e.clears) := by
  simp [landOrder, List.filter_append, h]

end Sys2Proof.Machine

end

section
namespace Sys2Proof.Machine

/-- Settles O18: the files, VFLAGS and the queue after the landings (`State.tick_lands`), register by register. -/
theorem landingQueue : Obligations.LandingQueue := by
  unfold Obligations.LandingQueue
  intro s k c u near due
  obtain ⟨chans, id, hu⟩ := s.tick_lands k
  have hs : (u.ctx k).f.s = (c.f.landed ((landOrder due).flatMap (fun e => e.writes))).s := congrArg (fun d : Ctx => d.f.s) hu
  refine ⟨congrArg Ctx.land hu, congrArg Ctx.seq hu, ?_, ?_, ?_, ?_, ?_⟩
  case refine_1 =>
    intro r hr
    rw [hs, Files.landed_s_ne fun x => not_mem_landOrder_writes fun e he => hr e he x]
  case refine_2 =>
    intro r x pre post e hdue he hr hpost
    have hclears : e.clears = false := by simp [Landing.clears, he]
    have hsplit : (landOrder due).flatMap (fun e => e.writes) =
        ((pre ++ e :: post).filter Landing.clears ++ pre.filter (fun e => !e.clears)).flatMap (fun e => e.writes) ++
          .s r x :: (post.filter (fun e => !e.clears)).flatMap (fun e => e.writes) := by
      rw [hdue, landOrder_split hclears, List.flatMap_append, List.flatMap_cons, he, List.singleton_append]
    rw [hs, hsplit]
    refine Files.landed_s_last hr x _ (fun y hy => ?_) c.f
    obtain ⟨e', he', hy'⟩ := List.mem_flatMap.1 hy
    exact hpost e' (List.mem_of_mem_filter he') y hy'
  case refine_3 => rw [hs, Files.landed_s0]
  case refine_4 =>
    intro b hb
    rw [show (u.ctx k).csr.vflags = flagsLanded c.csr.vflags (landOrder due) from congrArg (fun d : Ctx => d.csr.vflags) hu]
    exact flagsLanded_and (fun e he => hb e (mem_landOrder.1 he)) _
  case refine_5 =>
    intro hdue
    have hland : near.filter (fun e => decide (e.remain ≠ 0)) = near :=
      List.filter_eq_self.2 fun e he => by simpa using List.filter_eq_nil_iff.1 hdue e he
    have hticked : c.ticked = { c with land := near, seq := c.seq + 1 } := congrArg (fun l => { c with land := l, seq := c.seq + 1 }) hland
    rw [show u = (landOrder due).foldl (fun s e => s.landOne k e) (s.setCtx k c.ticked) from s.tick_eq k, hdue, hticked]
    rfl

end Sys2Proof.Machine

end

section
/-! SUPPORT. How a word ends, as the statements name it: with its effect, with its cause taken at its group (R288 to R291), or held (R184); and the
primitives that end one, under a bind. -/

namespace Sys2Proof.Machine

variable {α β : Type}

/-! ## The end of a word -/

theorem runBare_ok {b : W Unit} {s t : State} (h : b s = .ok ((), t)) : runBare b s = .next { t with raised := none } := by
  rw [runBare, h, settle_ok]

theorem runBare_raise {b : W Unit} {s : State} {code info : Nat} {l : Lame} (h : b s = (raise code info l : W Unit) s) :
    runBare b s = .next (Claims.taken s (Claims.causeAt s code info l)) := by
  rw [runBare, h]
  rfl

theorem runWord_ok {b : W Unit} {s t : State} {g : PIdx} (hg : Claims.Live s g) (h : b s = .ok ((), t)) :
    runWord g b s = .next { t with raised := none } := by
  rw [runWord_live hg, h, settle_ok]

theorem runWord_raise {b : W Unit} {s : State} {g : PIdx} {code info : Nat} {l : Lame} (hg : Claims.Live s g)
    (h : b s = (raise code info l : W Unit) s) : runWord g b s = .next (Claims.taken s (Claims.causeAt s code info l)) := by
  rw [runWord_live hg, h]
  rfl

/-! ## Under a bind -/

@[simp] theorem W.illegalContext_bind (f : α → W β) (s : State) : ((illegalContext : W α) >>= f) s = (raise 2 : W β) s := rfl
@[simp] theorem W.illegalContext_apply (s : State) : (illegalContext : W α) s = (raise 2 : W α) s := rfl
@[simp] theorem W.protection_bind (n : Nat) (f : α → W β) (s : State) : ((protection n : W α) >>= f) s = (raise 5 n : W β) s := rfl
@[simp] theorem W.hitchCause_bind (n : Nat) (f : α → W β) (s : State) : ((hitchCause n : W α) >>= f) s = (raise 12 n : W β) s := rfl
@[simp] theorem W.hitchCause_apply (n : Nat) (s : State) : (hitchCause n : W α) s = (raise 12 n : W α) s := rfl

@[simp] theorem goOn_bind (f : Unit → W β) (s : State) :
    (goOn >>= f) s = f () (s.modMe (fun c => { c with pc := s.pos.succ })) := rfl

/-- A consuming use of a jump register that is not lame reads its address. -/
theorem jUse_bind {j : JIdx} {s : State} (h : s.me.jlame j = 0) (f : DWord → W β) : (jUse j >>= f) s = f (s.me.jreg j) s := by
  apply W.bind_ok
  simp [jUse, consume, h]

/-- A consuming use of a jump register that is lame raises UNCORRECTABLE. -/
theorem jUse_bind_lame {j : JIdx} {s : State} (h : s.me.jlame j ≠ 0) (f : DWord → W β) :
    (jUse j >>= f) s = (raise 7 ((s.me.jlame j).toNat + 256 * (96 + j.toNat)) (s.me.jlame j) : W β) s := by
  simp only [jUse, consume_raise h, bind_assoc, W.getMe_bind, W.raise_bind]

/-- A feature that the rider has declared is there (R146). -/
theorem needFeature_bind {b : Nat} {s : State} (h : s.me.csr.declfeat.getLsbD b = true) (f : Unit → W β) : (needFeature b >>= f) s = f () s := by
  apply W.bind_ok
  simp [needFeature, bit, h]

theorem needFeature_bind_absent {b : Nat} {s : State} (h : s.me.csr.declfeat.getLsbD b = false) (f : Unit → W β) :
    (needFeature b >>= f) s = (raise 4 (2 ^ b) : W β) s := by
  simp [needFeature, bit, h]

end Sys2Proof.Machine

end

section
/-! SUPPORT. Fields and masks of a word as numbers: what a mask keeps of a word, and a field set above the rest of a word. -/

namespace Sys2Proof.Machine

theorem bits_low (x : DWord) (h : Nat) : bits x h 0 = x.toNat % 2 ^ (h + 1) := by
  rw [bits, Nat.pow_zero, Nat.div_one, Nat.sub_zero]

/-- A mask of a field keeps the field in its place. -/
theorem toNat_and_fmask (x : DWord) (h l : Nat) : (x &&& fmask h l).toNat = bits x h l * 2 ^ l := by
  apply Nat.eq_of_testBit_eq
  intro i
  rw [← BitVec.getLsbD, BitVec.getLsbD_and, Nat.testBit_mul_two_pow, testBit_bits]
  by_cases h64 : i < 64
  · rw [getLsbD_fmask h64]
    by_cases hl : l ≤ i
    · have hin : i - l < h + 1 - l ↔ i ≤ h := by omega
      simp [hl, hin, Bool.and_comm]
    · simp [hl]
  · rw [BitVec.getLsbD_of_ge x i (by omega)]
    by_cases hl : l ≤ i
    · simp [hl, BitVec.getLsbD_of_ge x i (by omega)]
    · simp [hl]

/-- A field set above every bit of a word adds its value in its place. -/
theorem toNat_setBits_above {x : DWord} {h l v : Nat} (hx : x.toNat < 2 ^ l) (hh : h < 64) (hl : l ≤ h) :
    (setBits x h l v).toNat = v % 2 ^ (h + 1 - l) * 2 ^ l + x.toNat := by
  rw [Nat.mul_comm, Nat.two_pow_add_eq_or_of_lt hx]
  apply Nat.eq_of_testBit_eq
  intro i
  rw [Nat.testBit_or, Nat.testBit_two_pow_mul, Nat.testBit_mod_two_pow]
  by_cases h64 : i < 64
  · rw [← BitVec.getLsbD, getLsbD_setBits _ _ _ _ _ h64]
    by_cases hi : l ≤ i
    · have hin : i - l < h + 1 - l ↔ i ≤ h := by omega
      have hzero : x.toNat.testBit i = false := Nat.testBit_lt_two_pow (Nat.lt_of_lt_of_le hx (Nat.pow_le_pow_right (by decide) hi))
      rw [BitVec.getLsbD, hzero]
      by_cases hih : i ≤ h <;> simp [hi, hin, hih]
    · simp [hi, BitVec.getLsbD]
  · rw [← BitVec.getLsbD, BitVec.getLsbD_of_ge _ _ (by omega), ← BitVec.getLsbD, BitVec.getLsbD_of_ge _ _ (by omega)]
    simp
    omega

end Sys2Proof.Machine

end

section
/-! SUPPORT. The next-address selectors and LOOPR (R189, R323, R349), one lemma for each way the rider can go. -/

namespace Sys2Proof.Machine

variable {s : State}

/-! ## Jumps, calls and returns (R323) -/

theorem exec_jmp {j : JIdx} (h : s.me.jlame j = 0) : exec (.jmp j) s = .next (Claims.withMe s (fun c => { c with pc := s.me.jreg j })) :=
  runBare_ok (by rw [jmpWord, jUse_bind h]; rfl)

theorem exec_jmp_lame {j : JIdx} (h : s.me.jlame j ≠ 0) : exec (.jmp j) s =
    .next (Claims.taken s (Claims.causeAt s 7 ((s.me.jlame j).toNat + 256 * (96 + j.toNat)) (s.me.jlame j))) :=
  runBare_raise (by rw [jmpWord, jUse_bind_lame h])

theorem callWord_room {j : JIdx} (h : s.me.links.length < 8) :
    callWord j s = (jUse j >>= fun a => modMe (fun c => { c with pc := a, links := s.pos.succ :: c.links })) s := by
  simp [callWord, Nat.not_le.2 h]

theorem exec_call {j : JIdx} (hj : s.me.jlame j = 0) (h : s.me.links.length < 8) : exec (.call j) s =
    .next (Claims.withMe s (fun c => { c with pc := s.me.jreg j, links := s.pos.succ :: s.me.links })) :=
  runBare_ok (by rw [callWord_room h, jUse_bind hj]; rfl)

theorem exec_call_lame {j : JIdx} (hj : s.me.jlame j ≠ 0) (h : s.me.links.length < 8) : exec (.call j) s =
    .next (Claims.taken s (Claims.causeAt s 7 ((s.me.jlame j).toNat + 256 * (96 + j.toNat)) (s.me.jlame j))) :=
  runBare_raise (by rw [callWord_room h, jUse_bind_lame hj])

theorem exec_call_full {j : JIdx} (h : 8 ≤ s.me.links.length) : exec (.call j) s = .next (Claims.taken s (Claims.causeAt s 2 0)) :=
  runBare_raise (by simp [callWord, h])

theorem exec_ret {a : DWord} {t : List DWord} (h : s.me.links = a :: t) :
    exec .ret s = .next (Claims.withMe s (fun c => { c with pc := a, links := t })) :=
  runBare_ok (by simp only [retWord, W.getMe_bind, h]; rfl)

theorem exec_ret_empty (h : s.me.links = []) : exec .ret s = .next (Claims.taken s (Claims.causeAt s 2 0)) :=
  runBare_raise (by simp [retWord, h])

/-! ## Loops (R189, R349) -/

theorem exec_brk {e : LoopEntry} {t : List LoopEntry} (h : s.me.loops = e :: t) :
    exec .brk s = .next (Claims.withMe s (fun c => { c with pc := e.exit, loops := t })) :=
  runBare_ok (by simp only [brkWord, W.getMe_bind, h]; rfl)

theorem exec_brk_empty (h : s.me.loops = []) : exec .brk s = .next (Claims.taken s (Claims.causeAt s 2 0)) :=
  runBare_raise (by simp [brkWord, h])

theorem exec_loop_empty (h : s.me.loops = []) : exec .loop s = .next (Claims.taken s (Claims.causeAt s 2 0)) :=
  runBare_raise (by simp [loopWord, h])

/-- VROT after a loop-back: BASE is one lower modulo SIZE (R189). -/
def Ctx.rotated (c : Ctx) : DWord :=
  if c.rotSize = 0 then c.csr.vrot else setBits c.csr.vrot 12 8 ((c.rotBase + c.rotSize - 1) % c.rotSize)

theorem Ctx.rotate_eq (c : Ctx) : c.rotate = { c with csr := { c.csr with vrot := c.rotated } } := by
  unfold Ctx.rotate Ctx.rotated
  split <;> rfl

theorem exec_loop_back {e : LoopEntry} {t : List LoopEntry} (h : s.me.loops = e :: t) (hn : 2 ≤ e.count.toNat) :
    exec .loop s = .next (Claims.withMe s (fun c => { c with
      pc := e.head, loops := { e with count := e.count - 1 } :: t, csr := { c.csr with vrot := s.me.rotated } })) := by
  refine runBare_ok ?_
  simp only [loopWord, W.getMe_bind, h, if_pos (show 1 < e.count.toNat by omega), W.modMe_apply, Ctx.rotate_eq]
  exact congrArg (fun t => Except.ok ((), t)) (State.modMe_congr s _ _ rfl)

theorem exec_loop_ends {e : LoopEntry} {t : List LoopEntry} (h : s.me.loops = e :: t) (hn : e.count.toNat ≤ 1) :
    exec .loop s = .next (Claims.withMe s (fun c => { c with pc := s.pos.succ, loops := t })) := by
  refine runBare_ok ?_
  simp only [loopWord, W.getMe_bind, h, if_neg (show ¬ 1 < e.count.toNat by omega), goOn_bind, W.modMe_apply, State.modMe_modMe]

/-! ## YIELD, WAITBRK and STOP (R165, R309, R323, R491) -/

/-- The state with the next slot of the stall given away by the context under way (R323). -/
def State.yielding (s : State) : State :=
  { s with stalls := s.stalls.put s.me.stall { s.stalls.getD s.me.stall {} with yielded := some s.me.slot } }

theorem exec_yield (s : State) : exec .yield s =
    .next { Claims.withMe s (fun c => { c with pc := s.pos.succ }) with
            stalls := s.stalls.put s.me.stall { s.stalls.getD s.me.stall {} with yielded := some s.me.slot } } := by
  have hme : (s.modMe (fun c => { c with pc := s.pos.succ })).me = { s.me with pc := s.pos.succ } := s.modMe_me _
  have h : yieldWord s = .ok ((), (s.yielding).modMe (fun c => { c with pc := s.pos.succ })) := by
    simp only [yieldWord, goOn_bind, W.modS_apply, hme]
    rfl
  exact runBare_ok h

/-- Debug of the groom contexts is barred in the life-cycle state DEPLOYED alone (R103). -/
theorem State.debugAllowed_iff (s : State) : s.debugAllowed = true ↔ s.reg .lcstate &&& 7 ≠ 2 := by
  have h7 : (s.reg .lcstate &&& 7).toNat = s.lifeCycle := by
    rw [BitVec.toNat_and, State.lifeCycle, bits, Nat.pow_zero, Nat.div_one]
    exact Nat.and_two_pow_sub_one_eq_mod _ 3
  have hiff : s.reg .lcstate &&& 7 = 2 ↔ s.lifeCycle = 2 := by
    rw [← h7]
    exact (BitVec.toNat_inj (y := 2)).symm
  rw [State.debugAllowed, bne_iff_ne, ne_eq, ne_eq, hiff]

theorem waitbrkWord_eq (s : State) : waitbrkWord s =
    (if s.debugAllowed then modS (fun s => s.blockFor s.cur .waitbrk s.pos.limit) else pure ()) (s.modMe (fun c => { c with pc := s.pos.succ })) :=
  rfl

theorem exec_waitbrk (h : s.reg .lcstate &&& 7 ≠ 2) : exec .waitbrk s = .next (Claims.withMe s (fun c => { c with
    pc := s.pos.succ,
    waits := c.waits ++ [{ kind := .waitbrk, pred := none, limit := s.pos.limit, deadline := s.clock + s.pos.limit }] })) := by
  refine runBare_ok ?_
  rw [waitbrkWord_eq, if_pos (s.debugAllowed_iff.2 h)]
  exact congrArg (fun t => Except.ok ((), t)) (State.modMe_modMe s _ _)

theorem exec_waitbrk_barred (h : s.reg .lcstate &&& 7 = 2) :
    exec .waitbrk s = .next (Claims.withMe s (fun c => { c with pc := s.pos.succ })) := by
  refine runBare_ok ?_
  rw [waitbrkWord_eq, if_neg (fun hd => s.debugAllowed_iff.1 hd h)]
  rfl

theorem exec_stop (h : s.me.nest.owes = none) : exec .stop s =
    .next (Claims.withMe (s.leaveHitch s.cur) (fun c => { c with retiring := true, pendingTrap := none })) := by
  refine runBare_ok ?_
  have howed : nestCheckOwed s = .ok ((), s) := by simp [nestCheckOwed, h]
  rw [stopWord, W.bind_ok howed]
  rfl

theorem exec_stop_owed {i : BitVec 64} (h : s.me.nest.owes = some i) : exec .stop s = .next (Claims.taken s (Claims.causeAt s 8 i.toNat)) := by
  refine runBare_raise ?_
  simp only [stopWord, nestCheckOwed, bind_assoc, W.getMe_bind, h]
  rfl

/-! ## LOOPR (R189, R349) -/

theorem nextPacket_eq (a : DWord) : nextPacket a = BitVec.ofNat 64 (a.toNat / 16 * 16 + 16) := by
  have hmask : a &&& ~~~(15 : DWord) = BitVec.ofNat 64 (a.toNat / 16 * 16) := by
    have h := toNat_and_fmask a 63 4
    rw [bits, Nat.mod_eq_of_lt (by omega)] at h
    exact BitVec.eq_of_toNat_eq (h.trans (BitVec.toNat_ofNat .. ▸ (Nat.mod_eq_of_lt (by omega)).symm))
  rw [nextPacket, hmask]
  exact (BitVec.ofNat_add ..).symm

section Loopr
variable {g : PIdx} {h : SHead} {a : RIdx} {j : JIdx} (hg : Claims.Live s h.g)
include hg

theorem exec_loopr_full (hn : (s.me.sreg a).val ≠ 0) (hfull : 6 ≤ s.me.loops.length) :
    exec (.loopr h a j) s = .next (Claims.taken s (Claims.causeAt s 2 0)) :=
  runWord_raise hg (by simp only [looprWord, W.getMe_bind, W.getS_bind, if_pos (And.intro hn hfull), W.illegalContext_bind])

omit hg in
theorem looprWord_enters (h : (s.me.sreg a).val ≠ 0 → s.me.loops.length < 6) : looprWord a j s =
    (sUse a >>= fun n => jUse j >>= fun exit =>
      if n = 0 then modMe (fun c => { c with pc := exit })
      else do
        goOn
        modMe (fun c => { c with loops := { count := n, head := nextPacket s.pos.addr, exit := exit, init := n } :: c.loops })) s := by
  have hroom : ¬ ((s.me.sreg a).val ≠ 0 ∧ 6 ≤ s.me.loops.length) := fun hn => absurd (h hn.1) (by omega)
  simp only [looprWord, W.getMe_bind, W.getS_bind, if_neg hroom]

theorem exec_loopr_lame (ha : (s.me.sreg a).lame ≠ 0) (hroom : s.me.loops.length < 6) : exec (.loopr h a j) s =
    .next (Claims.taken s (Claims.causeAt s 7 ((s.me.sreg a).lame.toNat + 256 * a.toNat) (s.me.sreg a).lame)) :=
  runWord_raise hg (by rw [looprWord_enters fun _ => hroom, sUse_bind_lame ha])

theorem exec_loopr_none (ha : s.me.sreg a = ⟨0, 0⟩) (hj : s.me.jlame j = 0) :
    exec (.loopr h a j) s = .next (Claims.withMe s (fun c => { c with pc := s.me.jreg j })) := by
  refine runWord_ok hg ?_
  rw [looprWord_enters (fun hn => absurd (congrArg Lamed.val ha) hn), sUse_bind (congrArg Lamed.lame ha), jUse_bind hj, ha]
  rfl

theorem exec_loopr_pushes {n : DWord} (ha : s.me.sreg a = ⟨n, 0⟩) (hn : n ≠ 0) (hroom : s.me.loops.length < 6) (hj : s.me.jlame j = 0) :
    exec (.loopr h a j) s = .next (Claims.withMe s (fun c => { c with
      pc := s.pos.succ,
      loops := { count := n, head := BitVec.ofNat 64 (s.pos.addr.toNat / 16 * 16 + 16), exit := s.me.jreg j, init := n } :: s.me.loops })) := by
  refine runWord_ok hg ?_
  rw [looprWord_enters (fun _ => hroom), sUse_bind (congrArg Lamed.lame ha), jUse_bind hj, ha, if_neg hn, goOn_bind, W.modMe_apply, State.modMe_modMe,
    nextPacket_eq]
  exact congrArg (fun t => Except.ok ((), t)) (State.modMe_congr s _ _ rfl)

end Loopr

end Sys2Proof.Machine

end

section
namespace Sys2Proof.Machine

/-- Settles O3: each selector and LOOPR by the lemma for the way that the rider goes. -/
theorem selectorsAndLoops : Obligations.SelectorsAndLoops := by
  unfold Obligations.SelectorsAndLoops Claims.SelectorsChooseTheNextGroup Claims.LoopsAreEntered
  refine ⟨fun s j => ?_, fun s h a j n hg => ?_⟩
  · refine ⟨rfl, exec_jmp, fun hj => ⟨exec_jmp_lame hj, exec_call_lame hj⟩, exec_call, exec_call_full, fun _ _ => exec_ret, exec_ret_empty, ?_,
      fun hl => ⟨exec_loop_empty hl, exec_brk_empty hl⟩, exec_yield s, exec_waitbrk, exec_waitbrk_barred, exec_stop, fun _ => exec_stop_owed⟩
    exact fun e t hl => ⟨exec_brk hl, exec_loop_back hl, exec_loop_ends hl⟩
  · exact ⟨exec_loopr_none hg, exec_loopr_pushes hg, fun hn ha => exec_loopr_full hg (ha ▸ hn), exec_loopr_lame hg⟩

end Sys2Proof.Machine

end

section
/-! SUPPORT. What CSRW does in a user context (R352, R353), and the values that it and the set-up words write (R266, R367 to R370). -/

namespace Sys2Proof.Machine

/-! ## Values -/

/-- VTYPE as a number: its four fields in their places, reserved codes as 0 (R266, R369). -/
theorem vtypeWord_eq (etype rm : Nat) (sat : Bool) {mask : Nat} (hm : mask < 8) : vtypeWord etype rm sat mask = BitVec.ofNat 64
    ((if etype < 6 then etype else 0) + 16 * (if rm < 5 then rm else 0) + 128 * sat.toNat + 256 * mask) := by
  unfold vtypeWord setBit
  have he : (if etype < 6 then etype else 0) < 6 := by split <;> omega
  have hr : (if rm < 5 then rm else 0) < 5 := by split <;> omega
  have hs : sat.toNat < 2 := Bool.toNat_lt sat
  generalize (if etype < 6 then etype else 0) = e at he ⊢
  generalize (if rm < 5 then rm else 0) = r at hr ⊢
  have h1 : (setBits 0 2 0 e).toNat = e := by
    rw [toNat_setBits_above (by decide) (by decide) (by decide), Nat.mod_eq_of_lt (by omega)]
    exact Nat.mul_one e
  have h2 : (setBits (setBits 0 2 0 e) 6 4 r).toNat = r * 16 + e := by
    rw [toNat_setBits_above (by omega) (by decide) (by decide), Nat.mod_eq_of_lt (by omega), h1]
    rfl
  have h3 : (setBits (setBits (setBits 0 2 0 e) 6 4 r) 7 7 sat.toNat).toNat = sat.toNat * 128 + (r * 16 + e) := by
    rw [toNat_setBits_above (by omega) (by decide) (by decide), Nat.mod_eq_of_lt (by omega), h2]
    rfl
  apply BitVec.eq_of_toNat_eq
  rw [toNat_setBits_above (by omega) (by decide) (by decide), Nat.mod_eq_of_lt (by omega), h3, BitVec.toNat_ofNat, Nat.mod_eq_of_lt (by omega)]
  omega

theorem trapvec_eq (v : DWord) : v &&& fmask 48 4 = BitVec.ofNat 64 (v.toNat % 2 ^ 49 / 16 * 16) := by
  apply BitVec.eq_of_toNat_eq
  rw [toNat_and_fmask, bits, BitVec.toNat_ofNat]
  omega

/-! ## CSRW (R352, R353) -/

section Csrw
variable {s : State} {h : SHead} {d : RIdx} {n : BitVec 10} {v : DWord}

/-- A number that raises no cause in a user context: none of the trap registers outside handler mode, no stochastic rounding without its feature, and
no register of the groom contexts. -/
def Csrw.Admitted (c : Ctx) (n : BitVec 10) (v : DWord) : Prop :=
  (n ∈ [(0x021 : BitVec 10), 0x023, 0x024] → c.csr.status.getLsbD 3 = true) ∧
  (n = 0x010 → bits v 6 4 = 4 → c.csr.declfeat.getLsbD 3 = true) ∧ ¬ (n = 0x006 ∨ n = 0x007 ∨ 0x080 ≤ n)

theorem trapCsr_iff : (n.toNat = 0x021 ∨ n.toNat = 0x023 ∨ n.toNat = 0x024) ↔ n ∈ [(0x021 : BitVec 10), 0x023, 0x024] := by
  simp [← BitVec.toNat_inj]

theorem groomCsr_iff : (n.toNat = 0x006 ∨ n.toNat = 0x007 ∨ csrGroom n.toNat = true) ↔ n = 0x006 ∨ n = 0x007 ∨ 0x080 ≤ n := by
  simp [← BitVec.toNat_inj, csrGroom, BitVec.le_def]

/-- An admitted number passes every check. -/
theorem csrwCheck_admitted (hv : Csrw.Admitted s.me n v) : csrwCheck s.me false n.toNat v s = .ok ((), s) := by
  obtain ⟨htrap, hround, hgroom⟩ := hv
  have h1 : ¬ ((n.toNat = 0x021 ∨ n.toNat = 0x023 ∨ n.toNat = 0x024) ∧ ¬ s.me.handler = true) :=
    fun hn => hn.2 (htrap (trapCsr_iff.1 hn.1))
  have h3 : ¬ ((n.toNat = 0x006 ∨ n.toNat = 0x007 ∨ csrGroom n.toNat = true) ∧ ¬ false = true) := fun hn => hgroom (groomCsr_iff.1 hn.1)
  unfold csrwCheck
  rw [if_neg h1]
  by_cases h2 : n.toNat = 0x010 ∧ bits v 6 4 = 4
  · have hfeat : s.me.csr.declfeat.getLsbD 3 = true := hround (BitVec.eq_of_toNat_eq h2.1) h2.2
    rw [if_pos h2]
    simp [needFeature, bit, hfeat]
  · rw [if_neg h2, if_neg h3]
    rfl

variable (hg : Claims.Live s h.g) (hu : s.cur < groomKey)
include hg hu

omit hg in
theorem csrwWord_user : csrwWord d n s = (csrwCheck s.me false n.toNat (s.me.sreg d).val >>= fun _ => sUse d >>= fun v => 
    modMe (fun c => { c with csr := c.csr.write n.toNat v })) s := by
  have hgroom : isGroom s.cur = false := decide_eq_false (Nat.not_le.2 hu)
  simp only [csrwWord, W.getS_bind, hgroom]
  rfl

theorem exec_csrw (hd : s.me.sreg d = ⟨v, 0⟩) (hv : Csrw.Admitted s.me n v) :
    exec (.csrw h d n) s = .next (Claims.withMe s (fun c => { c with csr := c.csr.write n.toNat v })) := by
  refine runWord_ok hg ?_
  rw [csrwWord_user hu, hd, W.bind_ok (csrwCheck_admitted hv), sUse_bind (congrArg Lamed.lame hd), hd]
  rfl

/-- The datum of CSRW is a consuming use (R352). -/
theorem exec_csrw_lame (hd : (s.me.sreg d).lame ≠ 0) (hv : Csrw.Admitted s.me n (s.me.sreg d).val) : exec (.csrw h d n) s =
    .next (Claims.taken s (Claims.causeAt s 7 ((s.me.sreg d).lame.toNat + 256 * d.toNat) (s.me.sreg d).lame)) := by
  refine runWord_raise hg ?_
  rw [csrwWord_user hu, W.bind_ok (csrwCheck_admitted hv), sUse_bind_lame hd]

/-- A trap register is written in handler mode alone (R353). -/
theorem exec_csrw_trap (hn : n ∈ [(0x021 : BitVec 10), 0x023, 0x024]) (hs : s.me.csr.status.getLsbD 3 = false) :
    exec (.csrw h d n) s = .next (Claims.taken s (Claims.causeAt s 2 0)) := by
  have hcheck : csrwCheck s.me false n.toNat (s.me.sreg d).val = illegalContext :=
    if_pos ⟨trapCsr_iff.2 hn, fun hh => Bool.false_ne_true (hs.symm.trans hh)⟩
  exact runWord_raise hg (by rw [csrwWord_user hu, hcheck, W.illegalContext_bind])

/-- A register of the groom contexts is PROTECTION in a user context (R353). -/
theorem exec_csrw_groom (hn : n = 0x006 ∨ n = 0x007 ∨ 0x080 ≤ n) : exec (.csrw h d n) s = .next (Claims.taken s (Claims.causeAt s 5 n.toNat)) := by
  have hn' : n.toNat = 0x006 ∨ n.toNat = 0x007 ∨ 0x080 ≤ n.toNat := by simpa [← BitVec.toNat_inj, BitVec.le_def] using hn
  have h1 : ¬ ((n.toNat = 0x021 ∨ n.toNat = 0x023 ∨ n.toNat = 0x024) ∧ ¬ s.me.handler = true) := by omega
  have h2 : ¬ (n.toNat = 0x010 ∧ bits (s.me.sreg d).val 6 4 = 4) := by omega
  have hcheck : csrwCheck s.me false n.toNat (s.me.sreg d).val = protection n.toNat := by
    rw [csrwCheck, if_neg h1, if_neg h2, if_pos ⟨groomCsr_iff.2 hn, Bool.false_ne_true⟩]
  exact runWord_raise hg (by rw [csrwWord_user hu, hcheck, W.protection_bind])

/-- Stochastic rounding in VTYPE needs SROUND (R353). -/
theorem exec_csrw_noRound (hd : s.me.sreg d = ⟨v, 0⟩) (hr : bits v 6 4 = 4) (hf : s.me.csr.declfeat.getLsbD 3 = false) :
    exec (.csrw h d 0x010) s = .next (Claims.taken s (Claims.causeAt s 4 8)) := by
  have hcheck : csrwCheck s.me false (0x010 : BitVec 10).toNat (s.me.sreg d).val = needFeature 3 := by
    rw [csrwCheck, if_neg (fun hn => absurd hn.1 (by decide)), if_pos ⟨rfl, hd ▸ hr⟩]
  exact runWord_raise hg (by rw [csrwWord_user hu, hcheck, needFeature_bind_absent hf]; rfl)

end Csrw

/-! ## VWIN, VROT, SETVT, SRSEED (R367 to R370) -/

section SetUp
variable {s : State} {h : SHead} (hg : Claims.Live s h.g)
include hg

theorem exec_vwin {i : Imm 10} (hi : (immU i).toNat ≤ 2047) : exec (.vwin h i) s =
    .next (Claims.withMe s (fun c => { c with csr := { c.csr with vwb := BitVec.ofNat 64 (immU i).toNat } })) :=
  runWord_ok hg (by simp only [vwinWord, if_neg (Nat.not_lt.2 hi)]; rfl)

theorem exec_vwin_far {i : Imm 10} (hi : 2047 < (immU i).toNat) : exec (.vwin h i) s =
    .next (Claims.taken s (Claims.causeAt s 10 ((immU i).toNat % 2048 * 65536))) :=
  runWord_raise hg (by simp only [vwinWord, if_pos hi]; rfl)

theorem exec_setvt {et rm : BitVec 3} {sat : Bool} {k : KIdx} (hr : rm ≠ 4 ∨ s.me.csr.declfeat.getLsbD 3 = true) : exec (.setvt h et rm sat k) s =
    .next (Claims.withMe s (fun c => { c with csr := { c.csr with vtype := vtypeWord et.toNat rm.toNat sat k.toNat } })) := by
  refine runWord_ok hg ?_
  unfold setvtWord
  by_cases h4 : rm = 4
  · simp only [if_pos h4, needFeature_bind (hr.resolve_left (not_not.2 h4))]
    rfl
  · simp only [if_neg h4]
    rfl

theorem exec_setvt_noRound {et : BitVec 3} {sat : Bool} {k : KIdx} (hf : s.me.csr.declfeat.getLsbD 3 = false) :
    exec (.setvt h et 4 sat k) s = .next (Claims.taken s (Claims.causeAt s 4 8)) :=
  runWord_raise hg (by simp only [setvtWord, if_true, needFeature_bind_absent hf]; rfl)

theorem exec_srseed {a b : RIdx} {x y : DWord} (hf : s.me.csr.declfeat.getLsbD 3 = true) (ha : s.me.sreg a = ⟨x, 0⟩) (hb : s.me.sreg b = ⟨y, 0⟩) :
    exec (.srseed h a b) s = .next (Claims.withMe s (fun c => { c with srSeed := (x, y), sr := [] })) := by
  refine runWord_ok hg ?_
  rw [srseedWord, needFeature_bind hf, sUse_bind (congrArg Lamed.lame ha), sUse_bind (congrArg Lamed.lame hb), ha, hb]
  rfl

theorem exec_srseed_noRound {a b : RIdx} (hf : s.me.csr.declfeat.getLsbD 3 = false) :
    exec (.srseed h a b) s = .next (Claims.taken s (Claims.causeAt s 4 8)) :=
  runWord_raise hg (by rw [srseedWord, needFeature_bind_absent hf]; rfl)

end SetUp

/-! ## Numbers that no check of CSRW looks at (R353) -/

/-- The numbers that a user context reads only, whatever is written to them. -/
def readOnlyCsrs : List (BitVec 10) := [0x000, 0x001, 0x002, 0x003, 0x004, 0x005, 0x008, 0x009, 0x00A, 0x00B, 0x022]

/-- The numbers that a user context may write at any time with any datum. -/
def writableCsrs : List (BitVec 10) := [0x011, 0x012, 0x013, 0x014, 0x015, 0x020]

theorem Csrw.admitted_of_plain {n : BitVec 10} (hn : n ∈ readOnlyCsrs ++ writableCsrs) (c : Ctx) (v : DWord) : Csrw.Admitted c n v := by
  have hall : ((readOnlyCsrs ++ writableCsrs).all fun n =>
      decide (n ∉ [(0x021 : BitVec 10), 0x023, 0x024] ∧ n ≠ 0x010 ∧ ¬ (n = 0x006 ∨ n = 0x007 ∨ 0x080 ≤ n))) = true := by decide
  obtain ⟨htrap, hround, hgroom⟩ := of_decide_eq_true (List.all_eq_true.1 hall n hn)
  exact ⟨fun h => absurd h htrap, fun h => absurd h hround, hgroom⟩

theorem Csrs.write_readOnly {n : BitVec 10} (hn : n ∈ readOnlyCsrs) (c : Csrs) (v : DWord) : c.write n.toNat v = c := by
  simp only [readOnlyCsrs, List.mem_cons, List.not_mem_nil, or_false] at hn
  obtain rfl | rfl | rfl | rfl | rfl | rfl | rfl | rfl | rfl | rfl | rfl := hn <;> rfl

end Sys2Proof.Machine

end

section
namespace Sys2Proof.Machine

/-- Settles O4: a CSRW that passes its checks writes the value of its register; the set-up words by their lemmas. -/
theorem controlRegistersAndVectorSetUp : Obligations.ControlRegistersAndVectorSetUp := by
  unfold Obligations.ControlRegistersAndVectorSetUp Claims.ControlRegisterWrites Claims.VectorSetUpWords
  refine ⟨fun s h d v hg hu => ?_, fun s h a b i n et rm sat k x y hg => ?_⟩
  · refine ⟨fun hd => ?_, fun n hn => exec_csrw_trap hg hu hn, fun n => exec_csrw_groom hg hu, fun n hn hl => ?_⟩
    · have plain : ∀ n ∈ readOnlyCsrs ++ writableCsrs,
          exec (.csrw h d n) s = .next (Claims.withMe s (fun c => { c with csr := c.csr.write n.toNat v })) :=
        fun n hn => exec_csrw hg hu hd (Csrw.admitted_of_plain hn _ _)
      refine ⟨fun hr => ?_, exec_csrw_noRound hg hu hd, ?_, ?_, ?_, ?_, ?_, ?_, ?_, fun hs => ⟨?_, ?_, ?_⟩⟩
      case refine_1 => exact exec_csrw hg hu hd ⟨fun hn => absurd hn (by decide), fun _ h4 => hr.resolve_left (not_not.2 h4), by decide⟩
      case refine_2 => exact plain 0x011 (by decide)
      case refine_3 => exact bits_low v 5 ▸ plain 0x012 (by decide)
      case refine_4 => exact plain 0x013 (by decide)
      case refine_5 => exact bits_low v 23 ▸ plain 0x014 (by decide)
      case refine_6 => exact deferqValue_eq v ▸ plain 0x015 (by decide)
      case refine_7 => exact trapvec_eq v ▸ plain 0x020 (by decide)
      case refine_8 =>
        intro n hn
        have h := plain n (List.mem_append_left _ hn)
        simp only [Csrs.write_readOnly hn] at h
        exact h
      all_goals exact exec_csrw hg hu hd ⟨fun _ => hs, fun hn => absurd hn (by decide), by decide⟩
    · exact exec_csrw_lame hg hu hl (Csrw.admitted_of_plain (List.mem_append_right _ hn) _ _)
  · refine ⟨exec_vwin hg, exec_vwin_far hg, runWord_ok hg rfl, fun hr => ?_, exec_srseed hg, fun hf => ⟨exec_srseed_noRound hg hf, exec_setvt_noRound hg hf⟩⟩
    rw [← vtypeWord_eq _ _ _ k.isLt]
    exact exec_setvt hg hr

end Sys2Proof.Machine

end

section
/-! SUPPORT. HITCH, UNHITCH and HBAR (R168 to R170, R365, R366), SPAWN (R166, R364), and CONTAIN and ENDCONT (R303, R371), one lemma for each way
that a word can go. -/

namespace Sys2Proof.Machine

variable {s : State} {h : SHead}

/-! ## User contexts -/

theorem userOnly_bind {β : Type} (hu : s.cur < groomKey) (f : Unit → W β) : (userOnly >>= f) s = f () s := by
  have hgroom : isGroom s.cur = false := decide_eq_false (Nat.not_le.2 hu)
  apply W.bind_ok
  simp only [userOnly, W.getS_bind, hgroom]
  rfl

theorem userOnly_bind_groom {β : Type} (hu : groomKey ≤ s.cur) (f : Unit → W β) : (userOnly >>= f) s = (raise 2 : W β) s := by
  have hgroom : isGroom s.cur = true := decide_eq_true hu
  simp only [userOnly, bind_assoc, W.getS_bind, hgroom, if_true, W.illegalContext_bind]

/-! ## Hitches -/

section Hitches
variable (hg : Claims.Live s h.g)
include hg

theorem exec_hitchCreate {d : RIdx} {e : Nat} (hu : s.cur < groomKey) (hnone : s.hitchOf s.cur = none)
    (hfree : s.freeHitch (bits s.me.csr.riderid 17 16) = some e) :
    let key := e * 4 + bits s.me.csr.riderid 17 16
    let made := s.makeHitch key [s.cur]
    exec (.hitchCreate h d) s = .next (Claims.queue made 4
      [.s d ⟨hitchId key (made.hitchGen key), 0⟩, .hitch (hitchId key (made.hitchGen key))]) := by
  refine runWord_ok hg ?_
  rw [hitchCreateWord, userOnly_bind hu]
  simp only [W.getS_bind, hnone, hfree]
  rfl

theorem exec_hitchCreate_refused {d : RIdx} (hu : s.cur < groomKey)
    (hno : (s.hitchOf s.cur).isSome = true ∨ s.freeHitch (bits s.me.csr.riderid 17 16) = none) :
    exec (.hitchCreate h d) s = .next (Claims.taken s (Claims.causeAt s 12 0)) := by
  refine runWord_raise hg ?_
  rw [hitchCreateWord, userOnly_bind hu]
  simp only [W.getS_bind]
  by_cases hin : (s.hitchOf s.cur).isSome = true
  · simp only [if_pos hin, W.hitchCause_bind]
  · simp only [if_neg hin, hno.resolve_left hin, W.hitchCause_apply]

theorem exec_hitchJoin {d a : RIdx} {id : DWord} {key : Nat} {x : Hitch} (hu : s.cur < groomKey) (hnone : s.hitchOf s.cur = none)
    (ha : s.me.sreg a = ⟨id, 0⟩) (hlive : s.liveHitch id = some (key, x)) (hroom : x.members.length < 4096) :
    exec (.hitchJoin h d a) s = .next (Claims.queue { s with hitches := s.hitches.put key { x with members := setAdd x.members s.cur } } 4
      [.s d ⟨hitchId key x.gen, 0⟩, .hitch (hitchId key x.gen)]) := by
  refine runWord_ok hg ?_
  rw [hitchJoinWord, userOnly_bind hu, sUse_bind (congrArg Lamed.lame ha), ha]
  simp only [W.getS_bind, hnone, hlive, if_neg (Nat.not_le.2 hroom)]
  rfl

theorem exec_hitchJoin_refused {d a : RIdx} {id : DWord} (hu : s.cur < groomKey) (ha : s.me.sreg a = ⟨id, 0⟩)
    (hno : (s.hitchOf s.cur).isSome = true ∨ s.liveHitch id = none) :
    exec (.hitchJoin h d a) s = .next (Claims.taken s (Claims.causeAt s 12 id.toNat)) := by
  refine runWord_raise hg ?_
  rw [hitchJoinWord, userOnly_bind hu, sUse_bind (congrArg Lamed.lame ha), ha]
  simp only [W.getS_bind]
  by_cases hin : (s.hitchOf s.cur).isSome = true
  · simp only [if_pos hin, W.hitchCause_bind]
  · simp only [if_neg hin, hno.resolve_left hin, W.hitchCause_apply]

theorem exec_unhitch {key : Nat} (hu : s.cur < groomKey) (hin : s.hitchOf s.cur = some key) :
    exec (.unhitch h) s = .next { s.leaveHitch s.cur with raised := none } := by
  refine runWord_ok hg ?_
  rw [unhitchWord, userOnly_bind hu]
  simp only [W.getS_bind, hin]
  rfl

theorem exec_unhitch_refused (hu : s.cur < groomKey) (hnone : s.hitchOf s.cur = none) :
    exec (.unhitch h) s = .next (Claims.taken s (Claims.causeAt s 12 0)) := by
  refine runWord_raise hg ?_
  rw [unhitchWord, userOnly_bind hu]
  simp only [W.getS_bind, hnone, Option.isNone_none, if_true, W.hitchCause_bind]

theorem exec_hbar_refused {p : PIdx} {t : Imm 10} (hu : s.cur < groomKey) (hnone : s.hitchOf s.cur = none) :
    exec (.hbar h p t) s = .next (Claims.taken s (Claims.causeAt s 12 0)) := by
  refine runWord_raise hg ?_
  rw [hbarWord, userOnly_bind hu]
  simp only [W.getS_bind, hnone, W.hitchCause_apply]

/-- The state with the arrival of the rider at the open phase of its hitch (R170). -/
def State.arrive (s : State) (key : Nat) : State :=
  { s with hitches := s.hitches.upd key (fun x => { x with arrived := setAdd x.arrived s.cur }) }

theorem exec_hbar {p : PIdx} {t : Imm 10} {key : Nat} (hu : s.cur < groomKey) (hin : s.hitchOf s.cur = some key) :
    exec (.hbar h p t) s = .next { ((s.arrive key).explicitWait .hbar p (immU t).toNat).hitchCheck key with raised := none } := by
  refine runWord_ok hg ?_
  rw [hbarWord, userOnly_bind hu]
  simp only [W.getS_bind, hin]
  rfl

omit hg in
/-- A phase that completes makes a step due and nothing else. -/
theorem State.hitchCheck_cases (s : State) (key : Nat) : s.hitchCheck key = s ∨ ∃ l, s.hitchCheck key = s.push l := by
  unfold State.hitchCheck
  split
  · exact .inl rfl
  · split
    · exact .inr ⟨_, rfl⟩
    · exact .inl rfl

omit hg in
theorem State.hitchCheck_me (s : State) (key : Nat) : (s.hitchCheck key).me = s.me := by
  obtain h | ⟨l, h⟩ := s.hitchCheck_cases key <;> rw [h]
  exact s.push_me l

omit hg in
theorem State.hitchCheck_hitches (s : State) (key : Nat) : (s.hitchCheck key).hitches = s.hitches := by
  obtain h | ⟨l, h⟩ := s.hitchCheck_cases key <;> rw [h]
  rfl

theorem exec_hitch_groom {d a : RIdx} {p : PIdx} {t : Imm 10} (hu : groomKey ≤ s.cur) :
    ∀ i ∈ [Instr.hitchCreate h d, .hitchJoin h d a, .unhitch h, .hbar h p t], exec i s = .next (Claims.taken s (Claims.causeAt s 2 0)) := by
  simp only [List.forall_mem_cons, List.not_mem_nil, false_implies, implies_true, and_true]
  exact ⟨runWord_raise hg (userOnly_bind_groom hu _), runWord_raise hg (userOnly_bind_groom hu _), runWord_raise hg (userOnly_bind_groom hu _),
    runWord_raise hg (userOnly_bind_groom hu _)⟩

end Hitches

/-! ## SPAWN (R166, R364) -/

theorem State.freeRecord_lt {s : State} {die slot : Nat} (h : s.freeRecord die = some slot) : slot < poolSize := by
  unfold State.freeRecord at h
  dsimp only at h
  split at h
  · cases h
  · have := List.mem_range.1 (List.mem_of_find?_eq_some h)
    omega

/-- The fields of a RIDERID (R163). -/
theorem riderId_fields {die slot gen prio : Nat} (hdie : die < 4) (hslot : slot < 2 ^ 16) :
    bits (riderId die slot gen prio) 15 0 = slot ∧ bits (riderId die slot gen prio) 17 16 = die := by
  simp only [riderId, bits, BitVec.toNat_ofNat]
  omega

section Spawn
variable {d b : RIdx} {j : JIdx} {x y : DWord} (hg : Claims.Live s h.g) (hu : s.cur < groomKey) (hfree : Claims.Free s)
  (hd : s.me.sreg d = ⟨x, 0⟩) (hb : s.me.sreg b = ⟨y, 0⟩) (hj : s.me.jlame j = 0)
include hu hfree hd hb hj

theorem spawnWord_entry : spawnWord d j b s = (match s.spawnRider s.cur (s.me.jreg j) x y with
    | some (id, t) => .ok ((), t.land (landing t 4 [.s d ⟨id, 0⟩]))
    | none => .ok ((), s.land (landing s 4 [.s d ⟨BitVec.allOnes 64, 0⟩]))) := by
  have hguard : s.me.guarded = false := hfree
  rw [spawnWord, userOnly_bind hu]
  simp only [W.getS_bind, hguard, Bool.false_eq_true, if_false]
  rw [sUse_bind (congrArg Lamed.lame hd), sUse_bind (congrArg Lamed.lame hb), jUse_bind hj, hd, hb]
  cases s.spawnRider s.cur (s.me.jreg j) x y <;> rfl

include hg

theorem exec_spawn_none (hnone : s.spawnRider s.cur (s.me.jreg j) x y = none) :
    exec (.spawn h d j b) s = .next (Claims.queue s 4 [.s d ⟨BitVec.allOnes 64, 0⟩]) :=
  runWord_ok hg (by rw [spawnWord_entry hu hfree hd hb hj, hnone])

theorem exec_spawn {id : DWord} {t : State} (hsome : s.spawnRider s.cur (s.me.jreg j) x y = some (id, t)) :
    exec (.spawn h d j b) s = .next (Claims.queue t 4 [.s d ⟨id, 0⟩]) :=
  runWord_ok hg (by rw [spawnWord_entry hu hfree hd hb hj, hsome])

end Spawn

end Sys2Proof.Machine

end
section
/-! SUPPORT. The rider that SPAWN makes (R117, R166), the arrival and the wait of HBAR (R170, R366), and the two ends of a containment region
(R303, R371). -/

namespace Sys2Proof.Machine

variable {s : State} {h : SHead}

/-! ## HBAR -/

theorem State.explicitWait_me (s : State) (kind : WaitKind) (p : PIdx) (t : Nat) :
    (s.explicitWait kind p t).me = { s.me with waits := s.me.waits ++
      [{ kind := kind, pred := some p, limit := t, deadline := s.clock + 1 + t, seq := s.seqNow, word := s.pos.word, lit := s.pos.lit }] } :=
  s.modMe_me _

theorem State.arrive_hitch {key : Nat} {y : Hitch} (hy : s.hitches.get? key = some y) :
    (s.arrive key).hitches.get? key = some { y with arrived := setAdd y.arrived s.cur } :=
  SMap.get?_upd_same _ hy

/-! ## The rider that SPAWN makes -/

/-- The launch attributes that a rider of a launch takes from it, or from its parent where the launch is gone (R166): features, priority. -/
def State.spawnFeatures (s : State) (p : Ctx) : Nat × Nat :=
  match s.launches.get? p.launch with
  | some l => (bankFeat l.kind l.bank, l.prio)
  | none => (bits p.csr.declfeat 7 0, bits p.csr.riderid 50 48)

/-- The context of the rider that SPAWN makes in a record of its parent's die. -/
def State.spawned (s : State) (k slot : Nat) (pc s1 s2 : DWord) : Ctx :=
  let p := s.ctx k
  let die := bits p.csr.riderid 17 16
  let c := newRider die slot (s.gens.getD (riderKey die slot) 0) (s.spawnFeatures p).2 (s.spawnFeatures p).1 pc.toNat s.ids s.clock s1 s2 0
  { c with launch := p.launch, asid := p.asid, root := p.root, aspace := p.aspace, tileX := s2.toNat % 65536, tileY := 1,
           vregs := p.vregs, nbays := p.nbays, csr := { c.csr with baymap := BitVec.ofNat 64 (p.nbays * 256) } }

theorem State.spawnRider_some {k slot : Nat} {pc s1 s2 : DWord} (hheld : s.recordsHeld (bits (s.ctx k).csr.riderid 17 16) = false)
    (hslot : s.freeRecord (bits (s.ctx k).csr.riderid 17 16) = some slot) :
    s.spawnRider k pc s1 s2 =
      some ((s.spawned k slot pc s1 s2).csr.riderid, s.putRider (bits (s.ctx k).csr.riderid 17 16) slot (s.spawned k slot pc s1 s2)) := by
  simp only [State.spawnRider, hheld, hslot, Bool.false_eq_true, if_false, State.spawned, State.spawnFeatures]
  cases s.launches.get? (s.ctx k).launch <;> rfl

theorem State.spawnRider_none {k : Nat} {pc s1 s2 : DWord}
    (h : s.recordsHeld (bits (s.ctx k).csr.riderid 17 16) = true ∨ s.freeRecord (bits (s.ctx k).csr.riderid 17 16) = none) :
    s.spawnRider k pc s1 s2 = none := by
  dsimp only [State.spawnRider]
  by_cases hheld : s.recordsHeld (bits (s.ctx k).csr.riderid 17 16) = true
  · rw [if_pos hheld]
  · rw [if_neg hheld, h.resolve_left hheld]

theorem State.spawned_riderid (s : State) (k slot : Nat) (pc s1 s2 : DWord) : ∃ gen prio,
    (s.spawned k slot pc s1 s2).csr.riderid = riderId (bits (s.ctx k).csr.riderid 17 16) slot gen prio := ⟨_, _, rfl⟩

theorem State.putRider_me {die slot : Nat} {c : Ctx} (hne : riderKey die slot ≠ s.cur) : (s.putRider die slot c).me = s.me :=
  State.setCtx_ctx_ne s _ _ c hne

theorem State.putRider_land_get? {die slot : Nat} {c : Ctx} (hne : riderKey die slot ≠ s.cur) (e : Landing) :
    ((s.putRider die slot c).land e).ctxs.get? (riderKey die slot) = some c :=
  (SMap.get?_put_ne (s.putRider die slot c).ctxs s.cur (riderKey die slot) _ (Ne.symm hne)).trans (SMap.get?_put_same _ _ _)

theorem landing_congr {s t : State} (hpos : t.pos = s.pos) (hme : t.me = s.me) (n : Nat) (ws : List RegWrite) : landing t n ws = landing s n ws := by
  simp only [landing, State.seqNow, hpos, hme]

theorem queue_putRider_land {die slot n : Nat} {c : Ctx} {ws : List RegWrite} (hne : riderKey die slot ≠ s.cur) :
    (Claims.queue (s.putRider die slot c) n ws).me.land = insertLanding s.me.land (landing s n ws) := by
  have hme := State.putRider_me (c := c) hne
  calc (Claims.queue (s.putRider die slot c) n ws).me.land
    _ = ((s.putRider die slot c).land (landing (s.putRider die slot c) n ws)).me.land := rfl
    _ = insertLanding s.me.land (landing s n ws) := by rw [State.land_me, landing_congr (by rfl) hme, hme]

/-! ## Containment regions -/

theorem setBit_eq_or (x : DWord) : setBit x 4 true = x ||| 16 := by
  apply BitVec.eq_of_getLsbD_eq
  intro i hi
  rw [setBit, getLsbD_setBits _ _ _ _ _ hi, BitVec.getLsbD_or]
  by_cases h4 : i = 4
  · subst h4
    simp
  · rw [if_neg (by omega), show (16 : DWord) = BitVec.twoPow 64 4 from rfl, BitVec.getLsbD_twoPow]
    simp [Ne.symm h4]

theorem setBit_eq_and_not (x : DWord) : setBit x 4 false = x &&& ~~~16 := by
  apply BitVec.eq_of_getLsbD_eq
  intro i hi
  rw [setBit, getLsbD_setBits _ _ _ _ _ hi, BitVec.getLsbD_and, BitVec.getLsbD_not, show (16 : DWord) = BitVec.twoPow 64 4 from rfl,
    BitVec.getLsbD_twoPow]
  by_cases h4 : i = 4
  · subst h4
    simp
  · rw [if_neg (by omega)]
    simp [Ne.symm h4, hi]

section Containment
variable {j : JIdx} (hg : Claims.Live s h.g)
include hg

theorem exec_contain (hc : s.me.csr.status.getLsbD 4 = false) (hh : s.me.csr.status.getLsbD 3 = false) (hj : s.me.jlame j = 0) :
    exec (.contain h j) s = .next (Claims.withMe s (fun c => { c with
      snap := some { s := c.f.s, loops := c.loops, links := c.links, vwb := c.csr.vwb, vrot := c.csr.vrot, target := s.me.jreg j },
      csr := { c.csr with status := c.csr.status ||| 16 } })) := by
  have hno : (s.me.contain || s.me.handler) = false := by rw [Ctx.contain, Ctx.handler, bit, bit, hc, hh]; rfl
  refine runWord_ok hg ?_
  simp only [containWord, W.getMe_bind, hno, Bool.false_eq_true, if_false, setBit_eq_or]
  rw [jUse_bind hj]
  rfl

theorem exec_contain_refused (hin : s.me.csr.status.getLsbD 4 = true ∨ s.me.csr.status.getLsbD 3 = true) :
    exec (.contain h j) s = .next (Claims.taken s (Claims.causeAt s 2 0)) := by
  have hyes : (s.me.contain || s.me.handler) = true := Bool.or_eq_true_iff.2 hin
  refine runWord_raise hg ?_
  simp only [containWord, W.getMe_bind, hyes, if_true, W.illegalContext_bind]

theorem exec_endcont (hc : s.me.csr.status.getLsbD 4 = true) :
    exec (.endcont h) s = .next (Claims.withMe s (fun c => { c with
      snap := none, csr := { c.csr with status := c.csr.status &&& ~~~16 } })) := by
  have hyes : s.me.contain = true := hc
  refine runWord_ok hg ?_
  simp only [endcontWord, W.getMe_bind, hyes, Bool.not_true, Bool.false_eq_true, if_false, setBit_eq_and_not]
  rfl

theorem exec_endcont_refused (hc : s.me.csr.status.getLsbD 4 = false) :
    exec (.endcont h) s = .next (Claims.taken s (Claims.causeAt s 2 0)) := by
  have hno : s.me.contain = false := hc
  refine runWord_raise hg ?_
  simp only [endcontWord, W.getMe_bind, hno, Bool.not_false, if_true, W.illegalContext_bind]

end Containment

/-! ## The statements of the families -/

theorem hitchWords : Claims.HitchWords := by
  intro s h d a p t e key x id hg
  refine ⟨exec_hitchCreate hg, exec_hitchCreate_refused hg, exec_hitchJoin hg, exec_hitchJoin_refused hg, ?_, ?_, exec_hitch_groom hg⟩
  · intro hu hin
    refine ⟨exec_unhitch hg hu hin, _, exec_hbar hg hu hin, ?_, ?_⟩
    · exact (State.hitchCheck_me _ _).trans (State.explicitWait_me (s.arrive key) .hbar p _)
    · intro y hy
      calc (((s.arrive key).explicitWait .hbar p (immU t).toNat).hitchCheck key).hitches.get? key
        _ = (s.arrive key).hitches.get? key := by rw [State.hitchCheck_hitches]; rfl
        _ = some { y with arrived := setAdd y.arrived s.cur } := State.arrive_hitch hy
  · intro hu hnone
    exact ⟨exec_unhitch_refused hg hu hnone, exec_hbar_refused hg hu hnone⟩

theorem spawnCreatesARider : Claims.SpawnCreatesARider := by
  intro s h d b j x y hg hu hfree hd hb hj
  refine ⟨?_, fun hno => exec_spawn_none hg hu hfree hd hb hj (State.spawnRider_none hno)⟩
  intro hheld slot hslot hne
  have hexec := exec_spawn hg hu hfree hd hb hj (State.spawnRider_some hheld hslot)
  obtain ⟨gen, prio, hid⟩ := s.spawned_riderid s.cur slot (s.me.jreg j) x y
  obtain ⟨hlow, hdie⟩ := riderId_fields (gen := gen) (prio := prio) (bits_lt s.me.csr.riderid 17 16) (State.freeRecord_lt hslot)
  refine ⟨_, _, hexec, State.putRider_land_get? hne _, (BitVec.ofNat_toNat _ _).trans (BitVec.setWidth_eq _), rfl, rfl, rfl, rfl, rfl, rfl, rfl, rfl, rfl, rfl,
    queue_putRider_land hne, ?_, ?_, rfl, rfl, rfl⟩
  · rw [hid]
    exact hlow.trans (Nat.mod_eq_of_lt (State.freeRecord_lt hslot)).symm
  · rw [hid]
    exact hdie

theorem containmentRegions : Claims.ContainmentRegions := by
  intro s h j hg
  exact ⟨exec_contain hg, exec_endcont hg, exec_contain_refused hg, exec_endcont_refused hg⟩

end Sys2Proof.Machine

end

section
namespace Sys2Proof.Machine

/-- Settles O6: the ways that each word can go, the rider that SPAWN makes taken field by field. -/
theorem hitchesAndSpawn : Obligations.HitchesAndSpawn := ⟨hitchWords, spawnCreatesARider, containmentRegions⟩

end Sys2Proof.Machine
end

section
/-! SUPPORT. The common frame of a V word whose operands are window registers: its sources, its lanes, its mask, its result (R375 to R381). -/

namespace Sys2Proof.Machine

open Claims (InWindow laneOf wLame)

variable {s : State} {β : Type}

/-! ## Checks and operands -/

theorem lowest_ok {l : List (W Unit)} (h : ∀ m ∈ l, m s = .ok ((), s)) : lowest l s = .ok ((), s) := by
  have hnone : causesOf l s = [] := by
    simp only [causesOf, List.filterMap_eq_nil_iff]
    intro m hm
    rw [h m hm]
  rw [lowest, hnone]

theorem checkVSrc_win {i : RIdx} (h : InWindow s i) : checkVSrc (.win i) s = .ok ((), s) := windowOf_bind h _

theorem checkVDst_win {i : RIdx} (h : InWindow s i) : checkVDst (.win i) s = .ok ((), s) := windowOf_bind h _

/-- The checks of a V word on window registers of the allocation pass. -/
theorem checkV_win_bind {d : RIdx} {l : List RIdx} {extra : Lame} (hd : InWindow s d) (hl : ∀ i ∈ l, InWindow s i) (f : Unit → W β) :
    (checkV (.win d) (l.map .win) extra >>= f) s = f () s := by
  apply W.bind_ok
  apply lowest_ok
  intro m hm
  rcases List.mem_cons.1 hm with rfl | hm
  · rfl
  · rcases List.mem_append.1 hm with hm | hm
    · simp only [List.map_map, List.mem_map, Function.comp] at hm
      obtain ⟨i, hi, rfl⟩ := hm
      exact checkVSrc_win (hl i hi)
    · rw [List.mem_singleton.1 hm]
      exact checkVDst_win hd

theorem vSrc_win_bind {i : RIdx} (h : InWindow s i) (f : Lamed VReg → W β) : (vSrc (.win i) >>= f) s = f (s.me.vreg (s.me.window i)) s :=
  wSrc_bind h f

theorem oldD_win_bind {i : RIdx} (h : InWindow s i) (f : Lamed VReg → W β) : (oldD (.win i) >>= f) s = f (s.me.vreg (s.me.window i)) s :=
  wSrc_bind h f

/-- The second source of a word that may have none. -/
def State.optReg (s : State) : Option RIdx → Lamed VReg
  | some i => s.me.vreg (s.me.window i)
  | none => ⟨zeroV, 0⟩

theorem optSrc_win_bind {b : Option RIdx} (h : ∀ i ∈ b, InWindow s i) (f : Lamed VReg → W β) :
    (optSrc (b.map .win) >>= f) s = f (s.optReg b) s := by
  cases b with
  | none => rfl
  | some i => exact vSrc_win_bind (h i rfl) f

/-- A vector result lands in its window register. -/
theorem landV_win {d : RIdx} {n : Nat} {flags : VFl} {x : Lamed VReg} (hd : InWindow s d) :
    (landV (.win d) n flags x : W Unit) s = .ok ((), s.land { landing s n [.v (s.me.window d) x] with flags := flags }) := by
  rw [landV, windowOf_bind hd]
  rfl

/-- Drawing changes nothing that a landing entry captures. -/
theorem landing_advance (s : State) (l : List Nat) (n : Nat) (ws : List RegWrite) :
    landing (s.modMe (fun c => c.advance l)) n ws = landing s n ws := by
  have hme : (s.modMe (fun c => c.advance l)).me = s.me.advance l := s.modMe_me _
  simp only [landing, State.seqNow, hme]
  rfl

theorem Ctx.window_advance (c : Ctx) (l : List Nat) (i : RIdx) : (c.advance l).window i = c.window i := rfl

theorem modMe_advance_landV {d : RIdx} {n : Nat} {flags : VFl} {x : Lamed VReg} (l : List Nat) (hd : InWindow s d) :
    (landV (.win d) n flags x : W Unit) (s.modMe (fun c => c.advance l)) =
      .ok ((), (s.modMe (fun c => c.advance l)).land { landing s n [.v (s.me.window d) x] with flags := flags }) := by
  have hme : (s.modMe (fun c => c.advance l)).me = s.me.advance l := s.modMe_me _
  have hd' : InWindow (s.modMe (fun c => c.advance l)) d := by rw [InWindow, hme]; exact hd
  rw [landV_win hd', landing_advance, hme, Ctx.window_advance]

theorem State.modMe_advance_nil (s : State) : s.modMe (fun c => c.advance []) = s.modMe id := rfl

/-! ## Lanes -/

theorem map_range_getD (l : List Nat) : (List.range l.length).map (fun j => l.getD j 0) = l := by
  apply List.ext_getElem
  · simp
  · intro i _ hi
    simp [hi]

theorem length_lanes (w : Nat) (v : VReg) : (lanes w v).length = 2048 / w := by simp [lanes]

/-- The lanes of a register, one for each lane number of the type in force. -/
theorem lanes_eq_map (e : EType) (v : VReg) : lanes e.width v = (List.range e.lanes).map (fun j => (lanes e.width v).getD j 0) := by
  conv_lhs => rw [← map_range_getD (lanes e.width v)]
  rw [length_lanes, EType.lanes]

theorem lanes_window (s : State) (i : RIdx) :
    lanes s.me.vt.etype.width (s.me.vreg (s.me.window i)).val = (List.range s.me.vt.etype.lanes).map (laneOf s i) := lanes_eq_map _ _

theorem mergedFrom_map (t : VType) (m : Mask) (dr : Nat → Nat) (f : LaneFn) (A B D : Nat → Nat) (n : Nat) : ∀ j,
    mergedFrom t m dr f j ((List.range' j n).map A) ((List.range' j n).map B) ((List.range' j n).map D) =
      (List.range' j n).map (fun i => if maskBit m i then f t (dr i) (A i) (B i) (D i) else (D i, 0)) := by
  induction n with
  | zero => intro j; rfl
  | succ n ih =>
    intro j
    simp only [List.range'_succ, List.map_cons, mergedFrom, ih]

theorem cmpFrom_map (op : VCmp) (t : VType) (m : Mask) (A B : Nat → Nat) (n : Nat) : ∀ j,
    cmpFrom op t m j ((List.range' j n).map A) ((List.range' j n).map B) =
      (List.range' j n).map (fun i => if maskBit m i then cmpLane op t (A i) (B i) else (false, 0)) := by
  induction n with
  | zero => intro j; rfl
  | succ n ih =>
    intro j
    simp only [List.range'_succ, List.map_cons, cmpFrom, ih]

theorem selFrom_map (m : Mask) (A B : Nat → Nat) (n : Nat) : ∀ j,
    selFrom m j ((List.range' j n).map A) ((List.range' j n).map B) = (List.range' j n).map (fun i => if maskBit m i then A i else B i) := by
  induction n with
  | zero => intro j; rfl
  | succ n ih =>
    intro j
    simp only [List.range'_succ, List.map_cons, selFrom, ih]

/-! ## Masks -/

theorem maskFull_iff (m : Mask) (n : Nat) : maskFull m n = true ↔ ∀ j < n, m.getLsbD j = true := by
  rw [maskFull, beq_iff_eq]
  constructor
  · intro h j hj
    have hbit := congrArg (fun x => BitVec.getLsbD x j) h
    simpa [hj] using hbit
  · intro h
    apply BitVec.eq_of_getLsbD_eq
    intro j hj
    simp [hj, h j hj]

theorem not_maskFull (m : Mask) (n : Nat) : (!maskFull m n) = (List.range n).any (fun j => !m.getLsbD j) := by
  rw [Bool.eq_iff_iff, Bool.not_eq_true', ← Bool.not_eq_true, maskFull_iff, List.any_eq_true]
  simp

theorem testBit_packNat_one (l : List Bool) : ∀ i, (packNat 1 (l.map Bool.toNat)).testBit i = l.getD i false := by
  induction l with
  | nil => intro i; simp [packNat]
  | cons b l ih =>
    intro i
    have hb : b.toNat % 2 = b.toNat := by cases b <;> rfl
    have hpack : packNat 1 ((b :: l).map Bool.toNat) = Nat.bit b (packNat 1 (l.map Bool.toNat)) := by
      rw [Nat.bit_val, List.map_cons, packNat, Nat.pow_one, hb, Nat.add_comm]
    rw [hpack]
    cases i with
    | zero => rw [Nat.testBit_bit_zero]; rfl
    | succ i => rw [Nat.testBit_bit_succ, ih]; rfl

theorem getLsbD_maskOf (n : Nat) (f : Nat → Bool) (i : Nat) : (maskOf n f).getLsbD i = (decide (i < 256) && (decide (i < n) && f i)) := by
  have hmap : (List.range n).map (fun j => (f j).toNat) = ((List.range n).map f).map Bool.toNat := by
    rw [List.map_map]
    rfl
  rw [maskOf, BitVec.getLsbD_ofNat, hmap, testBit_packNat_one]
  by_cases hi : i < n <;> simp [hi]

/-- The mask of some of the lanes of a type, among all 256 bits. -/
theorem maskOf_lanes (n : Nat) (f : Nat → Bool) : maskOf n f = maskOf 256 (fun j => decide (j < n) && f j) := by
  apply BitVec.eq_of_getLsbD_eq
  intro i hi
  rw [getLsbD_maskOf, getLsbD_maskOf]
  simp [hi]

/-! ## Lame causes and flags -/

theorem Lame.max_zero (x : Lame) : Lame.max x 0 = x := by
  unfold Lame.max
  split
  · apply BitVec.eq_of_toNat_eq
    simp_all
  · rfl

theorem unionFl_flagIf (l : List Nat) (p : Nat → Bool) (f : VFl) : unionFl (l.map (fun j => flagIf (p j) f)) = flagIf (l.any p) f := by
  have hfold : ∀ x : VFl, (l.map (fun j => flagIf (p j) f)).foldl (· ||| ·) x = x ||| flagIf (l.any p) f := by
    induction l with
    | nil => intro x; simp [flagIf]
    | cons j l ih =>
      intro x
      rw [List.map_cons, List.foldl_cons, ih, List.any_cons, BitVec.or_assoc]
      cases p j <;> cases l.any p <;> simp [flagIf]
  exact (hfold 0).trans BitVec.zero_or

/-! ## The whole word -/

theorem drawLanes_eq (s : State) : drawLanes s.me.vt (s.me.kreg s.me.vt.mask).val = Claims.drewAll s := by
  simp only [drawLanes, Claims.drewAll, Bool.and_eq_true, beq_iff_eq, Bool.not_eq_true']
  rfl

theorem lameOf_optReg (a : RIdx) (b : Option RIdx) (l : List Lame) :
    lameOf ((s.me.vreg (s.me.window a)).lame :: (s.optReg b).lame :: l) = lameOf ((a :: b.toList).map (wLame s) ++ l) := by
  cases b with
  | some i => rfl
  | none =>
    simp only [lameOf, State.optReg, List.foldl_cons, Lame.max_zero]
    rfl

/-- A merged word on window registers lands what its lane function gives inside the mask, and the old lanes elsewhere. -/
theorem runWord_vMerged {g : PIdx} {lat : Nat} {d a : RIdx} {b : Option RIdx} {readD draws : Bool} {f : LaneFn} (hg : Claims.Live s g)
    (hd : InWindow s d) (ha : InWindow s a) (hb : ∀ i ∈ b, InWindow s i) :
    runWord g (vMerged lat (.win d) (.win a) (b.map .win) readD draws f) s =
      .next (Claims.landMerged s lat d (a :: b.toList) readD (if draws then Claims.drewAll s else []) (fun j =>
        f s.me.vt (s.me.draw j 0) (laneOf s a j) ((lanes s.me.vt.etype.width (s.optReg b).val).getD j 0) (laneOf s d j))) := by
  have hl : ∀ i ∈ a :: b.toList, InWindow s i := List.forall_mem_cons.2 ⟨ha, fun i hi => hb i (Option.mem_toList.1 hi)⟩
  have hsrcs : VSrc.win a :: (b.map VSrc.win).toList = (a :: b.toList).map VSrc.win := by cases b <;> rfl
  have hmerged := mergedFrom_map s.me.vt (s.me.kreg s.me.vt.mask).val (fun j => s.me.draw j 0) f (laneOf s a)
    (fun j => (lanes s.me.vt.etype.width (s.optReg b).val).getD j 0) (laneOf s d) s.me.vt.etype.lanes 0
  rw [← List.range_eq_range', ← lanes_window, ← lanes_window, ← lanes_eq_map] at hmerged
  refine runWord_ok hg ?_
  simp only [vMerged, W.getMe_bind]
  rw [hsrcs, checkV_win_bind hd hl, vSrc_win_bind ha, optSrc_win_bind hb, oldD_win_bind hd]
  simp only [W.modMe_bind]
  rw [modMe_advance_landV _ hd, hmerged, drawLanes_eq, not_maskFull, lameOf_optReg]
  rfl

end Sys2Proof.Machine

end
section
/-! SUPPORT. The lane functions of R388 to R390 as the statements write them, and the words on lane masks (R391). -/

namespace Sys2Proof.Machine

open Claims (InWindow laneOf wLame sint fit)

variable {s : State} {g : PIdx} {d a b : RIdx}

/-! ## Integers of a lane -/

theorem EType.width_pos (e : EType) : 0 < e.width := by cases e <;> decide

theorem sextNat_eq_sint (s : State) (x : Nat) : sextNat x s.me.vt.etype.width = sint s x := by
  obtain ⟨w, hw⟩ : ∃ w, s.me.vt.etype.width = w + 1 := Nat.exists_eq_succ_of_ne_zero (Nat.ne_of_gt (EType.width_pos _))
  rw [sextNat, sint, BitVec.toInt_eq_toNat_cond, BitVec.toNat_ofNat, hw, Nat.add_sub_cancel]
  have hhalf : 2 * (x % 2 ^ (w + 1)) < 2 ^ (w + 1) ↔ x % 2 ^ (w + 1) < 2 ^ w := by rw [Nat.pow_succ]; omega
  simp only [hhalf]
  push_cast
  rfl

theorem intResult_eq_fit (s : State) (z : Int) : intResult z s.me.vt.etype.width s.me.vt.sat = fit s z := by
  simp only [intResult, fit, Int.sub_one_lt_iff]
  by_cases hsat : s.me.vt.sat = true
  · simp only [hsat, if_true, true_and]
    rfl
  · simp only [hsat, Bool.false_eq_true, if_false, false_and]
    rfl

/-- An integer result on the codes of a lane of any type (R388). -/
theorem intResult_codes (s : State) (z : Int) : intResult z s.me.vt.etype.width (s.me.vt.sat && s.me.vt.etype.isInt) =
    if s.me.vt.etype.isInt then fit s z else ((z % 2 ^ s.me.vt.etype.width).toNat, 0) := by
  cases hint : s.me.vt.etype.isInt with
  | true => rw [Bool.and_true, intResult_eq_fit, if_pos rfl]
  | false => rw [Bool.and_false]; rfl

theorem sextNat_mod (x w : Nat) : sextNat (x % 2 ^ w) w = sextNat x w := by rw [sextNat, sextNat, Nat.mod_mod]

theorem popCount_eq (w x : Nat) : popCount w x = ((List.range w).filter (fun i => x.testBit i)).length := by
  rw [popCount, List.countP_eq_length_filter]
  congr 2
  funext i
  rw [Nat.testBit_eq_decide_div_mod_eq, Bool.eq_iff_iff, beq_iff_eq, decide_eq_true_iff]

/-! ## Words that draw nothing -/

theorem runWord_twoSources {lat : Nat} {f : LaneFn} {F : Nat → Nat × VFl} (hg : Claims.Live s g) (hd : InWindow s d) (ha : InWindow s a)
    (hb : InWindow s b) (hF : ∀ j, f s.me.vt (s.me.draw j 0) (laneOf s a j) (laneOf s b j) (laneOf s d j) = F j) :
    runWord g (vMerged lat (.win d) (.win a) (some (.win b)) false false f) s = .next (Claims.landMerged s lat d [a, b] false [] F) := by
  have hb' : ∀ i ∈ some b, InWindow s i := fun i hi => by rwa [← Option.mem_some.1 hi]
  rw [← funext hF]
  exact runWord_vMerged (b := some b) hg hd ha hb'

theorem runWord_oneSource {lat : Nat} {f : LaneFn} {F : Nat → Nat × VFl} (hg : Claims.Live s g) (hd : InWindow s d) (ha : InWindow s a)
    (hF : ∀ j y, f s.me.vt (s.me.draw j 0) (laneOf s a j) y (laneOf s d j) = F j) :
    runWord g (vMerged lat (.win d) (.win a) none false false f) s = .next (Claims.landMerged s lat d [a] false [] F) := by
  rw [← funext (fun j => hF j _)]
  exact runWord_vMerged (b := none) hg hd ha (fun i hi => nomatch hi)

/-! ## Compares and VSEL -/

theorem State.modMe_id_land (s : State) (e : Landing) : (s.modMe id).land e = s.land e := s.modMe_modMe _ _

/-- The result of a word that draws nothing waits in the landing queue with its flags. -/
theorem queueV_eq (s : State) (n : Nat) (w : RegWrite) (flags : VFl) :
    Claims.queueV s n w flags = { s.land { landing s n [w] with flags := flags } with raised := none } := by
  rw [Claims.queueV, State.modMe_advance_nil, State.modMe_id_land]

/-- The mask of compared lanes, packed from one bit for each lane. -/
theorem packed_compares (n : Nat) (m p : Nat → Bool) :
    BitVec.ofNat 256 (packNat 1 ((List.range n).map (fun j => (m j && p j).toNat))) = maskOf 256 (fun j => decide (j < n) && m j && p j) := by
  simp only [Bool.and_assoc]
  exact maskOf_lanes n (fun j => m j && p j)

/-- A compare of the codes of two lanes gives its predicate, and NV on lanes of a floating type alone. -/
theorem runWord_vCompare {op : VCmp} {k : KIdx} {p nv : Nat → Bool} (hg : Claims.Live s g) (ha : InWindow s a) (hb : InWindow s b)
    (hop : ∀ j, cmpLane op s.me.vt (laneOf s a j) (laneOf s b j) = (p j, flagIf (nv j) fNV)) :
    runWord g (vCompare op k (.win a) (.win b)) s = .next (Claims.queueV s 3
      (.k k ⟨maskOf 256 (fun j => decide (j < s.me.vt.etype.lanes) && (s.me.kreg s.me.vt.mask).val.getLsbD j && p j),
        lameOf [wLame s a, wLame s b, (s.me.kreg s.me.vt.mask).lame]⟩)
      (flagIf ((List.range s.me.vt.etype.lanes).any (fun j => (s.me.kreg s.me.vt.mask).val.getLsbD j && nv j)) fNV)) := by
  have hrs := cmpFrom_map op s.me.vt (s.me.kreg s.me.vt.mask).val (laneOf s a) (laneOf s b) s.me.vt.etype.lanes 0
  have hlane : ∀ j, (if maskBit (s.me.kreg s.me.vt.mask).val j then cmpLane op s.me.vt (laneOf s a j) (laneOf s b j) else (false, 0)) =
      ((s.me.kreg s.me.vt.mask).val.getLsbD j && p j, flagIf ((s.me.kreg s.me.vt.mask).val.getLsbD j && nv j) fNV) := by
    intro j
    rw [hop, maskBit]
    cases (s.me.kreg s.me.vt.mask).val.getLsbD j <;> rfl
  rw [← List.range_eq_range', ← lanes_window, ← lanes_window, funext hlane] at hrs
  have hchecks : lowest [checkVSrc (.win a), checkVSrc (.win b)] s = .ok ((), s) := by
    apply lowest_ok
    simp only [List.forall_mem_cons, List.not_mem_nil, false_implies, implies_true, and_true]
    exact ⟨checkVSrc_win ha, checkVSrc_win hb⟩
  rw [queueV_eq]
  refine runWord_ok hg ?_
  simp only [vCompare, W.getMe_bind]
  rw [W.bind_ok hchecks, vSrc_win_bind ha, vSrc_win_bind hb]
  simp only [hrs, List.map_map, Function.comp_def, unionFl_flagIf, packed_compares]
  rfl

/-- A compare whose predicate and whose NV the type in force decides. -/
theorem runWord_vCompare_typed {op : VCmp} {k : KIdx} {int fl nv : Nat → Bool} (hg : Claims.Live s g) (ha : InWindow s a) (hb : InWindow s b)
    (hint : s.me.vt.etype.isInt = true → ∀ j, cmpLane op s.me.vt (laneOf s a j) (laneOf s b j) = (int j, 0))
    (hfl : s.me.vt.etype.isInt = false → ∀ j, cmpLane op s.me.vt (laneOf s a j) (laneOf s b j) = (fl j, flagIf (nv j) fNV)) :
    runWord g (vCompare op k (.win a) (.win b)) s = .next (Claims.queueV s 3
      (.k k ⟨maskOf 256 (fun j => decide (j < s.me.vt.etype.lanes) && (s.me.kreg s.me.vt.mask).val.getLsbD j &&
          (if s.me.vt.etype.isInt then int j else fl j)),
        lameOf [wLame s a, wLame s b, (s.me.kreg s.me.vt.mask).lame]⟩)
      (if !s.me.vt.etype.isInt && (List.range s.me.vt.etype.lanes).any (fun j => (s.me.kreg s.me.vt.mask).val.getLsbD j && nv j)
        then 0x01 else 0)) := by
  cases htype : s.me.vt.etype.isInt with
  | true =>
    have h := runWord_vCompare (k := k) (p := int) (nv := fun _ => false) hg ha hb (hint htype)
    simpa [flagIf] using h
  | false =>
    simp only [Bool.not_false, Bool.true_and, Bool.false_eq_true, if_false]
    exact runWord_vCompare hg ha hb (hfl htype)

/-- The predicate of a compare on two integers (R389). -/
def VCmp.ints : VCmp → Int → Int → Bool
  | .eq, x, y => x = y
  | .ne, x, y => x ≠ y
  | .lt, x, y => x < y
  | .le, x, y => x ≤ y
  | .un, _, _ => false

/-- The predicate of a compare on two floating values (R389). -/
def VCmp.floats : VCmp → Val → Val → Bool
  | .eq, x, y => eqVal x y
  | .ne, x, y => !eqVal x y
  | .lt, x, y => ltVal x y
  | .le, x, y => ltVal x y || eqVal x y
  | .un, x, y => x.isNan || y.isNan

/-- A compare of two floating values sets NV: a NaN does under an order, a signalling NaN under every predicate (R389). -/
def VCmp.invalid : VCmp → Val → Val → Bool
  | .lt, x, y | .le, x, y => x.isNan || y.isNan
  | .eq, x, y | .ne, x, y | .un, x, y => x.isSig || y.isSig

theorem cmpLane_int (op : VCmp) (h : s.me.vt.etype.isInt = true) (j : Nat) :
    cmpLane op s.me.vt (laneOf s a j) (laneOf s b j) = (op.ints (sint s (laneOf s a j)) (sint s (laneOf s b j)), 0) := by
  simp only [cmpLane, h, if_true, sextNat_eq_sint]
  cases op
  case ne => exact congrArg (·, _) (Bool.eq_iff_iff.2 (by rw [bne_iff_ne, VCmp.ints, decide_eq_true_iff]))
  all_goals rfl

theorem cmpLane_float (op : VCmp) (h : s.me.vt.etype.isInt = false) (j : Nat) :
    cmpLane op s.me.vt (laneOf s a j) (laneOf s b j) =
      (op.floats (decode s.me.vt.etype.fmt (laneOf s a j)) (decode s.me.vt.etype.fmt (laneOf s b j)),
        flagIf (op.invalid (decode s.me.vt.etype.fmt (laneOf s a j)) (decode s.me.vt.etype.fmt (laneOf s b j))) fNV) := by
  simp only [cmpLane, h, Bool.false_eq_true, if_false]
  cases op <;> rfl

theorem exec_vsel {h : WHead} (hg : Claims.Live s h.g) (hd : InWindow s d) (ha : InWindow s a) (hb : InWindow s b) :
    exec (.vsel h (.win d) (.win a) (.win b)) s = .next (Claims.queueV s 3
      (.v (s.me.window d) ⟨ofLanes s.me.vt.etype.width ((List.range s.me.vt.etype.lanes).map (fun j =>
          if (s.me.kreg s.me.vt.mask).val.getLsbD j then laneOf s a j else laneOf s b j)),
        lameOf [wLame s a, wLame s b, (s.me.kreg s.me.vt.mask).lame]⟩) 0) := by
  have hsel := selFrom_map (s.me.kreg s.me.vt.mask).val (laneOf s a) (laneOf s b) s.me.vt.etype.lanes 0
  rw [← List.range_eq_range', ← lanes_window, ← lanes_window] at hsel
  have hl : ∀ i ∈ [a, b], InWindow s i := List.forall_mem_cons.2 ⟨ha, List.forall_mem_singleton.2 hb⟩
  rw [queueV_eq]
  refine runWord_ok hg ?_
  simp only [vSelect, W.getMe_bind]
  rw [show [VSrc.win a, VSrc.win b] = [a, b].map VSrc.win from rfl, checkV_win_bind hd hl, vSrc_win_bind ha, vSrc_win_bind hb, landV_win hd, hsel]
  rfl

theorem vectorBitWords : Claims.VectorBitWords := by
  intro s h d a b i hg hd ha hb
  refine ⟨runWord_twoSources hg hd ha hb (fun _ => rfl), runWord_twoSources hg hd ha hb (fun _ => rfl),
    runWord_twoSources hg hd ha hb (fun _ => rfl), runWord_oneSource hg hd ha (fun _ _ => rfl),
    runWord_twoSources hg hd ha hb (fun _ => rfl), runWord_twoSources hg hd ha hb (fun _ => rfl),
    runWord_twoSources hg hd ha hb ?vsra, runWord_oneSource hg hd ha ?vaddi, runWord_twoSources hg hd ha hb ?vimul,
    runWord_oneSource hg hd ha ?vpopc⟩
  case vsra =>
    intro j
    rw [codeLane, lowBits, sextNat_eq_sint, Int.fdiv_eq_ediv_of_nonneg _ (by positivity)]
  case vaddi =>
    intro j y
    simp only [codeInt, sextNat_mod]
    rw [sextNat_eq_sint, sextNat_eq_sint, intResult_codes]
  case vimul =>
    intro j
    simp only [codeInt]
    rw [sextNat_eq_sint, sextNat_eq_sint, intResult_codes]
  case vpopc =>
    intro j y
    rw [codeLane, popCount_eq]

theorem vectorComparesAndSelect : Claims.VectorComparesAndSelect := by
  intro s h d a b k hg hd ha hb
  refine ⟨runWord_vCompare_typed hg ha hb (cmpLane_int .eq) (cmpLane_float .eq),
    runWord_vCompare_typed hg ha hb (cmpLane_int .ne) (cmpLane_float .ne), runWord_vCompare_typed hg ha hb (cmpLane_int .lt) (cmpLane_float .lt),
    runWord_vCompare_typed hg ha hb (cmpLane_int .le) (cmpLane_float .le), runWord_vCompare_typed hg ha hb (cmpLane_int .un) (cmpLane_float .un),
    exec_vsel hg hd ha hb⟩

/-! ## The words on lane masks -/

/-- The mask of the lanes below a bound is that many low one bits. -/
theorem maskOf_below (n : Nat) : maskOf 256 (fun j => decide (j < n)) = BitVec.ofNat 256 (2 ^ Nat.min 256 n - 1) := by
  apply BitVec.eq_of_getLsbD_eq
  intro i hi
  have hmin : i < Nat.min 256 n ↔ i < n := ⟨fun h => Nat.lt_of_lt_of_le h (Nat.min_le_right ..), fun h => Nat.lt_min.2 ⟨hi, h⟩⟩
  rw [getLsbD_maskOf, BitVec.getLsbD_ofNat, Nat.testBit_two_pow_sub_one]
  simp [hi, hmin]

theorem maskOf_singleton (j : Nat) : maskOf 256 (fun i => some j == some i) = BitVec.ofNat 256 (2 ^ j) := by
  apply BitVec.eq_of_getLsbD_eq
  intro i hi
  rw [getLsbD_maskOf, BitVec.getLsbD_ofNat, Nat.testBit_two_pow]
  by_cases h : j = i <;> simp [hi, h]

theorem maskOf_none : maskOf 256 (fun i => (none : Option Nat) == some i) = 0 := by
  apply BitVec.eq_of_getLsbD_eq
  intro i hi
  rw [getLsbD_maskOf]
  simp

/-- The mask of the first element of a list that passes a test, as KFIRST makes it. -/
theorem maskOf_find? (l : List Nat) (p : Nat → Bool) :
    maskOf 256 (fun i => l.find? p == some i) = (match l.filter p with
      | [] => 0
      | j :: _ => BitVec.ofNat 256 (2 ^ j)) := by
  rw [← List.head?_filter]
  cases l.filter p with
  | nil => exact maskOf_none
  | cons j t => exact maskOf_singleton j

theorem any_eq_not_isEmpty_filter (l : List Nat) (p : Nat → Bool) : l.any p = !(l.filter p).isEmpty := by
  rw [Bool.eq_iff_iff]
  simp

theorem laneMaskWords : Claims.LaneMaskWords := by
  intro s h d a b p i hg
  refine ⟨runWord_ok hg rfl, runWord_ok hg rfl, runWord_ok hg rfl, runWord_ok hg rfl, runWord_ok hg ?kset, runWord_ok hg ?kany,
    runWord_ok hg ?kfirst⟩
  case kset =>
    rw [maskOf_below]
    rfl
  case kany =>
    rw [← any_eq_not_isEmpty_filter]
    rfl
  case kfirst =>
    rw [W.getMe_bind, maskOf_find?]
    rfl

end Sys2Proof.Machine

end

section
namespace Sys2Proof.Machine

/-- Settles O9: the common frame of the words on window registers, with the lane function of each word. -/
theorem vectorBitsComparesMasks : Obligations.VectorBitsComparesMasks := ⟨vectorBitWords, vectorComparesAndSelect, laneMaskWords⟩

end Sys2Proof.Machine
end

section
/-! SUPPORT. The deferral queue (R195, R397 to R400): its fields of DEFERQ, its records, and the lanes that VDEFER appends. -/

namespace Sys2Proof.Machine

open Claims (InWindow laneOf wLame)

variable {s : State} {c : Ctx} {g : PIdx}

/-! ## HEAD and COUNT of DEFERQ -/

theorem Ctx.setDefer_count {h n : Nat} (hn : n ≤ 4096) : (c.setDefer h n).deferCount = n := by
  rw [Ctx.deferCount, Ctx.setDefer, bits_setBits_apart (by decide), bits_setBits_same (by decide)]
  omega

theorem Ctx.setDefer_head {h n : Nat} (hh : h < 4096) : (c.setDefer h n).deferHead = h := by
  rw [Ctx.deferHead, Ctx.setDefer, bits_setBits_same (by decide)]
  omega

theorem Ctx.setDefer_base (c : Ctx) (h n : Nat) : (c.setDefer h n).deferBase = c.deferBase := by
  rw [Ctx.deferBase, Ctx.setDefer, bits_setBits_apart (by decide), bits_setBits_apart (by decide)]
  rfl

@[simp] theorem Ctx.deferCount_land (c : Ctx) (L : List Landing) : ({ c with land := L } : Ctx).deferCount = c.deferCount := rfl
@[simp] theorem Ctx.deferHead_land (c : Ctx) (L : List Landing) : ({ c with land := L } : Ctx).deferHead = c.deferHead := rfl
@[simp] theorem Ctx.deferBase_land (c : Ctx) (L : List Landing) : ({ c with land := L } : Ctx).deferBase = c.deferBase := rfl

/-- A field set twice holds what was set last, whatever was set elsewhere between. -/
theorem setBits_pair_twice (x : DWord) (n h n' h' : Nat) : setBits (setBits (setBits (setBits x 36 24 n) 51 40 h) 36 24 n') 51 40 h' =
    setBits (setBits x 36 24 n') 51 40 h' := by
  apply BitVec.eq_of_getLsbD_eq
  intro i hi
  simp only [getLsbD_setBits _ _ _ _ _ hi]
  split_ifs <;> rfl

theorem Ctx.setDefer_setDefer (c : Ctx) (h n h' n' : Nat) : (c.setDefer h n).setDefer h' n' = c.setDefer h' n' := by
  simp only [Ctx.setDefer, setBits_pair_twice]

theorem Ctx.deferHead_lt (c : Ctx) : c.deferHead < 4096 := bits_lt _ _ _

/-- A change of DEFERQ changes nothing that a landing entry captures. -/
theorem landing_setDefer {s t : State} {h n : Nat} (hpos : t.pos = s.pos) (hme : t.me = s.me.setDefer h n) (k : Nat) (ws : List RegWrite) :
    landing t k ws = landing s k ws := by
  simp only [landing, State.seqNow, hpos, hme]
  rfl

/-! ## Records -/

/-- The address of a record of the queue by its index (R195, R397). -/
def Ctx.deferAt (c : Ctx) (k : Nat) : Nat := c.scratch (c.deferBase + 16 * k)

theorem Ctx.deferAt_setDefer (c : Ctx) (h n k : Nat) : (c.setDefer h n).deferAt k = c.deferAt k := by
  rw [Ctx.deferAt, Ctx.setDefer_base]
  rfl

/-- Two records of the queue share no byte: each lies in one bay, and the queue is shorter than a bay. -/
theorem Ctx.deferAt_apart {k k' : Nat} (hbase : c.deferBase % 16 = 0) (hk : k < 4096) (hk' : k' < 4096) (hne : k ≠ k') :
    c.deferAt k + 16 ≤ c.deferAt k' ∨ c.deferAt k' + 16 ≤ c.deferAt k := by
  simp only [Ctx.deferAt, Ctx.scratch, scratchAddr]
  generalize c.bays.getD ((c.deferBase + 16 * k) / 2 ^ 18) 0 = b
  generalize c.bays.getD ((c.deferBase + 16 * k') / 2 ^ 18) 0 = b'
  omega

/-- The 16 bytes of a record (R397). -/
def deferRecord (e : EType) (value lane : Nat) : List Byte := leBytes 4 value ++ leBytes 2 lane ++ leBytes 1 e.code ++ List.replicate 9 0

theorem deferRecord_length (e : EType) (value lane : Nat) : (deferRecord e value lane).length = 16 := by
  simp [deferRecord, leBytes_length]

theorem Mem.read_deferRecord (m : Mem) (a : Nat) (e : EType) (value lane : Nat) :
    (m.write a (deferRecord e value lane)).read a 16 = deferRecord e value lane := by
  have h := m.read_write a (deferRecord e value lane)
  rwa [deferRecord_length] at h

theorem Mem.read_write_apart (m : Mem) {a b n : Nat} {l : List Byte} (h : b + n ≤ a ∨ a + l.length ≤ b) : (m.write a l).read b n = m.read b n := by
  apply Mem.read_ext
  intro i hi
  rw [Mem.get_write, dif_neg (by omega)]

/-! ## The lanes that VDEFER appends -/

/-- One lane appended as the newest record of the queue (R398). -/
def State.deferPut (e : EType) (l : List Nat) (s : State) (j : Nat) : State :=
  (s.deferWrite (l.getD j 0) j e.code ((s.me.deferHead + s.me.deferCount) % 4096)).modMe (fun c => c.setDefer c.deferHead (c.deferCount + 1))

section Put
variable {e : EType} {l : List Nat} {h n : Nat} (hs : s.me = c.setDefer h n) (hh : h < 4096)
include hs hh

theorem State.deferPut_me (j : Nat) (hn : n ≤ 4096) : (s.deferPut e l j).me = c.setDefer h (n + 1) := by
  have hme : ∀ v k i, (s.deferWrite v j k i).me = s.me := fun _ _ _ => rfl
  rw [State.deferPut, State.modMe_me, hme, hs, Ctx.setDefer_setDefer, Ctx.setDefer_head hh, Ctx.setDefer_count hn]

theorem State.deferPut_mem (j : Nat) (hn : n ≤ 4096) :
    (s.deferPut e l j).mem = s.mem.write (c.deferAt ((h + n) % 4096)) (deferRecord e (l.getD j 0) j) := by
  have hmem : (s.deferPut e l j).mem =
    s.mem.write (s.me.deferAt ((s.me.deferHead + s.me.deferCount) % 4096)) (deferRecord e (l.getD j 0) j) := rfl
  rw [hmem, hs, Ctx.deferAt_setDefer, Ctx.setDefer_head hh, Ctx.setDefer_count hn]

end Put

/-- VDEFER appends the first lanes, as many as there is room for, and answers the others. -/
theorem deferLanes_eq (e : EType) (l : List Nat) {h : Nat} (hh : h < 4096) (js : List Nat) : ∀ (s : State) (n : Nat),
    s.me = c.setDefer h n → n ≤ 4096 →
    deferLanes e l js s = ((js.take (4096 - n)).foldl (State.deferPut e l) s, js.drop (4096 - n)) := by
  induction js with
  | nil => intro s n _ _; simp [deferLanes]
  | cons j js ih =>
    intro s n hs hn
    have hcount : s.me.deferCount = n := by rw [hs, Ctx.setDefer_count hn]
    by_cases hroom : n < 4096
    · obtain ⟨k, hk⟩ : ∃ k, 4096 - n = k + 1 := ⟨4096 - (n + 1), by omega⟩
      have hput := ih (s.deferPut e l j) (n + 1) (State.deferPut_me hs hh j hn) hroom
      rw [show 4096 - (n + 1) = k from by omega] at hput
      simp only [deferLanes, hcount, if_pos hroom, hk, List.take_succ_cons, List.drop_succ_cons, List.foldl_cons]
      rw [← hput, State.deferPut, hcount]
    · have hfull : 4096 - n = 0 := by omega
      have hrest := ih s n hs hn
      rw [hfull] at hrest
      simp only [deferLanes, hcount, if_neg hroom, hrest, hfull, List.take_zero, List.drop_zero, List.foldl_nil]

section Fold
variable {e : EType} {l : List Nat} {h : Nat} (hh : h < 4096)
include hh

theorem State.foldl_deferPut_me (js : List Nat) : ∀ (s : State) (n : Nat), s.me = c.setDefer h n → n + js.length ≤ 4096 →
    (js.foldl (State.deferPut e l) s).me = c.setDefer h (n + js.length) := by
  induction js with
  | nil => intro s n hs _; exact hs
  | cons j js ih =>
    intro s n hs hn
    rw [List.length_cons] at hn ⊢
    rw [List.foldl_cons, ih _ _ (State.deferPut_me hs hh j (by omega)) (by omega), Nat.add_right_comm, Nat.add_assoc]

omit hh in
theorem State.deferPut_pos (s : State) (j : Nat) : (s.deferPut e l j).pos = s.pos := by
  rw [State.deferPut, State.modMe_pos]
  rfl

omit hh in
theorem State.foldl_deferPut_pos (js : List Nat) : ∀ s : State, (js.foldl (State.deferPut e l) s).pos = s.pos := by
  induction js with
  | nil => intro s; rfl
  | cons j js ih => intro s; rw [List.foldl_cons, ih, State.deferPut_pos]

/-- Records that the appended lanes do not take keep their bytes. -/
theorem State.foldl_deferPut_frame (hbase : c.deferBase % 16 = 0) {k : Nat} (hk : k < 4096) (js : List Nat) : ∀ (s : State) (n : Nat),
    s.me = c.setDefer h n → n + js.length ≤ 4096 → (∀ i < js.length, (h + (n + i)) % 4096 ≠ k) →
    (js.foldl (State.deferPut e l) s).mem.read (c.deferAt k) 16 = s.mem.read (c.deferAt k) 16 := by
  induction js with
  | nil => intro s n _ _ _; rfl
  | cons j js ih =>
    intro s n hs hn hne
    rw [List.length_cons] at hn hne
    have hfirst : (h + n) % 4096 ≠ k := hne 0 (by omega)
    have hrest := ih (s.deferPut e l j) (n + 1) (State.deferPut_me hs hh j (by omega)) (by omega)
      (fun i hi => by rw [Nat.add_assoc, Nat.add_comm 1 i]; exact hne (i + 1) (by omega))
    rw [List.foldl_cons, hrest, State.deferPut_mem hs hh j (by omega)]
    apply Mem.read_write_apart
    rw [deferRecord_length]
    exact Ctx.deferAt_apart hbase hk (Nat.mod_lt _ (by decide)) (Ne.symm hfirst)

/-- The i-th appended lane is the i-th record after the newest. -/
theorem State.foldl_deferPut_record (hbase : c.deferBase % 16 = 0) (js : List Nat) : ∀ (s : State) (n i j : Nat), s.me = c.setDefer h n →
    n + js.length ≤ 4096 → js[i]? = some j →
    (js.foldl (State.deferPut e l) s).mem.read (c.deferAt ((h + (n + i)) % 4096)) 16 = deferRecord e (l.getD j 0) j := by
  induction js with
  | nil => intro s n i j _ _ hj; cases hj
  | cons j' js ih =>
    intro s n i j hs hn hj
    rw [List.length_cons] at hn
    have hput := State.deferPut_me (e := e) (l := l) hs hh j' (by omega)
    rw [List.foldl_cons]
    cases i with
    | zero =>
      cases hj
      rw [State.foldl_deferPut_frame hh hbase (Nat.mod_lt _ (by decide)) js _ _ hput (by omega) (fun i hi => by omega), Nat.add_zero,
        State.deferPut_mem hs hh j' (by omega), Mem.read_deferRecord]
    | succ i =>
      have hrec := ih _ (n + 1) i j hput (by omega) hj
      rwa [show n + 1 + i = n + (i + 1) from by omega] at hrec

end Fold

/-! ## The checks and the order of VDEFER and VDRAIN -/

theorem deferCheck_ok (hin : s.me.inScratch s.me.deferBase 65536 = true) (hring : s.me.hitsRing s.me.deferBase 65536 = false)
    (hstash : s.me.hitsStash s.me.deferBase 65536 = false) : deferCheck s = .ok ((), s) := by
  have hcheck : (s.me.inScratch s.me.deferBase 65536 && !s.me.hitsRing s.me.deferBase 65536 && !s.me.hitsStash s.me.deferBase 65536) = true := by
    rw [hin, hring, hstash]
    rfl
  rw [deferCheck, W.getMe_bind]
  exact congrFun (if_pos hcheck) s

/-- What meets some records meets every list that holds them. -/
theorem State.deferMeets_of_subset {l l' : List Nat} (hsub : l' ⊆ l) (h : s.deferMeets l = false) : s.deferMeets l' = false := by
  rw [← Bool.not_eq_true] at h ⊢
  intro hmeet
  apply h
  simp only [State.deferMeets, piecesMeet, List.any_eq_true, Bool.and_eq_true, List.mem_map] at hmeet ⊢
  obtain ⟨x, hx, hst, p, hp, q, ⟨i, hi, rfl⟩, ho⟩ := hmeet
  exact ⟨x, hx, hst, p, hp, _, ⟨i, hsub hi, rfl⟩, ho⟩

theorem deferOrder_bind {β : Type} {l : List Nat} (h : s.deferMeets l = false) (f : Unit → W β) : (deferOrder l >>= f) s = f () s := by
  apply W.bind_ok
  simp only [deferOrder, W.getS_bind, h]
  rfl

theorem vSrcLame_win_bind {β : Type} {i : RIdx} (h : InWindow s i) (f : Lame → W β) : (vSrcLame (.win i) >>= f) s = f (wLame s i) s := by
  apply W.bind_ok
  simp only [vSrcLame, W.getMe_bind, if_pos (show s.me.window i < s.me.vregs from h)]
  rfl

/-! ## VDEFER -/

/-- The state in which VDEFER has appended lanes of a register. -/
def State.deferred (s : State) (e : EType) (l placed : List Nat) : State :=
  placed.foldl (State.deferPut e l) (s.modMe (fun c => c.setDefer c.deferHead c.deferCount))

section Deferred
variable {e : EType} {l placed : List Nat} (hroom : s.me.deferCount + placed.length ≤ 4096)
include hroom

theorem State.deferred_me : (s.deferred e l placed).me = s.me.setDefer s.me.deferHead (s.me.deferCount + placed.length) :=
  State.foldl_deferPut_me s.me.deferHead_lt placed _ _ (s.modMe_me _) hroom

omit hroom in
theorem State.deferred_pos (s : State) (e : EType) (l placed : List Nat) : (s.deferred e l placed).pos = s.pos :=
  (State.foldl_deferPut_pos placed _).trans (State.modMe_pos _ _)

theorem State.deferred_record (hbase : s.me.deferBase % 16 = 0) {i j : Nat} (hj : placed[i]? = some j) :
    (s.deferred e l placed).mem.read (s.me.deferAt ((s.me.deferHead + (s.me.deferCount + i)) % 4096)) 16 = deferRecord e (l.getD j 0) j :=
  State.foldl_deferPut_record s.me.deferHead_lt hbase placed _ _ i j (s.modMe_me _) hroom hj

/-- The context of VDEFER's rider once its answer waits in the landing queue. -/
theorem State.deferred_land_me {t : State} (ht : s.deferred e l placed = t) (n : Nat) (ws : List RegWrite) :
    (t.land (landing t n ws)).me =
      { s.me.setDefer s.me.deferHead (s.me.deferCount + placed.length) with land := insertLanding s.me.land (landing s n ws) } := by
  have hpos := State.deferred_pos s e l placed
  have hme := State.deferred_me (e := e) (l := l) hroom
  rw [ht] at hpos hme
  rw [State.land_me, landing_setDefer hpos hme, hme]
  rfl

omit hroom in
theorem Ctx.setDefer_land_fields {c c' : Ctx} {h n : Nat} {L : List Landing} (hh : h < 4096) (hn : n ≤ 4096)
    (hc : c' = { c.setDefer h n with land := L }) :
    c'.deferCount = n ∧ c'.deferHead = h ∧ c'.deferBase = c.deferBase ∧ c'.deferOn = true ∧ c'.land = L := by
  subst hc
  rw [Ctx.deferCount_land, Ctx.deferHead_land, Ctx.deferBase_land]
  exact ⟨Ctx.setDefer_count hn, Ctx.setDefer_head hh, Ctx.setDefer_base c h n, rfl, rfl⟩

end Deferred

section Vdefer
variable {h : WHead} {d k : KIdx} {a : RIdx}

theorem exec_vdefer (hg : Claims.Live s h.g) (ha : InWindow s a) (hcheck : deferCheck s = .ok ((), s)) (hcount : s.me.deferCount ≤ 4096)
    (hlame : wLame s a = 0) (hk : (s.me.kreg k).lame = 0) {js : List Nat} {t : State}
    (hjs : (List.range s.me.vt.etype.lanes).filter (fun j => (s.me.kreg k).val.getLsbD j) = js)
    (ht : s.deferred s.me.vt.etype (lanes s.me.vt.etype.width (s.me.vreg (s.me.window a)).val) (js.take (4096 - s.me.deferCount)) = t)
    (horder : s.deferMeets ((List.range (js.take (4096 - s.me.deferCount)).length).map (s.me.deferCount + ·)) = false) :
    exec (.vdefer h d (.win a) k) s = .next { t.land (landing t 6
      [.k d ⟨maskOf 256 (fun j => (js.drop (4096 - s.me.deferCount)).contains j), 0⟩]) with raised := none } := by
  have huse : (do consume 0xFF (Lame.max (← vSrcLame (.win a)) (s.me.kreg k).lame) : W Unit) s = .ok ((), s) := by
    rw [vSrcLame_win_bind ha, hlame, hk]
    rfl
  have hchecks := lowest_ok (List.forall_mem_cons.2 ⟨hcheck, List.forall_mem_cons.2 ⟨huse, List.forall_mem_singleton.2 (checkVSrc_win ha)⟩⟩)
  have hvlame : (s.me.vreg (s.me.window a)).lame = 0 := hlame
  have hlen : Nat.min js.length (4096 - s.me.deferCount) = (js.take (4096 - s.me.deferCount)).length := by
    rw [List.length_take]
    exact Nat.min_comm _ _
  have hlanes := deferLanes_eq s.me.vt.etype (lanes s.me.vt.etype.width (s.me.vreg (s.me.window a)).val) s.me.deferHead_lt js
    (s.modMe (fun c => c.setDefer c.deferHead c.deferCount)) s.me.deferCount (s.modMe_me _) hcount
  rw [← State.deferred, ht] at hlanes
  have hjs' : (List.range s.me.vt.etype.lanes).filter (maskBit (s.me.kreg k).val) = js := hjs
  refine runWord_ok hg ?_
  rw [W.getMe_bind, W.bind_ok hchecks, vSrc_win_bind ha, W.bind_ok (consume_ok (by rw [hvlame, hk]; rfl) s)]
  rw [hjs', hlen, deferOrder_bind horder, W.modMe_bind, W.getS_bind, hlanes]
  rfl

end Vdefer

/-! ## VDRAIN -/

theorem State.deferRead_eq (s : State) (n : Nat) : s.deferRead n =
    ((List.range n).map (fun i => leNat (s.mem.read (s.me.deferAt ((s.me.deferHead + i) % 4096)) 4)),
     (List.range n).any (fun i => s.mem.poisoned (s.me.deferAt ((s.me.deferHead + i) % 4096)) 16)) := rfl

theorem exec_vdrain {h : WHead} {k : KIdx} {v : RIdx} (hg : Claims.Live s h.g) (hv : InWindow s v) (hcheck : deferCheck s = .ok ((), s))
    {n : Nat} (hn : Nat.min s.me.deferCount s.me.vt.etype.lanes = n) (horder : s.deferMeets (List.range n) = false)
    (hclean : ∀ i < n, s.mem.poisoned (s.me.deferAt ((s.me.deferHead + i) % 4096)) 16 = false) :
    exec (.vdrain h (.win v) k) s =
      .next (Claims.queue (s.modMe (fun c => c.setDefer ((c.deferHead + n) % 4096) (c.deferCount - n))) 6
        [.v (s.me.window v) ⟨ofLanes s.me.vt.etype.width
            ((List.range n).map (fun i => leNat (s.mem.read (s.me.deferAt ((s.me.deferHead + i) % 4096)) 4) % 2 ^ s.me.vt.etype.width)), 0⟩,
         .k k ⟨maskOf 256 (fun j => j < n), 0⟩]) := by
  have hpoison : (s.deferRead n).2 = false := by
    rw [State.deferRead_eq, List.any_eq_false]
    intro i hi
    rw [hclean i (List.mem_range.1 hi)]
    decide
  have hchecks := lowest_ok (List.forall_mem_cons.2 ⟨hcheck, List.forall_mem_cons.2
    ⟨(rfl : (pure () : W Unit) s = .ok ((), s)), List.forall_mem_singleton.2 (checkVDst_win hv)⟩⟩)
  have hme : (s.modMe (fun c => c.setDefer ((c.deferHead + n) % 4096) (c.deferCount - n))).me =
    s.me.setDefer ((s.me.deferHead + n) % 4096) (s.me.deferCount - n) := s.modMe_me _
  have hwin : InWindow (s.modMe (fun c => c.setDefer ((c.deferHead + n) % 4096) (c.deferCount - n))) v := by
    rw [InWindow, hme]
    exact hv
  refine runWord_ok hg ?_
  rw [W.getS_bind, hn, W.bind_ok hchecks, deferOrder_bind horder, hpoison, W.modMe_bind, landV, windowOf_bind hwin, hme,
    if_neg Bool.false_ne_true, State.deferRead_eq, List.map_map]
  rfl

end Sys2Proof.Machine

end

section
namespace Sys2Proof.Machine

/-- Settles O11: VDEFER by induction on the masked lanes, each a record of its own in the queue; VDRAIN by its checks in order. -/
theorem deferralQueue : Obligations.DeferralQueue := by
  intro s h d k a v hg ha hv c e base at' js placed left n horder hbase hcount hin hring hstash
  have hcheck : deferCheck s = .ok ((), s) := deferCheck_ok hin hring hstash
  have hroom : c.deferCount + placed.length ≤ 4096 := by
    have hlen : placed.length ≤ 4096 - c.deferCount := List.length_take_le ..
    omega
  constructor
  · intro hlame hk
    have horder' := State.deferMeets_of_subset (List.subset_append_right _ _) horder
    obtain ⟨t, ht⟩ : ∃ t, s.deferred e (lanes e.width (c.vreg (c.window a)).val) placed = t := ⟨_, rfl⟩
    have hrecord := fun i j => State.deferred_record (s := s) (e := e) (l := lanes e.width (c.vreg (c.window a)).val) hroom hbase (i := i) (j := j)
    rw [ht] at hrecord
    obtain ⟨hn, hh, hb, hon, hland⟩ := Ctx.setDefer_land_fields c.deferHead_lt hroom (State.deferred_land_me hroom ht 6
      [.k d ⟨maskOf 256 (fun j => left.contains j), 0⟩])
    exact ⟨_, exec_vdefer hg ha hcheck hcount hlame hk rfl ht horder', hn, hh, hb, hon, hland, hrecord⟩
  · intro hclean
    exact exec_vdrain hg hv hcheck rfl (State.deferMeets_of_subset (List.subset_append_left _ _) horder) hclean

end Sys2Proof.Machine
end

section
/-! SUPPORT. The address of an X word and its checks (R200, R201, R225, R441): the effective address as a number, the layouts of the tags, the offsets
that lie in scratch bays, and which check of an address fails first (R290). -/

namespace Sys2Proof.Machine

open Claims (tagOf sumAddr InBays PlainAddress FlagAddress)

variable {s : State}

/-! ## Effective addresses (R441) -/

/-- A field set below the rest of a word replaces what the word held there. -/
theorem toNat_setBits_below {x : DWord} {h v : Nat} (hh : h < 63) :
    (setBits x h 0 v).toNat = 2 ^ (h + 1) * (x.toNat / 2 ^ (h + 1)) + v % 2 ^ (h + 1) := by
  apply Nat.eq_of_testBit_eq
  intro i
  rw [Nat.testBit_two_pow_mul_add _ (Nat.mod_lt _ (Nat.two_pow_pos _)), Nat.testBit_mod_two_pow, Nat.testBit_div_two_pow]
  by_cases h64 : i < 64
  · rw [← BitVec.getLsbD, getLsbD_setBits _ _ _ _ _ h64]
    by_cases hi : i ≤ h
    · simp [hi, Nat.lt_succ_of_le hi]
    · simp [hi, show ¬ i < h + 1 by omega, show i - (h + 1) + (h + 1) = i by omega, BitVec.getLsbD]
  · rw [← BitVec.getLsbD, BitVec.getLsbD_of_ge _ _ (by omega)]
    simp [show ¬ i < h + 1 by omega, show i - (h + 1) + (h + 1) = i by omega, BitVec.testBit_toNat, BitVec.getLsbD_of_ge x i (by omega)]

theorem eaTag_eq_tagOf (ea : DWord) : eaTag ea = tagOf ea := by
  have hlt := ea.isLt
  simp only [eaTag, bits, tagOf]
  omega

theorem effAddr_eq_sumAddr (a off : DWord) : effAddr a off = sumAddr a off := by
  have hsum : bits (a + off) 59 0 = (a.toNat + off.toNat) % 2 ^ 60 := by
    rw [bits_low, BitVec.toNat_add]
    omega
  have hlt := a.isLt
  apply BitVec.eq_of_toNat_eq
  rw [effAddr, toNat_setBits_below (by decide), hsum, sumAddr, tagOf, BitVec.toNat_ofNat]
  omega

/-! ## Layouts (R200) -/

theorem layoutOk_iff {ea : DWord} : layoutOk ea = true ↔
    (tagOf ea = 0 ∧ bits ea 59 49 = 0) ∨ (tagOf ea = 1 ∧ bits ea 59 21 = 0) ∨ (tagOf ea = 2 ∧ bits ea 31 21 = 0 ∧ bits ea 59 45 = 0) ∨
      FlagAddress ea := by
  rw [layoutOk, eaTag_eq_tagOf, FlagAddress]
  generalize tagOf ea = t
  match t with
  | 0 => simp
  | 1 => simp
  | 2 => simp
  | 3 => simp
  | t + 4 => simp

theorem tagOf_lt_of_layoutOk {ea : DWord} (h : layoutOk ea = true) : tagOf ea < 4 := by
  obtain ⟨ht, -⟩ | ⟨ht, -⟩ | ⟨ht, -⟩ | ⟨ht, -⟩ := layoutOk_iff.1 h <;> omega

/-! ## Scratch offsets (R201) -/

theorem eaOff_eq {ea : DWord} (h : bits ea 59 21 = 0) : eaOff ea = bits ea 59 0 := by
  simp only [eaOff, bits] at h ⊢
  omega

theorem Ctx.inScratch_of_inBays {c : Ctx} {o n : Nat} (h : InBays c o n) : c.inScratch o n = true := by
  obtain ⟨hin, hbays⟩ := h
  rw [Ctx.inScratch, Bool.and_eq_true, List.all_eq_true]
  refine ⟨decide_eq_true hin, fun b hb => ?_⟩
  by_cases hcache : bit c.csr.baymap b = true
  · have hapart := hbays b (List.mem_range.1 hb) hcache
    simp only [overlaps, Bool.not_eq_true', Bool.and_eq_false_iff, decide_eq_false_iff_not, bne_eq_false_iff_eq]
    omega
  · simp [hcache]

theorem Ctx.inScratch_beyond {c : Ctx} {o n : Nat} (h : c.nbays * 2 ^ 18 < o + n) : c.inScratch o n = false := by
  rw [Ctx.inScratch, decide_eq_false (Nat.not_le.2 h), Bool.false_and]

/-! ## Refused addresses (R200, R201) -/

/-- An address of n bytes raises PROTECTION: for its layout, or for its offset in scratch. -/
def State.refusesAddress (s : State) (ea : DWord) (n : Nat) : Bool := !layoutOk ea || (tagOf ea == 1 && !s.me.inScratch (eaOff ea) n)

theorem State.refusesAddress_of_layout {ea : DWord} (n : Nat) (h : layoutOk ea = false) : s.refusesAddress ea n = true := by
  rw [State.refusesAddress, h]
  rfl

theorem State.refusesAddress_of_beyond {ea : DWord} {n : Nat} (ht : tagOf ea = 1) (hb : bits ea 59 21 = 0)
    (h : s.me.nbays * 2 ^ 18 < bits ea 59 0 + n) : s.refusesAddress ea n = true := by
  rw [State.refusesAddress, ht, eaOff_eq hb, Ctx.inScratch_beyond h]
  exact Bool.or_true _

theorem State.refusesAddress_plain {ea : DWord} {n : Nat} (h : PlainAddress s ea n) : s.refusesAddress ea n = false := by
  obtain h | ⟨ht, hb, hin⟩ | h := h
  · simp [State.refusesAddress, layoutOk_iff.2 (.inl h), h.1]
  · simp [State.refusesAddress, layoutOk_iff.2 (.inr (.inl ⟨ht, hb⟩)), eaOff_eq hb, Ctx.inScratch_of_inBays hin]
  · simp [State.refusesAddress, layoutOk_iff.2 (.inr (.inr (.inl h))), h.1]

theorem State.refusesAddress_flag {ea : DWord} (n : Nat) (h : FlagAddress ea) : s.refusesAddress ea n = false := by
  simp [State.refusesAddress, layoutOk_iff.2 (.inr (.inr (.inr h))), h.1]

/-! ## The first check that fails (R290) -/

/-- The rule of a load or store of a size: a word of four bytes may also be a flag word (R225, R441). -/
def sizeRule (size : Nat) : EaRule := if size = 4 then wordRule else plainRule size size

theorem sizeRule_align (size : Nat) : (sizeRule size).align = size := by
  unfold sizeRule
  split
  · exact Eq.symm ‹_›
  · rfl

/-- Tag 3 with another size than four bytes, for which the alignment check speaks (R225). -/
theorem sizeRule_flagSize (size t : Nat) : (t == 3 && (sizeRule size).size != 4 && !(sizeRule size).fe) = decide (t = 3 ∧ size ≠ 4) := by
  unfold sizeRule
  split
  · simp [wordRule, *]
  · rw [Bool.eq_iff_iff]
    simp [plainRule, *]

/-- No tag below 4 is refused for being another than the rule's. -/
theorem sizeRule_admits {size t : Nat} (ht : t < 4) : (!(sizeRule size).tags.contains t && !decide (t = 3 ∧ size ≠ 4)) = false := by
  unfold sizeRule
  split
  · simp [wordRule]
    omega
  · simp [plainRule, *]
    omega

/-- The checks of a load's or store's address: PROTECTION first, then flag words of another size and odd places. -/
theorem checkEa_sizeRule (size : Nat) (ea : DWord) (n : Nat) : checkEa (sizeRule size) ea n s =
    if s.refusesAddress ea n then (raise 5 ea.toNat : W Unit) s
    else if (tagOf ea = 3 ∧ size ≠ 4) ∨ ea.toNat % size ≠ 0 then (raise 6 ea.toNat : W Unit) s
    else .ok ((), s) := by
  by_cases hl : layoutOk ea = true
  · have htag := tagOf_lt_of_layoutOk hl
    simp only [checkEa, W.getMe_bind, eaTag_eq_tagOf, sizeRule_flagSize, sizeRule_admits htag, sizeRule_align, W.ite_apply, State.refusesAddress, hl,
      Bool.not_true, Bool.false_or, Bool.false_eq_true, if_false, Bool.and_eq_true, Bool.or_eq_true, decide_eq_true_eq, beq_iff_eq, bne_iff_ne]
    rfl
  · rw [if_pos (State.refusesAddress_of_layout n (Bool.eq_false_iff.2 hl))]
    simp only [checkEa, W.getMe_bind, hl]
    rfl

theorem checkEa_refused {size : Nat} {ea : DWord} {n : Nat} (h : s.refusesAddress ea n = true) :
    checkEa (sizeRule size) ea n s = (raise 5 ea.toNat : W Unit) s :=
  (checkEa_sizeRule size ea n).trans (if_pos h)

theorem checkEa_misaligned {size : Nat} {ea : DWord} {n : Nat} (h : s.refusesAddress ea n = false)
    (hodd : (tagOf ea = 3 ∧ size ≠ 4) ∨ ea.toNat % size ≠ 0) : checkEa (sizeRule size) ea n s = (raise 6 ea.toNat : W Unit) s :=
  (checkEa_sizeRule size ea n).trans ((if_neg (Bool.eq_false_iff.1 h)).trans (if_pos hodd))

/-! ## Loads and stores whose address a check refuses (R290, R300, R441) -/

/-- A cause of the first check is taken when the others pass. -/
theorem lowest_first {m : W Unit} {l : List (W Unit)} {code info : Nat} {lame : Lame} (hm : m s = (raise code info lame : W Unit) s)
    (hl : ∀ m ∈ l, m s = .ok ((), s)) : lowest (m :: l) s = (raise code info lame : W Unit) s := by
  have hnone : causesOf l s = [] := by
    simp only [causesOf, List.filterMap_eq_nil_iff]
    intro m hm
    rw [hl m hm]
  have hone : causesOf (m :: l) s = (causesOf [m] s) ++ causesOf l s := List.filterMap_append (l := [m])
  rw [lowest, hone, hnone]
  simp only [causesOf, List.filterMap_cons, hm]
  rfl

theorem xRoom_body {late body : W Unit} (h : s.me.xq.length < 32) : xRoom late body s = body s := by
  rw [xRoom, W.getS_bind, if_neg (show ¬ xqSize ≤ _ from Nat.not_le.2 h)]

theorem aVal_bind {β : Type} (r : RIdx) (f : DWord → W β) : (aVal r >>= f) s = f (s.me.areg r).val s := rfl

theorem aConsume_ok {r : RIdx} (h : (s.me.areg r).lame = 0) : aConsume r s = .ok ((), s) := aUse_bind h _

theorem guardFlag_free (ea : DWord) (h : Claims.Free s) : guardFlag ea s = .ok ((), s) := by
  have hguard : s.me.willGuard = false := by
    rw [Ctx.willGuard, Ctx.guarded, bit, show s.me.csr.status.getLsbD 5 = false from h, Bool.false_and]
  rw [guardFlag, W.ite_apply, notGuarded, W.getMe_bind, hguard]
  exact ite_self _

section Refused
variable {h : WHead} {r a b : RIdx} {c : MemCtl} {i : Instr} {size code info : Nat}

theorem loadWord_refused (hq : s.me.xq.length < 32) (ha : (s.me.areg a).lame = 0)
    (hcheck : checkEa (sizeRule size) (sumAddr (s.me.areg a).val (offBytes c.off)) size s = (raise code info : W Unit) s) :
    loadWord i size (.reg r) a c s = (raise code info : W Unit) s := by
  rw [← effAddr_eq_sumAddr] at hcheck
  have hlow := lowest_first hcheck (List.forall_mem_cons.2 ⟨aConsume_ok ha, List.forall_mem_singleton.2 (W.pure_apply () s)⟩)
  rw [loadWord, xRoom_body hq, aVal_bind]
  exact W.bind_error hlow

theorem storeWord_refused (hq : s.me.xq.length < 32) (ha : (s.me.areg a).lame = 0) (hb : (s.me.areg b).lame = 0) (hfree : Claims.Free s)
    (hcheck : checkEa (sizeRule size) (sumAddr (s.me.areg a).val (offBytes c.off)) size s = (raise code info : W Unit) s) :
    storeWord i size a (.reg b) c s = (raise code info : W Unit) s := by
  rw [← effAddr_eq_sumAddr] at hcheck
  have hflag := guardFlag_free (effAddr (s.me.areg a).val (offBytes c.off)) hfree
  have hlow := lowest_first hcheck (List.forall_mem_cons.2 ⟨hflag, List.forall_mem_cons.2 ⟨aConsume_ok ha,
    List.forall_mem_singleton.2 (aConsume_ok hb)⟩⟩)
  rw [storeWord, xRoom_body hq, aVal_bind]
  exact W.bind_error hlow

/-- The loads and stores of R452 with their sizes. -/
def accessWords (h : WHead) (r a b : RIdx) (c : MemCtl) : List (Nat × Instr) :=
  [(1, .ldb h (.reg r) a c), (2, .ldh h (.reg r) a c), (4, .ldw h (.reg r) a c), (8, .ldd h (.reg r) a c),
    (1, .stb h a (.reg b) c), (2, .sth h a (.reg b) c), (4, .stw h a (.reg b) c), (8, .std h a (.reg b) c)]

/-- A load or store takes the cause of its address check. -/
theorem exec_accessWords_refused (hin : Claims.Enters s h.g) (ha : (s.me.areg a).lame = 0) (hb : (s.me.areg b).lame = 0) (hfree : Claims.Free s)
    {p : Nat × Instr} (hp : p ∈ accessWords h r a b c)
    (hcheck : checkEa (sizeRule p.1) (sumAddr (s.me.areg a).val (offBytes c.off)) p.1 s = (raise code info : W Unit) s) :
    exec p.2 s = .next (Claims.taken s (Claims.causeAt s code info)) := by
  obtain ⟨hg, hq⟩ := hin
  simp only [accessWords, List.mem_cons, List.not_mem_nil, or_false] at hp
  obtain rfl | rfl | rfl | rfl | rfl | rfl | rfl | rfl := hp
  case inl | inr.inl | inr.inr.inl | inr.inr.inr.inl => exact runWord_raise hg (loadWord_refused hq ha hcheck)
  all_goals exact runWord_raise hg (storeWord_refused hq ha hb hfree hcheck)

end Refused

end Sys2Proof.Machine

end

section
namespace Sys2Proof.Machine

open Claims (tagOf FlagAddress)

/-- Settles O13: a word takes the cause of its address check (`exec_accessWords_refused`), which is PROTECTION for the layouts and offsets
that R200 and R201 refuse, and MISALIGNED for an admitted address at an odd place or a flag word of another size than four bytes. -/
theorem addressChecks : Obligations.AddressChecks := by
  intro s h r a b c hin ha hb hfree ea words p hp
  have hcause := fun {code info : Nat} => exec_accessWords_refused (code := code) (info := info) hin ha hb hfree hp
  refine ⟨fun hbad => hcause (checkEa_refused ?_), fun hplain hodd => hcause (checkEa_misaligned (State.refusesAddress_plain hplain) (.inr hodd)),
    fun hflag hsize => hcause (checkEa_misaligned (State.refusesAddress_flag p.1 hflag) (.inl ⟨hflag.1, hsize⟩))⟩
  by_cases hl : layoutOk ea = true
  · have hlayout := layoutOk_iff.1 hl
    rw [FlagAddress] at hlayout
    obtain ⟨ht, hbits, hfar⟩ : tagOf ea = 1 ∧ bits ea 59 21 = 0 ∧ s.me.nbays * 2 ^ 18 < bits ea 59 0 + p.1 := by omega
    exact State.refusesAddress_of_beyond ht hbits hfar
  · exact State.refusesAddress_of_layout p.1 (Bool.eq_false_iff.2 hl)

end Sys2Proof.Machine
end

section
/-! SUPPORT. A fault ring on a page of host memory that the host refuses (R212; log entry 77): the state in which `Obligations.FaultUnit` looks for a
record that the host has discarded. -/

namespace Sys2Proof.Machine

/-- A pending fault of page 0, whose record begins with a zero byte (R213). -/
def ringFault : PFault := { asid := 0, page := 0, kind := 1, access := 1, count := 1, arrived := 0 }

/-- A closed batch awaits its writing. FLTBASE has ENABLE, 2^8 records and the ring at host address 0, a page that the host refuses and whose first
byte is 1. -/
def refusedRing : State :=
  { State.reset.setReg .fltbase 17 with faultBatch := [ringFault], mem := { host := [(0, 1)], hostGone := [0] } }

/-- The host discards the record, and its byte stays. -/
theorem faultWrite_refusedRing : refusedRing.faultWrite.mem.hostGet 0 = 1 := by decide +kernel

theorem refusedRing_place :
    bits (refusedRing.reg .fltbase) 63 12 * 4096 + 32 * (bits (refusedRing.reg .fltptr) 31 0 % 2 ^ bits (refusedRing.reg .fltbase) 5 1) = 0 := by
  decide +kernel

theorem Mem.head?_hostRead (m : Mem) (a n : Nat) : (m.hostRead a (n + 1)).head? = some (m.hostGet a) := rfl

end Sys2Proof.Machine

end

section
namespace Sys2Proof.Machine

/-- Refutes O26: its clause on FAULT_BATCH_WRITE reads the record back from host memory, and does not keep out a ring on a page that the host refuses,
where a posted write is discarded (`Mem.hostPut`; log entry 77). In `refusedRing` the record's first byte would be 0, and the host's byte stays 1. -/
theorem not_faultUnit : ¬ Obligations.FaultUnit := by
  unfold Obligations.FaultUnit
  intro h
  obtain ⟨-, -, -, hbatch, -⟩ := h refusedRing .host 0 0 0 0 0
    { asid := 0, va := 0, size := 0, w := false, x := false, host := false, nc := false, pa := 0 } ringFault
    { tok := 0, i := .seq, ea := 0 } Ctx.reset
  obtain ⟨t, ht, -, -, -, hrecord, -, -⟩ := (hbatch rfl).1 (by decide) (by decide +kernel)
  have heq : t = refusedRing.faultWrite := (Host.Outcome.next.inj ht).symm
  have hfirst := congrArg List.head? hrecord
  rw [heq, refusedRing_place, Mem.head?_hostRead, faultWrite_refusedRing] at hfirst
  exact absurd hfirst (by decide)

end Sys2Proof.Machine
end

section
/-! SUPPORT. How an X word enters the command queue (R210, R441, R444): the addresses that its check admits, the room of a channel that it reserves,
and the command itself, alone, with a result that awaits its data, or under the guard buffer (R468). -/

namespace Sys2Proof.Machine

open Claims (tagOf PlainAddress FlagAddress RoomIn reserved queueX queueXL)

variable {s : State} {β : Type}

/-! ## Admitted addresses (R200, R201, R441) -/

theorem tagOf_lt_three_of_plain {ea : DWord} {n : Nat} (h : PlainAddress s ea n) : tagOf ea < 3 := by
  obtain ⟨ht, -⟩ | ⟨ht, -⟩ | ⟨ht, -⟩ := h <;> omega

/-- The check of a plain address of a tag that its word admits, at a place that it admits. -/
theorem checkEa_plain {r : EaRule} {ea : DWord} {n : Nat} (h : PlainAddress s ea n) (htag : tagOf ea ∈ r.tags) (halign : ea.toNat % r.align = 0) :
    checkEa r ea n s = .ok ((), s) := by
  have hflag : tagOf ea ≠ 3 := Nat.ne_of_lt (tagOf_lt_three_of_plain h)
  have hadmitted := State.refusesAddress_plain h
  simp only [State.refusesAddress, Bool.or_eq_false_iff, Bool.not_eq_false', Bool.and_eq_false_iff, beq_eq_false_iff_ne] at hadmitted
  obtain ⟨hlayout, hscratch⟩ := hadmitted
  have hin : ¬ (tagOf ea = 1 ∧ s.me.inScratch (eaOff ea) n = false) := by
    rintro ⟨ht, hout⟩
    simp [ht, hout] at hscratch
  simp [checkEa, eaTag_eq_tagOf, hlayout, htag, hflag, halign, hin]

/-- A plain address with the tags 0 to 2. -/
theorem checkEa_plainRule {size align : Nat} {ea : DWord} {n : Nat} (h : PlainAddress s ea n) (halign : ea.toNat % align = 0) :
    checkEa (plainRule size align) ea n s = .ok ((), s) := by
  refine checkEa_plain h ?_ halign
  have htag := tagOf_lt_three_of_plain h
  simp only [plainRule, List.mem_cons, List.not_mem_nil, or_false]
  omega

/-- A plain address of full-empty bits (R224). -/
theorem checkEa_feRule {align : Nat} {ea : DWord} {n : Nat} (h : PlainAddress s ea n) (hne : tagOf ea ≠ 0) (halign : ea.toNat % align = 0) :
    checkEa (feRule align) ea n s = .ok ((), s) := by
  refine checkEa_plain h ?_ halign
  have htag := tagOf_lt_three_of_plain h
  simp only [feRule, List.mem_cons, List.not_mem_nil, or_false]
  omega

theorem checkEa_sizeRule_plain {size : Nat} {ea : DWord} {n : Nat} (h : PlainAddress s ea n) (halign : ea.toNat % size = 0) :
    checkEa (sizeRule size) ea n s = .ok ((), s) := by
  have htag := tagOf_lt_three_of_plain h
  rw [checkEa_sizeRule, State.refusesAddress_plain h, if_neg Bool.false_ne_true, if_neg (by omega)]

/-- A word of four bytes may name a flag word besides (R225). -/
theorem checkEa_sizeRule_word {ea : DWord} {n : Nat} (h : PlainAddress s ea n ∨ FlagAddress ea) (halign : ea.toNat % 4 = 0) :
    checkEa (sizeRule 4) ea n s = .ok ((), s) := by
  have hadmitted := h.elim State.refusesAddress_plain (State.refusesAddress_flag n)
  rw [checkEa_sizeRule, hadmitted, if_neg Bool.false_ne_true, if_neg (by omega)]

/-! ## The room of a channel (R184, R185, R187) -/

section Room
variable {q : CIdx} {scal : Bool} {ch : Chan} {n : Nat}

theorem chanDest_bind (h : RoomIn s q scal ch n) (f : Chan → W β) : (chanDest q scal >>= f) s = f ch s := by
  obtain ⟨hget, hprod, hscal, -, -⟩ := h
  apply W.bind_ok
  simp [chanDest, chanOf, hget, hprod, hscal]

theorem xRoomOf_bind (h : RoomIn s q scal ch n) (f : Option (Nat × Nat × Nat) → W β) :
    (xRoomOf scal q >>= f) s = f (some (q.toNat, ch.openIx, n)) (reserved s q ch n) := by
  have hchan := chanDest_bind h (β := Option (Nat × Nat))
  obtain ⟨-, -, -, hfills, hroom⟩ := h
  have htake : takeRoom q scal s = .ok (some (ch.openIx, n), reserved s q ch n) := by
    rw [takeRoom, hchan, W.getS_bind, hfills, hroom]
    rfl
  apply W.bind_ok
  rw [xRoomOf, W.bind_ok htake]
  rfl

theorem checkXDst_push (h : RoomIn s q true ch n) : checkXDst (.push q) s = .ok ((), s) := chanDest_bind h _

theorem checkVDst_push (h : RoomIn s q false ch n) : checkVDst (.push q) s = .ok ((), s) := chanDest_bind h _

end Room

/-! ## Entering the queue (R210, R444) -/

/-- The state in which a command has entered the X command queue. -/
def State.enqueued (s : State) (x : XCmd) : State :=
  (({ s with ids := s.ids + 1 } : State).modMe (fun c => { c with xq := c.xq ++ [{ x with tok := s.ids, seq := s.seqNow }] })).push
    [.xPerform s.cur s.ids]

theorem enqueue_bind (x : XCmd) (f : Nat → W β) : (enqueue x >>= f) s = f s.ids (s.enqueued x) := rfl

/-- Entering the queue changes nothing that a landing entry records. -/
theorem landing_enqueued (x : XCmd) (n : Nat) (ws : List RegWrite) : landing (s.enqueued x) n ws = landing s n ws := by
  have hme : (s.enqueued x).me = { s.me with xq := s.me.xq ++ [{ x with tok := s.ids, seq := s.seqNow }] } := by
    rw [State.enqueued, State.push_me, State.modMe_me]
    rfl
  simp only [landing, State.seqNow, hme]
  rfl

/-- The state in which a command has entered the queue and its result awaits its data. -/
def State.enqueuedLoad (s : State) (x : XCmd) (n : Nat) (ws : List RegWrite) : State :=
  (s.enqueued x).land { landing s n ws with tok := some s.ids }

theorem enqueue_landTok (x : XCmd) (n : Nat) (ws : List RegWrite) :
    (enqueue x >>= fun tok => landTok n tok ws) s = .ok ((), s.enqueuedLoad x n ws) := by
  rw [enqueue_bind, landTok, W.modS_apply, landing_enqueued]
  rfl

theorem enqueueLoad_reg (n : Nat) (r : RIdx) (x : XCmd) : enqueueLoad n (.reg r) x s = .ok ((), s.enqueuedLoad x n [.a r ⟨0, 1⟩]) :=
  enqueue_landTok x n _

theorem enqueueLoad_push {q : CIdx} {ch : Chan} {m : Nat} (h : RoomIn s q true ch m) (n : Nat) (x : XCmd) :
    enqueueLoad n (.push q) x s = .ok ((), (reserved s q ch m).enqueued { x with room := some (q.toNat, ch.openIx, m) }) :=
  xRoomOf_bind h _

section Guard
variable {x : XCmd} {n : Nat}

theorem Ctx.willGuard_free (h : Claims.Free s) : s.me.willGuard = false := by
  rw [Ctx.willGuard, Ctx.guarded, bit, show s.me.csr.status.getLsbD 5 = false from h, Bool.false_and]

/-- Outside guarded mode a write enters the queue as it is (R252). -/
theorem enqueueStore_free (h : Claims.Free s) (hx : x.guarded = false) : enqueueStore n x s = .ok ((), s.enqueued x) := by
  have hguard := Ctx.willGuard_free h
  have hroom : guardRoom x.ea n s = .ok (true, s) := by
    simp [guardRoom, hguard]
  rw [enqueueStore, W.bind_ok hroom, if_pos rfl, W.getMe_bind, hguard, enqueue_bind, Bool.false_and, ← hx]
  rfl

/-- The guard buffer takes 32 bytes for each granule of a guarded write at tags 0 and 2 (R468). -/
theorem guardRoom_guarded {ea : DWord} (hguard : s.me.willGuard = true) (hlocal : tagOf ea ≠ 1) (hflag : tagOf ea ≠ 3) :
    guardRoom ea n s = if s.me.guardMax < s.me.guardUsed + 32 * granules (ea.toNat % 16) n
      then .ok (false, s.modMe (fun c => { c with govf := true }))
      else .ok (true, s.modMe (fun c => { c with guardUsed := c.guardUsed + 32 * granules (ea.toNat % 16) n })) := by
  have hheld : ¬ (!s.me.willGuard || eaTag ea == 1 || eaTag ea == 3) = true := by
    simp [eaTag_eq_tagOf, hguard, hlocal, hflag]
  rw [guardRoom, W.getMe_bind, if_neg hheld, W.ite_apply]
  rfl

/-- A guarded write at tags 0 and 2 for which the guard buffer has room. -/
theorem enqueueStore_guarded (hguard : s.me.willGuard = true) (hlocal : tagOf x.ea ≠ 1) (hflag : tagOf x.ea ≠ 3)
    (hroom : s.me.guardUsed + 32 * granules (x.ea.toNat % 16) n ≤ s.me.guardMax) : enqueueStore n x s =
      .ok ((), (s.modMe (fun c => { c with guardUsed := c.guardUsed + 32 * granules (x.ea.toNat % 16) n })).enqueued { x with guarded := true }) := by
  have hstill : (Ctx.willGuard { s.me with guardUsed := s.me.guardUsed + 32 * granules (x.ea.toNat % 16) n } && eaTag x.ea != 1) = true := by
    rw [eaTag_eq_tagOf, bne_iff_ne.2 hlocal, Bool.and_true]
    exact hguard
  have htakes := (guardRoom_guarded hguard hlocal hflag).trans (if_neg (Nat.not_lt.2 hroom))
  rw [enqueueStore, W.bind_ok htakes, if_pos rfl, W.getMe_bind, State.modMe_me, hstill]
  rfl

/-- A guarded write at tags 0 and 2 that the guard buffer has no room for is discarded. -/
theorem enqueueStore_discarded (hguard : s.me.willGuard = true) (hlocal : tagOf x.ea ≠ 1) (hflag : tagOf x.ea ≠ 3)
    (hroom : s.me.guardMax < s.me.guardUsed + 32 * granules (x.ea.toNat % 16) n) :
    enqueueStore n x s = .ok ((), s.modMe (fun c => { c with govf := true })) := by
  have hdrops := (guardRoom_guarded hguard hlocal hflag).trans (if_pos hroom)
  rw [enqueueStore, W.bind_ok hdrops, if_neg Bool.false_ne_true, W.pure_apply]

/-- An access of eight bytes in its place touches one granule. -/
theorem granules_eight {a : Nat} (h : a % 8 = 0) : granules (a % 16) 8 = 1 := by
  rw [granules, if_neg (by decide)]
  omega

theorem guardFlag_plain {ea : DWord} (h : PlainAddress s ea n) : guardFlag ea s = .ok ((), s) := by
  rw [guardFlag, eaTag_eq_tagOf, if_neg (Nat.ne_of_lt (tagOf_lt_three_of_plain h)), W.pure_apply]

end Guard

/-! ## The end of an X word -/

theorem runWord_enqueued {b : W Unit} {t : State} {g : PIdx} {x : XCmd} (hg : Claims.Live s g) (h : b s = .ok ((), t.enqueued x)) :
    runWord g b s = .next (queueX t x) :=
  runWord_ok hg h

theorem runWord_enqueuedLoad {b : W Unit} {t : State} {g : PIdx} {x : XCmd} {n : Nat} {ws : List RegWrite} (hg : Claims.Live s g)
    (h : b s = .ok ((), t.enqueuedLoad x n ws)) : runWord g b s = .next (queueXL t x n ws) :=
  (runWord_ok hg h).trans rfl

end Sys2Proof.Machine
end

section
/-! SUPPORT. The loads and stores at issue when every check passes (R452 to R454). -/

namespace Sys2Proof.Machine

open Claims (tagOf PlainAddress RoomIn InWindow reserved queueX queueXL wLame)

variable {s : State} {h : WHead} {i : Instr} {r d a w : RIdx} {c : MemCtl} {v : VecCtl} {size n : Nat} {q : CIdx} {ch : Chan} {ea : DWord}

theorem lowest_cons_ok {m : W Unit} {l : List (W Unit)} (hm : m s = .ok ((), s)) (hl : lowest l s = .ok ((), s)) :
    lowest (m :: l) s = .ok ((), s) := by
  have hcauses : causesOf (m :: l) s = causesOf l s := by
    simp only [causesOf, List.filterMap_cons, hm]
  rw [lowest, hcauses]
  exact hl

theorem lowest_three_bind {β : Type} {m₁ m₂ m₃ : W Unit} (h₁ : m₁ s = .ok ((), s)) (h₂ : m₂ s = .ok ((), s)) (h₃ : m₃ s = .ok ((), s))
    (f : Unit → W β) : (lowest [m₁, m₂, m₃] >>= f) s = f () s :=
  W.bind_ok (lowest_cons_ok h₁ (lowest_cons_ok h₂ (lowest_cons_ok h₃ rfl)))

/-! ## Loads (R452 to R454) -/

theorem loadWord_checked {dst : XDst} (hq : s.me.xq.length < 32) (ha : (s.me.areg a).lame = 0) (hdst : checkXDst dst s = .ok ((), s))
    (hsum : effAddr (s.me.areg a).val (offBytes c.off) = ea) (hea : checkEa (sizeRule size) ea size s = .ok ((), s)) :
    loadWord i size dst a c s = enqueueLoad 5 dst { tok := 0, i := i, ea := ea } s := by
  rw [loadWord, xRoom_body hq, aVal_bind, hsum]
  exact lowest_three_bind hea (aConsume_ok ha) hdst _

/-- A load of R452 enters the queue: its register lands at g+5, and a channel's record is reserved at issue. -/
theorem exec_load {word : XDst → Instr} (hword : ∀ dst, exec (word dst) s = runWord h.g (loadWord (word dst) size dst a c) s)
    (hin : Claims.Enters s h.g) (ha : (s.me.areg a).lame = 0) (hsum : effAddr (s.me.areg a).val (offBytes c.off) = ea)
    (hea : checkEa (sizeRule size) ea size s = .ok ((), s)) :
    exec (word (.reg r)) s = .next (queueXL s { tok := 0, i := word (.reg r), ea := ea } 5 [.a r ⟨0, 1⟩]) ∧
    (RoomIn s q true ch n → exec (word (.push q)) s =
      .next (queueX (reserved s q ch n) { tok := 0, i := word (.push q), ea := ea, room := some (q.toNat, ch.openIx, n) })) := by
  obtain ⟨hg, hq⟩ := hin
  constructor
  · rw [hword]
    exact runWord_enqueuedLoad hg ((loadWord_checked hq ha rfl hsum hea).trans (enqueueLoad_reg _ _ _))
  · intro hroom
    rw [hword]
    exact runWord_enqueued hg ((loadWord_checked hq ha (checkXDst_push hroom) hsum hea).trans (enqueueLoad_push hroom _ _))

section Plane
variable (hin : Claims.Enters s h.g) (ha : (s.me.areg a).lame = 0) (hsum : effAddr (s.me.areg a).val (vecOff v) = ea)
  (hea : PlainAddress s ea (vecBytes v)) (halign : ea.toNat % 16 = 0)
include hin ha hsum hea halign

/-- A plane loaded to a window register lands at g+6. -/
theorem exec_ldv_win (hw : InWindow s w) : exec (.ldv h (.win w) a v) s =
    .next (queueXL s { tok := 0, i := .ldv h (.win w) a v, ea := ea } 6 [.v (s.me.window w) ⟨zeroV, 1⟩]) := by
  obtain ⟨hg, hq⟩ := hin
  refine runWord_enqueuedLoad hg ?_
  rw [ldvWord, xRoom_body hq, aVal_bind, hsum]
  refine (lowest_three_bind (checkEa_plainRule hea halign) (aConsume_ok ha) (checkVDst_win hw) _).trans ?_
  exact (windowOf_bind hw _).trans (enqueue_landTok _ _ _)

/-- A plane loaded to a channel reserves its record at issue. -/
theorem exec_ldv_push (hroom : RoomIn s q false ch n) : exec (.ldv h (.push q) a v) s =
    .next (queueX (reserved s q ch n) { tok := 0, i := .ldv h (.push q) a v, ea := ea, room := some (q.toNat, ch.openIx, n) }) := by
  obtain ⟨hg, hq⟩ := hin
  refine runWord_enqueued hg ?_
  rw [ldvWord, xRoom_body hq, aVal_bind, hsum]
  refine (lowest_three_bind (checkEa_plainRule hea halign) (aConsume_ok ha) (checkVDst_push hroom) _).trans ?_
  exact xRoomOf_bind hroom _

end Plane

theorem exec_ldfe {f : LdfeCtl} (hin : Claims.Enters s h.g) (ha : (s.me.areg a).lame = 0)
    (hsum : effAddr (s.me.areg a).val (ldfeOff f) = ea) (hea : PlainAddress s ea 8) (htag : tagOf ea ≠ 0) (halign : ea.toNat % 8 = 0) :
    exec (.ldfe h (.reg r) a f) s =
      .next (queueXL s { tok := 0, i := .ldfe h (.reg r) a f, ea := ea, v2 := BitVec.ofNat 64 s.pos.limit } 5 [.a r ⟨0, 1⟩]) := by
  obtain ⟨hg, hq⟩ := hin
  refine runWord_enqueuedLoad hg ?_
  rw [ldfeWord, xRoom_body hq, aVal_bind, hsum]
  refine (lowest_three_bind (checkEa_feRule hea htag halign) (aConsume_ok ha) rfl _).trans ?_
  exact enqueueLoad_reg _ _ _

/-! ## Stores (R252, R452 to R454) -/

theorem storeWord_checked (hq : s.me.xq.length < 32) (hd : (s.me.areg d).lame = 0) (ha : (s.me.areg a).lame = 0)
    (hsum : effAddr (s.me.areg d).val (offBytes c.off) = ea) (hea : checkEa (sizeRule size) ea size s = .ok ((), s))
    (hflag : guardFlag ea s = .ok ((), s)) :
    storeWord i size d (.reg a) c s = enqueueStore size { tok := 0, i := i, ea := ea, v1 := (s.me.areg a).val } s := by
  rw [storeWord, xRoom_body hq, aVal_bind, hsum]
  refine (W.bind_ok (lowest_cons_ok hea (lowest_cons_ok hflag (lowest_cons_ok (aConsume_ok hd) (lowest_cons_ok (aConsume_ok ha) rfl))))).trans ?_
  exact aUse_bind ha _

/-- A store of R452 outside guarded mode. -/
theorem exec_store (hword : exec i s = runWord h.g (storeWord i size d (.reg a) c) s) (hin : Claims.Enters s h.g) (hd : (s.me.areg d).lame = 0)
    (ha : (s.me.areg a).lame = 0) (hfree : Claims.Free s) (hsum : effAddr (s.me.areg d).val (offBytes c.off) = ea)
    (hea : checkEa (sizeRule size) ea size s = .ok ((), s)) :
    exec i s = .next (queueX s { tok := 0, i := i, ea := ea, v1 := (s.me.areg a).val }) := by
  obtain ⟨hg, hq⟩ := hin
  rw [hword]
  exact runWord_enqueued hg ((storeWord_checked hq hd ha hsum hea (guardFlag_free _ hfree)).trans (enqueueStore_free hfree rfl))

theorem exec_stv (hin : Claims.Enters s h.g) (hd : (s.me.areg d).lame = 0) (hfree : Claims.Free s)
    (hsum : effAddr (s.me.areg d).val (vecOff v) = ea) (hea : PlainAddress s ea (vecBytes v)) (halign : ea.toNat % 16 = 0)
    (hw : InWindow s w) (hlame : wLame s w = 0) : exec (.stv h d (.win w) v) s =
      .next (queueX s { tok := 0, i := .stv h d (.win w) v, ea := ea, vec := (s.me.vreg (s.me.window w)).val }) := by
  obtain ⟨hg, hq⟩ := hin
  refine runWord_enqueued hg ?_
  rw [stvWord, xRoom_body hq, aVal_bind, hsum]
  refine (lowest_three_bind (checkEa_plainRule hea halign) (aConsume_ok hd) (checkVSrc_win hw) _).trans ?_
  exact (vSrc_win_bind hw _).trans ((W.bind_ok (consume_ok hlame s)).trans (enqueueStore_free hfree rfl))

theorem exec_stfe {f : StfeCtl} (hin : Claims.Enters s h.g) (hd : (s.me.areg d).lame = 0) (ha : (s.me.areg a).lame = 0) (hfree : Claims.Free s)
    (hsum : effAddr (s.me.areg d).val (offBytes f.off) = ea) (hea : PlainAddress s ea 8) (htag : tagOf ea ≠ 0) (halign : ea.toNat % 8 = 0) :
    exec (.stfe h d (.reg a) f) s = .next (queueX s { tok := 0, i := .stfe h d (.reg a) f, ea := ea, v1 := (s.me.areg a).val }) := by
  obtain ⟨hg, hq⟩ := hin
  refine runWord_enqueued hg ?_
  rw [stfeWord, xRoom_body hq, aVal_bind, hsum]
  refine (lowest_three_bind (checkEa_feRule hea htag halign) (aConsume_ok hd) (aConsume_ok ha) _).trans ?_
  exact (aUse_bind ha _).trans (enqueueStore_free hfree rfl)

/-- FECLR of a length that R454 admits. -/
theorem exec_feclr {o : Option (BitVec 25)} (hin : Claims.Enters s h.g) (hd : (s.me.areg d).lame = 0) (ha : (s.me.areg a).lame = 0)
    (hsum : effAddr (s.me.areg d).val (offBytes o) = ea) (hea : PlainAddress s ea (s.me.areg a).val.toNat) (htag : tagOf ea ≠ 0)
    (halign : ea.toNat % 16 = 0) (hlen : (s.me.areg a).val.toNat % 16 = 0 ∧ (s.me.areg a).val.toNat < 2 ^ 21) :
    exec (.feclr h d a o) s = .next (queueX s { tok := 0, i := .feclr h d a o, ea := ea, v1 := (s.me.areg a).val }) := by
  obtain ⟨hg, hq⟩ := hin
  refine runWord_enqueued hg ?_
  rw [feclrWord, xRoom_body hq, aVal_bind, aVal_bind, hsum]
  simp only [if_pos hlen]
  exact W.bind_ok (lowest_cons_ok (checkEa_feRule hea htag halign)
    (lowest_cons_ok rfl (lowest_cons_ok (aConsume_ok hd) (lowest_cons_ok (aConsume_ok ha) rfl))))

section Guarded
variable (hin : Claims.Enters s h.g) (hd : (s.me.areg d).lame = 0) (ha : (s.me.areg a).lame = 0) (hguard : s.me.willGuard = true)
  (hsum : effAddr (s.me.areg d).val (offBytes c.off) = ea) (hea : PlainAddress s ea 8) (htag : tagOf ea ≠ 1) (halign : ea.toNat % 8 = 0)
include hin hd ha hguard hsum hea htag halign

/-- A guarded STD for which the guard buffer has room takes 32 bytes of it (R468). -/
theorem exec_std_guarded (hroom : s.me.guardUsed + 32 ≤ s.me.guardMax) : exec (.std h d (.reg a) c) s =
    .next (queueX (s.modMe (fun c => { c with guardUsed := c.guardUsed + 32 }))
      { tok := 0, i := .std h d (.reg a) c, ea := ea, v1 := (s.me.areg a).val, guarded := true }) := by
  obtain ⟨hg, hq⟩ := hin
  have hstore := storeWord_checked (i := .std h d (.reg a) c) hq hd ha hsum (checkEa_sizeRule_plain hea halign) (guardFlag_plain hea)
  rw [enqueueStore_guarded hguard htag (Nat.ne_of_lt (tagOf_lt_three_of_plain hea)) (by rwa [granules_eight halign]),
    granules_eight halign] at hstore
  exact runWord_enqueued hg hstore

/-- A guarded STD that finds no room is discarded and sets GOVF (R468). -/
theorem exec_std_discarded (hroom : s.me.guardMax < s.me.guardUsed + 32) :
    exec (.std h d (.reg a) c) s = .next (Claims.withMe s (fun c => { c with govf := true })) := by
  obtain ⟨hg, hq⟩ := hin
  refine runWord_ok hg ((storeWord_checked hq hd ha hsum (checkEa_sizeRule_plain hea halign) (guardFlag_plain hea)).trans ?_)
  exact enqueueStore_discarded hguard htag (Nat.ne_of_lt (tagOf_lt_three_of_plain hea)) (by rwa [granules_eight halign])

end Guarded

end Sys2Proof.Machine
end

section
namespace Sys2Proof.Machine

/-- The loads of O14: by size (`exec_load`), planes by destination, and LDFE. -/
theorem loadsEnterTheQueue : Claims.LoadsEnterTheQueue := by
  intro s h r a w c v f q ch n hin ha base ea ev ef x load
  have hsum := fun {off : DWord} => effAddr_eq_sumAddr (s.me.areg a).val off
  refine ⟨fun hea halign => ?byte, fun hea halign => ?half, fun hea halign => ?word, fun hea halign => ?double,
    fun hea halign => ⟨exec_ldv_win hin ha hsum hea halign, exec_ldv_push hin ha hsum hea halign⟩, exec_ldfe hin ha hsum⟩
  case byte => exact exec_load (word := fun dst => .ldb h dst a c) (fun _ => rfl) hin ha hsum (checkEa_sizeRule_plain hea halign)
  case half => exact exec_load (word := fun dst => .ldh h dst a c) (fun _ => rfl) hin ha hsum (checkEa_sizeRule_plain hea halign)
  case word => exact exec_load (word := fun dst => .ldw h dst a c) (fun _ => rfl) hin ha hsum (checkEa_sizeRule_word hea halign)
  case double => exact exec_load (word := fun dst => .ldd h dst a c) (fun _ => rfl) hin ha hsum (checkEa_sizeRule_plain hea halign)

/-- The stores of O14: by size outside guarded mode (`exec_store`), and STD as the guard buffer has room or not. -/
theorem storesEnterTheQueue : Claims.StoresEnterTheQueue := by
  intro s h d a w c v f o hin hd ha base datum ea ev ef er store
  have hsum := fun {off : DWord} => effAddr_eq_sumAddr (s.me.areg d).val off
  refine ⟨fun hfree => ?free, fun hea htag halign hmul hlt => exec_feclr hin hd ha hsum hea htag halign ⟨hmul, hlt⟩, ?guarded⟩
  case free =>
    have hstore := fun {i : Instr} {size : Nat} (hword : exec i s = runWord h.g (storeWord i size d (.reg a) c) s) =>
      exec_store hword hin hd ha hfree hsum
    exact ⟨fun hea => hstore rfl (checkEa_sizeRule_plain hea (Nat.mod_one _)), fun hea halign => hstore rfl (checkEa_sizeRule_plain hea halign),
      fun hea halign => hstore rfl (checkEa_sizeRule_word hea halign), fun hea halign => hstore rfl (checkEa_sizeRule_plain hea halign),
      exec_stv hin hd hfree hsum, exec_stfe hin hd ha hfree hsum⟩
  case guarded =>
    intro hmode hcommit hea htag halign
    have hguard : s.me.willGuard = true := by
      rw [Ctx.willGuard, Ctx.guarded, bit, hmode, hcommit]
      rfl
    exact ⟨exec_std_guarded hin hd ha hguard hsum hea htag halign, exec_std_discarded hin hd ha hguard hsum hea htag halign⟩

/-- Settles O14: each word whose checks pass enters the queue with its own command. -/
theorem loadsAndStoresEnterTheQueue : Obligations.LoadsAndStoresEnterTheQueue := ⟨loadsEnterTheQueue, storesEnterTheQueue⟩

end Sys2Proof.Machine
end

section
/-! SUPPORT. A TSCADD whose first record has a poisoned granule (R301, R457): the state in which `Obligations.AtomicTensorAndReinWords` has the
command enter the queue without the granules of its record that are poisoned. -/

namespace Sys2Proof.Machine

/-- A channel of one page of one vector record at offset 0, which is FILLED. -/
def fullPage : Chan :=
  { base := 0, rpp := 1, prod := .rider, array := false, scal := false, scope := 0, pages := [{ st := .filled, res := 1, wr := 1 }] }

/-- Context 0 on stall 0 with that channel as its channel 0, and the first granule of its record poisoned. -/
def poisonedRecord : State :=
  { State.reset with
    ctxs := [(0, { Ctx.reset with loc := .on 0 0, chans := [(0, fullPage)] })]
    mem := { poison := [scratchAddr 0 0 0 / 16] } }

/-- The command takes the poisoned granules of its record with it, a bit each, so that the elements from there are not added (R457). -/
theorem tscadd_poisonedRecord : ∃ t, exec (.tscadd {} 0 ⟨0, false⟩ 0) poisonedRecord = .next t ∧ t.me.xq.map (·.v2) = [1] :=
  ⟨_, rfl, by decide +kernel⟩

end Sys2Proof.Machine

end

section
namespace Sys2Proof.Machine

/-- Refutes O15: its clause on TSCADD has the command enter the queue as that of TSCATTER does, with the value of its record alone and the field `v2`
zero. In `poisonedRecord` the command carries the poisoned granule of its record there, as R457 needs it. -/
theorem not_atomicTensorAndReinWords : ¬ Obligations.AtomicTensorAndReinWords := by
  unfold Obligations.AtomicTensorAndReinWords Claims.TensorAndReinWordsEnterTheQueue
  rintro ⟨-, h⟩
  obtain ⟨-, -, hrecord, -, -⟩ := h poisonedRecord {} 0 0 0 false 0 ⟨0, false⟩ fullPage 0 .rlx .module false
    (by unfold Claims.Enters Claims.Live; decide +kernel) (by unfold Claims.Free; decide +kernel) (by decide +kernel)
  obtain ⟨-, -, hadd⟩ := hrecord (by unfold Claims.RecordIn; decide +kernel)
  obtain ⟨t, ht, hpoison⟩ := tscadd_poisonedRecord
  rw [Host.Outcome.next.inj (ht.symm.trans hadd)] at hpoison
  exact absurd hpoison (by decide +kernel)

end Sys2Proof.Machine
end

section
/-! SUPPORT. A nest that ended while a fill was under way (R417, R425): the state in which `Obligations.NestsAndGangs` has the fill make its bank full
all the same. -/

namespace Sys2Proof.Machine

/-- A member on stall 0 whose fill completes in cycle 0. -/
def fillingMember : Member := { key := 0, stall := 0, fillAt := some 0 }

/-- A gang of that member alone, which has ended. -/
def endedGang : Gang := { row := 0, members := [fillingMember], cfg := [], epi := [], mode := 0, depth := 2, ended := true }

/-- The module with that gang as its gang 0. -/
def endedFilling : State := { State.reset with gangs := [(0, endedGang)] }

/-- An ended nest holds no bank: the fill leaves the module as it was. -/
theorem latchFillComplete_endedFilling : exec (.latchFillComplete 0 0) endedFilling = .next endedFilling := rfl

theorem endedFilling_latch_empty : (endedFilling.latch 0 false).full = false := rfl

end Sys2Proof.Machine
end

section
namespace Sys2Proof.Machine

/-- Refutes O23: its clause on a fill from an invalid slot makes the bank full whether or not the nest has ended, while an ended nest holds no bank
any more (R417). In `endedFilling` the fill of an ended nest is due, and the bank stays empty. -/
theorem not_nestsAndGangs : ¬ Obligations.NestsAndGangs := by
  unfold Obligations.NestsAndGangs Claims.NestEngines
  rintro ⟨h, -⟩
  obtain ⟨-, -, hfill, -⟩ := h endedFilling 0 0 endedGang fillingMember false
    { base := 0, rpp := 1, prod := .rider, array := true, scal := false, scope := 0, pages := [] } 0
    { pass := 0, row := 0, sums := [], poison := false, next := 0, ready := 0 } { group := 0 } { order := 0, keys := [], cfg := [], gang := none }
    [] 0 0 0 rfl rfl rfl
  obtain ⟨t, ht, hlatch, -⟩ := hfill rfl rfl (by decide) rfl rfl
  have hsame : t = endedFilling := Host.Outcome.next.inj (ht.symm.trans latchFillComplete_endedFilling)
  have hfull : (endedFilling.latch 0 false).full = true := hsame ▸ congrArg Latch.full hlatch
  rw [endedFilling_latch_empty] at hfull
  exact Bool.false_ne_true hfull

end Sys2Proof.Machine
end

section
/-! SUPPORT. A copy that a fault has halted (R210, R223, R434): the state in which `Obligations.AccumulatorEntries` looks for the end of a copy that
has not moved its entry. -/

namespace Sys2Proof.Machine

/-- An NDRAIN of entry 0 to scratch offset 0, halted at a translation fault of its stash line. -/
def haltedNest : Nest := { copy := some (.move true 0 1 0, 0), copyHalt := some (0, 2, 2) }

/-- Context 0 on stall 0 with that copy and one scratch bay. -/
def haltedCopy : State := { State.reset with ctxs := [(0, { Ctx.reset with loc := .on 0 0, bays := [0], nbays := 1, nest := haltedNest })] }

/-- The copy stays halted until the owner answers its fault. -/
theorem accumulatorCopyComplete_haltedCopy : exec (.accumulatorCopyComplete 0) haltedCopy = .next haltedCopy := rfl

end Sys2Proof.Machine
end

section
namespace Sys2Proof.Machine

/-- Refutes O22: its clause on a copy out has the copy end whether or not a fault has halted it, while a halted copy waits for the owner's answer
(R210, R223). In `haltedCopy` the clause's hypotheses hold and the copy stays under way. -/
theorem not_accumulatorEntries : ¬ Obligations.AccumulatorEntries := by
  unfold Obligations.AccumulatorEntries
  intro h
  obtain ⟨-, -, -, hout, -⟩ := h haltedCopy 0 0 endedGang { pass := 0, row := 0, sums := [], poison := false, next := 0, ready := 0 } 0 1 0 0 0
  obtain ⟨t, ht, hcopy, -⟩ := hout rfl rfl rfl rfl rfl rfl (by decide) rfl rfl rfl rfl rfl
  have hsame : t = haltedCopy := Host.Outcome.next.inj (ht.symm.trans accumulatorCopyComplete_haltedCopy)
  rw [hsame] at hcopy
  exact Option.some_ne_none _ hcopy

end Sys2Proof.Machine
end

section
/-! SUPPORT. V words that land one result in a window register: the moves and permutes of R393 to R396, and the lame tests of R401 and R402. -/

namespace Sys2Proof.Machine

open Claims (InWindow laneOf wLame)

variable {s : State} {g : PIdx} {d a b : RIdx} {body : W Unit} {n : Nat} {flags : VFl} {x : Lamed VReg}

/-! ## A result in a window register -/

/-- A word that ends by landing a result in a window register, after some lanes have drawn. -/
theorem runWord_landV_draws {drew : List Nat} (hg : Claims.Live s g) (hd : InWindow s d)
    (h : body s = (landV (.win d) n flags x : W Unit) (s.modMe (fun c => c.advance drew))) :
    runWord g body s = .next (Claims.queueV s n (.v (s.me.window d) x) flags drew) :=
  runWord_ok hg (h.trans (modMe_advance_landV drew hd))

/-- A word that ends by landing a result in a window register. -/
theorem runWord_landV (hg : Claims.Live s g) (hd : InWindow s d) (h : body s = (landV (.win d) n flags x : W Unit) s) :
    runWord g body s = .next (Claims.queueV s n (.v (s.me.window d) x) flags) := by
  rw [queueV_eq]
  exact runWord_ok hg (h.trans (landV_win hd))

/-- The checks of a word with one source pass. -/
theorem checkV_one_bind {extra : Lame} (hd : InWindow s d) (ha : InWindow s a) (f : Unit → W Unit) :
    (checkV (.win d) [.win a] extra >>= f) s = f () s := checkV_win_bind (l := [a]) hd (List.forall_mem_singleton.2 ha) f

/-- The checks of a word with two sources pass. -/
theorem checkV_two_bind {extra : Lame} (hd : InWindow s d) (ha : InWindow s a) (hb : InWindow s b) (f : Unit → W Unit) :
    (checkV (.win d) [.win a, .win b] extra >>= f) s = f () s :=
  checkV_win_bind (l := [a, b]) hd (List.forall_mem_cons.2 ⟨ha, List.forall_mem_singleton.2 hb⟩) f

/-! ## Lane numbers and offsets -/

theorem sextNat_eq_toInt (x : Nat) {w : Nat} (hw : 0 < w) : sextNat x w = (BitVec.ofNat w x).toInt := by
  obtain ⟨v, rfl⟩ : ∃ v, w = v + 1 := Nat.exists_eq_succ_of_ne_zero (Nat.ne_of_gt hw)
  have hhalf : 2 * (x % 2 ^ (v + 1)) < 2 ^ (v + 1) ↔ x % 2 ^ (v + 1) < 2 ^ v := by rw [Nat.pow_succ]; omega
  simp only [sextNat, BitVec.toInt_eq_toNat_cond, BitVec.toNat_ofNat, Nat.add_sub_cancel, hhalf]
  push_cast
  rfl

theorem slideLane_eq (s : State) (a : RIdx) (i : Nat) (j : Nat) :
    slideLane (lanes s.me.vt.etype.width (s.me.vreg (s.me.window a)).val) s.me.vt.etype.lanes (sextNat i 32) j =
      if 0 ≤ (j : Int) + (BitVec.ofNat 32 i).toInt ∧ (j : Int) + (BitVec.ofNat 32 i).toInt < s.me.vt.etype.lanes then
        laneOf s a ((j : Int) + (BitVec.ofNat 32 i).toInt).toNat else 0 := by
  simp only [slideLane, sextNat_eq_toInt i (w := 32) (by decide), Bool.and_eq_true, decide_eq_true_iff]
  rfl

/-! ## Lanes picked and spread by a mask (R396) -/

theorem pickFrom_map (m : Mask) (A : Nat → Nat) (n : Nat) : ∀ j,
    pickFrom m j ((List.range' j n).map A) = ((List.range' j n).filter (fun i => m.getLsbD i)).map A := by
  induction n with
  | zero => intro j; rfl
  | succ n ih =>
    intro j
    simp only [List.range'_succ, List.map_cons, pickFrom, ih, maskBit, List.filter_cons]
    split <;> rfl

/-- The lanes of a list from the k-th on, placed where the mask bits are set. -/
theorem spreadFrom_drop (m : Mask) (l : List Nat) (n : Nat) : ∀ j k, spreadFrom m j n (l.drop k) =
    (List.range' j n).map (fun i => if m.getLsbD i then l.getD (k + ((List.range' j (i - j)).filter (fun e => m.getLsbD e)).length) 0 else 0) := by
  induction n with
  | zero => intro j k; rfl
  | succ n ih =>
    intro j k
    have hlater : ∀ i ∈ List.range' (j + 1) n, ∀ c : Bool, m.getLsbD j = c →
        k + ((List.range' j (i - j)).filter (fun e => m.getLsbD e)).length =
          k + c.toNat + ((List.range' (j + 1) (i - (j + 1))).filter (fun e => m.getLsbD e)).length := by
      intro i hi c hc
      have hij : i - j = i - (j + 1) + 1 := by have := List.mem_range'_1.1 hi; omega
      rw [hij, List.range'_succ, List.filter_cons, hc]
      cases c <;> simp [Nat.add_assoc, Nat.add_comm 1]
    have hhead : (l.drop k).headD 0 = l.getD k 0 := by
      rw [List.headD_eq_head?_getD, List.head?_drop, List.getD_eq_getElem?_getD]
    rw [List.range'_succ, List.map_cons, spreadFrom]
    cases hj : m.getLsbD j with
    | true =>
      simp only [maskBit, hj, if_true, hhead, List.tail_drop, ih, Nat.sub_self, List.range'_zero, List.filter_nil, List.length_nil, Nat.add_zero]
      congr 1
      exact List.map_congr_left fun i hi => by rw [hlater i hi true hj, Bool.toNat_true]
    | false =>
      simp only [maskBit, hj, Bool.false_eq_true, if_false, ih]
      congr 1
      exact List.map_congr_left fun i hi => by rw [hlater i hi false hj, Bool.toNat_false]; rfl

theorem spreadFrom_lanes (m : Mask) (l : List Nat) (n : Nat) : spreadFrom m 0 n l =
    (List.range n).map (fun j => if m.getLsbD j then l.getD ((List.range j).filter (fun i => m.getLsbD i)).length 0 else 0) := by
  have h := spreadFrom_drop m l n 0 0
  simpa only [List.drop_zero, Nat.zero_add, Nat.sub_zero, ← List.range_eq_range'] using h

/-! ## The words -/

theorem Lame.zero_max (x : Lame) : Lame.max 0 x = x := if_pos (Nat.zero_le _)

theorem lameOf_pair (x y : Lame) : lameOf [x, y] = Lame.max x y := congrArg (Lame.max · y) (Lame.zero_max x)

theorem vectorMovesAndPermutes : Claims.VectorMovesAndPermutes := by
  intro s h d a b k p i hg hd ha hb
  refine ⟨runWord_landV hg hd ?vmov, runWord_landV hg hd ?stov, runWord_landV hg hd ?viota, runWord_landV hg hd ?vperm,
    runWord_landV hg hd ?vslide, runWord_landV hg hd ?vlane, runWord_landV hg hd ?vcmpr, runWord_landV hg hd ?vxpnd, runWord_ok hg ?vlame,
    runWord_ok hg ?vclrl⟩
  case vmov =>
    rw [checkV_one_bind hd ha]
    exact vSrc_win_bind ha _
  case stov =>
    rw [W.getMe_bind, wSrc_bind hd, setLane, lanes_window, lameOf_pair]
    rfl
  case viota =>
    rw [W.getMe_bind]
    exact W.bind_ok (checkVDst_win hd)
  case vperm =>
    rw [checkV_two_bind hd ha hb, W.getMe_bind, vSrc_win_bind ha, vSrc_win_bind hb, lanes_window s b, List.map_map, lameOf_pair]
    rfl
  case vslide =>
    rw [checkV_one_bind hd ha, W.getMe_bind, vSrc_win_bind ha]
    simp only [funext (slideLane_eq s a (immU i).toNat)]
    rfl
  case vlane =>
    rw [checkV_one_bind hd ha, W.getMe_bind, vSrc_win_bind ha, List.map_const', List.length_range]
    rfl
  case vcmpr =>
    rw [W.getMe_bind, checkV_one_bind hd ha, vSrc_win_bind ha, lanes_window, List.range_eq_range', pickFrom_map, lameOf_pair]
    rfl
  case vxpnd =>
    rw [W.getMe_bind, checkV_one_bind hd ha, vSrc_win_bind ha, spreadFrom_lanes, lameOf_pair]
    rfl
  case vlame =>
    have hlame : decide (wLame s a ≠ 0) = ((s.me.vreg (s.me.window a)).lame != 0) := Bool.eq_iff_iff.2 (by rw [decide_eq_true_iff, bne_iff_ne]; rfl)
    rw [W.bind_ok (checkVSrc_win ha), vSrc_win_bind ha, hlame]
    rfl
  case vclrl =>
    exact windowOf_bind hd _

end Sys2Proof.Machine
end

section
/-! SUPPORT. The tree of a reduction (R284, R392): what its last node stands for, and for the integer types the sum, the greatest and the least of the
lanes inside the mask. -/

namespace Sys2Proof.Machine

open Claims (InWindow laneOf wLame sint fit)

/-! ## What a node of the tree stands for -/

theorem unionFl_eq_zero {l : List VFl} (h : ∀ f ∈ l, f = 0) : unionFl l = 0 := by
  induction l with
  | nil => rfl
  | cons f l ih =>
    obtain ⟨rfl, hl⟩ := List.forall_mem_cons.1 h
    exact ih hl

section Tree
variable {op : Red} {t : VType} {dr : Nat → Nat → Nat} {P : List Node → Node → Prop}
  (hnode : ∀ xs ys x y, P xs x → P ys y → P (xs ++ ys) (redNode op t dr x y).1 ∧ (redNode op t dr x y).2 = (0, false))
include hnode

/-- One level of the tree: each new node stands for the leaves below its two inputs, without a flag and without a draw. -/
theorem pairs_stand (m : Nat) : ∀ (xss : List (List Node)) (l : List Node), List.Forall₂ P xss l → l.length = 2 * m →
    ∃ yss, List.Forall₂ P yss ((pairs l).map (fun p => (redNode op t dr p.1 p.2).1)) ∧ yss.flatten = xss.flatten ∧ (pairs l).length = m ∧
      ∀ p ∈ pairs l, (redNode op t dr p.1 p.2).2 = (0, false) := by
  induction m with
  | zero =>
    intro xss l h hl
    obtain rfl := List.eq_nil_of_length_eq_zero hl
    cases h
    exact ⟨[], .nil, rfl, rfl, fun p hp => nomatch hp⟩
  | succ m ih =>
    intro xss l h hl
    match l, h with
    | x :: y :: l, .cons (a := xs) hx (.cons (a := ys) (l₁ := zss) hy hrest) =>
      obtain ⟨hstand, hquiet⟩ := hnode xs ys x y hx hy
      obtain ⟨yss, hall, hflat, hlen, hflags⟩ := ih _ l hrest (by simp only [List.length_cons] at hl; omega)
      refine ⟨(xs ++ ys) :: yss, .cons hstand hall, ?_, by rw [pairs, List.length_cons, hlen], ?_⟩
      · rw [List.flatten_cons, hflat, List.flatten_cons, List.flatten_cons, List.append_assoc]
      · exact List.forall_mem_cons.2 ⟨hquiet, hflags⟩

/-- The last node of a whole tree stands for all its leaves, without a flag and without a draw. -/
theorem redTree_stands (k : Nat) : ∀ (fuel : Nat) (xss : List (List Node)) (l : List Node),
    List.Forall₂ P xss l → l.length = 2 ^ k → k ≤ fuel → ∃ top, redTree op t dr fuel l = ([top], 0, []) ∧ P xss.flatten top := by
  induction k with
  | zero =>
    intro fuel xss l h hl _
    obtain ⟨top, rfl⟩ := List.length_eq_one_iff.1 hl
    obtain ⟨xs, hxs, rfl⟩ : ∃ xs, P xs top ∧ xss = [xs] := by
      cases h with
      | cons hx hrest => cases hrest; exact ⟨_, hx, rfl⟩
    refine ⟨top, ?_, by rwa [List.flatten_singleton]⟩
    cases fuel <;> rfl
  | succ k ih =>
    intro fuel xss l h hl hfuel
    obtain ⟨n, rfl⟩ : ∃ n, fuel = n + 1 := ⟨fuel - 1, by omega⟩
    obtain ⟨yss, hall, hflat, hlen, hquiet⟩ := pairs_stand hnode (2 ^ k) xss l h (by rw [hl, Nat.pow_succ, Nat.mul_comm])
    obtain ⟨top, htree, hstand⟩ := ih n yss _ hall (by rw [List.length_map, hlen]) (by omega)
    refine ⟨top, ?_, hflat ▸ hstand⟩
    have hmany : ¬ l.length ≤ 1 := by have := Nat.one_le_two_pow (n := k); rw [hl, Nat.pow_succ]; omega
    have hflags : unionFl ((pairs l).map (fun p => (redNode op t dr p.1 p.2).2.1)) = 0 := by
      apply unionFl_eq_zero
      rw [List.forall_mem_map]
      exact fun p hp => congrArg Prod.fst (hquiet p hp)
    have hdraws : (pairs l).filter (fun p => (redNode op t dr p.1 p.2).2.2) = [] :=
      List.filter_eq_nil_iff.2 fun p hp => by rw [hquiet p hp]; exact Bool.false_ne_true
    simp only [redTree, if_neg hmany, List.map_map, Function.comp_def, List.filter_map, htree, hflags, hdraws]
    rfl

end Tree

/-- Only the sum draws. -/
theorem redTree_draws {op : Red} (hop : op ≠ .sum) (t : VType) (dr : Nat → Nat → Nat) (n : Nat) : ∀ l, (redTree op t dr n l).2.2 = [] := by
  have hnode : ∀ x y, (redNode op t dr x y).2.2 = false := by
    intro x y
    cases op
    case sum => exact absurd rfl hop
    all_goals rfl
  induction n with
  | zero => intro l; rfl
  | succ n ih =>
    intro l
    rw [redTree]
    split
    · rfl
    · simp [ih, hnode, List.filter_map, Function.comp_def]

/-! ## Leaves -/

/-- A leaf of the tree: a lane inside the mask, or the identity in its place. -/
def leafOf (op : Red) (t : VType) (m : Mask) (A : Nat → Nat) (j : Nat) : Node :=
  if m.getLsbD j then { lane := j, code := A j, ident := false } else { lane := j, code := identityOf op t.etype, ident := true }

theorem leavesFrom_map (op : Red) (t : VType) (m : Mask) (A : Nat → Nat) (n : Nat) : ∀ j,
    leavesFrom op t m j ((List.range' j n).map A) = (List.range' j n).map (leafOf op t m A) := by
  induction n with
  | zero => intro j; rfl
  | succ n ih =>
    intro j
    simp only [List.range'_succ, List.map_cons, leavesFrom, ih]
    rfl

/-- The leaves of a reduction of a window register under the mask in force. -/
def State.leaves (s : State) (op : Red) (a : RIdx) : List Node :=
  (List.range s.me.vt.etype.lanes).map (leafOf op s.me.vt (s.me.kreg s.me.vt.mask).val (laneOf s a))

/-- The tree of a reduction of a window register under the mask in force. -/
def State.tree (s : State) (op : Red) (a : RIdx) : List Node × VFl × List Nat := redTree op s.me.vt s.me.draw 8 (s.leaves op a)

theorem leavesFrom_lanes (s : State) (op : Red) (a : RIdx) :
    leavesFrom op s.me.vt (s.me.kreg s.me.vt.mask).val 0 ((List.range s.me.vt.etype.lanes).map (laneOf s a)) = s.leaves op a := by
  have h := leavesFrom_map op s.me.vt (s.me.kreg s.me.vt.mask).val (laneOf s a) s.me.vt.etype.lanes 0
  rwa [← List.range_eq_range'] at h

theorem EType.lanes_two_pow (e : EType) : ∃ k ≤ 8, e.lanes = 2 ^ k := by
  cases e
  case fp32 | int32 => exact ⟨6, by decide, rfl⟩
  case bf16 | fp16 | int16 => exact ⟨7, by decide, rfl⟩
  case int8 => exact ⟨8, by decide, rfl⟩

section Leaves
variable {s : State} {op : Red} {a : RIdx}

/-- The tree of a reduction whose nodes raise no flag and draw nothing: its last node stands for the leaves. -/
theorem State.tree_stands {P : List Node → Node → Prop}
    (hnode : ∀ xs ys x y, P xs x → P ys y →
      P (xs ++ ys) (redNode op s.me.vt s.me.draw x y).1 ∧ (redNode op s.me.vt s.me.draw x y).2 = (0, false))
    (hleaf : ∀ x ∈ s.leaves op a, P [x] x) : ∃ top, s.tree op a = ([top], 0, []) ∧ P (s.leaves op a) top := by
  obtain ⟨k, hk, hlanes⟩ := s.me.vt.etype.lanes_two_pow
  have hall : List.Forall₂ P ((s.leaves op a).map (fun x => [x])) (s.leaves op a) := by
    rw [List.forall₂_map_left_iff, List.forall₂_same]
    exact hleaf
  obtain ⟨top, htree, hstand⟩ := redTree_stands hnode k 8 _ _ hall (by rw [State.leaves, List.length_map, List.length_range, hlanes]) hk
  refine ⟨top, htree, ?_⟩
  rwa [← List.flatMap_def, List.flatMap_singleton'] at hstand

theorem laneOf_lt (s : State) (a : RIdx) (j : Nat) : laneOf s a j < 2 ^ s.me.vt.etype.width := by
  rw [laneOf, lanes, List.getD_eq_getElem?_getD, List.getElem?_map]
  cases (List.range (2048 / s.me.vt.etype.width))[j]? with
  | none => exact Nat.two_pow_pos _
  | some i => exact Nat.mod_lt _ (Nat.two_pow_pos _)

theorem identityOf_lt {e : EType} (op : Red) (h : e.isInt = true) : identityOf op e < 2 ^ e.width := by
  cases op <;> revert h <;> cases e <;> decide

theorem leaf_lt {x : Node} (h : s.me.vt.etype.isInt = true) (hx : x ∈ s.leaves op a) : x.code < 2 ^ s.me.vt.etype.width := by
  obtain ⟨j, -, rfl⟩ := List.mem_map.1 hx
  rw [leafOf]
  split
  · exact laneOf_lt s a j
  · exact identityOf_lt op h

/-- A property of the leaves is one of the lanes inside the mask and of the identity. -/
theorem forall_leaves {p : Node → Prop} (hon : ∀ j < s.me.vt.etype.lanes, (s.me.kreg s.me.vt.mask).val.getLsbD j = true →
    p { lane := j, code := laneOf s a j, ident := false }) (hoff : ∀ j, p { lane := j, code := identityOf op s.me.vt.etype, ident := true }) :
    ∀ x ∈ s.leaves op a, p x := by
  intro x hx
  obtain ⟨j, hj, rfl⟩ := List.mem_map.1 hx
  rw [leafOf]
  split
  · next hm => exact hon j (List.mem_range.1 hj) hm
  · exact hoff j

theorem mem_leaves {j : Nat} (hj : j < s.me.vt.etype.lanes) (hm : (s.me.kreg s.me.vt.mask).val.getLsbD j = true) :
    ({ lane := j, code := laneOf s a j, ident := false } : Node) ∈ s.leaves op a :=
  List.mem_map.2 ⟨j, List.mem_range.2 hj, if_pos hm⟩

end Leaves

/-! ## The words -/

theorem runWord_vReduce {s : State} {g : PIdx} {d a : RIdx} (op : Red) (hg : Claims.Live s g) (hd : InWindow s d) (ha : InWindow s a) :
    runWord g (vReduce op (.win d) (.win a)) s = .next (Claims.queueV s 6
      (.v (s.me.window d) ⟨ofLanes s.me.vt.etype.width (((s.tree op a).1.headD { lane := 0, code := 0, ident := true }).code ::
          (if op == .imax then [if ((s.tree op a).1.headD { lane := 0, code := 0, ident := true }).ident then 0
            else ((s.tree op a).1.headD { lane := 0, code := 0, ident := true }).lane] else [])),
        lameOf [wLame s a, (s.me.kreg s.me.vt.mask).lame]⟩) (s.tree op a).2.1 (s.tree op a).2.2) := by
  refine runWord_landV_draws hg hd ?_
  rw [vReduce, W.getMe_bind, checkV_one_bind hd ha, vSrc_win_bind ha, lanes_window, leavesFrom_lanes]
  rfl

/-! ## Integer codes -/

section Ints
variable {s : State} {a : RIdx} {op : Red}

theorem lowBits_eq_toNat (z : Int) (w : Nat) : lowBits z w = (BitVec.ofInt w z).toNat := by
  rw [BitVec.toNat_ofInt, lowBits]
  push_cast
  rfl

theorem sint_lowBits (s : State) (z : Int) : sint s (lowBits z s.me.vt.etype.width) = (BitVec.ofInt s.me.vt.etype.width z).toInt := by
  rw [sint, lowBits_eq_toNat, BitVec.ofNat_toNat, BitVec.setWidth_eq]

theorem lowBits_sint {x : Nat} (h : x < 2 ^ s.me.vt.etype.width) : lowBits (sint s x) s.me.vt.etype.width = x := by
  rw [lowBits_eq_toNat, sint, BitVec.ofInt_toInt, BitVec.toNat_ofNat, Nat.mod_eq_of_lt h]

theorem lowBits_add_sint (s : State) (y z : Int) :
    lowBits (sint s (lowBits y s.me.vt.etype.width) + sint s (lowBits z s.me.vt.etype.width)) s.me.vt.etype.width =
      lowBits (y + z) s.me.vt.etype.width := by
  rw [sint_lowBits, sint_lowBits, lowBits_eq_toNat, lowBits_eq_toNat, BitVec.ofInt_add, BitVec.ofInt_toInt, BitVec.ofInt_toInt, BitVec.ofInt_add]

theorem sint_zero (s : State) : sint s 0 = 0 := BitVec.toInt_zero

/-- The lanes inside the mask, and their values as integers. -/
def State.onLanes (s : State) : List Nat := (List.range s.me.vt.etype.lanes).filter (fun j => (s.me.kreg s.me.vt.mask).val.getLsbD j)
def State.onVals (s : State) (a : RIdx) : List Int := s.onLanes.map (fun j => sint s (laneOf s a j))

theorem State.forall_onVals {p : Int → Prop} : (∀ z ∈ s.onVals a, p z) ↔
    ∀ j < s.me.vt.etype.lanes, (s.me.kreg s.me.vt.mask).val.getLsbD j = true → p (sint s (laneOf s a j)) := by
  simp only [State.onVals, State.onLanes, List.forall_mem_map, List.mem_filter, List.mem_range, and_imp]

/-! ## The sum -/

/-- A node of the sum of an integer type: the sum of its leaves modulo 2^w; an identity is 0. -/
def SumOf (s : State) (xs : List Node) (x : Node) : Prop :=
  x.code = lowBits (xs.map (fun y => sint s y.code)).sum s.me.vt.etype.width ∧ (x.ident = true → x.code = 0)

theorem sumOf_redNode (hint : s.me.vt.etype.isInt = true) (hsat : s.me.vt.sat = false) (xs ys : List Node) (x y : Node)
    (hx : SumOf s xs x) (hy : SumOf s ys y) :
    SumOf s (xs ++ ys) (redNode .sum s.me.vt s.me.draw x y).1 ∧ (redNode .sum s.me.vt s.me.draw x y).2 = (0, false) := by
  obtain ⟨hxcode, hxid⟩ := hx
  obtain ⟨hycode, hyid⟩ := hy
  have hsum : lowBits (sint s x.code + sint s y.code) s.me.vt.etype.width =
      lowBits ((xs ++ ys).map (fun y => sint s y.code)).sum s.me.vt.etype.width := by
    rw [hxcode, hycode, lowBits_add_sint, List.map_append, List.sum_append]
  by_cases hid : (x.ident && y.ident) = true
  · have hnode : redNode .sum s.me.vt s.me.draw x y = (x, 0, false) := by simp only [redNode, hid, if_true]
    obtain ⟨hxi, hyi⟩ := Bool.and_eq_true_iff.1 hid
    rw [hnode]
    refine ⟨⟨?_, hxid⟩, rfl⟩
    rw [← hsum, hxid hxi, hyid hyi, sint_zero]
    exact (congrArg Int.toNat (Int.zero_emod (2 ^ s.me.vt.etype.width))).symm
  · have hnode : redNode .sum s.me.vt s.me.draw x y =
        ({ x with code := lowBits (sint s x.code + sint s y.code) s.me.vt.etype.width, ident := false, drawn := x.drawn + 0 }, 0, false) := by
      simp [redNode, hid, hint, numLane, intLane, intResult, hsat, sextNat_eq_sint]
    rw [hnode]
    exact ⟨⟨hsum, fun h => absurd h Bool.false_ne_true⟩, rfl⟩

theorem sum_filter_eq (p : Nat → Bool) (f : Nat → Int) (l : List Nat) :
    (l.map (fun j => if p j then f j else 0)).sum = ((l.filter p).map f).sum := by
  induction l with
  | nil => rfl
  | cons j l ih =>
    rw [List.map_cons, List.sum_cons, ih, List.filter_cons]
    split
    · rw [List.map_cons, List.sum_cons]
    · rw [Int.zero_add]

theorem State.tree_sum (hint : s.me.vt.etype.isInt = true) (hsat : s.me.vt.sat = false) :
    ∃ top, s.tree .sum a = ([top], 0, []) ∧ top.code = lowBits (s.onVals a).sum s.me.vt.etype.width := by
  have hzero : identityOf .sum s.me.vt.etype = 0 := if_pos hint
  have hleaf : ∀ x ∈ s.leaves .sum a, SumOf s [x] x := fun x hx => by
    refine ⟨?_, ?_⟩
    · rw [List.map_singleton, List.sum_singleton, lowBits_sint (leaf_lt hint hx)]
    · exact forall_leaves (p := fun x => x.ident = true → x.code = 0) (fun _ _ _ h => absurd h Bool.false_ne_true) (fun _ _ => hzero) x hx
  obtain ⟨top, htree, hcode, -⟩ := State.tree_stands (sumOf_redNode hint hsat) hleaf
  refine ⟨top, htree, hcode.trans ?_⟩
  have hvals : ∀ j, sint s (leafOf .sum s.me.vt (s.me.kreg s.me.vt.mask).val (laneOf s a) j).code =
      if (s.me.kreg s.me.vt.mask).val.getLsbD j then sint s (laneOf s a j) else 0 := fun j => by
    rw [leafOf]
    split
    · rfl
    · rw [hzero, sint_zero]
  simp only [State.leaves, List.map_map, Function.comp_def, hvals, sum_filter_eq]
  rfl

/-! ## The greatest and the least -/

theorem foldl_max_le_iff {l : List Int} {c : Int} : ∀ {b : Int}, l.foldl max b ≤ c ↔ b ≤ c ∧ ∀ x ∈ l, x ≤ c := by
  induction l with
  | nil => intro b; simp
  | cons x l ih =>
    intro b
    rw [List.foldl_cons, ih, max_le_iff, List.forall_mem_cons, and_assoc]

theorem le_foldl_min_iff {l : List Int} {c : Int} : ∀ {b : Int}, c ≤ l.foldl min b ↔ c ≤ b ∧ ∀ x ∈ l, c ≤ x := by
  induction l with
  | nil => intro b; simp
  | cons x l ih =>
    intro b
    rw [List.foldl_cons, ih, le_min_iff, List.forall_mem_cons, and_assoc]

/-- A node of a reduction that keeps one of its leaves' codes: every leaf is in relation r to it. -/
def BestOf (r : Int → Int → Prop) (s : State) (xs : List Node) (x : Node) : Prop :=
  (∃ y ∈ xs, y.code = x.code) ∧ ∀ y ∈ xs, r (sint s y.code) (sint s x.code)

/-- The better of two best codes is the best of both. -/
theorem BestOf.append {r : Int → Int → Prop} {xs ys : List Node} {x y z : Node} (hr : ∀ i j k, r i j → r j k → r i k) (hx : BestOf r s xs x)
    (hy : BestOf r s ys y) (hz : z.code = y.code ∧ r (sint s x.code) (sint s y.code) ∨ z.code = x.code ∧ r (sint s y.code) (sint s x.code)) :
    BestOf r s (xs ++ ys) z := by
  obtain ⟨⟨x', hx', hxc⟩, hxs⟩ := hx
  obtain ⟨⟨y', hy', hyc⟩, hys⟩ := hy
  rcases hz with ⟨hz, hxy⟩ | ⟨hz, hyx⟩
  · refine ⟨⟨y', List.mem_append_right _ hy', hyc.trans hz.symm⟩, fun v hv => ?_⟩
    rw [hz]
    exact (List.mem_append.1 hv).elim (fun h => hr _ _ _ (hxs v h) hxy) (hys v)
  · refine ⟨⟨x', List.mem_append_left _ hx', hxc.trans hz.symm⟩, fun v hv => ?_⟩
    rw [hz]
    exact (List.mem_append.1 hv).elim (hxs v) (fun h => hr _ _ _ (hys v h) hyx)

theorem minMaxLane_int (hint : s.me.vt.etype.isInt = true) (big : Bool) (dr x y z : Nat) :
    minMaxLane big s.me.vt dr x y z = (if decide (sint s x < sint s y) == big then y else x, 0) := by
  simp only [minMaxLane, hint, if_true, sextNat_eq_sint]

theorem bestOf_redNode_max (hint : s.me.vt.etype.isInt = true) (xs ys : List Node) (x y : Node) (hx : BestOf (· ≤ ·) s xs x)
    (hy : BestOf (· ≤ ·) s ys y) :
    BestOf (· ≤ ·) s (xs ++ ys) (redNode .max s.me.vt s.me.draw x y).1 ∧ (redNode .max s.me.vt s.me.draw x y).2 = (0, false) := by
  simp only [redNode, minMaxLane_int hint, and_true]
  refine hx.append (fun i j k => le_trans) hy ?_
  by_cases h : sint s x.code < sint s y.code
  · exact .inl ⟨by simp [h], h.le⟩
  · exact .inr ⟨by simp [h], not_lt.1 h⟩

theorem bestOf_redNode_min (hint : s.me.vt.etype.isInt = true) (xs ys : List Node) (x y : Node) (hx : BestOf (· ≥ ·) s xs x)
    (hy : BestOf (· ≥ ·) s ys y) :
    BestOf (· ≥ ·) s (xs ++ ys) (redNode .min s.me.vt s.me.draw x y).1 ∧ (redNode .min s.me.vt s.me.draw x y).2 = (0, false) := by
  simp only [redNode, minMaxLane_int hint, and_true]
  refine hx.append (fun i j k => ge_trans) hy ?_
  by_cases h : sint s x.code < sint s y.code
  · exact .inr ⟨by simp [h], h.le⟩
  · exact .inl ⟨by simp [h], not_lt.1 h⟩

theorem bestOf_leaf {r : Int → Int → Prop} (hr : ∀ i, r i i) (x : Node) : BestOf r s [x] x :=
  ⟨⟨x, List.mem_singleton_self x, rfl⟩, List.forall_mem_singleton.2 (hr _)⟩

/-- The least and the greatest integer of the type in force. -/
def State.leastInt (s : State) : Int := -(2 ^ (s.me.vt.etype.width - 1) : Int)
def State.greatInt (s : State) : Int := 2 ^ (s.me.vt.etype.width - 1) - 1

theorem sextNat_identityOf {e : EType} (h : e.isInt = true) :
    sextNat (identityOf .max e) e.width = -(2 ^ (e.width - 1) : Int) ∧ sextNat (identityOf .min e) e.width = 2 ^ (e.width - 1) - 1 := by
  revert h
  cases e <;> decide

theorem sint_identity_max (hop : op = .max ∨ op = .imax) (hint : s.me.vt.etype.isInt = true) :
    sint s (identityOf op s.me.vt.etype) = s.leastInt := by
  rw [← sextNat_eq_sint]
  rcases hop with rfl | rfl <;> exact (sextNat_identityOf hint).1

theorem sint_identity_min (hint : s.me.vt.etype.isInt = true) : sint s (identityOf .min s.me.vt.etype) = s.greatInt := by
  rw [← sextNat_eq_sint]
  exact (sextNat_identityOf hint).2

theorem leastInt_le_sint (s : State) (x : Nat) : s.leastInt ≤ sint s x := BitVec.le_toInt _

theorem sint_le_greatInt (s : State) (x : Nat) : sint s x ≤ s.greatInt := Int.le_sub_one_of_lt (BitVec.toInt_lt)

/-- The best leaf of a maximum is the greatest of the lanes inside the mask. -/
theorem sint_of_bestOf_max {top : Node} (hop : op = .max ∨ op = .imax) (hint : s.me.vt.etype.isInt = true)
    (h : BestOf (· ≤ ·) s (s.leaves op a) top) : (s.onVals a).foldl max s.leastInt = sint s top.code := by
  obtain ⟨⟨y, hy, hcode⟩, hall⟩ := h
  obtain ⟨hbase, hvals⟩ := foldl_max_le_iff.1 (le_refl ((s.onVals a).foldl max s.leastInt))
  apply le_antisymm
  · refine foldl_max_le_iff.2 ⟨leastInt_le_sint s _, State.forall_onVals.2 fun j hj hm => ?_⟩
    have hle := hall _ (mem_leaves hj hm)
    exact hle
  · rw [← hcode]
    exact forall_leaves (p := fun y => sint s y.code ≤ (s.onVals a).foldl max s.leastInt) (State.forall_onVals.1 hvals)
      (fun _ => (sint_identity_max hop hint).trans_le hbase) y hy

/-- The best leaf of a minimum is the least of the lanes inside the mask. -/
theorem sint_of_bestOf_min {top : Node} (hint : s.me.vt.etype.isInt = true) (h : BestOf (· ≥ ·) s (s.leaves .min a) top) :
    (s.onVals a).foldl min s.greatInt = sint s top.code := by
  obtain ⟨⟨y, hy, hcode⟩, hall⟩ := h
  obtain ⟨hbase, hvals⟩ := le_foldl_min_iff.1 (le_refl ((s.onVals a).foldl min s.greatInt))
  apply le_antisymm
  · rw [← hcode]
    exact forall_leaves (p := fun y => (s.onVals a).foldl min s.greatInt ≤ sint s y.code) (State.forall_onVals.1 hvals)
      (fun _ => hbase.trans_eq (sint_identity_min hint).symm) y hy
  · refine le_foldl_min_iff.2 ⟨sint_le_greatInt s _, State.forall_onVals.2 fun j hj hm => ?_⟩
    have hle := hall _ (mem_leaves hj hm)
    exact hle

/-- The code of the best leaf, from its value. -/
theorem code_of_bestOf {r : Int → Int → Prop} {top : Node} {z : Int} (hint : s.me.vt.etype.isInt = true) (h : BestOf r s (s.leaves op a) top)
    (hz : z = sint s top.code) : top.code = lowBits z s.me.vt.etype.width := by
  obtain ⟨⟨y, hy, hcode⟩, -⟩ := h
  rw [hz, lowBits_sint (hcode ▸ leaf_lt hint hy)]

theorem State.tree_max (hint : s.me.vt.etype.isInt = true) :
    ∃ top, s.tree .max a = ([top], 0, []) ∧ top.code = lowBits ((s.onVals a).foldl max s.leastInt) s.me.vt.etype.width := by
  obtain ⟨top, htree, hbest⟩ := State.tree_stands (a := a) (bestOf_redNode_max hint) (fun x _ => bestOf_leaf le_refl x)
  exact ⟨top, htree, code_of_bestOf hint hbest (sint_of_bestOf_max (.inl rfl) hint hbest)⟩

theorem State.tree_min (hint : s.me.vt.etype.isInt = true) :
    ∃ top, s.tree .min a = ([top], 0, []) ∧ top.code = lowBits ((s.onVals a).foldl min s.greatInt) s.me.vt.etype.width := by
  obtain ⟨top, htree, hbest⟩ := State.tree_stands (a := a) (bestOf_redNode_min hint) (fun x _ => bestOf_leaf (r := (· ≥ ·)) le_refl x)
  exact ⟨top, htree, code_of_bestOf hint hbest (sint_of_bestOf_min hint hbest)⟩

/-! ## The lowest place of the greatest -/

/-- The order in which VRIMAX prefers its nodes: by value, and of one value a lane before an identity. -/
def rank (s : State) (x : Node) : Int := 2 * sint s x.code + (!x.ident).toNat

/-- The first of the leaves that no leaf exceeds. -/
def LeadOf (s : State) (xs : List Node) (x : Node) : Prop :=
  ∃ pre post, xs = pre ++ x :: post ∧ (∀ y ∈ pre, rank s y < rank s x) ∧ ∀ y ∈ post, rank s y ≤ rank s x

theorem rank_lt_iff {x y : Node} : rank s x < rank s y ↔
    sint s x.code < sint s y.code ∨ sint s x.code = sint s y.code ∧ x.ident = true ∧ y.ident = false := by
  unfold rank
  cases x.ident <;> cases y.ident <;> simp <;> omega

theorem redNode_imax (hint : s.me.vt.etype.isInt = true) (x y : Node) :
    redNode .imax s.me.vt s.me.draw x y = (if rank s x < rank s y then y else x, 0, false) := by
  have hpick : (decide (sint s x.code < sint s y.code) || (sint s x.code == sint s y.code && x.ident && !y.ident)) =
      decide (rank s x < rank s y) := by
    rw [Bool.eq_iff_iff, decide_eq_true_iff, rank_lt_iff]
    simp only [Bool.or_eq_true, decide_eq_true_iff, Bool.and_eq_true, beq_iff_eq, and_assoc, Bool.not_eq_true']
  simp only [redNode, imaxNode, hint, if_true, sextNat_eq_sint, hpick, decide_eq_true_iff]

theorem leadOf_redNode (hint : s.me.vt.etype.isInt = true) (xs ys : List Node) (x y : Node) (hx : LeadOf s xs x) (hy : LeadOf s ys y) :
    LeadOf s (xs ++ ys) (redNode .imax s.me.vt s.me.draw x y).1 ∧ (redNode .imax s.me.vt s.me.draw x y).2 = (0, false) := by
  obtain ⟨pre, post, rfl, hpre, hpost⟩ := hx
  obtain ⟨pre', post', rfl, hpre', hpost'⟩ := hy
  rw [redNode_imax hint]
  refine ⟨?_, rfl⟩
  by_cases hlt : rank s x < rank s y
  · rw [if_pos hlt]
    refine ⟨pre ++ x :: post ++ pre', post', by simp, fun z hz => ?_, hpost'⟩
    rcases List.mem_append.1 hz with hz | hz
    · rcases List.mem_append.1 hz with hz | hz
      · exact (hpre z hz).trans hlt
      · rcases List.mem_cons.1 hz with rfl | hz
        · exact hlt
        · exact (hpost z hz).trans_lt hlt
    · exact hpre' z hz
  · rw [if_neg hlt]
    refine ⟨pre, post ++ (pre' ++ y :: post'), by simp, hpre, fun z hz => ?_⟩
    rcases List.mem_append.1 hz with hz | hz
    · exact hpost z hz
    · rcases List.mem_append.1 hz with hz | hz
      · exact (hpre' z hz).le.trans (not_lt.1 hlt)
      · rcases List.mem_cons.1 hz with rfl | hz
        · exact not_lt.1 hlt
        · exact (hpost' z hz).trans (not_lt.1 hlt)

theorem LeadOf.rank_le {xs : List Node} {x y : Node} (h : LeadOf s xs x) (hy : y ∈ xs) : rank s y ≤ rank s x := by
  obtain ⟨pre, post, rfl, hpre, hpost⟩ := h
  rcases List.mem_append.1 hy with hy | hy
  · exact (hpre y hy).le
  · rcases List.mem_cons.1 hy with rfl | hy
    · exact le_refl _
    · exact hpost y hy

theorem sint_le_of_rank_le {x y : Node} (h : rank s x ≤ rank s y) : sint s x.code ≤ sint s y.code := by
  have hx := Bool.toNat_lt (!x.ident)
  have hy := Bool.toNat_lt (!y.ident)
  unfold rank at h
  omega

theorem LeadOf.bestOf {xs : List Node} {x : Node} (h : LeadOf s xs x) : BestOf (· ≤ ·) s xs x :=
  ⟨⟨x, by obtain ⟨pre, post, rfl, -⟩ := h; simp, rfl⟩, fun _ hy => sint_le_of_rank_le (h.rank_le hy)⟩

/-- Where the first of the leaves that no leaf exceeds stands. -/
theorem LeadOf.place {top : Node} (h : LeadOf s (s.leaves op a) top) : ∃ i < s.me.vt.etype.lanes,
    leafOf op s.me.vt (s.me.kreg s.me.vt.mask).val (laneOf s a) i = top ∧
      ∀ j < i, rank s (leafOf op s.me.vt (s.me.kreg s.me.vt.mask).val (laneOf s a) j) < rank s top := by
  obtain ⟨pre, post, hsplit, hpre, -⟩ := h
  have hplace : pre.length < s.me.vt.etype.lanes := by
    have hlen := congrArg List.length hsplit
    rw [State.leaves, List.length_map, List.length_range, List.length_append, List.length_cons] at hlen
    omega
  have hleaf : ∀ j < s.me.vt.etype.lanes, (s.leaves op a)[j]? = some (leafOf op s.me.vt (s.me.kreg s.me.vt.mask).val (laneOf s a) j) :=
    fun j hj => by simp [State.leaves, hj]
  refine ⟨pre.length, hplace, ?_, fun j hj => ?_⟩
  · have hget := hleaf pre.length hplace
    rw [hsplit, List.getElem?_append_right (le_refl _), Nat.sub_self] at hget
    exact (Option.some.inj hget).symm
  · have hget := hleaf j (hj.trans hplace)
    rw [hsplit, List.getElem?_append_left hj, List.getElem?_eq_getElem hj] at hget
    exact Option.some.inj hget ▸ hpre _ (List.getElem_mem hj)

theorem find?_onLanes {p : Nat → Bool} {i : Nat} (hi : i < s.me.vt.etype.lanes) (hm : (s.me.kreg s.me.vt.mask).val.getLsbD i = true)
    (hp : p i = true) (hfirst : ∀ j < i, (s.me.kreg s.me.vt.mask).val.getLsbD j = true → p j = false) : s.onLanes.find? p = some i := by
  rw [State.onLanes, List.find?_filter, List.find?_range_eq_some]
  exact ⟨by simp [hm, hp], List.mem_range.2 hi, fun j hj => by simpa [imp_iff_not_or] using hfirst j hj⟩

/-- VRIMAX answers the lowest place of the greatest of the lanes inside the mask, and 0 when there is none. -/
theorem find?_greatest {top : Node} (hint : s.me.vt.etype.isInt = true) (h : LeadOf s (s.leaves .imax a) top) :
    (s.onLanes.find? (fun j => decide (sint s (laneOf s a j) = sint s top.code))).getD 0 = if top.ident then 0 else top.lane := by
  obtain ⟨i, hi, htop, hfirst⟩ := h.place
  by_cases hm : (s.me.kreg s.me.vt.mask).val.getLsbD i = true
  · rw [leafOf, if_pos hm] at htop
    subst htop
    have hbelow : ∀ j < i, (s.me.kreg s.me.vt.mask).val.getLsbD j = true →
        decide (sint s (laneOf s a j) = sint s (laneOf s a i)) = false := fun j hj hmj => by
      have hlt := hfirst j hj
      rw [leafOf, if_pos hmj] at hlt
      rw [decide_eq_false_iff_not]
      intro heq
      simp only [rank, heq, lt_irrefl] at hlt
    rw [find?_onLanes hi hm (decide_eq_true rfl) hbelow]
    rfl
  · rw [leafOf, if_neg hm] at htop
    subst htop
    have hnone : s.onLanes = [] := by
      rw [State.onLanes, List.filter_eq_nil_iff]
      intro j hj hmj
      have hle := h.rank_le (mem_leaves (List.mem_range.1 hj) hmj)
      have hleast := leastInt_le_sint s (laneOf s a j)
      simp only [rank, sint_identity_max (.inr rfl) hint, Bool.not_false, Bool.not_true, Bool.toNat_true, Bool.toNat_false] at hle
      omega
    rw [hnone]
    rfl

theorem State.tree_imax (hint : s.me.vt.etype.isInt = true) : ∃ top, s.tree .imax a = ([top], 0, []) ∧
    top.code = lowBits ((s.onVals a).foldl max s.leastInt) s.me.vt.etype.width ∧
    (s.onLanes.find? (fun j => decide (sint s (laneOf s a j) = (s.onVals a).foldl max s.leastInt))).getD 0 = if top.ident then 0 else top.lane := by
  have hleaf : ∀ x ∈ s.leaves .imax a, LeadOf s [x] x := fun x _ =>
    ⟨[], [], rfl, fun _ h => absurd h List.not_mem_nil, fun _ h => absurd h List.not_mem_nil⟩
  obtain ⟨top, htree, hlead⟩ := State.tree_stands (leadOf_redNode hint) hleaf
  have hgreat := sint_of_bestOf_max (.inr rfl) hint hlead.bestOf
  refine ⟨top, htree, code_of_bestOf hint hlead.bestOf hgreat, ?_⟩
  rw [hgreat]
  exact find?_greatest hint hlead

end Ints

theorem vectorReductions : Claims.VectorReductions := by
  intro s h d a hg hd ha
  have hsum := runWord_vReduce .sum hg hd ha
  have hmax := runWord_vReduce .max hg hd ha
  have hmin := runWord_vReduce .min hg hd ha
  have himax := runWord_vReduce .imax hg hd ha
  have hdraws := fun {op : Red} (hop : op ≠ .sum) => redTree_draws hop s.me.vt s.me.draw 8 (s.leaves op a)
  simp only [leavesFrom_lanes]
  refine ⟨hsum, hmax.trans ?_, hmin.trans ?_, himax.trans ?_,
    fun hint => ⟨fun hsat => hsum.trans ?_, hmax.trans ?_, hmin.trans ?_, himax.trans ?_⟩⟩
  · rw [State.tree, hdraws (by decide)]
    rfl
  · rw [State.tree, hdraws (by decide)]
    rfl
  · rw [State.tree, hdraws (by decide)]
    rfl
  · obtain ⟨top, htree, hcode⟩ := State.tree_sum (a := a) hint hsat
    rw [htree, List.headD_cons, hcode]
    rfl
  · obtain ⟨top, htree, hcode⟩ := State.tree_max (a := a) hint
    rw [htree, List.headD_cons, hcode]
    rfl
  · obtain ⟨top, htree, hcode⟩ := State.tree_min (a := a) hint
    rw [htree, List.headD_cons, hcode]
    rfl
  · obtain ⟨top, htree, hcode, hplace⟩ := State.tree_imax (a := a) hint
    rw [htree, List.headD_cons, hcode, ← hplace]
    rfl

end Sys2Proof.Machine
end

section
namespace Sys2Proof.Machine

/-- Settles O10: a node of the tree stands for the lanes below it (`redTree_stands`), and each move lands the lanes that it names. -/
theorem vectorReductionsAndMoves : Obligations.VectorReductionsAndMoves := ⟨vectorReductions, vectorMovesAndPermutes⟩

end Sys2Proof.Machine
end

section
/-! SUPPORT. Conversions, MXQ, MXDQ, MXGETS, MXSETS and VRAND on window registers (R403 to R413): the lanes that each writes, as the statements write
them. -/

namespace Sys2Proof.Machine

open Claims (InWindow laneOf wLame)

variable {s : State} {g : PIdx} {d a : RIdx}

/-! ## Conditions -/

theorem maskFull_eq_all (m : Mask) (n : Nat) : maskFull m n = (List.range n).all (fun j => m.getLsbD j) := by
  rw [Bool.eq_iff_iff, maskFull_iff, List.all_eq_true]
  simp only [List.mem_range]

/-- A destination is read when some lane of it is kept. -/
theorem keptLame_eq (l : List Nat) (p : Nat → Bool) (x : Lame) :
    (if (l.filter p).length = l.length then 0 else x) = if l.all p then 0 else x := by
  simp only [List.length_filter_eq_length_iff, List.all_eq_true]

/-! ## Conversions (R405) -/

/-- The lanes that a conversion of a part writes from, and the first that it writes. -/
def cvtSpan (ws wt : Nat) : Nat := 2048 / Nat.max ws wt
def cvtLow (ws wt part : Nat) : Nat := if wt ≤ ws then part * cvtSpan ws wt else 0
/-- The source lane of a lane that a conversion writes. -/
def cvtFrom (ws wt part j : Nat) : Nat := if wt ≤ ws then j - cvtLow ws wt part else part * cvtSpan ws wt + j
/-- A lane is one that a conversion of a part writes. -/
def cvtHits (ws wt part j : Nat) : Bool := decide (cvtLow ws wt part ≤ j) && decide (j < cvtLow ws wt part + cvtSpan ws wt)

theorem cvtLane_eq (ws wt part j : Nat) : cvtLane ws wt part j = if cvtHits ws wt part j then some (cvtFrom ws wt part j) else none := by
  by_cases h : wt ≤ ws
  · simp only [cvtLane, cvtHits, cvtFrom, cvtLow, if_pos h]
    rfl
  · simp only [cvtLane, cvtHits, cvtFrom, cvtLow, if_neg h, Nat.zero_le, decide_true, Bool.true_and, decide_eq_true_iff, Nat.zero_add]
    rfl

/-- The lanes of a destination that a conversion writes under the mask in force. -/
def State.cvtWrites (s : State) (f : Fmt) (cc : CvtCtl) (j : Nat) : Bool :=
  (s.me.kreg s.me.vt.mask).val.getLsbD j && decide (cvtLow (cvtFmt cc.src).regBits f.regBits cc.part.toNat ≤ j) &&
    decide (j < cvtLow (cvtFmt cc.src).regBits f.regBits cc.part.toNat + cvtSpan (cvtFmt cc.src).regBits f.regBits)

/-- What a conversion makes of each lane of its destination. -/
def State.cvtLanes (s : State) (f : Fmt) (d a : RIdx) (cc : CvtCtl) : List (Nat × VFl) :=
  (List.range (2048 / f.regBits)).map (fun j =>
    if s.cvtWrites f cc j then
      roundTo f s.me.vt.rm s.me.vt.sat (s.me.draw j 0) (decode (cvtFmt cc.src)
        ((lanes (cvtFmt cc.src).regBits (s.me.vreg (s.me.window a)).val).getD (cvtFrom (cvtFmt cc.src).regBits f.regBits cc.part.toNat j) 0))
    else ((lanes f.regBits (s.me.vreg (s.me.window d)).val).getD j 0, 0))

theorem cvtPick_eq (s : State) (f : Fmt) (cc : CvtCtl) (j : Nat) :
    (if maskBit (s.me.kreg s.me.vt.mask).val j then cvtLane (cvtFmt cc.src).regBits f.regBits cc.part.toNat j else none) =
      if s.cvtWrites f cc j then some (cvtFrom (cvtFmt cc.src).regBits f.regBits cc.part.toNat j) else none := by
  rw [cvtLane_eq, State.cvtWrites, Bool.and_assoc, maskBit, cvtHits]
  cases (s.me.kreg s.me.vt.mask).val.getLsbD j <;> rfl

theorem runWord_vConvert (f : Fmt) {cc : CvtCtl} (hg : Claims.Live s g) (hd : InWindow s d) (ha : InWindow s a) :
    runWord g (vConvert f (.win d) (.win a) cc) s = .next (Claims.queueV s 5
      (.v (s.me.window d) ⟨ofLanes f.regBits ((s.cvtLanes f d a cc).map (·.1)), lameOf [wLame s a, (s.me.kreg s.me.vt.mask).lame,
        if (List.range (2048 / f.regBits)).all (s.cvtWrites f cc) then 0 else wLame s d]⟩)
      (unionFl ((s.cvtLanes f d a cc).map (·.2)))
      (if s.me.vt.rm = .sr then (List.range (2048 / f.regBits)).filter (s.cvtWrites f cc) else [])) := by
  refine runWord_landV_draws hg hd ?_
  rw [vConvert, W.getMe_bind, checkV_one_bind hd ha, vSrc_win_bind ha, oldD_win_bind hd]
  simp only [cvtPick_eq, W.modMe_bind]
  have hwritten : ∀ j, (if s.cvtWrites f cc j then some (cvtFrom (cvtFmt cc.src).regBits f.regBits cc.part.toNat j) else none).isSome =
      s.cvtWrites f cc j := fun j => by cases s.cvtWrites f cc j <;> rfl
  have hlanes : (List.range (2048 / f.regBits)).map (fun j => (match
        if s.cvtWrites f cc j then some (cvtFrom (cvtFmt cc.src).regBits f.regBits cc.part.toNat j) else none with
      | some i => roundTo f s.me.vt.rm s.me.vt.sat (s.me.draw j 0)
          (decode (cvtFmt cc.src) ((lanes (cvtFmt cc.src).regBits (s.me.vreg (s.me.window a)).val).getD i 0))
      | none => ((lanes f.regBits (s.me.vreg (s.me.window d)).val).getD j 0, 0) : Nat × VFl)) = s.cvtLanes f d a cc :=
    List.map_congr_left fun j _ => by cases s.cvtWrites f cc j <;> rfl
  simp only [hwritten, beq_iff_eq, keptLame_eq]
  rw [← hlanes]
  rfl

theorem conversions : Claims.Conversions := by
  intro s h d a cc hg hd ha
  exact ⟨runWord_vConvert _ hg hd ha, runWord_vConvert _ hg hd ha, runWord_vConvert _ hg hd ha, runWord_vConvert _ hg hd ha,
    runWord_vConvert _ hg hd ha, runWord_vConvert _ hg hd ha, runWord_vConvert _ hg hd ha, runWord_vConvert _ hg hd ha,
    runWord_vConvert _ hg hd ha, runWord_vConvert _ hg hd ha⟩

/-! ## Block scaling (R410, R411) -/

/-- A granule as a statement writes it: its elements with their flags, its scale, a flag of the block, and the elements that draw. -/
abbrev Granule := List (Nat × VFl) × Nat × VFl × List Nat

/-- The same as the model keeps it. -/
def blockOf (b : Granule) : MxBlock :=
  { codes := b.1.map (·.1), scale := b.2.1, flags := b.2.2.1 ||| unionFl (b.1.map (·.2)), draws := b.2.2.2 }

/-- The blocks of a register of the type in force, and the place of the first granule that a control field's part names. -/
def State.mxBlocks (s : State) : Nat := s.me.vt.etype.lanes / 32
def State.mxFirst (s : State) (cc : MxCtl) : Nat := cc.part.toNat % (8 / s.mxBlocks) * s.mxBlocks

/-- Lane j is inside the mask in force. -/
def State.laneOn (s : State) (j : Nat) : Bool := (s.me.kreg s.me.vt.mask).val.getLsbD j

/-- The values that MXQ quantises in block i: a masked-off lane counts as +0 (R410). -/
def State.mxVals (s : State) (a : RIdx) (i : Nat) : List Val :=
  (List.range 32).map (fun e => if s.laneOn (32 * i + e) then decode s.me.vt.etype.fmt (laneOf s a (32 * i + e)) else .fin false 0 0)

/-- The elements of block i as MXQ writes them into granule g, with their flags (R277, R278). -/
def State.mxElems (s : State) (a : RIdx) (cc : MxCtl) (i g : Nat) : List (Nat × VFl) :=
  (List.range 32).map (fun e =>
    if s.laneOn (32 * i + e) then mxElement (mxFmt cc.fmt) (mxScale (s.mxVals a i) (mxFmt cc.fmt)) (if cc.rne then .rne else s.me.vt.rm) s.me.vt.sat
      (s.me.draw (32 * g + e) 0) ((s.mxVals a i).getD e (.fin false 0 0)) else (0, 0))

/-- Block i as MXQ leaves it in granule g (R410). -/
def State.mxGranuleOf (s : State) (a : RIdx) (cc : MxCtl) (i g : Nat) : Option Granule :=
  if mxScale (s.mxVals a i) (mxFmt cc.fmt) = 255 then some (List.replicate 32 (0, 0), mxScale (s.mxVals a i) (mxFmt cc.fmt), 0x20, [])
  else some (s.mxElems a cc i g, mxScale (s.mxVals a i) (mxFmt cc.fmt), 0,
    if (if cc.rne then Rm.rne else s.me.vt.rm) = .sr then ((List.range 32).filter (fun e => s.laneOn (32 * i + e))).map (fun e => 32 * g + e) else [])

/-- Granule g as MXQ leaves it; none keeps the destination's. -/
def State.mxGranule (s : State) (a : RIdx) (cc : MxCtl) (g : Nat) : Option Granule :=
  if s.mxFirst cc ≤ g ∧ g < s.mxFirst cc + s.mxBlocks ∧ (List.range 32).any (fun e => s.laneOn (32 * (g - s.mxFirst cc) + e)) then
    s.mxGranuleOf a cc (g - s.mxFirst cc) g
  else none

theorem State.mxElems_eq (s : State) (a : RIdx) (cc : MxCtl) (i g : Nat) : s.mxElems a cc i g = (List.range 32).map (fun e =>
    if s.laneOn (32 * i + e) then mxElement (mxFmt cc.fmt) (mxScale (s.mxVals a i) (mxFmt cc.fmt)) (mxRm s.me.vt cc) s.me.vt.sat
      (s.me.draw (32 * g + e) 0) (if s.laneOn (32 * i + e) then decode s.me.vt.etype.fmt (laneOf s a (32 * i + e)) else .fin false 0 0)
    else (0, 0)) :=
  List.map_congr_left fun e he => by
    rw [State.mxVals, List.getD_eq_getElem?_getD, List.getElem?_map, List.getElem?_range (List.mem_range.1 he)]
    rfl

theorem mxBlock_eq (s : State) (a : RIdx) (cc : MxCtl) (i g : Nat) :
    some (mxBlock s.me.vt (s.me.kreg s.me.vt.mask).val (mxFmt cc.fmt) (mxRm s.me.vt cc) (fun j => s.me.draw j 0)
      (lanes s.me.vt.etype.width (s.me.vreg (s.me.window a)).val) i g) = (s.mxGranuleOf a cc i g).map blockOf := by
  by_cases hk : mxScale (s.mxVals a i) (mxFmt cc.fmt) = 255
  · rw [State.mxGranuleOf, if_pos hk, hk]
    exact congrArg some (if_pos hk)
  · have hflags : (0 : VFl) ||| unionFl ((s.mxElems a cc i g).map (·.2)) = unionFl ((s.mxElems a cc i g).map (·.2)) := BitVec.zero_or
    rw [State.mxGranuleOf, if_neg hk, Option.map_some, blockOf, hflags, State.mxElems_eq]
    refine congrArg some ((if_neg hk).trans ?_)
    simp only [beq_iff_eq]
    rfl

theorem State.mxGranuleOf_length {s : State} {a : RIdx} {cc : MxCtl} {i g : Nat} {b : Granule} (h : s.mxGranuleOf a cc i g = some b) :
    b.1.length = 32 := by
  rw [State.mxGranuleOf] at h
  by_cases hk : mxScale (s.mxVals a i) (mxFmt cc.fmt) = 255
  · rw [if_pos hk] at h
    exact Option.some.inj h ▸ rfl
  · rw [if_neg hk] at h
    exact Option.some.inj h ▸ (List.length_map _).trans List.length_range

theorem State.mxGranule_length {s : State} {a : RIdx} {cc : MxCtl} {g : Nat} {b : Granule} (h : s.mxGranule a cc g = some b) : b.1.length = 32 := by
  rw [State.mxGranule] at h
  split at h
  · exact State.mxGranuleOf_length h
  · cases h

/-- The granules of a register as MXQ leaves them. -/
def State.mxGranules (s : State) (a : RIdx) (cc : MxCtl) : List (Option Granule) := (List.range 8).map (s.mxGranule a cc)

/-- The element bytes of a register as MXQ leaves it. -/
def State.mxBytes (s : State) (d a : RIdx) (cc : MxCtl) : List Nat :=
  (List.range 256).map (fun j => match (s.mxGranules a cc).getD (j / 32) none with
    | some b => (b.1.getD (j % 32) (0, 0)).1
    | none => (lanes 8 (s.me.vreg (s.me.window d)).val).getD j 0)

/-- The scale bytes of a register as MXQ leaves it. -/
def State.mxScales (s : State) (d a : RIdx) (cc : MxCtl) : List Nat :=
  (List.range 8).map (fun g => match (s.mxGranules a cc).getD g none with
    | some b => b.2.1
    | none => vScale (s.me.vreg (s.me.window d)).val g)

theorem mxPick_eq (s : State) (a : RIdx) (cc : MxCtl) (g : Nat) :
    (if s.mxFirst cc ≤ g && g < s.mxFirst cc + s.mxBlocks &&
        (List.range 32).any (fun e => maskBit (s.me.kreg s.me.vt.mask).val (32 * (g - s.mxFirst cc) + e)) then
      some (mxBlock s.me.vt (s.me.kreg s.me.vt.mask).val (mxFmt cc.fmt) (mxRm s.me.vt cc) (fun j => s.me.draw j 0)
        (lanes s.me.vt.etype.width (s.me.vreg (s.me.window a)).val) (g - s.mxFirst cc) g) else none) = (s.mxGranule a cc g).map blockOf := by
  rw [State.mxGranule, mxBlock_eq, apply_ite (Option.map blockOf)]
  simp only [Bool.and_eq_true, decide_eq_true_iff, and_assoc]
  rfl

theorem range_flatMap_range (F : Nat → Nat) (n : Nat) : (List.range n).flatMap (fun g => (List.range 32).map (fun e => F (32 * g + e))) =
    (List.range (32 * n)).map F := by
  induction n with
  | zero => rfl
  | succ n ih =>
    rw [List.range_succ (n := n), List.flatMap_append, ih, Nat.mul_succ, List.range_add, List.map_append, List.map_map, List.flatMap_singleton]
    rfl

/-- The bytes that MXQ makes, granule by granule. -/
theorem mxBytes_eq (s : State) (d a : RIdx) (cc : MxCtl) :
    (List.range 8).flatMap (fun g => match ((s.mxGranules a cc).map (Option.map blockOf)).getD g none with
      | some b => b.codes
      | none => (List.range 32).map (fun e => (lanes 8 (s.me.vreg (s.me.window d)).val).getD (32 * g + e) 0)) = s.mxBytes d a cc := by
  have hbytes := range_flatMap_range (fun j => match (s.mxGranules a cc).getD (j / 32) none with
    | some b => (b.1.getD (j % 32) (0, 0)).1
    | none => (lanes 8 (s.me.vreg (s.me.window d)).val).getD j 0) 8
  refine Eq.trans (List.flatMap_congr fun g hg => ?_) hbytes
  have hplace : ∀ e ∈ List.range 32, (32 * g + e) / 32 = g ∧ (32 * g + e) % 32 = e := fun e he => by
    have := List.mem_range.1 he
    omega
  have hgranule : (s.mxGranules a cc).getD g none = s.mxGranule a cc g := by
    rw [State.mxGranules, List.getD_eq_getElem?_getD, List.getElem?_map, List.getElem?_range (List.mem_range.1 hg)]
    rfl
  have hblock : ((s.mxGranules a cc).map (Option.map blockOf)).getD g none = (s.mxGranule a cc g).map blockOf := by
    rw [← hgranule]
    exact List.getD_map _ none (Option.map blockOf)
  rw [hblock]
  cases hg' : s.mxGranule a cc g with
  | none => exact List.map_congr_left fun e he => by rw [(hplace e he).1, hgranule, hg']
  | some b =>
    have hlen := State.mxGranule_length hg'
    have hcodes : b.1.map (·.1) = (List.range 32).map (fun e => (b.1.getD e (0, 0)).1) := by
      apply List.ext_getElem
      · simp [hlen]
      · intro i hi _
        have hi' : i < b.1.length := (List.length_map (as := b.1) (·.1)) ▸ hi
        simp [List.getElem?_eq_getElem hi']
    refine hcodes.trans (List.map_congr_left fun e he => ?_)
    rw [(hplace e he).1, (hplace e he).2, hgranule, hg']

theorem mxScales_eq (s : State) (d a : RIdx) (cc : MxCtl) :
    (List.range 8).map (fun g => match ((s.mxGranules a cc).map (Option.map blockOf)).getD g none with
      | some b => b.scale
      | none => vScale (s.me.vreg (s.me.window d)).val g) = s.mxScales d a cc :=
  List.map_congr_left fun g _ => by
    have hblock : ((s.mxGranules a cc).map (Option.map blockOf)).getD g none = ((s.mxGranules a cc).getD g none).map blockOf :=
      List.getD_map _ none (Option.map blockOf)
    rw [hblock]
    cases (s.mxGranules a cc).getD g none <;> rfl

theorem filterMap_map_blockOf (l : List (Option Granule)) : (l.map (Option.map blockOf)).filterMap id = (l.filterMap id).map blockOf := by
  rw [List.filterMap_map, List.map_filterMap]
  rfl

/-- Every granule has been written when there are eight blocks. -/
theorem length_filterMap_iff (s : State) (a : RIdx) (cc : MxCtl) :
    (((s.mxGranules a cc).filterMap id).map blockOf).length = 8 ↔ (s.mxGranules a cc).all (·.isSome) = true := by
  have hlen : (s.mxGranules a cc).length = 8 := (List.length_map _).trans List.length_range
  rw [List.length_map, ← hlen, List.length_filterMap_eq_countP, List.countP_eq_length, List.all_eq_true]
  rfl

/-- What MXQ lands, of the granules that it has quantised. -/
def State.mxLand (s : State) (d a : RIdx) (gs : List (Option MxBlock)) : Except Stop (Unit × State) :=
  (landV (.win d) 7 (unionFl ((gs.filterMap id).map (·.flags)))
    ⟨vMake (packNat 8 ((List.range 8).flatMap (fun g => match gs.getD g none with
        | some b => b.codes
        | none => (List.range 32).map (fun e => (lanes 8 (s.me.vreg (s.me.window d)).val).getD (32 * g + e) 0))))
      ((List.range 8).map (fun g => match gs.getD g none with
        | some b => b.scale
        | none => vScale (s.me.vreg (s.me.window d)).val g)),
      lameOf [wLame s a, (s.me.kreg s.me.vt.mask).lame, if (gs.filterMap id).length = 8 then 0 else wLame s d]⟩ : W Unit)
    (s.modMe (fun c => c.advance ((gs.filterMap id).flatMap (·.draws))))

theorem runWord_vQuantise {cc : MxCtl} (hg : Claims.Live s g) (hd : InWindow s d) (ha : InWindow s a) :
    runWord g (vQuantise (.win d) (.win a) cc) s = .next (Claims.queueV s 7
      (.v (s.me.window d) ⟨vMake (packNat 8 (s.mxBytes d a cc)) (s.mxScales d a cc), lameOf [wLame s a, (s.me.kreg s.me.vt.mask).lame,
        if (s.mxGranules a cc).all (·.isSome) then 0 else wLame s d]⟩)
      (unionFl (((s.mxGranules a cc).filterMap id).map (fun b => b.2.2.1 ||| unionFl (b.1.map (·.2)))))
      (((s.mxGranules a cc).filterMap id).flatMap (·.2.2.2))) := by
  refine runWord_landV_draws hg hd ?_
  rw [vQuantise, W.getMe_bind, checkV_one_bind hd ha, vSrc_win_bind ha, oldD_win_bind hd]
  refine (congrArg (s.mxLand d a) (List.map_congr_left fun g _ => mxPick_eq s a cc g)).trans ?_
  have hgs : (List.range 8).map (fun g => (s.mxGranule a cc g).map blockOf) = (s.mxGranules a cc).map (Option.map blockOf) := by
    rw [State.mxGranules, List.map_map]
    rfl
  rw [hgs, State.mxLand, mxBytes_eq, mxScales_eq, filterMap_map_blockOf, List.map_map, List.flatMap_map]
  simp only [length_filterMap_iff]
  rfl

/-! ## MXDQ, the scale bytes, and VRAND (R411 to R413) -/

/-- The value of lane j of a scaled element register, of the part that a control field names (R411). -/
def State.mxBack (s : State) (a : RIdx) (cc : MxCtl) (j : Nat) : Val :=
  if vScale (s.me.vreg (s.me.window a)).val (s.mxFirst cc + j / 32) = 255 then .nan false
  else (decode (mxFmt cc.fmt) ((lanes 8 (s.me.vreg (s.me.window a)).val).getD (32 * (s.mxFirst cc + j / 32) + j % 32) 0)).scale
    ((vScale (s.me.vreg (s.me.window a)).val (s.mxFirst cc + j / 32) : Int) - 127)

/-- What MXDQ makes of each lane of its destination. -/
def State.mxdqLanes (s : State) (d a : RIdx) (cc : MxCtl) : List (Nat × VFl) :=
  (List.range s.me.vt.etype.lanes).map (fun j =>
    if s.laneOn j then roundTo s.me.vt.etype.fmt (if cc.rne then .rne else s.me.vt.rm) s.me.vt.sat (s.me.draw j 0) (s.mxBack a cc j)
    else (laneOf s d j, 0))

theorem exec_mxdq {h : WHead} {cc : MxCtl} (hg : Claims.Live s h.g) (hd : InWindow s d) (ha : InWindow s a) :
    exec (.mxdq h (.win d) (.win a) cc) s = .next (Claims.queueV s 5
      (.v (s.me.window d) ⟨ofLanes s.me.vt.etype.width ((s.mxdqLanes d a cc).map (·.1)), lameOf [wLame s a, (s.me.kreg s.me.vt.mask).lame,
        if (List.range s.me.vt.etype.lanes).all s.laneOn then 0 else wLame s d]⟩)
      (unionFl ((s.mxdqLanes d a cc).map (·.2)))
      (if (if cc.rne then Rm.rne else s.me.vt.rm) = .sr then (List.range s.me.vt.etype.lanes).filter s.laneOn else [])) := by
  refine runWord_landV_draws hg hd ?_
  rw [vDequantise, W.getMe_bind, checkV_one_bind hd ha, vSrc_win_bind ha, oldD_win_bind hd]
  simp only [maskFull_eq_all, beq_iff_eq, W.modMe_bind]
  rfl

theorem exec_mxgets {h : WHead} (hg : Claims.Live s h.g) (hd : InWindow s d) (ha : InWindow s a) :
    exec (.mxgets h (.win d) (.win a)) s = .next (Claims.queueV s 3
      (.v (s.me.window d) ⟨ofLanes s.me.vt.etype.width ((List.range 8).map (vScale (s.me.vreg (s.me.window a)).val)), wLame s a⟩) 0) := by
  refine runWord_landV hg hd ?_
  rw [checkV_one_bind hd ha, W.getMe_bind, vSrc_win_bind ha]
  rfl

theorem exec_mxsets {h : WHead} (hg : Claims.Live s h.g) (hd : InWindow s d) (ha : InWindow s a) :
    exec (.mxsets h d (.win a)) s = .next (Claims.queueV s 3
      (.v (s.me.window d) ⟨vMake (vElem (s.me.vreg (s.me.window d)).val) ((List.range 8).map (fun g => laneOf s a g % 256)),
        lameOf [wLame s a, wLame s d]⟩) 0) := by
  refine runWord_landV hg hd ?_
  have hlow : 8 ≤ s.me.vt.etype.lanes := by cases s.me.vt.etype <;> decide
  rw [checkV_one_bind hd ha, W.getMe_bind, vSrc_win_bind ha, wSrc_bind hd, lanes_window, ← List.map_take, List.take_range, Nat.min_eq_left hlow,
    List.map_map, lameOf_pair]
  rfl

theorem exec_vrand {h : WHead} {unif : Bool} (hg : Claims.Live s h.g) (hd : InWindow s d) (hfeat : s.me.csr.declfeat.getLsbD 3 = true) :
    exec (.vrand h (.win d) unif) s = .next (Claims.queueV s 5
      (.v (s.me.window d) ⟨ofLanes s.me.vt.etype.width ((List.range s.me.vt.etype.lanes).map (fun j =>
          if s.laneOn j then randLane unif s.me.vt.etype (s.me.draw j 0) else laneOf s d j)),
        lameOf [(s.me.kreg s.me.vt.mask).lame, if (List.range s.me.vt.etype.lanes).all s.laneOn then 0 else wLame s d]⟩) 0
      ((List.range s.me.vt.etype.lanes).filter s.laneOn)) := by
  refine runWord_landV_draws hg hd ?_
  have hcheck := fun f : Unit → W Unit => checkV_win_bind (l := []) (extra := (s.me.kreg s.me.vt.mask).lame) hd (fun i hi => nomatch hi) f
  rw [needFeature_bind hfeat, W.getMe_bind, lameOf_pair]
  refine (hcheck _).trans ?_
  rw [oldD_win_bind hd]
  simp only [maskFull_eq_all, W.modMe_bind]
  rfl

theorem exec_vrand_absent {h : WHead} {unif : Bool} (hg : Claims.Live s h.g) (hfeat : s.me.csr.declfeat.getLsbD 3 = false) :
    exec (.vrand h (.win d) unif) s = .next (Claims.taken s (Claims.causeAt s 4 8)) := runWord_raise hg (needFeature_bind_absent hfeat _)

theorem blockScaling : Claims.BlockScaling := by
  intro s h d a cc unif hg hd ha
  exact ⟨runWord_vQuantise hg hd ha, exec_mxdq hg hd ha, exec_mxgets hg hd ha, exec_mxsets hg hd ha, exec_vrand hg hd, exec_vrand_absent hg⟩

end Sys2Proof.Machine
end

section
namespace Sys2Proof.Machine

/-- Settles O12: a conversion and MXDQ lane by lane, MXQ granule by granule (`mxBlock_eq`). -/
theorem conversionsAndBlockScaling : Obligations.ConversionsAndBlockScaling := ⟨conversions, blockScaling⟩

end Sys2Proof.Machine
end

section
/-! SUPPORT. The lanes of a vector register, bit by bit (R262, R264), and rounding of the values that a format represents (R257 to R270). -/

namespace Sys2Proof.Machine

/-! ## Numbers packed at one width -/

theorem testBit_packNat {w : Nat} (hw : 0 < w) (l : List Nat) : ∀ i, (packNat w l).testBit i = (l.getD (i / w) 0).testBit (i % w) := by
  induction l with
  | nil => intro i; simp [packNat]
  | cons x l ih =>
    intro i
    rw [packNat, Nat.add_comm, Nat.testBit_two_pow_mul_add _ (Nat.mod_lt _ (Nat.two_pow_pos w))]
    split
    · next hi => rw [Nat.div_eq_of_lt hi, Nat.mod_eq_of_lt hi, List.getD_cons_zero, Nat.testBit_mod_two_pow, decide_eq_true hi, Bool.true_and]
    · next hi =>
      have hle := Nat.le_of_not_lt hi
      rw [ih, Nat.div_eq_sub_div hw hle, List.getD_cons_succ, ← Nat.mod_eq_sub_mod hle]

/-- A field of b bits from bit a on. -/
theorem testBit_field (x a b i : Nat) : (x / 2 ^ a % 2 ^ b).testBit i = (decide (i < b) && x.testBit (a + i)) := by
  rw [Nat.testBit_mod_two_pow, Nat.testBit_div_two_pow, Nat.add_comm]

/-- A number below bit b, and another from there on. -/
theorem testBit_mod_add (x y b i : Nat) : (x % 2 ^ b + y * 2 ^ b).testBit i = if i < b then x.testBit i else y.testBit (i - b) := by
  rw [Nat.add_comm, Nat.mul_comm, Nat.testBit_two_pow_mul_add _ (Nat.mod_lt _ (Nat.two_pow_pos b)), Nat.testBit_mod_two_pow]
  split
  · next h => rw [decide_eq_true h, Bool.true_and]
  · rfl

theorem testBit_toNat_ofNat {n i : Nat} (x : Nat) (h : i < n) : (BitVec.ofNat n x).toNat.testBit i = x.testBit i := by
  rw [BitVec.toNat_ofNat, Nat.testBit_mod_two_pow, decide_eq_true h, Bool.true_and]

theorem getD_map_range (F : Nat → Nat) {n i : Nat} (h : i < n) : ((List.range n).map F).getD i 0 = F i := by
  rw [List.getD_eq_getElem?_getD, List.getElem?_map, List.getElem?_range h]
  rfl

/-! ## A register image (R262) -/

theorem testBit_vElem (v : VReg) {i : Nat} (hi : i < 2048) : (vElem v).testBit i = v.toNat.testBit (264 * (i / 256) + i % 256) := by
  rw [vElem, testBit_packNat (by decide), getD_map_range _ (by omega), testBit_field, decide_eq_true (Nat.mod_lt i (by decide)), Bool.true_and]

theorem testBit_vMake (elem : Nat) (scales : List Nat) {g k : Nat} (hg : g < 8) (hk : k < 264) : (vMake elem scales).toNat.testBit (264 * g + k) =
    if k < 256 then elem.testBit (256 * g + k) else (scales.getD g 0x7F % 256).testBit (k - 256) := by
  have hplace : (264 * g + k) / 264 = g ∧ (264 * g + k) % 264 = k := by omega
  rw [vMake, testBit_toNat_ofNat _ (by omega), testBit_packNat (by decide), hplace.1, hplace.2, getD_map_range _ hg]
  have hsplit := testBit_mod_add (elem / 2 ^ (256 * g)) (scales.getD g 0x7F % 256) 256 k
  rwa [Nat.testBit_div_two_pow, Nat.add_comm k] at hsplit

theorem vScale_vMake (elem : Nat) (scales : List Nat) {g : Nat} (hg : g < 8) : vScale (vMake elem scales) g = scales.getD g 0x7F % 256 := by
  apply Nat.eq_of_testBit_eq
  intro i
  have hfield := testBit_field (vMake elem scales).toNat (264 * g + 256) 8 i
  rw [vScale]
  refine hfield.trans ?_
  by_cases hi : i < 8
  · rw [decide_eq_true hi, Bool.true_and, Nat.add_assoc, testBit_vMake elem scales hg (by omega), if_neg (by omega), Nat.add_sub_cancel_left]
  · rw [decide_eq_false hi, Bool.false_and]
    have hle : 2 ^ 8 ≤ 2 ^ i := Nat.pow_le_pow_right (by decide) (Nat.le_of_not_lt hi)
    exact (Nat.testBit_lt_two_pow ((Nat.mod_lt _ (by decide)).trans_le hle)).symm

/-! ## Lanes -/

theorem getElem?_lanes {w j : Nat} (v : VReg) (hj : j < 2048 / w) : (lanes w v)[j]? = some (vElem v / 2 ^ (w * j) % 2 ^ w) := by
  rw [lanes, List.getElem?_map, List.getElem?_range hj]
  rfl

/-- A lane width divides a granule: a lane lies in one granule. -/
theorem EType.lane_in_granule (e : EType) {j i : Nat} (hj : j < e.lanes) (hi : i < e.width) :
    e.width * j + i < 2048 ∧ (e.width * j + i) / 256 = e.width * j / 256 ∧ (e.width * j + i) % 256 = e.width * j % 256 + i := by
  cases e <;> simp only [EType.lanes, EType.width] at hj hi ⊢ <;> omega

theorem lane_eq (e : EType) (v : VReg) {j : Nat} (hj : j < e.lanes) : vElem v / 2 ^ (e.width * j) % 2 ^ e.width =
    v.toNat / 2 ^ (264 * (e.width * j / 256) + e.width * j % 256) % 2 ^ e.width := by
  apply Nat.eq_of_testBit_eq
  intro i
  rw [testBit_field, testBit_field]
  by_cases hi : i < e.width
  · obtain ⟨hlt, hdiv, hmod⟩ := e.lane_in_granule hj hi
    rw [testBit_vElem v hlt, hdiv, hmod, Nat.add_assoc]
  · rw [decide_eq_false hi, Bool.false_and, Bool.false_and]

theorem testBit_vElem_vMake (elem : Nat) (scales : List Nat) {i : Nat} (hi : i < 2048) : (vElem (vMake elem scales)).testBit i = elem.testBit i := by
  rw [testBit_vElem _ hi, testBit_vMake elem scales (by omega) (by omega), if_pos (Nat.mod_lt _ (by decide)), Nat.div_add_mod]

/-- A register made of lane codes gives them back. -/
theorem lanes_ofLanes (e : EType) {l : List Nat} (hlen : l.length = e.lanes) (hl : ∀ x ∈ l, x < 2 ^ e.width) :
    lanes e.width (ofLanes e.width l) = l := by
  have hpos : 0 < e.width := by cases e <;> decide
  apply List.ext_getElem
  · rw [lanes, List.length_map, List.length_range, hlen, EType.lanes]
  · intro j hj hjl
    have hje : j < e.lanes := hlen ▸ hjl
    have hlane := getElem?_lanes (w := e.width) (ofLanes e.width l) hje
    rw [List.getElem?_eq_getElem hj] at hlane
    rw [Option.some.inj hlane]
    apply Nat.eq_of_testBit_eq
    intro i
    rw [testBit_field]
    by_cases hi : i < e.width
    · have hplace : (e.width * j + i) / e.width = j ∧ (e.width * j + i) % e.width = i := by
        rw [Nat.mul_add_div hpos, Nat.div_eq_of_lt hi, Nat.mul_add_mod, Nat.mod_eq_of_lt hi]
        exact ⟨rfl, rfl⟩
      rw [ofLanes, testBit_vElem_vMake _ _ (e.lane_in_granule hje hi).1, testBit_packNat hpos, hplace.1, hplace.2, List.getD_eq_getElem _ _ hjl]
      simp [hi]
    · have hzero : l[j].testBit i = false :=
        Nat.testBit_lt_two_pow ((hl _ (List.getElem_mem hjl)).trans_le (Nat.pow_le_pow_right (by decide) (Nat.le_of_not_lt hi)))
      simp [hi, hzero]

theorem vScale_ofLanes (w : Nat) (l : List Nat) {g : Nat} (hg : g < 8) : vScale (ofLanes w l) g = 0x7F := by
  have h7F : (List.replicate 8 0x7F).getD g 0x7F = 0x7F := by
    rw [List.getD_replicate _ hg]
  rw [ofLanes, vScale_vMake _ _ hg, h7F]

theorem vectorRegisterLayout : Claims.VectorRegisterLayout := by
  intro e v l j g hj hg
  exact ⟨length_lanes e.width v, (getElem?_lanes v hj).trans (congrArg some (lane_eq e v hj)),
    fun hlen hl => ⟨lanes_ofLanes e hlen hl, vScale_ofLanes e.width l hg⟩⟩

/-! ## Rounding without a remainder (R268) -/

/-- The exponent of the last place that a value of magnitude a × 2^e is rounded to. -/
def Fmt.lastPlace (f : Fmt) (a : Nat) (e : Int) : Int :=
  if f.isFixed then f.unit
  else (if (Nat.log2 a : Int) + e < 1 - f.bias then 1 - (f.bias : Int) else (Nat.log2 a : Int) + e) - f.m

/-- The magnitude code of n units of a last place. -/
def Fmt.magCode (f : Fmt) (q : Int) (n : Nat) : Nat := if f.isFixed then n else (q + f.m + f.bias - 1).toNat * 2 ^ f.m + n

theorem roundsUp_exact {draw : Nat} (h : draw < 2 ^ 32) (rm : Rm) (neg : Bool) (n : Nat) : roundsUp rm neg n 0 1 draw = false := by
  cases rm <;> simp [roundsUp]
  omega

/-- A value that stands at its own last place is not changed by rounding. -/
theorem roundTo_exact {f : Fmt} {rm : Rm} {sat neg : Bool} {draw a : Nat} {e : Int} (ha : a ≠ 0) (hdraw : draw < 2 ^ 32) (he : f.lastPlace a e = e)
    (hmag : f.magCode e a ≤ f.maxCode + (if f.isInt && neg then 1 else 0)) :
    roundTo f rm sat draw (.fin neg a e) = (signed f neg (f.magCode e a), 0) := by
  have hq : (if f.isFixed then f.unit
      else (if (Nat.log2 a : Int) + e < 1 - f.bias then 1 - (f.bias : Int) else (Nat.log2 a : Int) + e) - f.m) = e := he
  have hsplit : splitUnits a (e - e) = (a, 0, 1) := by rw [Int.sub_self]; exact congrArg (·, 0, 1) (Nat.mul_one a)
  have hcode : (if f.isFixed then a else (e + f.m + f.bias - 1).toNat * 2 ^ f.m + a) = f.magCode e a := rfl
  simp only [roundTo, if_neg ha, hq, hsplit, roundsUp_exact hdraw, Bool.false_eq_true, if_false, hcode, if_neg (Nat.not_lt.2 hmag)]
  simp [flagIf]

/-! ## What a code stands for, rounded back -/

section Codes
variable {f : Fmt} {rm : Rm} {sat : Bool} {draw c : Nat}

theorem Fmt.two_pow_bits (f : Fmt) : 2 ^ f.bits = 2 * 2 ^ (f.bits - 1) := by cases f <;> rfl

theorem signed_magnitude (hf : f.isFixed = false) (hc : c < 2 ^ f.bits) :
    signed f (decide (2 ^ (f.bits - 1) ≤ c)) (c % 2 ^ (f.bits - 1)) = c := by
  have hbits := f.two_pow_bits
  rw [signed, hf]
  by_cases hneg : 2 ^ (f.bits - 1) ≤ c
  · have hmod : c % 2 ^ (f.bits - 1) = c - 2 ^ (f.bits - 1) := by rw [Nat.mod_eq_sub_mod hneg, Nat.mod_eq_of_lt (by omega)]
    simp only [hneg, decide_true, if_true, Bool.false_eq_true, if_false, hmod]
    omega
  · simp [hneg, Nat.mod_eq_of_lt (Nat.lt_of_not_le hneg)]

theorem infResult_of_inf {x : Nat} (h : f.inf = some x) (neg : Bool) : infResult f neg sat = (signed f neg x, 0) := by
  cases f <;> simp only [Fmt.inf, reduceCtorEq, Option.some.injEq] at h <;> subst h <;> rfl

theorem roundTo_zero (hf : f.isFixed = false) (neg : Bool) (e : Int) : roundTo f rm sat draw (.fin neg 0 e) = (signed f neg 0, 0) := by
  simp [roundTo, hf]

/-- A subnormal magnitude stands at the last place of its format. -/
theorem subnormal_exact (hf : f.isFixed = false) {a : Nat} (ha : a ≠ 0) (hlt : a < 2 ^ f.m) :
    f.lastPlace a (1 - (f.bias : Int) - f.m) = 1 - (f.bias : Int) - f.m ∧ f.magCode (1 - (f.bias : Int) - f.m) a = a := by
  have hlog : Nat.log2 a < f.m := (Nat.log2_lt ha).2 hlt
  rw [Fmt.lastPlace, Fmt.magCode, hf]
  refine ⟨by rw [if_neg Bool.false_ne_true, if_pos (by omega)], ?_⟩
  rw [if_neg Bool.false_ne_true, show (1 - (f.bias : Int) - f.m + f.m + f.bias - 1).toNat = 0 by omega]
  omega

/-- A normal magnitude stands at the last place of its format. -/
theorem normal_exact (hf : f.isFixed = false) {e r : Nat} (he : e ≠ 0) (hr : r < 2 ^ f.m) :
    f.lastPlace (2 ^ f.m + r) ((e : Int) - f.bias - f.m) = (e : Int) - f.bias - f.m ∧
      f.magCode ((e : Int) - f.bias - f.m) (2 ^ f.m + r) = e * 2 ^ f.m + r := by
  have hlog : Nat.log2 (2 ^ f.m + r) = f.m := (Nat.log2_eq_iff (by positivity)).2 ⟨Nat.le_add_right _ _, by rw [Nat.pow_succ]; omega⟩
  rw [Fmt.lastPlace, Fmt.magCode, hf, hlog]
  refine ⟨by rw [if_neg Bool.false_ne_true, if_neg (by omega)]; omega, ?_⟩
  obtain ⟨k, rfl⟩ := Nat.exists_eq_succ_of_ne_zero he
  rw [if_neg Bool.false_ne_true, show (((k + 1 : Nat) : Int) - f.bias - f.m + f.m + f.bias - 1).toNat = k by omega, Nat.succ_mul]
  omega

theorem roundTo_decode_float (hf : f.isFixed = false) (hc : c < 2 ^ f.bits) (hdraw : draw < 2 ^ 32) (hnan : (decode f c).isNan = false) :
    roundTo f rm sat draw (decode f c) = (c, 0) := by
  have hsigned := signed_magnitude hf hc
  have hmant : c % 2 ^ (f.bits - 1) % 2 ^ f.m < 2 ^ f.m := Nat.mod_lt _ (Nat.two_pow_pos _)
  have hparts := Nat.div_add_mod' (c % 2 ^ (f.bits - 1)) (2 ^ f.m)
  have hdecode := decode.eq_1 f c
  simp only [hf, Bool.false_eq_true, if_false, Nat.mod_eq_of_lt hc] at hdecode
  rw [hdecode] at hnan ⊢
  split_ifs at hnan ⊢ with hinf hmax he
  · exact (infResult_of_inf (beq_iff_eq.1 hinf) _).trans (congrArg (·, 0) hsigned)
  · cases hnan
  · rw [he, Nat.zero_mul, Nat.zero_add] at hparts
    by_cases hzero : c % 2 ^ (f.bits - 1) % 2 ^ f.m = 0
    · rw [hzero, roundTo_zero hf, ← hzero, hparts, hsigned]
    · obtain ⟨hplace, hcode⟩ := subnormal_exact hf hzero hmant
      rw [roundTo_exact hzero hdraw hplace (by rw [hcode]; omega), hcode, hparts, hsigned]
  · obtain ⟨hplace, hcode⟩ := normal_exact hf he hmant
    rw [hparts] at hcode
    rw [roundTo_exact (by positivity) hdraw hplace (by rw [hcode]; omega), hcode, hsigned]

theorem roundTo_decode_int (hf : f.isInt = true) (hc : c < 2 ^ f.bits) (hdraw : draw < 2 ^ 32) : roundTo f rm sat draw (decode f c) = (c, 0) := by
  have hfix : f.isFixed = true ∧ f.unit = 0 ∧ f.maxCode + 1 = 2 ^ (f.bits - 1) := by revert hf; cases f <;> decide
  obtain ⟨hfixed, hunit, hmax⟩ := hfix
  have hbits := f.two_pow_bits
  have hdecode := decode.eq_1 f c
  simp only [hfixed, if_true, Nat.mod_eq_of_lt hc, hunit] at hdecode
  have hplace : ∀ a, f.lastPlace a 0 = 0 := fun a => by rw [Fmt.lastPlace, hfixed, if_pos rfl, hunit]
  have hcode : ∀ a, f.magCode 0 a = a := fun a => by rw [Fmt.magCode, hfixed, if_pos rfl]
  rw [hdecode]
  split_ifs with hlow
  · by_cases hzero : c = 0
    · rw [hzero, roundTo, if_pos rfl, hfixed, if_pos rfl]
    · rw [roundTo_exact hzero hdraw (hplace c) (by rw [hcode]; omega), hcode, signed, hfixed]
      rfl
  · rw [roundTo_exact (by omega) hdraw (hplace _) (by rw [hcode, hf, Bool.and_self, if_pos rfl]; omega), hcode, signed, hfixed, if_pos rfl,
      if_pos rfl, Nat.sub_sub_self hc.le, Nat.mod_eq_of_lt hc]

end Codes

theorem roundingKeepsRepresentableValues : Claims.RoundingKeepsRepresentableValues := by
  intro f rm sat draw c hmx hc hdraw hnan
  cases hfixed : f.isFixed with
  | false => exact roundTo_decode_float hfixed hc hdraw hnan
  | true =>
    have hint : f.isInt = true := by
      cases f
      case mxi8 => exact absurd rfl hmx
      case int8 | int16 | int32 => rfl
      all_goals cases hfixed
    exact roundTo_decode_int hint hc hdraw

end Sys2Proof.Machine
end

section
namespace Sys2Proof.Machine

/-- Settles O7: the layout bit by bit, and a value that stands at its own last place, which rounding does not change (`roundTo_exact`). -/
theorem vectorLayoutAndRounding : Obligations.VectorLayoutAndRounding := ⟨vectorRegisterLayout, roundingKeepsRepresentableValues⟩

end Sys2Proof.Machine
end
